-- ==== Sys2Proof/Word.lean ====
section
/-! DEFINITION. Bytes and the fixed constants of the module's time units (R9, R38, R44). -/

namespace Sys2Proof

/-- One byte as it stands in memory or in a message. -/
abbrev Byte := BitVec 8

/-- A message or record as bytes, first byte first (R9). -/
abbrev Bytes := List Byte

/-- A marker or block of 64 bits on a lane. -/
abbrev Word64 := BitVec 64

end Sys2Proof
end

