-- ==== Sys2Proof/Machine/Inputs.lean ====
section
/-! DEFINITION. The operands of the commands: what a requester or the outside world supplies. -/

namespace Sys2Proof.Machine

/-- The path and place a dictionary request arrives on (R409, Table 15.7). `src` is the source address of its frame. (DEDUCED, log 8.) -/
inductive Caller where
  | inband (port : Fin 32) (vid : Nat) (src : Nat)
  | service (vid : Nat) (src : Nat)
  | can (ctrl : Fin 2) (node : Nat)
  | pcie (fn : Fin 4)
  deriving DecidableEq, Repr

/-- A request as laid out in Table 15.2; `resv` is bytes 14 and 15. -/
structure Request where
  op : Nat := 0
  flags : Nat := 0
  token : Nat := 0
  index : Nat := 0
  sub : Nat := 0
  ty : Nat := 0
  offset : Nat := 0
  length : Nat := 0
  resv : Nat := 0
  data : Bytes := []
  deriving DecidableEq, Repr

/-- A response as laid out in Table 15.3; `gen` is the reset generation that a read of a counter carries (R36), for which the table names no
bytes. (DEDUCED, log 98.) -/
structure Response where
  op : Nat
  status : Nat
  token : Nat
  index : Nat
  sub : Nat
  ty : Nat
  aux : Nat
  data : Bytes
  gen : Option Nat := none
  deriving DecidableEq, Repr

/-- An event record (Table 15.8). -/
structure Event where
  num : Nat
  argA : Nat
  argB : Nat
  tick : Nat
  seq : Nat
  lost : Nat
  deriving DecidableEq, Repr

/-- The fast clocks that sleep (Table 1.4). -/
inductive FastClock where
  | fabric | evorvo | prixus | lpddr
  deriving DecidableEq, Repr

/-- The crossings and credit loops that carry a reset fence (R34, Table 1.5): the events of a port with its lanes, of the switch, of the compute
subsystem, and of every other function go to the Vesper domain. -/
inductive Boundary where
  | portEvents (p : Fin 32)
  | switchEvents
  | computeEvents
  | fnEvents (f : Fin 168)
  | ingress (p : Fin 32)
  | egress (p : Fin 32)
  | compute (q : Fin 64)
  | dmaLpddr
  | server (t : Fin 8)
  | edge (g : Fin 16)
  | gnssRing
  deriving DecidableEq, Repr

/-- A training frame as received (R299): the peer's request by tap (0 hold, 1 increment, 2 decrement; c(−1), c(0), c(+1)), its PRESET and
INITIALIZE, whether it reports receiver ready; and what the module's own equaliser makes of it: whether it has converged, else the request
it wants to make of the peer. -/
structure Training where
  request : Nat × Nat × Nat
  preset : Bool
  initialize_ : Bool
  ready : Bool
  converged : Bool
  wish : Nat × Nat × Nat
  deriving DecidableEq, Repr

/-- What a lane's FEC decoder has done since the last frame (R303): codewords corrected, codewords it could not correct, corrected symbols
by lane. -/
structure FecSeen where
  corrected : Nat := 0
  uncorrected : Nat := 0
  symbols : List Nat := []
  deriving DecidableEq, Repr

/-- What the receive path sees of a frame: its FEC, and whether a word of it meets a parity error on its way to packet memory (R464). -/
structure RxSeen where
  fec : FecSeen := {}
  parity : Bool := false
  deriving DecidableEq, Repr

/-- What a port sees of its link as it comes up: the deskew of its lanes in ps (R71), and by how many parts per billion the received lane clock is away
from the Meridian clock (R177). -/
structure LinkSeen where
  deskew : Nat := 0
  freq : Int := 0
  deriving DecidableEq, Repr

/-- What an ESMC PDU carries (R88): the SSM code, and its Extended QL TLV, empty where it has none. -/
structure EsmcPdu where
  ql : Nat := 0
  ext : Bytes := []
  deriving DecidableEq, Repr

/-- The counts of one pass of a run (R177, R179), in its two halves. -/
structure Halves where
  one : List Nat := []
  two : List Nat := []
  deriving DecidableEq, Repr

/-- A DMA channel, and how many beats of its descriptor pass before the row ends (R381); with none the whole descriptor is made. (DESIGN CHOICE, log 157.) -/
structure DmaTurn where
  ch : Fin 64 := 0
  beats : Option Nat := none
  deriving DecidableEq, Repr

/-- What a GNSS channel's navigation data gave since the last coherent period (R325, R335, R337): a data preamble; an almanac; its satellite's
ephemeris; UTC offset with the leap it announces (0 none, 1 insert, 2 delete) and the TAI second of that leap; ionosphere parameters. -/
structure NavData where
  preamble : Bool := false
  almanac : Bool := false
  ephemeris : Bool := false
  utc : Option (Int × Nat × Nat) := none
  iono : Option (List (BitVec 8)) := none
  deriving DecidableEq, Repr

/-- A tracking channel over a coherent period (R323 to R325): code lock, phase-lock indicator in 1/1,000, step of the phase residual in
1/1,000 cycle, C/N0 in 0.01 dB-Hz, elevation and azimuth of its satellite in degrees, the I and Q sums of the nine correlators in the order of
R324, navigation data. -/
structure Coherent where
  codeLock : Bool
  pli : Nat
  step : Int
  cn0 : Nat
  elev : Int
  azim : Nat
  corr : List (Int × Int)
  nav : NavData := {}
  deriving DecidableEq, Repr

/-- A channel extrapolated to an epoch instant (R326, R327): channel, transmit time on its system's timescale in ticks since 1970, whether
navigation data resolve it, carrier in 2⁻²⁴ cycle, Doppler in mHz, noise figures. -/
structure ChannelEpoch where
  channel : Fin 80
  tx : Int
  resolved : Bool
  carrier : Int
  doppler : Int
  prNoise : Nat
  phaseNoise : Nat
  deriving DecidableEq, Repr

/-- What the receiver's firmware makes of an epoch (R333, R334): whether it is a 3-D fix, its position (ECEF, mm), the bound on the position in use in
mm, its system time by system (GPS, Galileo, BeiDou, combined) in ticks, its standard deviation in ps. -/
structure Solution where
  threeD : Bool
  pos : Int × Int × Int
  posUnc : Nat
  times : Int × Int × Int × Int
  std : Nat
  deriving DecidableEq, Repr

/-- The owners of an armed tick target (R47). -/
inductive Owner where
  | outCommit
  | gcl (p : Fin 32)
  | tic (c : Fin 8)
  | lane (l : Fin 32)
  | injector (p : Fin 32)
  deriving DecidableEq, Repr

/-- What a domain observer measures (R62). -/
structure ObserverReading where
  offset : Int
  freq : Int
  unc : Nat
  utc : Int
  arb : Bool
  clockClass : Nat
  deriving DecidableEq, Repr

/-- The common fields of a received PTP message, whether it came over UDP and IPv4, the VLAN it came in (0 untagged; Table 3.10): domainNumber, sequenceId, sourcePortIdentity, correctionField in ticks. -/
structure PtpMsg where
  domain : Nat
  seq : Nat
  src : Nat
  corr : Int
  udp : Bool := false
  vid : Nat := 0
  deriving DecidableEq, Repr

/-- A PTP Timestamp: secondsField and nanosecondsField. -/
structure PtpTime where
  sec : Nat
  ns : Nat
  deriving DecidableEq, Repr

/-- The fields of an Announce that the module uses, with the port state that the default BMCA of IEEE 1588-2019 decides on it. -/
structure Announce where
  cls : Nat
  accuracy : Nat
  variance : Nat
  priority1 : Nat
  priority2 : Nat
  gm : Nat
  steps : Nat
  source : Nat
  utc : Int
  utcValid : Bool
  leap61 : Bool
  leap59 : Bool
  tai : Bool
  logInterval : Int
  decided : Nat
  deriving DecidableEq, Repr

/-- The configuration fields of a slot (R133). -/
inductive SlotField where
  | kind | port | ptpDomain
  deriving DecidableEq, Repr

/-- What a port observes of a stamped bit (R69, R70): the lane of the port that carries it, the Vesper cycles since the one whose counter reading its
lane-clock edge was measured against, the lane phase meter's code of that edge, and k, the place of the bit in its lane word. (DEDUCED, log 129.) -/
structure Stamp where
  lane : Nat := 0
  ago : Nat := 0
  code : Nat := 0
  k : Nat := 0
  deriving DecidableEq, Repr

/-- A stamp names one of the lanes a port may have. -/
def Stamp.ok (s : Stamp) : Bool := decide (s.lane < 4)

/-- What a port observes of the frame that it has sent: the stamped bit, and the path error that the frame met on its way out (R464): 0 none. -/
structure TxSeen where
  p : Fin 32 := 0
  stamp : Stamp := {}
  fault : Fin 3 := 0
  deriving DecidableEq, Repr

/-- A phase sample (R100, R101): of a slot's source, which PE0 uses, in ticks; or of PE1 to PE3 (by 0 to 2), as the whole Vesper cycles and the code of its
converter by which the engine's edge lies after its grid instant. (DEDUCED, log 129.) -/
inductive PhaseSample where
  | slot (k : Fin 24) (phase : Int)
  | engine (e : Fin 3) (cycles : Int) (code : Nat)
  deriving DecidableEq, Repr

/-- Who rings for a DMA channel (R393): a doorbell page of BAR2, or a write of DMAc_TAIL. -/
inductive Bell where
  | bar2 (fn : Fin 4)
  | entry (c : Caller) (token : Nat)
  deriving DecidableEq, Repr

end Sys2Proof.Machine
end

