-- ==== Sys2Proof/Machine/Table.lean ====
section
/-! DEFINITION. Sparse tables: what the module holds by number (registers by key, ports, slots, channels), as plain data. A table
is a list of (number, value) pairs kept in rising order of number; what is not listed reads as a value that the reader names. -/

namespace Sys2Proof.Machine

/-- A sparse table of values by number. -/
abbrev Table (α : Type) := List (Nat × α)

/-- The value listed under a number, if any. -/
def tget {α : Type} : Table α → Nat → Option α
  | [], _ => none
  | (j, v) :: r, k => if j = k then some v else tget r k

/-- The value under a number, or d where nothing is listed. -/
def tat {α : Type} (d : α) (t : Table α) (k : Nat) : α := (tget t k).getD d

/-- The table with a value under a number, in its place by rising number. -/
def tput {α : Type} : Table α → Nat → α → Table α
  | [], k, v => [(k, v)]
  | (j, w) :: r, k, v => if j = k then (k, v) :: r else if k < j then (k, v) :: (j, w) :: r else (j, w) :: tput r k v

/-- The table with nothing under a number. -/
def tdel {α : Type} (t : Table α) (k : Nat) : Table α := t.filter (fun e => e.1 != k)

/-- The table with the value under a number changed by f; d stands for an unlisted value. -/
def tmod {α : Type} (d : α) (t : Table α) (k : Nat) (f : α → α) : Table α := tput t k (f (tat d t k))

/-- The table with every number for which p holds no longer listed. -/
def tdrop {α : Type} (t : Table α) (p : Nat → Bool) : Table α := t.filter (fun e => !p e.1)

end Sys2Proof.Machine
end

