-- ==== Sys2Proof/Machine/StFabric.lean ====
section
/-! DEFINITION. State of the switch fabric that has no dictionary entry of its own (chapters 9, 10 and the injectors of chapter 18): frames in
packet memory, queues, ports, gates, forwarding tables, policers, aggregation groups. Times are Vesper cycles unless a field says so. -/

namespace Sys2Proof.Machine

/-- A frame in packet memory (R251, R252): its bytes as received, VID of stage 4, DEI, the banks of its cells in order (R255), copies not yet
released; `ecc` is 1 or 2 where its first cell was written with one or two flipped bits (R476), 3 where that error has been found;
the mirror sessions that have had the frame as a candidate (R287), and whether P_CT_STOMPED_IN counts it (R248). -/
structure Chain where
  bytes : Bytes
  vid : Nat
  dei : Bool
  banks : List Nat
  refs : Nat
  ecc : Nat := 0
  seen : List Nat := []
  told : Bool := false
  deriving DecidableEq, Repr

/-- A frame descriptor (R251): chain, cycle of enqueue, colour (0 green, 1 yellow, 2 red), ingress port (32 for the module's own), qualified ingress
stamp as a number of 16 bytes;
`content` is what a mirror copy carries in place of the chain's frame (R288). -/
structure Desc where
  chain : Nat
  enq : Nat
  colour : Nat
  inPort : Nat
  stamp : Nat
  content : Option Bytes := none
  deriving DecidableEq, Repr

/-- A queue (R251): descriptors in order, the sequence number of the next frame (R255), average depth in 2⁻¹⁶ cells (R275), deficit in
bytes (R277), shaper tokens in 1/800,000 byte (R278). -/
structure Queue where
  frames : List Desc := []
  seq : Nat := 0
  avg : Nat := 0
  deficit : Nat := 0
  tokens : Int := 0
  tokensAt : Nat := 0
  deriving DecidableEq, Repr

/-- A frame of the module's own (R279): a response or an event of an in-band requester, its bytes, or a PTP event message that an injector holds. -/
inductive Own where
  | response (dest : Caller) (r : Response)
  | event (dest : Caller) (e : Event)
  | frame (bytes : Bytes)
  | held (bytes : Bytes)
  deriving DecidableEq, Repr

/-- The copy a port is sending: descriptor, queue, the bytes that leave, whether they end stomped, whether it is cut through;
`own` says which frame of the module's own it is, if it is one. -/
structure Tx where
  desc : Desc
  queue : Nat
  bytes : Bytes
  stomped : Bool
  cut : Bool
  own : Option Own := none
  deriving DecidableEq, Repr

/-- An armed gate list change (R284): the admin values of the snapshot and the change time (time word). -/
structure GatePend where
  on : Bool
  list : List (Nat × Nat)
  cycle : Nat
  base : Nat
  ext : Nat
  at_ : Nat
  deriving DecidableEq, Repr

/-- The gates of a port (R281 to R285): list in force as (interval in ticks, states), cycle and base in ticks, the cycle that runs from `start` to
`cend`, the entry in it, and the instant at which the present states end; `none` when they do not. -/
structure Gate where
  on : Bool := false
  list : List (Nat × Nat) := []
  cycle : Nat := 0
  base : Nat := 0
  start : Nat := 0
  cend : Nat := 0
  idx : Nat := 0
  states : Nat := 0xFFFF
  until_ : Option Nat := none
  pend : Option GatePend := none
  deriving DecidableEq, Repr

/-- An injector (R475, R476): the settings snapshotted at arming, whether it acts, matching frames and actions so far, held
frames; `through` counts the PTP event messages it has released and that have still to leave. -/
structure Fip where
  kind : Nat := 0
  match_ : Nat := 0xFFFF
  n : Nat := 1
  pattern : Nat := 0
  byte : Nat := 0
  bit : Nat := 0
  fixup : Bool := false
  hold : Nat := 1
  release : Nat := 1
  delay : Nat := 0
  count : Nat := 0
  armed : Bool := false
  acting : Bool := false
  seen : Nat := 0
  acts : Nat := 0
  held : List Tx := []
  heldAt : Nat := 0
  passed : Nat := 0
  ready : List Tx := []
  delayed : Option (Tx × Nat) := none
  through : Nat := 0
  deriving DecidableEq, Repr

/-- A frame that waits in a lane's ingress buffer (R23), with its qualified ingress stamp and whether a word of it has met a parity error
(R464); `req` is the VID, source and request of one that a request row stands for. -/
structure RxWait where
  bytes : Bytes
  pcs : Bool
  stamp : Nat
  parity : Bool := false
  req : Option (Nat × Nat × Request) := none
  deriving DecidableEq, Repr

/-- A port of the fabric: the end of its link-down hold, what it sends, the ticks by which markers have put off the next frame
(R79), the egress stamp of the newest frame sent at the fibre face (R68), the module's own frames that wait with their lengths (R279), port-shaper tokens, its place in the round, its ingress buffer, idleness,
mode, FEC and lane test in force (test 0 none, 1 PRBS, 2 near-end loop, 3 far-end loop, 4 PCS loop, 5 near-end loop with PRBS), whether a standby
runs its PMA and PCS (R444), gates and injector. -/
structure PortFab where
  holdEnd : Option Nat := none
  sending : Option Tx := none
  gap : Nat := 0
  txStamp : Option Nat := none
  own : List (Own × Nat) := []
  tokens : Int := 0
  tokensAt : Nat := 0
  rr : Nat := 0
  rrOn : Bool := false
  ingress : List RxWait := []
  busyAt : Nat := 0
  wakeAt : Option Nat := none
  modeInForce : Nat := 0
  fecInForce : Nat := 0
  testInForce : Nat := 0
  lit : Bool := false
  gate : Gate := {}
  fip : Fip := {}
  deriving DecidableEq, Repr

/-- An entry of the MAC table (R235, R236), with its way in its bucket. -/
structure Mac where
  way : Nat
  static : Bool
  age : Nat := 0
  dtype : Nat
  dest : Nat
  deriving DecidableEq, Repr

/-- A policer's two buckets in 1/800,000 byte (R271), and the cycle they were last filled. -/
structure Policer where
  c : Nat := 0
  e : Nat := 0
  at_ : Nat := 0
  full : Bool := true
  deriving DecidableEq, Repr

/-- An aggregation group's map from bucket to member, and each bucket's home (R261). -/
structure Lag where
  map : List Nat := []
  home : List Nat := []
  deriving DecidableEq, Repr

/-- The 16 banks of packet memory (R251, R256): cells of each in use or retired, banks of the cells retired in order (R254), the writes of each
in the present window and of all, and the largest count of each window that has ended and has not been judged. -/
structure Banks where
  used : List Nat := List.replicate 16 0
  retired : List Nat := []
  writes : List Nat := List.replicate 16 0
  n : Nat := 0
  ended : List Nat := []
  deriving DecidableEq, Repr

/-- The fabric (chapters 9 and 10). `macKey` and `bankKey` number the random keys drawn (R235, R256). -/
structure Fabric where
  chains : Table Chain := []
  nextChain : Nat := 0
  queue : Table Queue := []
  port : Table PortFab := []
  mac : Table Mac := []
  macKey : Nat := 0
  bankKey : Nat := 1
  banks : Banks := {}
  skew : Bool := false
  draws : List Nat := []
  agedAt : Nat := 0
  pol : Table Policer := []
  mirSeen : Table Nat := []
  lag : Table Lag := []
  cqNext : Nat := 0
  cqOn : Bool := false
  eccNext : Nat := 0
  atReserve : Bool := false
  deriving DecidableEq, Repr

end Sys2Proof.Machine
end

