-- ==== Sys2Proof/Machine/StTiming.lean ====
section
/-! DEFINITION. State of the timing subsystem that has no dictionary entry of its own (chapters 1 to 8): clocks, crossings,
Meridian time, link timing, phase engines, outputs, reference inputs, slots, selector, oscillator, holdover, calibration and
interval measurement. Times are Vesper cycles unless a field says ticks (2⁻¹⁶ ns). -/

namespace Sys2Proof.Machine

/-- A value that moves from `start` toward `goal` at `rate` units a second from cycle `since` on. -/
structure Ramp where
  start : Int := 0
  goal : Int := 0
  rate : Nat := 0
  since : Nat := 0
  deriving DecidableEq, Repr

/-- The phases of a fast clock (R19, R21). -/
inductive ClockPhase where
  | stopped
  | starting (ready : Nat)
  | running
  | stopping (done : Nat) (again : Bool)
  deriving DecidableEq, Repr

/-- A fast clock: its phase and the cycle since which every consumer has been idle. -/
structure ClockSt where
  phase : ClockPhase := .stopped
  idleSince : Nat := 0
  trained : Bool := false
  deriving DecidableEq, Repr

/-- A single event on its way across a crossing (R27): its number and arguments, and the tenant of an event directed to one. -/
structure Pulse where
  num : Nat
  argA : Nat
  argB : Nat
  dest : Option Nat := none
  deriving DecidableEq, Repr

/-- The toggle of one source (R27): the cycle until which it may not toggle again, the event in flight with the cycle of its arrival, and the event
that waits, of those that have merged. (DEDUCED, log 13; DESIGN CHOICE, log 125.) -/
structure Toggle where
  busyUntil : Nat := 0
  flight : Option (Nat × Pulse) := none
  held : Option Pulse := none
  deriving DecidableEq, Repr

/-- One crossing with its reset fence and its credits (R24 to R27, R34, R35): epochs of the two sides, whether they have agreed since the last
reset of either, its toggles by source, and the credits its producer has spent, of the second kind where the boundary has two (DMA writes). (DEDUCED, log 13.) -/
structure Crossing where
  srcEpoch : Bool := false
  dstEpoch : Bool := false
  settled : Bool := true
  toggles : Table Toggle := []
  used : Nat := 0
  usedWrites : Nat := 0
  deriving DecidableEq, Repr

/-- An armed tick target (R47 to R51). -/
structure Target where
  tick : Nat := 0
  late : Bool := false
  deriving DecidableEq, Repr

/-- Meridian time (chapter 2): the counter in ticks since the epoch, steps so far, the uncertainty of a manual set in FREE_RUN,
the time at which the last step landed, armed targets by owner, the residual of a domain switch with the domain it is against, whether the offset in force was declared
valid, and the offset in force before the last leap. -/
structure Meridian where
  mer : Nat := 0
  steps : Nat := 0
  landed : Nat := 0
  manual : Option Nat := none
  targets : Table Target := []
  dom : Ramp := {}
  domOf : Nat := 0
  utcGood : Bool := false
  preLeap : Option Int := none
  obsArb : Table Bool := []
  obsClass : Table Nat := []
  deriving DecidableEq, Repr

/-- One exchange (R82): the cycle it was completed, round trip and θ, the midpoint to which θ refers, on the module's own clock (R84), and the departure
of the own T marker. -/
structure Exchange where
  cyc : Nat
  rtt : Int
  theta : Int
  mid : Nat := 0
  sent : Nat := 0
  deriving DecidableEq, Repr

/-- Reel exchange of one port (R76 to R86): SEQ and slow-word index to come, the markers of the period still to be sent, the newest T marker sent with its
stamp and what the report of its period names, T markers sent, the newest T marker received, whether the T marker of the peer's present period was
discarded, when one last arrived, when valid exchanges began, whether the port sends at 1 Hz after a peer loss, the pair used last, exchanges of the
averaging time, slow words, word 0 with the TX_STAMP and SEQ of its period, the TX_STAMP of the peer's present period, the whole tick spans between the
peer's time and Meridian time, the period in force, and the round trips of the last seconds. -/
structure Reel where
  seq : Nat := 0
  due : List Nat := []
  sIndex : Nat := 0
  txStamp : Nat := 0
  txWord : Nat := 0
  snap : Option (Nat × Nat) := none
  sent : List (Nat × Nat) := []
  rx : Option (Nat × Nat) := none
  lost : Bool := false
  lastT : Option Nat := none
  since : Option Nat := none
  slow : Bool := false
  pair : Option (Nat × Nat) := none
  exch : List Exchange := []
  words : Table Nat := []
  word0 : Option (Nat × Nat × Nat) := none
  peerTx : Option Nat := none
  tod : Option Int := none
  period : Option Nat := none
  trips : List Exchange := []
  deriving DecidableEq, Repr

/-- ESMC of one port (R88): when a PDU last arrived and an information PDU was last sent, and the Extended QL TLV received last. -/
structure Esmc where
  lastRx : Option Nat := none
  sentAt : Option Nat := none
  ext : List (BitVec 8) := []
  deriving DecidableEq, Repr

/-- What the last Announce of a port carried (R89, R134). -/
structure Parent where
  domain : Nat := 0
  cls : Nat := 255
  accuracy : Nat := 254
  variance : Nat := 65535
  priority1 : Nat := 255
  priority2 : Nat := 255
  gm : Nat := 0
  steps : Nat := 0
  source : Nat := 160
  utc : Int := 0
  utcValid : Bool := false
  leap61 : Bool := false
  leap59 : Bool := false
  tai : Bool := true
  deriving DecidableEq, Repr

/-- What a port receives of one PTP domain (R89): the two-step Sync that waits for its Follow_Up, origin and arrival of the last Sync, the Delay_Req that
waits for its answer, the delay to the domain's master, its Announce, when Sync and Announce last arrived and a Delay_Req was sent, the two intervals. -/
structure PtpDom where
  syncWait : Option (Nat × Nat × Int) := none
  t1 : Option Int := none
  t2 : Int := 0
  t3 : Option (Nat × Int) := none
  meanDelay : Option Int := none
  parent : Option Parent := none
  lastSync : Option Nat := none
  lastAnnounce : Option Nat := none
  delaySentAt : Option Nat := none
  logSync : Int := 0
  logAnnounce : Int := 1
  deriving DecidableEq, Repr

/-- IEEE 1588 exchange of one port (R89): the domains received by domainNumber, the peer delay measurement, and what the port has sent. -/
structure PtpPort where
  dom : Table PtpDom := []
  delaySeq : Nat := 0
  peerDelay : Option Int := none
  pdelayT1 : Option (Nat × Int) := none
  pdelayWait : Option (Nat × Int × Int × Int) := none
  syncSeqTx : Nat := 0
  announceSeqTx : Nat := 0
  syncSentAt : Option Nat := none
  delaySentAt : Option Nat := none
  announceSentAt : Option Nat := none
  deriving DecidableEq, Repr

/-- A phase engine's loop and lock detector (R101 to R106). Errors are ticks, newest first; the integrator counts 10⁻⁹ steps of
the frequency word; `acq` counts acquisitions (R123). -/
structure Engine where
  integ : Int := 0
  errs : List Int := []
  within : Option Nat := none
  overs : Nat := 0
  clamped : Bool := false
  atLimit : Bool := false
  history : List (Nat × Int) := []
  acq : Nat := 0
  deriving DecidableEq, Repr

/-- The settings of one output (Table 4.8, sub-indices 0x01 to 0x0E). (DESIGN CHOICE, log 121.) -/
structure OutCfg where
  mode : Nat := 0
  source : Nat := 0
  div : Nat := 1
  interval : Nat := 1
  rate : Nat := 2
  width : Nat := 100000000
  frameRef : Nat := 0
  frameLen : Nat := 256
  offset : Int := 0
  align : Nat := 0
  board : Int := 0
  polarity : Nat := 0
  squelch : Nat := 0
  idle : Nat := 0
  deriving DecidableEq, Repr

/-- Where an edge placer puts a land edge (R111, R112): from PE0, the Meridian clock cycle; from PE2 or PE3, the divider's starting phase in engine periods;
and the ps on the delay line. -/
structure Placing where
  whole : Int := 0
  ps : Int := 0
  deriving DecidableEq, Repr

/-- The level of a land (Table 4.8). -/
inductive Level where
  | low | high | z
  deriving DecidableEq, Repr

/-- One output: settings in force, first active edge of the present grid (ticks) with its placing, the end of the last pulse and the last active edge of
the grid before it (R117, R125), whether it holds its idle level until its first edge; alignment phase, when a pulse last came at its expected instant,
and the pulses that have returned in FLYWHEEL (R115). -/
structure OutSt where
  cfg : OutCfg := {}
  first : Option Int := none
  place : Placing := {}
  fall : Option Int := none
  rose : Option Int := none
  held : Bool := true
  phi : Ramp := {}
  hitAt : Option Nat := none
  back : Nat := 0
  flywheel : Bool := false
  squelched : Bool := false
  invalid : Bool := false
  deriving DecidableEq, Repr

/-- An armed output commit (R120): the snapshot of every output. -/
structure Commit where
  cfgs : List OutCfg := []
  tick : Nat := 0
  deriving DecidableEq, Repr

/-- A reference input (R130). -/
structure Refin where
  lastAt : Option Nat := none
  phases : List Int := []
  deriving DecidableEq, Repr

/-- A candidate slot's monitors and timers (R135 to R139, R525). -/
structure Slot where
  active : Bool := false
  activeAt : Nat := 0
  tripped : Nat := 0
  wtrEnd : Option Nat := none
  oven : List Int := []
  means : List (Option Int) := []
  secSum : Int := 0
  secN : Nat := 0
  last : Option (Int × Nat) := none
  held : List (Int × Nat) := []
  good : Nat := 0
  xphaseRun : Nat := 0
  xfreqRun : Nat := 0
  driftTick : Nat := 0
  deriving DecidableEq, Repr

/-- A running transfer (R144): the samples taken, and the sums of their phases and of their cycles since the start; of a frequency-only target the phases
are carried on over its periods, and the first and the newest of them with their cycles give its mean frequency. -/
structure Transfer where
  target : Nat := 0
  startAt : Nat := 0
  n : Nat := 0
  sum : Int := 0
  at_ : Nat := 0
  first : Option (Int × Nat) := none
  newest : Int × Nat := (0, 0)
  deriving DecidableEq, Repr

/-- The selector (R141 to R149): of a frequency-only SELECTED slot, the edge phase PE0 holds it at and the newest edge phase, carried on over its periods. -/
structure Selector where
  transfer : Option Transfer := none
  residual : Ramp := {}
  lockedAt : Option Nat := none
  lockedSum : Nat := 0
  phaseAt : Nat := 0
  noneRaised : Bool := false
  freqBase : Option Nat := none
  freqAt : Nat := 0
  lostDomain : Nat := 255
  edgeBase : Int := 0
  edgeNow : Int := 0
  deriving DecidableEq, Repr

/-- Oven oscillator (R152 to R157): the cycle of power-on, when the crystal last left its band, the end of the last reset; steering, the loop or model value
of FW and the steering added to it when FW was last formed. -/
structure Osc where
  powerAt : Nat := 0
  outAt : Option Nat := none
  startAt : Nat := 0
  steer : Ramp := {}
  loop : Int := 0
  added : Int := 0
  clipped : Bool := false
  deriving DecidableEq, Repr

/-- Holdover model, timer and return (R158 to R172). Frequencies are 10⁻³ ppt. `keepD` and `keepC` say that D and c are those restored after power-on,
which stand until a fit of their own (R161). -/
structure Holdover where
  records : List (Nat × Int × Int) := []
  secY : Int := 0
  secN : Nat := 0
  ye : Int := 0
  te : Nat := 0
  tempE : Int := 0
  e0 : Nat := 0
  startAt : Option Nat := none
  stopped : Nat := 0
  tempInt : Nat := 0
  steerInt : Nat := 0
  warned : Bool := false
  fromHoldover : Bool := false
  fromSpec : Bool := false
  ret : Ramp := {}
  retSince : Nat := 0
  lockEnd : Int × Nat × Int := (0, 0, 0)
  savedAt : Nat := 0
  saved : Option (Int × Int × Nat × Nat × Nat) := none
  keepD : Bool := false
  keepC : Bool := false
  deriving DecidableEq, Repr

/-- A table of bin widths (R178): bin i is span × bins[i] / den wide, the span in fs. -/
structure Bins where
  bins : List Nat := []
  den : Nat := 1
  span : Nat := 0
  deriving DecidableEq, Repr

/-- A converter (R174 to R180): why it is being run (0 not, 1 automatic, 2 campaign), with the source of its edges (1 RING, 2 DATA) and their number N;
when and at what die temperature its table was taken, the table in force and one that waits to come into force, whether the twins overlap, and whether
the campaign rejected it. -/
structure Conv where
  run : Nat := 0
  source : Nat := 1
  need : Nat := 0
  acceptedAt : Nat := 0
  temp : Int := 0
  table : Bins := {}
  pend : Bins := {}
  waits : Bool := false
  pendTemp : Int := 0
  rejected : Bool := false
  gen : Nat := 0
  deriving DecidableEq, Repr

/-- A link calibration as NAND holds it (R186): offsets and bound in ps, FEC mode, temperature, time, and whether each of its two copies passes its
CRC-32. -/
structure SavedCal where
  tx : Int
  rx : Int
  sum : Nat
  fec : Nat
  temp : Int
  time : Nat
  copies : Bool × Bool := (true, true)
  deriving DecidableEq, Repr

/-- A solver pair (R189 to R192): ΔRTT samples by second, newest first (number, sum, sum of squares), the last 1 s means of the two round
trips, when averaging started, whether the pair has converged since it started, its two
asymmetries in ticks. -/
structure Asy where
  secs : List (Nat × Int × Nat) := []
  means : Option (Int × Int) := none
  since : Nat := 0
  takenAt : Nat := 0
  ever : Bool := false
  conv : Bool := false
  alphaP : Int := 0
  alphaQ : Int := 0
  deriving DecidableEq, Repr

/-- Calibration (chapter 7): converters; corrections in force by item, as ramps in ticks; whether the die is outside the span of the sets;
link calibrations not yet saved, and those that NAND holds; whether the die temperature has moved too far in the link calibration that runs; the received
frequency of a lane against the Meridian clock in ppb (R177); which of the two copies of each temperature set fail their CRC-32, as bits 2n and 2n + 1
(R181); solver pairs. -/
structure Cal where
  conv : Table Conv := []
  corr : Table Ramp := []
  outside : Bool := false
  dirty : List Nat := []
  saved : Table SavedCal := []
  moved : Bool := false
  rxFreq : Table Int := []
  badCopies : Nat := 0
  asy : Table Asy := []
  deriving DecidableEq, Repr

/-- An accepted edge of a measurement channel (R197): Meridian cycle, fine time with delays in ticks, qualified time, bound in fs, steps of
time so far, warm-up and PE0 state, whether its slope is the channel's active one, and the channels armed since it was accepted, which ignore it (R202). -/
structure TicEdge where
  cyc : Nat
  fine : Int
  word : Int
  when_ : Bytes
  bound : Nat
  steps : Nat
  warm : Bool
  pe0 : Nat
  active : Bool
  deaf : List Nat := []
  deriving DecidableEq, Repr

/-- A measurement channel (chapter 8): capture queue, oldest first; edges held by the mode (start, stop, previous, first and last of a gate);
the gate and its later edges; whether it has had a result (R210); statistics sums; the record queue, oldest first. -/
structure Tic where
  armed : Bool := false
  queue : List TicEdge := []
  lastAt : Option (Nat × Nat) := none
  accepted : Nat := 0
  start : Option TicEdge := none
  stop : Option TicEdge := none
  after : Option (Nat × Int) := none
  prev : Option TicEdge := none
  gate : Nat := 0
  first : Option TicEdge := none
  last : Option TicEdge := none
  count : Nat := 0
  later : List TicEdge := []
  seq : Nat := 0
  had : Bool := false
  lost : Nat := 0
  steps : Nat := 0
  n : Nat := 0
  x1 : Int := 0
  sum : Int := 0
  sumSq : Nat := 0
  lo : Int := 0
  hi : Int := 0
  records : List Bytes := []
  deriving DecidableEq, Repr

end Sys2Proof.Machine
end

