-- ==== Sys2Proof/Machine/StPair.lean ====
section
/-! DEFINITION. State of pair operation that has no dictionary entry (chapter 17), and the snapshot that an active module exports (R447). -/

namespace Sys2Proof.Machine

/-- What a slot carries over (R447): its state, wait-to-restore end as cycles left, trips. -/
structure SlotState where
  state : Nat
  wtrLeft : Option Nat
  trips : Nat
  deriving DecidableEq, Repr

/-- A snapshot (R447): sequence, time, size; RW and RWS entries that are not local, by key; functions that are RUN; MAC table, its key, LAG bucket
maps; armed commit and gate changes; Meridian state (time set, UTC offset and its validity, pending leap and its instant, domain residual,
observers' states); slots, SELECTED slot, service phase; PE0's state, τ and E₀ of a holdover; sideband outputs; output settings in force. -/
structure Snapshot where
  seq : Nat := 0
  time : Nat := 0
  size : Nat := 0
  entries : Table Int := []
  blobs : Table Bytes := []
  running : List Nat := []
  mac : Table Mac := []
  macKey : Nat := 0
  lag : Table Lag := []
  commit : Option Commit := none
  acq : List Nat := []
  gates : Table GatePend := []
  timeSet : Bool := false
  utc : Int := 0
  utcValid : Bool := false
  leap : Nat := 0
  leapAt : Nat := 0
  domLeft : Int := 0
  domOf : Nat := 0
  observers : List Nat := []
  slots : List SlotState := []
  selected : Nat := 255
  phase : Nat := 0
  pe0 : Nat := 0
  tau : Nat := 0
  e0 : Nat := 0
  side : Table Nat := []
  outs : List OutCfg := []
  deriving DecidableEq, Repr

/-- What an active module carries to its partner as it accepts it (R454): an output commit, or a gate list change of a port. -/
inductive Carry where
  | commit (c : Commit)
  | gate (port : Nat) (c : GatePend)
  deriving DecidableEq, Repr

/-- A heartbeat as received (R448, R450): its word, and what the partner has carried over since the last one (R449, R454). (DESIGN CHOICE, log 111.) -/
structure Heard where
  w : Word64 := 0
  carried : List Carry := []
  deriving DecidableEq, Repr

/-- A module of a pair: whether position B is in force (R442); start-up time; when PARTNER_ALIVE fell, when ROLE was driven high, until when this module pulls
HANDOVER_N, until when the net is low; heartbeats sent and
received, successive misses, whether the held snapshot is being loaded; a takeover under way (cause, cycle of the fault); the snapshot held, since
when, whether its age has been reported; a switch-back under way (final sequence, since); what the partner's last heartbeat flagged; when the last export
began. -/
structure Pair where
  posB : Bool := false
  since : Nat := 0
  aliveLowAt : Option Nat := some 0
  roleAt : Option Nat := none
  pullUntil : Option Nat := none
  netLow : Nat := 0
  hbSeq : Nat := 0
  hbSent : Option Nat := none
  hbAt : Option Nat := none
  missed : Nat := 0
  loading : Bool := false
  taking : Option (Nat × Nat) := none
  held : Option Snapshot := none
  heldAt : Nat := 0
  aged : Bool := false
  back : Option (Nat × Nat) := none
  partnerBack : Bool := false
  exportAt : Nat := 0
  deriving DecidableEq, Repr

end Sys2Proof.Machine
end

