-- ==== Sys2Proof/Syntax.lean ====
section
/-! DEFINITION. The commands of the module: one constructor per row of spec/opcode_table.json, in its order, with what the requester or the
outside world supplies. -/

namespace Sys2Proof

open Sys2Proof.Machine

/-- A command. A dictionary command names its requester and the TOKEN of its request; an event of the outside world or of time carries what the
module observes. -/
inductive Instr where
  /-- R21. A consumer needs a sleeping fast clock, so the module starts it; work waits in its credit queue. -/
  | clockStartRequest (c : FastClock)
  /-- R19. A started fast clock becomes usable after its start latency, and held work proceeds. -/
  | clockStartComplete (c : FastClock)
  /-- R496. All consumers of a fast clock have been idle for its sleep delay, so the clock is stopped. -/
  | sleepDelayExpiry (c : FastClock)
  /-- R34. After one side of a crossing leaves reset, both sides agree the new epoch and the crossing reopens. -/
  | resetFenceAgree (x : Boundary)
  /-- R526. Command that sets time of day: accepted with no slot SELECTED or with a REFIN pulse slot, else refused with STATE. -/
  | mtSetTime (c : Caller) (token word : Nat)
  /-- R38. SECONDS passes 2^48 - 1 and wraps to 0, which counts as a step. -/
  | secondsWrap
  /-- R61. A read of any sub-index of OD 0x2000 latches the whole record on the Vesper cycle of arrival. -/
  | mtStateRead (c : Caller) (token : Nat) (sub : Fin 8)
  /-- R47. An armed tick target falls due (d <= 0) and its owning action fires on the first clock edge at or after it. -/
  | targetDue (o : Owner)
  /-- R54. At MT_LEAP_TAI the UTC offset changes by one, MT_LEAP_PENDING clears and event 0x2007 is raised. -/
  | leapApply
  /-- R62. A domain observer changes between NO_SIGNAL, ACQUIRING and TRACKING, with event 0x2008 or 0x2009. -/
  | domainObserverChange (d : Fin 2) (st : Fin 3) (r : ObserverReading)
  /-- R64. In CONVERGE the domain residual reaches zero and event 0x2005 is raised. -/
  | domResidualZero
  /-- R78. A Reel period begins at the marker phase and the six markers of that period become due. -/
  | reelPeriod (p : Fin 32)
  /-- R79. A due Reel marker replaces an idle block in the next inter-frame gap, lengthening it if needed. -/
  | reelMarkerTx (p : Fin 32) (stamp : Stamp)
  /-- R80. A valid T marker is received and stamped, moving LT_STATE from NO_PEER to MEASURING. -/
  | reelTMarkerRx (p : Fin 32) (m : Word64) (stamp : Stamp)
  /-- R82. The peer's D0-D3 report completes an exchange, giving RTT and theta, a phase sample and monitor input. -/
  | reelReportRx (p : Fin 32) (d0 d1 d2 d3 : Word64)
  /-- R86. An S marker slow word is taken, giving the peer's seconds, UTC offset, leap, uncertainty and quality. -/
  | reelSlowWordRx (p : Fin 32) (m : Word64)
  /-- R80. Valid exchanges have run for LT_AVG_TIME and LT_STATE becomes VALID with event 0x2201. -/
  | reelAvgTimeExpiry (p : Fin 32)
  /-- R80. No valid T marker for 2 s: LT_STATE becomes NO_PEER and the port sends one period per second. -/
  | reelPeerTimeout (p : Fin 32)
  /-- R88. An ESMC PDU is received and its quality level recorded; a change raises 0x2206. -/
  | esmcPduRx (p : Fin 32) (pdu : EsmcPdu)
  /-- R88. The once-per-second ESMC information PDU is sent with the quality level chosen by PE0 state. -/
  | esmcInfoTx (p : Fin 32)
  /-- R88. An event PDU is sent within 100 ms of a change of the quality level sent. -/
  | esmcEventTx (p : Fin 32)
  /-- R88. No ESMC PDU for 5 s: LT_QL_RX reads 0xFF, the slot treats the port as QL-DNU, event 0x2207. -/
  | esmcRxTimeout (p : Fin 32)
  /-- R89. A Sync of a tracked domain is received and stamped for an offset-from-master sample. -/
  | ptpSyncRx (p : Fin 32) (h : PtpMsg) (twoStep : Bool) (origin : PtpTime) (logInterval : Int) (stamp : Stamp)
  /-- R89. A Follow_Up is received, supplying the precise origin timestamp of a two-step Sync. -/
  | ptpFollowUpRx (p : Fin 32) (h : PtpMsg) (origin : PtpTime)
  /-- R89. A Delay_Req is received on a master port and answered with Delay_Resp. -/
  | ptpDelayReqRx (p : Fin 32) (h : PtpMsg) (stamp : Stamp)
  /-- R89. A Delay_Resp is received, completing a delay measurement. -/
  | ptpDelayRespRx (p : Fin 32) (h : PtpMsg) (received : PtpTime)
  /-- R89. A Pdelay_Req is received and answered with Pdelay_Resp and, in two-step, a follow-up. -/
  | ptpPdelayReqRx (p : Fin 32) (h : PtpMsg) (stamp sent : Stamp)
  /-- R89. A Pdelay_Resp is received for the peer delay measurement. -/
  | ptpPdelayRespRx (p : Fin 32) (h : PtpMsg) (twoStep : Bool) (received : PtpTime) (stamp : Stamp)
  /-- R89. A Pdelay_Resp_Follow_Up is received, completing a peer delay measurement. -/
  | ptpPdelayRespFollowUpRx (p : Fin 32) (h : PtpMsg) (origin : PtpTime)
  /-- R89. An Announce is received, feeding BMCA and the slot's clockClass rank. -/
  | ptpAnnounceRx (p : Fin 32) (h : PtpMsg) (a : Announce)
  /-- R91. At the Sync interval a master port sends Sync, one-step or two-step, with timestamps per R55. -/
  | ptpSyncTx (p : Fin 32) (stamp : Stamp)
  /-- R89. At the delay interval the port sends Delay_Req or Pdelay_Req. -/
  | ptpDelayReqTx (p : Fin 32) (stamp : Stamp)
  /-- R92. At the Announce interval a master port sends Announce with the clockClass of Table 3.11. -/
  | ptpAnnounceTx (p : Fin 32)
  /-- R89. announceReceiptTimeout expires and the port state changes. -/
  | ptpAnnounceTimeout (p : Fin 32)
  /-- R101. A phase engine takes a phase sample, updates its loop filter and lock detector. -/
  | pePhaseSample (x : PhaseSample)
  /-- R120. Command 1: snapshot and check all output shadows and arm the commit at OUT_COMMIT_AT or the next second. -/
  | outCommit (c : Caller) (token : Nat)
  /-- R120. Command 2: cancel an armed output commit. -/
  | outCommitCancel (c : Caller) (token : Nat)
  /-- R121. At the commit instant the snapshot takes effect and outputs start on their new grids; event 0x2410. -/
  | outCommitApply
  /-- R130. A REFIN pulse is accepted and measured, giving a phase sample and updating aligned outputs. -/
  | refinPulse (r : Fin 2) (frac : Int)
  /-- R130. No pulse by 1.05 s after its expected instant: the pulse input is absent. -/
  | refinPulseTimeout (r : Fin 2)
  /-- R512. The REFIN frequency input enters or leaves ±200 ppm of its set frequency. -/
  | refinFreqChange (r : Fin 2) (present : Bool)
  /-- R115. OUT_ALIGN_LOSS_COUNT expected pulses pass unseen and the output enters FLYWHEEL. -/
  | outAlignLoss (n : Fin 8)
  /-- R116. A squelch condition takes effect at the end of the pulse or half-period in progress. -/
  | outputSquelch (n : Fin 8)
  /-- R116. A squelch ends at the first active grid edge after the condition clears. -/
  | outputUnsquelch (n : Fin 8)
  /-- R133. A write of SLOTk_KIND, PORT or PTP_DOMAIN restarts the slot in ABSENT, or is refused with STATE. -/
  | slotConfigWrite (c : Caller) (token : Nat) (k : Fin 24) (f : SlotField) (v : Nat)
  /-- R139. Setting SLOTk_LOCKOUT makes the slot DISQUALIFIED. -/
  | slotLockoutWrite (c : Caller) (token : Nat) (k : Fin 24) (v : Nat)
  /-- R139. A slot's source becomes active and the slot goes from ABSENT to DISQUALIFIED. -/
  | slotSourceActive (k : Fin 24)
  /-- R139. A slot's source becomes inactive and the slot goes ABSENT; a SELECTED slot is lost. -/
  | slotSourceInactive (k : Fin 24)
  /-- R135. Each second, slot monitors are judged and may trip or clear. -/
  | slotMonitorTick (means : List (Fin 24 × Int))
  /-- R139. A slot's wait-to-restore timer expires and it becomes QUALIFIED. -/
  | slotWtrExpiry (k : Fin 24)
  /-- R139. Command ends wait-to-restore now, making the WAITING slot QUALIFIED. -/
  | slotWtrClear (c : Caller) (token : Nat) (k : Fin 24)
  /-- R143. Once a second or on a slot change, the selector orders slots and starts a transfer if needed. -/
  | selectorEvaluate
  /-- R144. After the measure step, on the target's next sample the target becomes SELECTED and Delta becomes a residual. -/
  | transferHandover (phase : Int)
  /-- R146. A handover residual reaches zero at SEL_SWITCH_SLEW, with event 0x2605. -/
  | switchResidualZero
  /-- R141. A write of SEL_PHASE changes the service phase, with event 0x2606. -/
  | selPhaseWrite (c : Caller) (token v : Nat)
  /-- R143. A write of SEL_FORCE makes a slot best-ordered, or 0xFF removes the force. -/
  | selForceWrite (c : Caller) (token v : Nat)
  /-- R141. PE0 has been LOCKED for SEL_SETTLE_TIME and START or RECOVERY becomes NORMAL. -/
  | selSettleExpiry
  /-- R153. The oven has held ±0.05 K for 30 s and OSC_WARMUP clears with event 0x2701. -/
  | oscWarmupClear
  /-- R154. The crystal leaves its band for over 1 s; OSC_WARMUP is set again and holdover goes out of spec. -/
  | oscTempExcursion
  /-- R155. A write of STEER_PPT sets the requested offset, toward which STEER_IN_FORCE ramps. -/
  | steerWrite (c : Caller) (token : Nat) (v : Int)
  /-- R158. Every 100 s while LOCKED, a mean of y and of compartment temperature is recorded and the model refitted. -/
  | hoModelRecord (temp : Int)
  /-- R160. Once a second the module judges HO_MODEL_VALID, raising 0x2703 or 0x2704 on change. -/
  | hoModelValidCheck
  /-- R161. Hourly the firmware saves D, c and their bounds to NAND. -/
  | hoModelSave
  /-- R164. Each second in holdover, FW is re-evaluated and H(tau), HO_TIME_LEFT and uncertainty updated. -/
  | holdoverTick (temp : Int)
  /-- R165. H(tau) reaches HO_BUDGET and PE0 leaves HOLDOVER_IN_SPEC for HOLDOVER_OUT_OF_SPEC. -/
  | hoBudgetExceeded
  /-- R170. At the first whole second inside the step window, Meridian time steps by the held residual. -/
  | returnStep
  /-- R171. The return residual reaches 0; RET_STATE IDLE, event 0x2707, PE0 LOCKED or ACQUIRING. -/
  | returnComplete
  /-- R180. Command starts a code-density campaign job over the converters of CAL_CD_MASK. -/
  | codeDensityStart (c : Caller) (token : Nat)
  /-- R179. A code-density run ends and is accepted or rejected as MISSING_CODE or CORRELATED. -/
  | converterRunComplete (v : Fin 52) (first second : Halves)
  /-- R175. After 1 s of overlap the calibrated twin goes into service and offset d is ramped in. -/
  | twinSwap (v : Fin 52) (d : Int)
  /-- R176. CAL_AUTO_PERIOD or a die temperature move starts automatic recalibration of twinned converters. -/
  | calAutoTrigger
  /-- R183. Each second the die temperature is taken and set values interpolated; leaving the span raises 0x2806. -/
  | calTempUpdate (t : Int)
  /-- R184. Command starts a link calibration job on a STOPPED port, else refused with STATE. -/
  | linkCalStart (c : Caller) (token : Nat) (p : Fin 32)
  /-- R185. A link calibration ends: success stores offsets and CALIBRATED, failure leaves them unchanged. -/
  | linkCalComplete (loops txs : List Int)
  /-- R186. Within 1 s of success, unless brace holds NAND writes, the firmware saves the calibration to NAND. -/
  | linkCalSave
  /-- R192. Each second a solver pair updates Delta RTT and its state, converging, holding or restarting. -/
  | asySolverTick (i : Fin 16)
  /-- R197. A TIC channel accepts an edge, latching cycle and vernier code into its capture queue. -/
  | ticEdge (c : Fin 8) (rising : Bool) (code : Nat)
  /-- R205. The encoder takes an edge from the capture queue, forms a result and updates statistics. -/
  | ticEncode (c : Fin 8)
  /-- R206. The record writer moves a result record from a channel queue into the LPDDR5 ring. -/
  | ticRecordWrite
  /-- R201. A FREQUENCY gate closes and its result is formed. -/
  | ticGateEnd (c : Fin 8)
  /-- R207. A measurement reaches 2^40 cycles without its closing edge and an OVERFLOW result is written. -/
  | ticOverflow (c : Fin 8)
  /-- R202. Command 1 arms the channel now or at TIC_ARM_AT. -/
  | ticArm (c : Caller) (token : Nat) (ch : Fin 8)
  /-- R202. Command 2 disarms the channel. -/
  | ticDisarm (c : Caller) (token : Nat) (ch : Fin 8)
  /-- R215. A read of TIC_RING_DATA returns whole records from the tenant's index and advances it. -/
  | ticRingRead (c : Caller) (token n : Nat)
  /-- R220. After 1 ms of lock free of faults, a port's link comes up with event 0x3101. -/
  | linkUp (p : Fin 32) (seen : LinkSeen)
  /-- R220. Loss of signal, lock or a fault takes the link down within 10 us and starts the link-down hold. -/
  | linkDown (p : Fin 32) (cause : Fin 3)
  /-- R223. The link-down hold expires: queued frames are flushed, dynamic entries removed, LAG membership left. -/
  | linkdownHoldExpiry (p : Fin 32)
  /-- R230. A received frame passes the forwarding pipeline and is trapped, dropped or enqueued. -/
  | frameRx (p : Fin 32) (f : Bytes) (pcs : Bool) (stamp : Stamp) (seen : RxSeen)
  /-- R276. The scheduler picks the next eligible frame of a port, dropping aged frames at the head. -/
  | egressSchedule (p : Fin 32) (parity : Bool)
  /-- R252. A copy's last byte is sent; its reference and egress credit are released. -/
  | frameTxDone (seen : TxSeen)
  /-- R228. A port without frames for P_IDLE_TIME enters phase-keeping idle. -/
  | portIdleEntry (p : Fin 32)
  /-- R229. A port leaves phase-keeping idle on a frame and is ready 2 us later or after the fabric start. -/
  | portIdleWake (p : Fin 32)
  /-- R238. Every SW_MAC_AGE_TIME / 2 an age pass ages dynamic entries and removes those reaching 3. -/
  | macAgePass
  /-- R239. FDB_OP 1 reads the entry of FDB_KEY into FDB_ENTRY. -/
  | fdbRead (c : Caller) (token : Nat)
  /-- R239. FDB_OP 2 writes a static entry, evicting a dynamic one or failing with RESOURCE. -/
  | fdbWriteStatic (c : Caller) (token : Nat)
  /-- R239. FDB_OP 3 deletes the entry of FDB_KEY. -/
  | fdbDelete (c : Caller) (token : Nat)
  /-- R239. FDB_OP 4 starts a flush job removing matching dynamic entries. -/
  | fdbFlush (c : Caller) (token : Nat)
  /-- R239. The MAC table flush job ends with event 0x3501. -/
  | fdbFlushComplete
  /-- R256. A window of 1,024 cell writes ends; persistent bank skew draws a new bank key. -/
  | bankWindow (n : Nat)
  /-- R256. Command draws a new bank key. -/
  | swReseed (c : Caller) (token : Nat)
  /-- R275. Every 1 us each queue's WRED average depth is updated. -/
  | wredAvgUpdate
  /-- R284. Command 1 snapshots the admin gate list and arms a change time. -/
  | gclChange (c : Caller) (token : Nat) (p : Fin 32)
  /-- R284. Command 2 cancels an armed gate list change. -/
  | gclChangeCancel (c : Caller) (token : Nat) (p : Fin 32)
  /-- R284. At the change time the new gate list starts at entry 0 with event 0x3201. -/
  | gclChangeApply (p : Fin 32)
  /-- R281. A gate control list interval ends and the next entry's gate states take effect. -/
  | gateEntry (p : Fin 32)
  /-- R286. The copy engine moves a frame from a compute queue to LPDDR5 and returns credits. -/
  | cqCopy
  /-- R299. A training frame's coefficient request is answered and taps updated. -/
  | laneTrainingFrameRx (l : Fin 32) (t : Training)
  /-- R300. max_wait_timer expires without both ends ready; training fails. -/
  | laneTrainingTimeout (l : Fin 32)
  /-- R300. 100 ms after a failure the lane trains again. -/
  | laneTrainingRetry (l : Fin 32)
  /-- R308. The PRBS checker loses lock on 256 errors in 1,024 bits and reseeds. -/
  | prbsLockLoss (l : Fin 32) (errs : Nat)
  /-- R309. Command clears LANE_PRBS_BITS and LANE_PRBS_ERRORS together. -/
  | prbsClear (c : Caller) (token : Nat) (l : Fin 32)
  /-- R310. Command 1 arms the lane error injector now or at LANE_INJ_AT. -/
  | laneInjArm (c : Caller) (token : Nat) (l : Fin 32)
  /-- R310. Command 2 disarms the lane error injector. -/
  | laneInjDisarm (c : Caller) (token : Nat) (l : Fin 32)
  /-- R310. The injector inverts a generator bit, once in SINGLE or every period in PERIODIC. -/
  | laneInjAct (l : Fin 32)
  /-- R311. A sideband scan completes, loading inputs and latching outputs of all 32 slots. -/
  | sidebandScan (inputs : List Nat)
  /-- R314. LANE_I2C_OP 1 queues a read transaction for the tenant. -/
  | i2cRead (c : Caller) (token : Nat) (l : Fin 32)
  /-- R314. LANE_I2C_OP 2 queues a write transaction for the tenant. -/
  | i2cWrite (c : Caller) (token : Nat) (l : Fin 32)
  /-- R314. An I2C transaction ends DONE, NACK, ABSENT or TIMEOUT with event 0x3808. -/
  | i2cTransactionDone (m : Fin 4) (ack timeout : Bool) (data : Bytes)
  /-- R321. A search dwell completes; a confirmed detection is handed to a tracking channel. -/
  | gnssDwell (e code svid : Nat) (elev : Int) (azim : Nat) (hit : Bool)
  /-- R326. At an epoch instant every locked channel is latched into a measurement record and the solution updated. -/
  | gnssEpochLatch (seen : List ChannelEpoch) (sol : Option Solution)
  /-- R320. The antenna current makes GNSS_ANT_STATE change, removing the supply on SHORT. -/
  | gnssAntChange (current : Nat) (limited : Bool)
  /-- R320. Every 10 s after a short the antenna supply is retried. -/
  | gnssAntRetry
  /-- R336. GNSS_JAM_IND stays at 10 dB or more for 1 s; event 0x4004. -/
  | gnssJamDetect (l1 l5 : Nat)
  /-- R339. The awake interval ends and the receiver sleeps, dropping its slot. -/
  | gnssDutySleep
  /-- R339. A duty-cycle period begins and the receiver wakes as a start of R322. -/
  | gnssDutyWake
  /-- R337. Command clears the keep data and their NAND copy while STOPPED. -/
  | gnssKeepClear (c : Caller) (token : Nat)
  /-- R337. Hourly the firmware writes almanacs, position and survey to NAND. -/
  | gnssKeepSave
  /-- R329. A read of GNSS_RING_DATA returns whole records and advances the tenant's index. -/
  | gnssRingRead (c : Caller) (token n : Nat)
  /-- R348. A sensor frame is matched to a stream, timed, and continues, gaps or is dropped. -/
  | sensorFrameIngest
  /-- R352. A graph operator consumes a block from its edge and emits its output under credits. -/
  | operatorBlock (g : Fin 16) (id : Nat)
  /-- R354. WAIT after a block's last instant the ALIGN block is emitted with missing samples invalid. -/
  | alignWaitExpiry (g : Fin 16) (id : Nat)
  /-- R365. Staged records are written to the flash ring in pages, erasing oldest blocks when full. -/
  | archiveFlashWrite
  /-- R367. Staged records are written to the NVMe ring in 128 KiB writes. -/
  | archiveNvmeWrite (done : Bool)
  /-- R367. After each second of writes an NVMe Flush is issued. -/
  | archiveNvmeFlush (done : Bool)
  /-- R368. Command starts a seek job for the first record at or after ARC_SEEK_TIME. -/
  | arcSeek (c : Caller) (token : Nat)
  /-- R368. The seek job sets ARC_RD and raises 0x5007. -/
  | arcSeekComplete
  /-- R368. A read of ARC_DATA returns whole records and advances ARC_RD. -/
  | arcRead (c : Caller) (token n : Nat)
  /-- R382. A COPY descriptor moves LENGTH bytes and writes back its status. -/
  | dmaCopy (turn : DmaTurn) (desc data : Bytes)
  /-- R385. A GATHER descriptor copies indexed elements into a contiguous destination. -/
  | dmaGather (turn : DmaTurn) (desc data : Bytes)
  /-- R383. An ALLOC descriptor obtains a pool buffer, waiting or ending NO_BUFFER. -/
  | dmaAlloc (ch : Fin 64) (desc : Bytes)
  /-- R376. A REF descriptor adds one to a buffer's reference count. -/
  | dmaRef (ch : Fin 64) (desc : Bytes)
  /-- R376. A RELEASE descriptor subtracts one, freeing the buffer at zero. -/
  | dmaRelease (ch : Fin 64) (desc : Bytes)
  /-- R386. A request fails; it is retried after 1 us, and after the last attempt the channel halts. -/
  | dmaBusError (ch : Fin 64) (cause : Nat) (write pool : Bool) (addr done : Nat)
  /-- R386. 1 us after a bus error the failing request is reissued. -/
  | dmaRetry (ch : Fin 64)
  /-- R387. DMAc_RESUME 1 reruns the failed descriptor from its start. -/
  | dmaResumeRetry (c : Caller) (token : Nat) (ch : Fin 64)
  /-- R387. DMAc_RESUME 2 writes back BUS_ERROR and moves HEAD past the descriptor. -/
  | dmaResumeSkip (c : Caller) (token : Nat) (ch : Fin 64)
  /-- R393. A BAR2 doorbell or DMAc_TAIL write sets the channel's TAIL, or is dropped and counted. -/
  | dmaDoorbell (bell : Bell) (ch : Fin 64) (v : Nat)
  /-- R389. A CQ_RX channel writes a frame with its header into a host descriptor, truncating if needed. -/
  | dmaCqRxFrame (turn : DmaTurn) (desc : Bytes)
  /-- R391. A RING_FOLLOW channel copies a source ring record into the host byte ring. -/
  | dmaRingFollowRecord (turn : DmaTurn)
  /-- R383. The IRQ hold-off ends and a pending completion event 0x5201 is raised. -/
  | dmaIrqHoldoffExpiry (ch : Fin 64)
  /-- R401. A READ request is checked and answered with one response. -/
  | odRead (c : Caller) (q : Request)
  /-- R399. A WRITE request to an entry without a row of its own takes effect as one value or not at all. -/
  | odWrite (c : Caller) (q : Request)
  /-- R403. A READ_SEG returns a DOMAIN segment or whole records. -/
  | odReadSeg (c : Caller) (q : Request)
  /-- R403. A WRITE_SEG accumulates a DOMAIN segment; LAST takes the value into force. -/
  | odWriteSeg (c : Caller) (q : Request)
  /-- R12. A write of 1 to a sticky bit clears it; 0 has no effect. -/
  | stickyClearWrite (c : Caller) (token index sub v : Nat)
  /-- R403. A DOMAIN accumulation or snapshot idle for 10 s is discarded. -/
  | domainSegTimeout
  /-- R406. A CAN FD fragment is received and reassembled; LAST delivers the message. -/
  | canFragmentRx (ctrl : Fin 2) (dest src ctl : Nat) (data : Bytes)
  /-- R406. No fragment for 100 ms: the partial message is discarded and counted. -/
  | canFragmentTimeout
  /-- R407. A write of 1 to MB_DOORBELL submits the mailbox request. -/
  | mbDoorbell (fn : Fin 4) (q : Request)
  /-- R407. A write of 1 to MB_ACK releases MB_RESPONSE and clears RESP_VALID. -/
  | mbAck (fn : Fin 4)
  /-- R408. The host advances MB_EVQ_TAIL, making room for queued events. -/
  | mbEvqTailWrite (fn : Fin 4) (tail : Nat) (setup : Option (Nat × Nat))
  /-- R410. Tenant 0 writes an arrival-point entry from an owner path, with event 0x1101. -/
  | apEntryWrite (c : Caller) (token : Nat) (n : Fin 64) (v : Nat)
  /-- R413. A queued event leaves a tenant's queue as a frame, CAN message or event-ring slot. -/
  | eventDeliver (t : Fin 8) (way : Option (Fin 4))
  /-- R413. A read of TNTt_EVENT_NEXT takes the oldest event from the tenant's queue. -/
  | tntEventNext (c : Caller) (token : Nat) (t : Fin 8)
  /-- R417. The dictionary server makes no progress for 500 ms and a watchdog reset follows. -/
  | watchdogExpiry
  /-- R419. FNf_CMD 1 runs the start checks and moves a STOPPED function to STARTING. -/
  | functionStart (c : Caller) (token : Nat) (f : Fin 168)
  /-- R419. FNf_CMD 2 moves a running function to STOPPING and sets its holder. -/
  | functionStop (c : Caller) (token : Nat) (f : Fin 168)
  /-- R419. A STARTING function has its RWS entries in force and becomes RUN. -/
  | functionRun (f : Fin 168)
  /-- R419. A STOPPING function completes its stop and becomes STOPPED. -/
  | functionStopped (f : Fin 168)
  /-- R422. The firmware runs one step of a job, which may end it DONE or FAILED. -/
  | jobStep (j : Fin 16) (good : Bool)
  /-- R423. JOBj_CTRL 1 pauses the job at the next step boundary. -/
  | jobPause (c : Caller) (token : Nat) (j : Fin 16)
  /-- R423. JOBj_CTRL 2 resumes a PAUSED job or withdraws a pending pause. -/
  | jobResume (c : Caller) (token : Nat) (j : Fin 16)
  /-- R423. JOBj_CTRL 3 ends the job ABORTED at the next step boundary. -/
  | jobAbort (c : Caller) (token : Nat) (j : Fin 16)
  /-- R425. Command starts a job writing the staged image into the slot that is not running. -/
  | imgCommit (c : Caller) (token : Nat)
  /-- R427. Command names a VALID slot for the next boot, else refused with STATE. -/
  | imgBootSelect (c : Caller) (token slot : Nat)
  /-- R427. A new image counts as confirmed after its server has run for 60 s. -/
  | imgConfirm
  /-- R428. Command starts a job saving RW/RWS entries and RUN functions to the older NAND copy. -/
  | cfgSave (c : Caller) (token : Nat)
  /-- R428. Command erases both saved configuration copies. -/
  | cfgClear (c : Caller) (token : Nat)
  /-- R428. After a reset the module writes the newest valid saved copy and starts saved RUN functions. -/
  | configRestore
  /-- R450. At every 50 us Meridian multiple a heartbeat block is sent on the partner link. -/
  | heartbeatTx
  /-- R450. A heartbeat is received and checked, updating partner state and export acknowledgement. -/
  | heartbeatRx (h : Heard)
  /-- R451. A heartbeat not arrived 10 us after its instant is missed: prewake, isolation or failure declared. -/
  | heartbeatMiss
  /-- R452. A falling edge of HANDOVER_N not driven by this module makes it take over or give up. -/
  | handoverNFall
  /-- R451. PARTNER_ALIVE falls while isolated, so the standby declares the active module failed. -/
  | partnerAliveFall
  /-- R453. Fabric tables are loaded; snapshot functions start and ports forward, event 0x6004. -/
  | switchoverTablesLoaded
  /-- R447. Every 100 ms the active module exports a complete snapshot on JOB15. -/
  | stateExport
  /-- R448. A received snapshot passing CRC and sequence replaces the held one, or is discarded. -/
  | snapshotRx (x : Snapshot) (whole crcOk : Bool)
  /-- R448. The held snapshot becomes older than EXPORT_AGE_LIMIT; event 0x6007 once. -/
  | snapshotAgeExpiry
  /-- R455. A starting pair module resolves its role after waiting for heartbeats. -/
  | pairStartupTimeout
  /-- R457. Command starts a switch-back: final export, then giving up the role. -/
  | pairSwitchBack (c : Caller) (token : Nat)
  /-- R457. The final export is not acknowledged within 100 ms; the command ends unchanged. -/
  | switchBackTimeout
  /-- R462. A cross-watch comparison runs and a trip enters the safe state. -/
  | xwCheck (code inst : Nat) (diff : Int)
  /-- R463. Every XW_SELFTEST_PERIOD each check is run with a moved expected value. -/
  | xwSelftest (tripped : Bool)
  /-- R468. Command enters the safe state with cause [3]. -/
  | safeForce (c : Caller) (token : Nat)
  /-- R468. Command leaves the safe state when no cause has recurred for 10 s, else STATE. -/
  | safeClear (c : Caller) (token : Nat)
  /-- R466. A scrub pass completes with event 0x7006, having corrected or reported errors. -/
  | scrubPass (fixed : List Nat) (bad : List (Nat × Nat)) (cells : Nat)
  /-- R470. A programmable counter passes 2^48 - 1, reloads and may raise 0x7101. -/
  | cntOverflow (n : Fin 64)
  /-- R473. At each dump instant a counter snapshot becomes a record in the dump ring. -/
  | cntDump
  /-- R473. Command takes one counter snapshot into the dump ring. -/
  | cntSnapshot (c : Caller) (token : Nat)
  /-- R474. A read of CNT_RING_DATA returns masked records and advances the tenant's index. -/
  | cntRingRead (c : Caller) (token n : Nat)
  /-- R475. FIPn_ARM 1 snapshots the injector settings and arms it at FIPn_ARM_AT. -/
  | fipArm (c : Caller) (token : Nat) (p : Fin 32)
  /-- R475. FIPn_ARM 2 disarms the injector with event 0x7202. -/
  | fipDisarm (c : Caller) (token : Nat) (p : Fin 32)
  /-- R476. Held REORDER frames are released 10 ms after the first was held. -/
  | fipReorderTimeout (p : Fin 32)
  /-- R476. A DELAY-held frame's hold ends and it is sent when its gate is open. -/
  | fipDelayExpiry (p : Fin 32)
  /-- R476. Command moves one cross-watch check's expected value for one comparison. -/
  | fiXwTest (c : Caller) (token check : Nat)
  /-- R476. Command 1 writes the next packet-memory cell with one flipped bit. -/
  | fiEccTestSingle (c : Caller) (token : Nat)
  /-- R476. Command 2 writes the next packet-memory cell with two flipped bits. -/
  | fiEccTestDouble (c : Caller) (token : Nat)
  /-- R484. The input in use falls below SUP_WARN_V: change to VBAK or enter brace. -/
  | vinBelowWarning (vin vbak : Nat)
  /-- R480. VIN held above warning plus hysteresis for 200 ms; the module returns to VIN. -/
  | vinReturn (vin : Nat)
  /-- R485. The input held above warning plus hysteresis for 200 ms; brace is left and NAND writes resume. -/
  | braceExit (input : Nat)
  /-- R487. Both inputs below 6.8 V: the module runs from VHOLD and programs the NAND brace record. -/
  | holdUpEntry (vin vbak : Nat)
  /-- R487. An input rises above 7.9 V before VHOLD reaches 20 V; hold-up ends without reset. -/
  | holdUpRecover (vin vbak vhold : Nat)
  /-- R487. VHOLD reaches 20 V and a supply-fail reset with power-on reach follows. -/
  | supplyFailReset (vhold : Nat)
  /-- R497. An input first exceeds 7.9 V and the start-up timeline begins. -/
  | powerOn (vin vbak : Nat)
  /-- R489. RESET_N low for 1 us starts a warm pin reset. -/
  | warmPinReset
  /-- R489. RESET_N still low 10 ms after its fall; the reset becomes a cold pin reset. -/
  | coldPinReset
  /-- R493. Command from tenant 0 starts a commanded warm reset within 1 ms. -/
  | rstWarm (c : Caller) (token : Nat)
  /-- R493. Command from tenant 0 starts a commanded firmware restart within 1 ms. -/
  | rstFwRestart (c : Caller) (token : Nat)
  /-- R528. Command resets the blocks of one STOPPED function outside the Vesper domain. -/
  | rstFunction (c : Caller) (token : Nat) (f : Nat)
  /-- R490. A reset's cause ends and, after its hold time, the cleared parts restart. -/
  | resetRelease
  /-- R495. The dictionary server runs after a firmware-loading reset; event 0x1305 and reset counted. -/
  | firmwareStart
  /-- R519. The die reaches +135 C and the module turns off its rails. -/
  | thermalTrip
  /-- R308. The PRBS checker locks after 64 successive received bits that match its prediction and starts counting bits and errors. -/
  | prbsLock (l : Fin 32)
  /-- R325. At the end of each coherent integration period a tracking channel updates its PLL and DLL, declaring carrier lock, a slip or loss of code lock, and channels are assigned or released as satellites cross the mask. -/
  | gnssCoherentIntegration (c : Fin 80) (m : Coherent)
  /-- R132. Three Sync intervals pass with no Sync of the slot's domain and the PORT_PTP slot becomes inactive. -/
  | ptpSyncTimeout (p : Fin 32)
  /-- R437. The PCIe link trains or goes down, changing CAP_PCIE_LINK and, as root port, releasing PCIE_PERST_N. -/
  | pcieLinkChange (gen width : Nat)
  /-- R485. VBAK rises to or above SUP_WARN_V during brace, the module changes to VBAK and leaves brace. -/
  | vbakAboveWarning (vbak : Nat)
  /-- R482. VHOLD crosses 50 V and SUP_HOLDUP_READY becomes true or false. -/
  | holdupReadyChange (vhold : Nat)
  /-- R455. PARTNER_ALIVE rises within 1 ms after this module drove ROLE high at start-up, and position B drives ROLE low and becomes STANDBY_SYNCING. -/
  | partnerAliveRise
  /-- R516. 10 ms after a reset that clears the management subsystem ends, PHY_RESET_N goes high. -/
  | phyResetRelease
  deriving DecidableEq, Repr

end Sys2Proof
end

