-- ==== Sys2Proof/Decode.lean ====
section
/-! DEFINITION. The commands that words of spec/opcode_table.json spell. -/

namespace Sys2Proof

/-- No row of the table has bits: commands arrive as frames, messages, register writes and events, not as words (log 1). -/
def decodeTableWord (_nbits _w : Nat) : Option Instr := none

end Sys2Proof
end

