-- ==== Sys2Proof/Machine/StCompute.lean ====
section
/-! DEFINITION. State of the compute subsystem that has no dictionary entry (chapters 13 and 14): streams, graphs, the archive, buffer pools,
DMA channels. Times of samples are time words in ticks. -/

namespace Sys2Proof.Machine

/-- A sample (R347, R349): value, valid bit, time, status word, steps of Meridian time when it was taken. -/
structure Smp where
  v : Int
  ok : Bool
  t : Nat
  st : Nat
  ep : Nat
  deriving DecidableEq, Repr

/-- A block on an edge (R352): samples by channel. `kind` 1 marks a coded block and 2 a summary, whose payloads by channel are in `data`. -/
structure Blk where
  kind : Nat := 0
  cols : List (List Smp)
  data : List Bytes := []
  deriving DecidableEq, Repr

/-- An operator of a descriptor (Table 13.3). -/
structure OpDesc where
  op : Nat
  id : Nat
  inKind : Nat
  input : Nat
  first : Nat
  count : Nat
  params : Bytes
  deriving DecidableEq, Repr

/-- One IIR section's history (R356), newest first. -/
structure Biquad where
  x1 : Int := 0
  x2 : Int := 0
  y1 : Int := 0
  y2 : Int := 0
  deriving DecidableEq, Repr

/-- A PEAKRMS window that runs (R358): samples so far, valid ones, least and largest value, sum of squares, its first and last sample. -/
structure Win where
  all : Nat := 0
  n : Nat := 0
  lo : Int := 0
  hi : Int := 0
  sq : Nat := 0
  first : Option Smp := none
  last : Option Smp := none
  deriving DecidableEq, Repr

/-- One channel of an operator: samples held (ingest of a block being filled, samples ALIGN has not placed, FIR or DECIMATE history newest
first), PEAKRMS window and summaries not yet a block, IIR sections with the outputs still to be marked invalid, STA and LTA in 2⁻¹⁶, samples since arming began,
when it turned on and its peak ratio. -/
structure OpCh where
  held : List Smp := []
  hist : List Smp := []
  win : Win := {}
  sums : List (Bytes × Smp × Smp) := []
  sect : List Biquad := []
  bad : Nat := 0
  sta : Int := 0
  lta : Int := 0
  seen : Nat := 0
  onAt : Option Nat := none
  deriving DecidableEq, Repr

/-- An operator's state: its edge (oldest first), its channels, output not yet a block, the next grid instant of ALIGN and the steps of time
its grid belongs to, the trigger with its peak, triggers so far (on, off), blocks RECORD holds, the time STALTA has reached. -/
structure OpSt where
  edge : List Blk := []
  ch : Table OpCh := []
  out : Table (List Smp) := []
  grid : Option Nat := none
  ep : Nat := 0
  on : Option Nat := none
  peak : Nat := 0
  trig : List (Nat × Option Nat) := []
  held : List Blk := []
  reached : Nat := 0
  deriving DecidableEq, Repr

/-- A graph in force (R350): block size, operators and their state, when it was last stopped. -/
structure Graph where
  block : Nat := 64
  ops : List OpDesc := []
  st : Table OpSt := []
  stoppedAt : Option Nat := none
  deriving DecidableEq, Repr

/-- A stream (R348): the expected time of its next sample, and whether its first frame since a start is still to come. -/
structure Stream where
  exp : Option Nat := none
  fresh : Bool := true
  deriving DecidableEq, Repr

/-- An archive record before it has its sequence number (Table 13.7). -/
structure ArcRec where
  type : Nat
  graph : Nat
  channel : Nat
  when_ : Bytes
  rate : Nat
  samples : Nat
  flags : Nat
  payload : Bytes
  deriving DecidableEq, Repr

/-- A record in staging and the targets that have not taken it whole (R366). -/
structure Staged where
  item : ArcRec
  flash : Bool
  nvme : Bool
  deriving DecidableEq, Repr

/-- The archive: staging, oldest first; for flash and NVMe the next SEQ, the bytes of the oldest record already written, the ring's records
newest first; bytes ever written to flash, blocks that wait because staging is full, failed NVMe attempts, the time of the last flush and the bytes written to the drive by then. -/
structure Arc where
  staged : List Staged := []
  flashSeq : Nat := 0
  flashPart : Nat := 0
  flash : List (Nat × Bytes) := []
  written : Nat := 0
  nvmeSeq : Nat := 0
  nvmePart : Nat := 0
  nvme : List (Nat × Bytes) := []
  nvmeUsed : Nat := 0
  nvmeTries : Nat := 0
  flushAt : Nat := 0
  flushed : Nat := 0
  full : Bool := false
  wearRaised : Bool := false
  deriving DecidableEq, Repr

/-- An allocated buffer (R375, R376). -/
structure Buf where
  refs : Nat
  owner : Nat
  deriving DecidableEq, Repr

/-- A request that waits for a buffer (R374): of an ALLOC descriptor of a channel (below 64), or of compute queue q (64 + q); bytes, tenant. -/
structure PoolWait where
  who : Nat
  bytes : Nat
  tenant : Nat
  deriving DecidableEq, Repr

/-- A frame in a buffer (R389): handle and bytes, header included. -/
structure CqFrame where
  handle : Nat
  len : Nat
  deriving DecidableEq, Repr

/-- A part of what a channel still has to read: bytes that PCIe reads return or that it holds, or a range of the pool region. -/
inductive Piece where
  | bytes (l : Bytes)
  | pool (addr len : Nat)
  deriving DecidableEq, Repr

/-- What a channel's work is: a COPY or GATHER descriptor, a frame for a host buffer (R389), a record for a host ring (R391) with the bytes
by which HEAD then moves. -/
inductive DmaWork where
  | desc
  | frame
  | record (head : Nat)
  deriving DecidableEq, Repr

/-- Work that a channel has taken up (R380, R381): its descriptor, what it still has to read, its channel buffer, the space and address of its
destination with the bytes already written there, the result with which it ends. -/
structure DmaJob where
  work : DmaWork
  raw : Bytes
  todo : List Piece
  buffered : Bytes := []
  space : Nat
  to_ : Nat
  written : Nat := 0
  result : Nat := 0
  deriving DecidableEq, Repr

/-- A DMA channel (R383 to R394): attempts at the failing request, its address, when it is reissued, whether it was; the bytes written when
the channel halted and whether reading the descriptor failed; interrupt hold-off; frames in buffers; the source ring index; the ALLOC
descriptor that waits with its tail; the work in hand. -/
structure DmaCh where
  job : Option DmaJob := none
  tries : Nat := 0
  errAddr : Nat := 0
  retryAt : Option Nat := none
  reissued : Bool := false
  errBytes : Nat := 0
  errFetch : Bool := false
  irqAt : Option Nat := none
  irqWait : Option Nat := none
  frames : List CqFrame := []
  src : Nat := 0
  wait : Option Bytes := none
  aborted : Bool := false
  deriving DecidableEq, Repr

/-- The compute subsystem: graphs, streams, frames for the stream engine (compute queue, frame), archive, buffers by handle, wait lists by
pool, DMA channels, the channel granted the last beat (R380), frames copied by queue, buffers granted to a compute queue's frame. -/
structure Compute where
  graph : Table Graph := []
  stream : Table Stream := []
  inbox : List (Nat × CqFrame) := []
  arc : Arc := {}
  buf : Table Buf := []
  waits : Table (List PoolWait) := []
  dma : Table DmaCh := []
  lastWin : Nat := 63
  cqSeq : Table Nat := []
  grant : Table Nat := []
  deriving DecidableEq, Repr

end Sys2Proof.Machine
end

