-- ==== Sys2Proof/Machine/StGnss.lean ====
section
/-! DEFINITION. State of the GNSS receiver that has no dictionary entry (chapter 12). -/

namespace Sys2Proof.Machine

/-- A tracking channel beyond its entries (R324, R325): lock since (cycle), since when the indicator exceeds 0.8, whether it is below 0.5, slips,
half-cycle knowledge, the nine correlators' I and Q over the last coherent period as the record scales them, the prompt magnitudes of the last
second (cycle, 1/256), the code discriminator in 2⁻¹⁶ (none where its divisor is 0). -/
structure GnssCh where
  lockAt : Option Nat := none
  highAt : Option Nat := none
  below : Bool := false
  slips : Nat := 0
  half : Bool := false
  corr : List (Int × Int) := []
  prompts : List (Nat × Nat) := []
  disc : Option Int := none
  deriving DecidableEq, Repr

/-- The keep data (R337): almanac time, ephemerides by satellite with reception times, by system the UTC offset with the leap it announces and
reception time and the ionosphere parameters, position with its bound in mm, survey result, time link; `good` says the CRC holds. Times are
time words. -/
structure Keep where
  almanac : Option Nat := none
  eph : Table Nat := []
  utc : Table (Int × Nat × Nat × Nat) := []
  iono : Table Bytes := []
  pos : Option (Bytes × Nat) := none
  survey : Option Bytes := none
  link : Option (Int × Nat) := none
  good : Bool := false
  deriving DecidableEq, Repr

/-- What NAND holds of the keep data. -/
structure KeepNand where
  almanac : Option Nat := none
  pos : Option (Bytes × Nat) := none
  survey : Option Bytes := none
  deriving DecidableEq, Repr

/-- The receiver: whether it is awake, when it was asked to start, whether it has had its first solution, channels, search engines
(signal, satellite of a first detection), epoch count, records that wait for the ring with the epochs skipped before each, the ring,
the last epoch instant, the cycle of the last solution, steps of time seen, survey sums, antenna timers, the gains of the two bands over the last
24 h (cycle, L1, L5), jamming timer, keep data. -/
structure Gnss where
  awake : Bool := false
  startAt : Nat := 0
  fixed : Bool := false
  ch : Table GnssCh := []
  engine : Table (Nat × Nat) := []
  epoch : Nat := 0
  queue : List Bytes := []
  ring : List Bytes := []
  lastAt : Option Nat := none
  steps : Nat := 0
  lastClass : Nat := 0
  lastUsed : Nat := 0
  solvedAt : Nat := 0
  surveyAt : Option Nat := none
  surveyN : Nat := 0
  surveySum : Int × Int × Int := (0, 0, 0)
  shortAt : Option Nat := none
  cut : Bool := false
  retryAt : Nat := 0
  gains : List (Nat × Nat × Nat) := []
  jamAt : Option Nat := none
  jamRaised : Bool := false
  keep : Keep := {}
  nand : KeepNand := {}
  savedAt : Nat := 0
  deriving DecidableEq, Repr

end Sys2Proof.Machine
end

