-- ==== Sys2Proof/Machine/StLane.lean ====
section
/-! DEFINITION. State of the lanes that has no dictionary entry (chapter 11): training, checker, injector, sideband chain, I2C masters. -/

namespace Sys2Proof.Machine

/-- A lane: the start of the present training, readiness of both ends, requests made of the peer, whether a failure since the last start
or success is reported, when it failed (R299, R300); the checker's lock with the counts before it (R308); the injector's settings,
start and acts (R310); the sideband inputs of the last scan (R312). -/
structure Lane where
  trainAt : Nat := 0
  localReady : Bool := false
  peerReady : Bool := false
  asked : Nat := 0
  failed : Bool := false
  failAt : Nat := 0
  lockAt : Option Nat := none
  base : Nat := 0
  injMode : Nat := 0
  injPeriod : Nat := 0
  injArmed : Bool := false
  injActing : Bool := false
  injSince : Nat := 0
  injActs : Nat := 0
  sbLast : Option Nat := none
  deriving DecidableEq, Repr

/-- An I2C transaction as accepted (R314): tenant, lane, 1 read or 2 write, settings, whether I2C_SEL is set, whether it runs. -/
structure I2cTx where
  tenant : Nat
  lane : Nat
  op : Nat
  dev : Nat
  offset : Nat
  page : Nat
  len : Nat
  data : Bytes
  sel : Bool := false
  busy : Bool := false
  deriving DecidableEq, Repr

/-- The lanes, the sideband values being shifted and those at the registers by slot, the I2C masters' transactions in order. -/
structure Lanes where
  lane : Table Lane := []
  shift : Table Nat := []
  lines : Table Nat := []
  i2c : Table (List I2cTx) := []
  deriving DecidableEq, Repr

end Sys2Proof.Machine
end

