-- ==== Sys2Proof/Machine/StMgmt.lean ====
section
/-! DEFINITION. State of the management subsystem that has no numeric dictionary entry: event queues (R412, R413), the dictionary
server with its paths (R400 to R416), functions (R418 to R420), jobs (R421 to R424), images and saved configuration (R425 to R428). -/

namespace Sys2Proof.Machine

/-- A tenant's event queue, oldest first (R413), with the counters and sticky bits of Table 15.15 that raising an event touches. -/
structure TenantEv where
  queue : List Event := []
  seq : Nat := 0
  lost : Nat := 0
  lostSince : Nat := 0
  sticky : Nat := 0
  deriving DecidableEq, Repr

/-- A response kept for a resend (R402). -/
structure Kept where
  token : Nat
  op : Nat
  index : Nat
  sub : Nat
  resp : Response
  deriving DecidableEq, Repr

/-- A request accepted and waiting for the server (R401, R414): the tenant it arrived as, the arrival-point entry and whether that is an owner
path, the requester, and OD 0x2000 as latched when it arrived (R61). -/
structure Waiting where
  tenant : Nat
  point : Nat
  owner : Bool
  caller : Caller
  req : Request
  latch : List Int := []
  deriving DecidableEq, Repr

/-- A DOMAIN value being written or read in segments (R403). -/
structure Segments where
  index : Nat
  sub : Nat
  bytes : Bytes
  at_ : Nat
  deriving DecidableEq, Repr

/-- A message being reassembled from CAN FD fragments (R406). -/
structure CanPart where
  next : Nat
  bytes : Bytes
  at_ : Nat
  deriving DecidableEq, Repr

/-- A PCIe mailbox and event ring (Table 15.6). -/
structure Mailbox where
  pending : Option Request := none
  response : Option Response := none
  evqBase : Nat := 0
  evqSize : Nat := 0
  evqHead : Nat := 0
  evqTail : Nat := 0
  deriving DecidableEq, Repr

/-- The dictionary server: whether its firmware runs, who was served last, what waits, kept responses by arrival point,
accumulations and snapshots by tenant, partial CAN messages by controller and node, mailboxes by function, figures latched for
a tenant and not yet read (R209, R309), by entry and tenant. -/
structure Server where
  running : Bool := false
  runAt : Nat := 0
  progressAt : Nat := 0
  schedAt : Nat := 0
  last : Nat := 7
  queue : List Waiting := []
  kept : Table (List Kept) := []
  accs : Table Segments := []
  snaps : Table Segments := []
  can : Table CanPart := []
  box : Table Mailbox := []
  latched : Table Int := []
  deriving DecidableEq, Repr

/-- A function's pending stop and the tenant that asked for it (R419, R420). -/
structure FnSt where
  stopPending : Bool := false
  stopper : Nat := 255
  deriving DecidableEq, Repr

/-- What a job works on and where it stands (R421 to R424, Table 15.11); its numbers are in the dictionary. -/
structure Job where
  pausePending : Bool := false
  abortPending : Bool := false
  endedAt : Nat := 0
  todo : List Nat := []
  arg : Nat := 0
  temp : Int := 0
  deriving DecidableEq, Repr

/-- A copy of the boot record (R426). -/
structure BootRecord where
  seq : Nat := 0
  slot : Nat := 0
  valid : Bool := true
  deriving DecidableEq, Repr

/-- A saved configuration copy (R428). -/
structure SavedCfg where
  seq : Nat := 0
  time : Nat := 0
  entries : Table Int := []
  blobs : Table Bytes := []
  running : List Nat := []
  valid : Bool := true
  deriving DecidableEq, Repr

/-- Safety and cross-watch (chapter 18): datapath errors of the last second, the last cause that may recur, checks passed since reset, the
last self-test, checks whose expected value a test moves, snapshots that wait to be written. -/
structure SafeSt where
  dpAt : List Nat := []
  causeAt : Option Nat := none
  passed : Nat := 0
  selfAt : Nat := 0
  test : Nat := 0
  dumpQueue : List Bytes := []
  dumpRing : List Bytes := []
  dumpSeq : Nat := 0
  dumpMissed : Bool := false
  dumpAt : Nat := 0
  scrubAt : Nat := 0
  scrubLate : Bool := false
  deriving DecidableEq, Repr

end Sys2Proof.Machine
end

