-- ==== Sys2Proof/Machine/StPower.lean ====
section
/-! DEFINITION. State of power, reset and start-up that has no dictionary entry (chapter 19), of the firmware images in NAND (R425 to R427),
and of the lands that no other unit holds. -/

namespace Sys2Proof.Machine

/-- The brace record (Table 19.4): holdover model and frequency word; archive write position, bytes staged, time of the last durable record of
each graph; wear; SUP_VIN_MIN and the reset cause under way. (DEDUCED, log 113.) -/
structure BraceRecord where
  model : Option (Int × Int × Nat × Nat × Nat) := none
  fw : Int := 0
  arcSeq : Nat := 0
  staged : Nat := 0
  lastWhen : Table Nat := []
  wear : Nat := 0
  vinMin : Nat := 0
  cause : Nat := 0
  deriving DecidableEq, Repr

/-- An image slot of NAND: the image a commit wrote (none where the slot holds what it left the factory with), whether it is confirmed,
how often it has been booted unconfirmed. -/
structure ImageSlot where
  image : Option Bytes := none
  confirmed : Bool := true
  tries : Nat := 0
  deriving DecidableEq, Repr

/-- Resets under way (R490, R494): sources by code of Table 19.6, functions being reset, a commanded reset that starts within 1 ms (R493), parts held and parts cleared since the last restore (1 Vesper, 2 fabric, 4 compute, 8 GNSS,
16 management), since when; the fall of RESET_N; the source that the firmware has still to report, and whether it has to report a
watchdog reset. -/
structure ResetSt where
  active : List Nat := []
  fns : List Nat := []
  ordered : Option Nat := none
  parts : Nat := 0
  cleared : Nat := 31
  since : Nat := 0
  fellAt : Option Nat := none
  report : Option Nat := none
  watchdog : Bool := false
  deriving DecidableEq, Repr

/-- Supply and lands: whether the rails are on, VIN and VBAK as last reported and VHOLD in mV, when brace was entered, brace records in retained SRAM and in NAND with whether the latter has been
consumed, NAND counters of resets, when the last reset of the management subsystem ended, PHY_RESET_N and PCIE_PERST_N as driven, image
slots. -/
structure Power where
  rails : Bool := true
  supply : Option (Nat × Nat) := none
  vhold : Nat := 0
  braceAt : Nat := 0
  sram : Option BraceRecord := none
  nand : Option BraceRecord := none
  consumed : Bool := true
  rst : ResetSt := {}
  phyAt : Nat := 0
  phyHigh : Bool := false
  perstHigh : Bool := false
  images : Table ImageSlot := []
  deriving DecidableEq, Repr

end Sys2Proof.Machine
end

