-- ==== Sys2Proof/Machine/Block.lean ====
section
/-! DEFINITION. The module's whole state but for the command queue and the pool memory: one field for the numeric entries of the
dictionary, one for the byte entries, and one per unit for what has no entry. -/

namespace Sys2Proof.Machine

/-- What the module sends to the outside. -/
inductive Output where
  | response (dest : Caller) (r : Response)
  | event (dest : Caller) (e : Event)
  | marker (port : Nat) (m : Word64)
  | msix (fn vec : Nat)
  | frame (port : Nat) (bytes : Bytes)
  | training (lane : Nat) (status : List Nat) (request : List Nat) (ready : Bool)
  | sideband (slots : Table Nat)
  | i2c (lane : Nat) (op rate dev page offset : Nat) (data : Bytes)
  | pcieWrite (fn addr : Nat) (data : Bytes)
  | pcieRead (fn addr len : Nat)
  | nvme (op lba : Nat) (data : Bytes)
  | heartbeat (w : Word64)
  | snapshot (s : Snapshot)
  | carried (x : Carry)
  deriving DecidableEq, Repr

/-- The timing subsystem. -/
structure Timing where
  mt : Meridian := {}
  reel : Table Reel := []
  esmc : Table Esmc := []
  ptp : Table PtpPort := []
  pe : Table Engine := []
  out : Table OutSt := []
  commit : Option Commit := none
  refin : Table Refin := []
  slot : Table Slot := []
  sel : Selector := {}
  osc : Osc := {}
  ho : Holdover := {}
  cal : Cal := {}
  tic : Table Tic := []
  ticRing : List Bytes := []
  ticNext : Nat := 0
  deriving DecidableEq, Repr

/-- The management subsystem. `from_` holds, for each arrival point, the requester of the last request accepted there (R413); `cnt` holds, for each programmable counter in a mode other than OFF, its select and mode (R470). -/
structure Mgmt where
  ev : Table TenantEv := []
  from_ : Table Caller := []
  lim : Table Nat := []
  srv : Server := {}
  fn : Table FnSt := []
  job : Table Job := []
  nextJob : Nat := 0
  cnt : Table (Nat × Nat) := []
  safe : SafeSt := {}
  boot : List BootRecord := []
  cfg : List SavedCfg := []
  deriving DecidableEq, Repr

/-- The module. `cyc` counts Vesper cycles, `free` the free values drawn so far, `od` and `blobs` hold the dictionary by key,
`clk` the fast clocks, `cross` the crossings, `gen` the reset generations, `sent` what was sent, oldest first. `pokes` and `ramLost` are what a command does to the pool memory, empty between commands. -/
structure Block where
  cyc : Nat := 0
  free : Nat := 2
  od : Table Int := []
  blobs : Table Bytes := []
  clk : Table ClockSt := []
  cross : Table Crossing := []
  gen : Table Nat := []
  sent : List Output := []
  pokes : List (Nat × Bytes) := []
  ramLost : Bool := false
  tm : Timing := {}
  fab : Fabric := {}
  mg : Mgmt := {}
  ln : Lanes := {}
  gn : Gnss := {}
  cp : Compute := {}
  pr : Pair := {}
  pw : Power := {}
  deriving DecidableEq, Repr

end Sys2Proof.Machine
end

