-- ==== Sys2Proof/Config.lean ====
section
/-! DEFINITION. What the spec leaves to the factory, the straps, the NAND contents or to no stated value: constants without a
body, so that no statement can rest on one of them (assumption log rows 3 and 4). -/

namespace Sys2Proof.Config

/-- The value of the n-th free value that a run draws (log 4): a value the spec leaves open after an effect it does give. -/
opaque freeValue : Nat → Nat

/-- Factory and image identity values (R436, Table 16.1). (DESIGN CHOICE, log 3.) -/
opaque orderingCode : Nat
opaque fwBuild : Nat
opaque serialNumber : List (BitVec 8)
opaque moduleIdentity : Nat
opaque macAddress : List (BitVec 8)
opaque bootRom : Nat

/-- The straps as the carrier sets them (R437, R509): PCIe role, enabled functions. (DESIGN CHOICE, log 3.) -/
opaque strapPcieRole : Nat
opaque strapPcieFunctions : Nat

/-- NAND contents at power-on: running slot, boot record and slot states (R425, R426). (DESIGN CHOICE, log 3.) -/
opaque nandRunning : Nat
opaque nandBootNext : Nat
opaque nandSlotAState : Nat
opaque nandSlotBState : Nat

/-- Factory temperature coefficient of the oscillator (Table 6.4). (DESIGN CHOICE, log 3.) -/
opaque tempCoef : Int
/-- Factory default of a dictionary entry whose default the spec calls Factory or NAND and that has no constant above, by key. (DESIGN CHOICE, log 3.) -/
opaque factoryEntry : Nat → Int

/-- A fixed path delay of a temperature set in fs: set, item (R181). (DESIGN CHOICE, log 3.) -/
opaque setValue : Nat → Nat → Int
/-- Width of a bin, and time of a code, of a converter's factory table, in fs (R212). (DESIGN CHOICE, log 3.) -/
opaque factoryBin : Nat → Nat → Nat
opaque factoryTime : Nat → Nat → Nat

/-- Number of bins of a converter's factory table, and the eight temperature sets as CAL_SET_DATA gives them (R212, Table 7.8). (DESIGN CHOICE, log 3.) -/
opaque factoryBins : Nat → Nat
opaque calSetData : List (BitVec 8)

/-- The hash that places a MAC address and VLAN in a bucket of the MAC table under a key (R235). (DESIGN CHOICE, log 3 and 67.) -/
opaque macBucket : Nat → Nat → Nat → Nat
/-- The bank of a cell of packet memory: its bank key, the queue, the frame's sequence number in its queue, the cell's index (R255). (DESIGN CHOICE, log 3 and 67.) -/
opaque bankOf : Nat → Nat → Nat → Nat → Nat

/-- The LPDDR5 bank in which an address lies, as event 0x7003 names it. (DESIGN CHOICE, log 3.) -/
opaque lpddrBank : Nat → Nat

/-- Size in bytes of an erase block of the flash ring (R365), and of a logical block of the NVMe drive (R367). (DESIGN CHOICE, log 3; DEDUCED, log 83.) -/
opaque eraseBlock : Nat
opaque logicalBlock : Nat
/-- Group delay in ticks of the front end for a signal code at a die temperature (R327). (DESIGN CHOICE, log 3.) -/
opaque frontEnd : Nat → Int → Int

/-- Whether an image bears Berolmyth's signature (R425), and the release it holds: major, minor, build (R436). (DESIGN CHOICE, log 3; DEDUCED, log 103.) -/
opaque imageSigned : List (BitVec 8) → Bool
opaque imageMajor : List (BitVec 8) → Nat
opaque imageMinor : List (BitVec 8) → Nat
opaque imageBuild : List (BitVec 8) → Nat

end Sys2Proof.Config
end

