-- ==== Sys2Proof/Machine/Bits.lean ====
section
/-! DEFINITION. Bit fields, byte order, sign conversion and integer square root on the numbers the dictionary and the records
hold (R9). -/

namespace Sys2Proof.Machine

/-- Bits [lo + n - 1 : lo] of a number. -/
def bits (v lo n : Nat) : Nat := v / 2 ^ lo % 2 ^ n

/-- Bit i of a number. -/
def bit (v i : Nat) : Bool := v / 2 ^ i % 2 == 1

/-- A Bool as 0 or 1. -/
def b2n (b : Bool) : Nat := if b then 1 else 0

/-- The n low bytes of a number, least significant first (R9). -/
def toLE : Nat → Nat → Bytes
  | 0, _ => []
  | n + 1, v => BitVec.ofNat 8 v :: toLE n (v / 256)

/-- The number that bytes spell, least significant first (R9). -/
def ofLE : Bytes → Nat
  | [] => 0
  | b :: r => b.toNat + 256 * ofLE r

/-- The n low bytes of a number, most significant first, as network fields are sent (R9). -/
def toBE (n v : Nat) : Bytes := (toLE n v).reverse

/-- A number of n bits read as two's complement. -/
def signed (n : Nat) (v : Nat) : Int := if v % 2 ^ n < 2 ^ (n - 1) then ((v % 2 ^ n : Nat) : Int) else ((v % 2 ^ n : Nat) : Int) - 2 ^ n

/-- The low n bits of an integer in two's complement. -/
def unsigned (n : Nat) (v : Int) : Nat := (v % 2 ^ n).toNat

/-- Digit-by-digit integer square root, two bits of the operand a step. -/
def isqrtAux : Nat → Nat → Nat
  | 0, _ => 0
  | k + 1, v =>
    let r := 2 * isqrtAux k (v / 4)
    if (r + 1) * (r + 1) ≤ v then r + 1 else r

/-- The integer square root, rounded down, of a number below 2 ^ 256. (DESIGN CHOICE, log 12.) -/
def isqrt (v : Nat) : Nat := isqrtAux 128 v

/-- The integer square root rounded up: the least r with v ≤ r * r. (DESIGN CHOICE, log 12.) -/
def isqrtUp (v : Nat) : Nat := let r := isqrt v; if r * r == v then r else r + 1

/-- Division rounded up. -/
def divUp (a b : Nat) : Nat := (a + b - 1) / b

/-- The value kept within lo and hi. -/
def clampN (lo hi v : Nat) : Nat := if v < lo then lo else if hi < v then hi else v

/-- The value kept within lo and hi. -/
def clampI (lo hi v : Int) : Int := if v < lo then lo else if hi < v then hi else v

/-- The numbers 0 to n - 1 whose bit is set in the mask. -/
def maskBits (n mask : Nat) : List Nat := (List.range n).filter (fun i => bit mask i)

/-- The sum of a list of integers. -/
def sumI (l : List Int) : Int := l.foldl (· + ·) 0

/-- The mean of a list of integers rounded toward minus infinity; 0 for no elements. -/
def meanI (l : List Int) : Int := if l.isEmpty then 0 else sumI l / l.length

/-- Bytes padded with zero bytes, or cut, to exactly n. -/
def padTo (n : Nat) (l : Bytes) : Bytes := l.take n ++ List.replicate (n - l.length) 0

end Sys2Proof.Machine
end

