-- ==== Sys2Proof/Machine/Entry.lean ====
section
/-! DEFINITION. The form of a dictionary entry (R10, R398, R433, R434): its type, its access code, its default, its range and whether it
has one copy, one per tenant (R439) or one per selected object; and the key under which the state holds it. -/

namespace Sys2Proof.Machine

/-- The types of Table 15.1. -/
inductive EType where
  | bool | u8 | u16 | u32 | u64 | i8 | i16 | i32 | i64 | time96
  | octets (n : Nat) | string (n : Nat) | domain
  deriving DecidableEq, Repr

/-- The access codes of Table 0.5. -/
inductive Access where
  | ro | rw | wo | rws | cmd
  deriving DecidableEq, Repr

/-- Where copies of an entry are held: one for all, one per tenant (R439), or one per object that a selector names. -/
inductive Scope where
  | shared | perTenant | bySel
  deriving DecidableEq, Repr

/-- One row of a dictionary table. An empty range is the whole type. -/
structure Entry where
  name : String
  ty : EType
  acc : Access
  dflt : Int
  range : List (Int × Int)
  scope : Scope
  deriving DecidableEq, Repr

/-- The key of an entry that has one copy: index and sub-index. -/
def key (index sub : Nat) : Nat := index * 256 + sub

/-- The key of copy i of an entry held per tenant or per selected object. -/
def keyAt (i index sub : Nat) : Nat := i * 2 ^ 24 + index * 256 + sub

end Sys2Proof.Machine
end

