-- ==== Sys2Proof/Machine/Dictionary.lean ====
section
/-! DEFINITION. The Obaesal dictionary as data (chapters 2 to 19, R433, R438): every record of Table 16.3 with, for each sub-index,
its name, type, access code, default and range, copied from the table of the spec that each record names. An index with several
instances is held once; instance i has index base + i (R434). -/

namespace Sys2Proof.Machine

/-- Table 16.1 (R436): 0x1000, 1 instance(s). -/
def rec1000 : List Entry := [
  ⟨"ID_SUBS", .u8, .ro, 12, [], .shared⟩,
  ⟨"ID_VENDOR", (.string 16), .ro, 0, [], .shared⟩,
  ⟨"ID_PRODUCT", (.string 16), .ro, 0, [], .shared⟩,
  ⟨"ID_ORDERING_CODE", .u8, .ro, 0, [], .shared⟩,
  ⟨"ID_STEPPING", .u8, .ro, 192, [], .shared⟩,
  ⟨"ID_FW_MAJOR", .u8, .ro, 3, [], .shared⟩,
  ⟨"ID_FW_MINOR", .u8, .ro, 2, [], .shared⟩,
  ⟨"ID_FW_BUILD", .u32, .ro, 0, [], .shared⟩,
  ⟨"ID_SERIAL", (.string 16), .ro, 0, [], .shared⟩,
  ⟨"ID_MODULE_IDENTITY", .u64, .ro, 0, [], .shared⟩,
  ⟨"ID_MAC_ADDRESS", (.octets 6), .ro, 0, [], .shared⟩,
  ⟨"ID_OD_VERSION", .u16, .ro, 770, [], .shared⟩,
  ⟨"ID_BOOT_ROM", .u16, .ro, 0, [], .shared⟩]

/-- Table 16.2 (R437): 0x1001, 1 instance(s). -/
def rec1001 : List Entry := [
  ⟨"CAP_SUBS", .u8, .ro, 7, [], .shared⟩,
  ⟨"CAP_GNSS_RF", .bool, .ro, 0, [], .shared⟩,
  ⟨"CAP_PCIE_STRAP", .u8, .ro, 0, [], .shared⟩,
  ⟨"CAP_PCIE_FUNCTIONS", .u8, .ro, 0, [], .shared⟩,
  ⟨"CAP_PCIE_LINK", .u8, .ro, 0, [], .shared⟩,
  ⟨"CAP_LPDDR_MIB", .u32, .ro, 16384, [], .shared⟩,
  ⟨"CAP_NAND_MIB", .u32, .ro, 65536, [], .shared⟩,
  ⟨"CAP_TENANTS", .u8, .ro, 8, [], .shared⟩]

/-- Table 15.13 (R428): 0x1100, 1 instance(s). -/
def rec1100 : List Entry := [
  ⟨"AP_SUBS", .u8, .ro, 64, [], .shared⟩,
  ⟨"AP_ENTRY0", .u64, .rw, 0, [], .shared⟩,
  ⟨"AP_ENTRY1", .u64, .rw, 0, [], .shared⟩,
  ⟨"AP_ENTRY2", .u64, .rw, 0, [], .shared⟩,
  ⟨"AP_ENTRY3", .u64, .rw, 0, [], .shared⟩,
  ⟨"AP_ENTRY4", .u64, .rw, 0, [], .shared⟩,
  ⟨"AP_ENTRY5", .u64, .rw, 0, [], .shared⟩,
  ⟨"AP_ENTRY6", .u64, .rw, 0, [], .shared⟩,
  ⟨"AP_ENTRY7", .u64, .rw, 0, [], .shared⟩,
  ⟨"AP_ENTRY8", .u64, .rw, 0, [], .shared⟩,
  ⟨"AP_ENTRY9", .u64, .rw, 0, [], .shared⟩,
  ⟨"AP_ENTRY10", .u64, .rw, 0, [], .shared⟩,
  ⟨"AP_ENTRY11", .u64, .rw, 0, [], .shared⟩,
  ⟨"AP_ENTRY12", .u64, .rw, 0, [], .shared⟩,
  ⟨"AP_ENTRY13", .u64, .rw, 0, [], .shared⟩,
  ⟨"AP_ENTRY14", .u64, .rw, 0, [], .shared⟩,
  ⟨"AP_ENTRY15", .u64, .rw, 0, [], .shared⟩,
  ⟨"AP_ENTRY16", .u64, .rw, 0, [], .shared⟩,
  ⟨"AP_ENTRY17", .u64, .rw, 0, [], .shared⟩,
  ⟨"AP_ENTRY18", .u64, .rw, 0, [], .shared⟩,
  ⟨"AP_ENTRY19", .u64, .rw, 0, [], .shared⟩,
  ⟨"AP_ENTRY20", .u64, .rw, 0, [], .shared⟩,
  ⟨"AP_ENTRY21", .u64, .rw, 0, [], .shared⟩,
  ⟨"AP_ENTRY22", .u64, .rw, 0, [], .shared⟩,
  ⟨"AP_ENTRY23", .u64, .rw, 0, [], .shared⟩,
  ⟨"AP_ENTRY24", .u64, .rw, 0, [], .shared⟩,
  ⟨"AP_ENTRY25", .u64, .rw, 0, [], .shared⟩,
  ⟨"AP_ENTRY26", .u64, .rw, 0, [], .shared⟩,
  ⟨"AP_ENTRY27", .u64, .rw, 0, [], .shared⟩,
  ⟨"AP_ENTRY28", .u64, .rw, 0, [], .shared⟩,
  ⟨"AP_ENTRY29", .u64, .rw, 0, [], .shared⟩,
  ⟨"AP_ENTRY30", .u64, .rw, 0, [], .shared⟩,
  ⟨"AP_ENTRY31", .u64, .rw, 0, [], .shared⟩,
  ⟨"AP_ENTRY32", .u64, .rw, 0, [], .shared⟩,
  ⟨"AP_ENTRY33", .u64, .rw, 0, [], .shared⟩,
  ⟨"AP_ENTRY34", .u64, .rw, 0, [], .shared⟩,
  ⟨"AP_ENTRY35", .u64, .rw, 0, [], .shared⟩,
  ⟨"AP_ENTRY36", .u64, .rw, 0, [], .shared⟩,
  ⟨"AP_ENTRY37", .u64, .rw, 0, [], .shared⟩,
  ⟨"AP_ENTRY38", .u64, .rw, 0, [], .shared⟩,
  ⟨"AP_ENTRY39", .u64, .rw, 0, [], .shared⟩,
  ⟨"AP_ENTRY40", .u64, .rw, 0, [], .shared⟩,
  ⟨"AP_ENTRY41", .u64, .rw, 0, [], .shared⟩,
  ⟨"AP_ENTRY42", .u64, .rw, 0, [], .shared⟩,
  ⟨"AP_ENTRY43", .u64, .rw, 0, [], .shared⟩,
  ⟨"AP_ENTRY44", .u64, .rw, 0, [], .shared⟩,
  ⟨"AP_ENTRY45", .u64, .rw, 0, [], .shared⟩,
  ⟨"AP_ENTRY46", .u64, .rw, 0, [], .shared⟩,
  ⟨"AP_ENTRY47", .u64, .rw, 0, [], .shared⟩,
  ⟨"AP_ENTRY48", .u64, .rw, 0, [], .shared⟩,
  ⟨"AP_ENTRY49", .u64, .rw, 0, [], .shared⟩,
  ⟨"AP_ENTRY50", .u64, .rw, 0, [], .shared⟩,
  ⟨"AP_ENTRY51", .u64, .rw, 0, [], .shared⟩,
  ⟨"AP_ENTRY52", .u64, .rw, 0, [], .shared⟩,
  ⟨"AP_ENTRY53", .u64, .rw, 0, [], .shared⟩,
  ⟨"AP_ENTRY54", .u64, .rw, 0, [], .shared⟩,
  ⟨"AP_ENTRY55", .u64, .rw, 0, [], .shared⟩,
  ⟨"AP_ENTRY56", .u64, .rw, 0, [], .shared⟩,
  ⟨"AP_ENTRY57", .u64, .rw, 0, [], .shared⟩,
  ⟨"AP_ENTRY58", .u64, .rw, 0, [], .shared⟩,
  ⟨"AP_ENTRY59", .u64, .rw, 0, [], .shared⟩,
  ⟨"AP_ENTRY60", .u64, .rw, 0, [], .shared⟩,
  ⟨"AP_ENTRY61", .u64, .rw, 0, [], .shared⟩,
  ⟨"AP_ENTRY62", .u64, .rw, 0, [], .shared⟩,
  ⟨"AP_ENTRY63", .u64, .rw, 0, [], .shared⟩]

/-- Table 15.14 (R428): 0x1101, 1 instance(s). -/
def rec1101 : List Entry := [
  ⟨"MP_SUBS", .u8, .ro, 8, [], .shared⟩,
  ⟨"MP_CAN0_ENABLE", .bool, .rw, 0, [(0, 1)], .shared⟩,
  ⟨"MP_CAN0_NODE", .u8, .rw, 1, [(1, 254)], .shared⟩,
  ⟨"MP_CAN0_RATES", .u8, .rw, 0, [(0, 1), (16, 17)], .shared⟩,
  ⟨"MP_CAN1_ENABLE", .bool, .rw, 0, [(0, 1)], .shared⟩,
  ⟨"MP_CAN1_NODE", .u8, .rw, 1, [(1, 254)], .shared⟩,
  ⟨"MP_CAN1_RATES", .u8, .rw, 0, [(0, 1), (16, 17)], .shared⟩,
  ⟨"MP_CAN_ERRORS", .u32, .ro, 0, [], .shared⟩,
  ⟨"MP_NO_POINT", .u32, .ro, 0, [], .shared⟩]

/-- Table 15.15 (R429): 0x1110, 8 instance(s). -/
def rec1110 : List Entry := [
  ⟨"TNT0_SUBS", .u8, .ro, 10, [], .shared⟩,
  ⟨"TNT0_READ_MASK", .u32, .rw, 0, [(0, 33554431)], .shared⟩,
  ⟨"TNT0_WRITE_MASK", .u32, .rw, 0, [(0, 33554431)], .shared⟩,
  ⟨"TNT0_EVENT_GROUPS", .u32, .rw, 0, [(0, 33554431)], .shared⟩,
  ⟨"TNT0_EVENT_POINT", .u8, .rw, 255, [(0, 63), (255, 255)], .shared⟩,
  ⟨"TNT0_EVENT_NEXT", (.octets 24), .ro, 0, [], .shared⟩,
  ⟨"TNT0_EVENT_QUEUED", .u16, .ro, 0, [], .shared⟩,
  ⟨"TNT0_EVENT_LOST", .u32, .ro, 0, [], .shared⟩,
  ⟨"TNT0_REQUESTS", .u64, .ro, 0, [], .shared⟩,
  ⟨"TNT0_BUSY", .u32, .ro, 0, [], .shared⟩,
  ⟨"TNT0_STICKY", .u8, .rw, 0, [], .shared⟩]

/-- Table 15.16 (R429): 0x1200, 1 instance(s). -/
def rec1200 : List Entry := [
  ⟨"SRV_SUBS", .u8, .ro, 3, [], .shared⟩,
  ⟨"SRV_QUEUED", .u16, .ro, 0, [], .shared⟩,
  ⟨"SRV_MEAN_SERVICE", .u32, .ro, 0, [], .shared⟩,
  ⟨"SRV_LOAD", .u16, .ro, 0, [], .shared⟩]

/-- Table 15.17 (R429): 0x1202, 1 instance(s). -/
def rec1202 : List Entry := [
  ⟨"IMG_SUBS", .u8, .ro, 8, [], .shared⟩,
  ⟨"IMG_RUNNING", .u8, .ro, 0, [], .shared⟩,
  ⟨"IMG_BOOT_NEXT", .u8, .ro, 0, [], .shared⟩,
  ⟨"IMG_SLOT_A_STATE", .u8, .ro, 0, [], .shared⟩,
  ⟨"IMG_SLOT_B_STATE", .u8, .ro, 0, [], .shared⟩,
  ⟨"IMG_STAGE", .domain, .wo, 0, [], .shared⟩,
  ⟨"IMG_COMMIT", .u8, .cmd, 0, [(1, 1)], .shared⟩,
  ⟨"IMG_BOOT_SELECT", .u8, .cmd, 0, [(0, 1)], .shared⟩,
  ⟨"IMG_STICKY", .u8, .rw, 0, [], .shared⟩]

/-- Table 15.18 (R429): 0x1203, 1 instance(s). -/
def rec1203 : List Entry := [
  ⟨"CFG_SUBS", .u8, .ro, 5, [], .shared⟩,
  ⟨"CFG_SAVE", .u8, .cmd, 0, [(1, 1)], .shared⟩,
  ⟨"CFG_AUTO_RESTORE", .bool, .rw, 1, [(0, 1)], .shared⟩,
  ⟨"CFG_CLEAR", .u8, .cmd, 0, [(1, 1)], .shared⟩,
  ⟨"CFG_SAVED_TIME", .time96, .ro, 0, [], .shared⟩,
  ⟨"CFG_STATE", .u8, .ro, 0, [], .shared⟩]

/-- Table 15.19 (R430): 0x1210, 168 instance(s). -/
def rec1210 : List Entry := [
  ⟨"FN0_SUBS", .u8, .ro, 5, [], .shared⟩,
  ⟨"FN0_STATE", .u8, .ro, 0, [], .shared⟩,
  ⟨"FN0_CMD", .u8, .cmd, 0, [(1, 2)], .shared⟩,
  ⟨"FN0_LAST_ERROR", .u16, .ro, 0, [], .shared⟩,
  ⟨"FN0_HOLDER", .u8, .ro, 255, [], .shared⟩,
  ⟨"FN0_STICKY", .u8, .rw, 0, [], .shared⟩]

/-- Table 15.20 (R431): 0x12C0, 16 instance(s). -/
def rec12C0 : List Entry := [
  ⟨"JOB0_SUBS", .u8, .ro, 9, [], .shared⟩,
  ⟨"JOB0_NUMBER", .u16, .ro, 65535, [], .shared⟩,
  ⟨"JOB0_KIND", .u8, .ro, 0, [], .shared⟩,
  ⟨"JOB0_TENANT", .u8, .ro, 255, [], .shared⟩,
  ⟨"JOB0_STATE", .u8, .ro, 0, [], .shared⟩,
  ⟨"JOB0_STEPS_DONE", .u32, .ro, 0, [], .shared⟩,
  ⟨"JOB0_STEPS_TOTAL", .u32, .ro, 0, [], .shared⟩,
  ⟨"JOB0_PROGRESS", .u16, .ro, 0, [], .shared⟩,
  ⟨"JOB0_CTRL", .u8, .cmd, 0, [(1, 3)], .shared⟩,
  ⟨"JOB0_RESULT", .u16, .ro, 0, [], .shared⟩]

/-- Table 19.11 (R497): 0x1300, 1 instance(s). -/
def rec1300 : List Entry := [
  ⟨"SUP_SUBS", .u8, .ro, 10, [], .shared⟩,
  ⟨"SUP_VIN", .u32, .ro, 0, [], .shared⟩,
  ⟨"SUP_VBAK", .u32, .ro, 0, [], .shared⟩,
  ⟨"SUP_VHOLD", .u32, .ro, 0, [], .shared⟩,
  ⟨"SUP_SOURCE", .u8, .ro, 0, [], .shared⟩,
  ⟨"SUP_WARN_V", .u32, .rw, 7600, [(7600, 40000)], .shared⟩,
  ⟨"SUP_WARN_HYST", .u32, .rw, 400, [(100, 5000)], .shared⟩,
  ⟨"SUP_HOLDUP_READY", .bool, .ro, 0, [], .shared⟩,
  ⟨"SUP_POWER", .u32, .ro, 0, [], .shared⟩,
  ⟨"SUP_VIN_MIN", .u32, .rw, 4294967295, [], .shared⟩,
  ⟨"SUP_STICKY", .u8, .rw, 0, [], .shared⟩]

/-- Table 19.12 (R497): 0x1301, 1 instance(s). -/
def rec1301 : List Entry := [
  ⟨"BRACE_SUBS", .u8, .ro, 7, [], .shared⟩,
  ⟨"BRACE_STATE", .u8, .ro, 0, [], .shared⟩,
  ⟨"BRACE_ENTRIES", .u32, .ro, 0, [], .shared⟩,
  ⟨"BRACE_HOLDUPS", .u32, .ro, 0, [], .shared⟩,
  ⟨"BRACE_LAST_TIME", .time96, .ro, 0, [], .shared⟩,
  ⟨"BRACE_LAST_LENGTH", .u32, .ro, 0, [], .shared⟩,
  ⟨"BRACE_SNAPSHOT_TIME", .time96, .ro, 0, [], .shared⟩,
  ⟨"BRACE_STICKY", .u8, .rw, 0, [], .shared⟩]

/-- Table 19.13 (R497): 0x1302, 1 instance(s). -/
def rec1302 : List Entry := [
  ⟨"RST_SUBS", .u8, .ro, 10, [], .shared⟩,
  ⟨"RST_LAST_CAUSE", .u8, .ro, 1, [], .shared⟩,
  ⟨"RST_WARM", .u8, .cmd, 0, [(1, 1)], .shared⟩,
  ⟨"RST_FW_RESTART", .u8, .cmd, 0, [(1, 1)], .shared⟩,
  ⟨"RST_FUNCTION", .u8, .cmd, 0, [(0, 167)], .shared⟩,
  ⟨"RST_COUNT_SUPPLY", .u32, .ro, 0, [], .shared⟩,
  ⟨"RST_COUNT_PIN", .u32, .ro, 0, [], .shared⟩,
  ⟨"RST_COUNT_WATCHDOG", .u32, .ro, 0, [], .shared⟩,
  ⟨"RST_COUNT_COMMAND", .u32, .ro, 0, [], .shared⟩,
  ⟨"RST_RESET_N", .bool, .ro, 1, [], .shared⟩,
  ⟨"RST_STICKY", .u8, .rw, 0, [], .shared⟩]

/-- Table 19.14 (R497): 0x1303, 1 instance(s). -/
def rec1303 : List Entry := [
  ⟨"SLP_SUBS", .u8, .ro, 9, [], .shared⟩,
  ⟨"SLP_FABRIC_DELAY", .u32, .rw, 1000, [(0, 0), (10, 1000000)], .shared⟩,
  ⟨"SLP_EVORVO_DELAY", .u32, .rw, 1000, [(0, 0), (10, 1000000)], .shared⟩,
  ⟨"SLP_PRIXUS_DELAY", .u32, .rw, 10000, [(0, 0), (100, 1000000)], .shared⟩,
  ⟨"SLP_LPDDR_DELAY", .u32, .rw, 100, [(0, 0), (10, 1000000)], .shared⟩,
  ⟨"SLP_CLOCKS", .u8, .ro, 0, [], .shared⟩,
  ⟨"SLP_FABRIC_STARTS", .u64, .ro, 0, [], .shared⟩,
  ⟨"SLP_EVORVO_STARTS", .u64, .ro, 0, [], .shared⟩,
  ⟨"SLP_PRIXUS_STARTS", .u64, .ro, 0, [], .shared⟩,
  ⟨"SLP_LPDDR_EXITS", .u64, .ro, 0, [], .shared⟩]

/-- Table 2.5 (R65): 0x2000, 1 instance(s). -/
def rec2000 : List Entry := [
  ⟨"MT_STATE_SUBS", .u8, .ro, 7, [], .shared⟩,
  ⟨"MT_NOW", .time96, .ro, 0, [], .shared⟩,
  ⟨"MT_TICK", .u64, .ro, 0, [], .shared⟩,
  ⟨"MT_UNCERTAINTY", .u32, .ro, 4294967295, [], .shared⟩,
  ⟨"MT_TIME_VALID", .bool, .ro, 0, [], .shared⟩,
  ⟨"MT_TIME_SET", .bool, .ro, 0, [], .shared⟩,
  ⟨"MT_STEER_DOMAIN", .u8, .ro, 255, [], .shared⟩,
  ⟨"MT_STICKY", .u8, .rw, 0, [], .shared⟩]

/-- Table 2.6 (R65): 0x2001, 1 instance(s). -/
def rec2001 : List Entry := [
  ⟨"MT_CONFIG_SUBS", .u8, .ro, 3, [], .shared⟩,
  ⟨"MT_UNC_LIMIT", .u32, .rw, 1000000, [(1000, 100000000)], .shared⟩,
  ⟨"MT_SET_TIME", .time96, .cmd, 0, [], .shared⟩,
  ⟨"MT_SET_UNC", .u32, .rw, 1000000000, [(1000, 4294967295)], .shared⟩]

/-- Table 2.7 (R65): 0x2002, 1 instance(s). -/
def rec2002 : List Entry := [
  ⟨"MT_UTC_SUBS", .u8, .ro, 8, [], .shared⟩,
  ⟨"MT_UTC_OFFSET", .i16, .ro, 37, [], .shared⟩,
  ⟨"MT_LEAP_PENDING", .u8, .ro, 0, [], .shared⟩,
  ⟨"MT_LEAP_TAI", .time96, .ro, 0, [], .shared⟩,
  ⟨"MT_UTC_OFFSET_MANUAL", .i16, .rw, 37, [((-32768), 32767)], .shared⟩,
  ⟨"MT_LEAP_MANUAL", .u8, .rw, 0, [(0, 2)], .shared⟩,
  ⟨"MT_LEAP_TAI_MANUAL", .time96, .rw, 0, [], .shared⟩,
  ⟨"MT_UTC_SOURCE", .u8, .rw, 0, [(0, 1)], .shared⟩,
  ⟨"MT_UTC_OFFSET_VALID", .bool, .ro, 0, [], .shared⟩]

/-- Table 2.8 (R66): 0x2010, 2 instance(s). -/
def rec2010 : List Entry := [
  ⟨"DOMA_SUBS", .u8, .ro, 9, [], .shared⟩,
  ⟨"DOMA_KIND", .u8, .rws, 0, [(0, 2)], .shared⟩,
  ⟨"DOMA_PTP_DOMAIN", .u8, .rws, 0, [], .shared⟩,
  ⟨"DOMA_PORTS", .u32, .rws, 0, [], .shared⟩,
  ⟨"DOMA_STATE", .u8, .ro, 0, [], .shared⟩,
  ⟨"DOMA_OFFSET", .i64, .ro, 0, [], .shared⟩,
  ⟨"DOMA_FREQ_OFFSET", .i32, .ro, 0, [], .shared⟩,
  ⟨"DOMA_UNCERTAINTY", .u32, .ro, 4294967295, [], .shared⟩,
  ⟨"DOMA_UTC_OFFSET", .i16, .ro, 0, [], .shared⟩,
  ⟨"DOMA_ACCEPT_ARB", .bool, .rws, 0, [(0, 1)], .shared⟩]

/-- Table 2.9 (R66): 0x2020, 1 instance(s). -/
def rec2020 : List Entry := [
  ⟨"DOM_SWITCH_SUBS", .u8, .ro, 5, [], .shared⟩,
  ⟨"DOM_SWITCH_MODE", .u8, .rw, 0, [(0, 1)], .shared⟩,
  ⟨"DOM_SLEW_RATE", .u32, .rw, 1000, [(1, 20000)], .shared⟩,
  ⟨"DOM_RESIDUAL", .i64, .ro, 0, [], .shared⟩,
  ⟨"DOM_AB_OFFSET", .i64, .ro, 0, [], .shared⟩,
  ⟨"DOM_AB_UNCERTAINTY", .u32, .ro, 4294967295, [], .shared⟩]

/-- Table 3.13 (R95): 0x2200, 32 instance(s). -/
def rec2200 : List Entry := [
  ⟨"LT0_SUBS", .u8, .ro, 38, [], .shared⟩,
  ⟨"LT0_MODE", .u8, .rws, 0, [(0, 2)], .shared⟩,
  ⟨"LT0_MARKER_RATE", .u16, .rws, 1000, [(16, 16), (32, 32), (64, 64), (125, 125), (250, 250), (500, 500), (1000, 1000), (2000, 2000), (4000, 4000), (8000, 8000)], .shared⟩,
  ⟨"LT0_MARKER_PHASE", .u32, .rw, 0, [(0, 62499999)], .shared⟩,
  ⟨"LT0_AVG_TIME", .u32, .rw, 1000, [(10, 60000)], .shared⟩,
  ⟨"LT0_BOARD_TX_DELAY", .i32, .rw, 0, [((-1000000), 1000000)], .shared⟩,
  ⟨"LT0_BOARD_RX_DELAY", .i32, .rw, 0, [((-1000000), 1000000)], .shared⟩,
  ⟨"LT0_OPTIC_TX_DELAY", .i32, .rw, 0, [((-1000000), 1000000)], .shared⟩,
  ⟨"LT0_OPTIC_RX_DELAY", .i32, .rw, 0, [((-1000000), 1000000)], .shared⟩,
  ⟨"LT0_ASYM_SOURCE", .u8, .rw, 0, [(0, 2)], .shared⟩,
  ⟨"LT0_ASYM_CONFIGURED", .i32, .rw, 0, [((-10000000), 10000000)], .shared⟩,
  ⟨"LT0_ASYM_UNC", .u32, .rw, 10000, [(0, 100000000)], .shared⟩,
  ⟨"LT0_ASYM_IN_USE", .i32, .ro, 0, [], .shared⟩,
  ⟨"LT0_STATE", .u8, .ro, 0, [], .shared⟩,
  ⟨"LT0_RTT", .i64, .ro, 0, [], .shared⟩,
  ⟨"LT0_OFFSET", .i64, .ro, 0, [], .shared⟩,
  ⟨"LT0_OFFSET_UNC", .u32, .ro, 4294967295, [], .shared⟩,
  ⟨"LT0_DESKEW", .i64, .ro, 0, [], .shared⟩,
  ⟨"LT0_PEER_ID", .u64, .ro, 0, [], .shared⟩,
  ⟨"LT0_PEER_STATUS", .u16, .ro, 0, [], .shared⟩,
  ⟨"LT0_CAL_STATE", .u8, .ro, 0, [], .shared⟩,
  ⟨"LT0_MARKER_ERRORS", .u32, .ro, 0, [], .shared⟩,
  ⟨"LT0_EXCHANGES", .u32, .ro, 0, [], .shared⟩,
  ⟨"LT0_PTP_DOMAIN", .u8, .rw, 0, [], .shared⟩,
  ⟨"LT0_PTP_TRANSPORT", .u8, .rws, 0, [(0, 1)], .shared⟩,
  ⟨"LT0_PTP_IPV4_ADDR", .u32, .rws, 0, [], .shared⟩,
  ⟨"LT0_PTP_VLAN", .u16, .rws, 0, [(0, 4094)], .shared⟩,
  ⟨"LT0_PTP_DELAY_MECH", .u8, .rws, 0, [(0, 1)], .shared⟩,
  ⟨"LT0_PTP_ONE_STEP", .bool, .rw, 0, [(0, 1)], .shared⟩,
  ⟨"LT0_PTP_LOG_SYNC", .i8, .rw, (-4), [((-7), 4)], .shared⟩,
  ⟨"LT0_PTP_LOG_DELAY", .i8, .rw, (-4), [((-7), 4)], .shared⟩,
  ⟨"LT0_PTP_LOG_ANNOUNCE", .i8, .rw, 1, [((-3), 4)], .shared⟩,
  ⟨"LT0_PTP_ANNOUNCE_TIMEOUT", .u8, .rw, 3, [(2, 10)], .shared⟩,
  ⟨"LT0_PTP_PORT_CONFIG", .u8, .rw, 0, [(0, 3)], .shared⟩,
  ⟨"LT0_PTP_PORT_STATE", .u8, .ro, 3, [], .shared⟩,
  ⟨"LT0_SYNCE_ESMC", .u8, .rw, 2, [(0, 2)], .shared⟩,
  ⟨"LT0_QL_RX", .u8, .ro, 255, [], .shared⟩,
  ⟨"LT0_QL_TX", .u8, .ro, 255, [], .shared⟩,
  ⟨"LT0_STICKY", .u16, .rw, 0, [], .shared⟩]

/-- Table 4.7 (R128): 0x2400, 4 instance(s). -/
def rec2400 : List Entry := [
  ⟨"PE0_SUBS", .u8, .ro, 14, [], .shared⟩,
  ⟨"PE0_BANDWIDTH", .u32, .rw, 0, [], .shared⟩,
  ⟨"PE0_DAMPING", .u16, .rw, 400, [(50, 2000)], .shared⟩,
  ⟨"PE0_ACQ_BANDWIDTH", .u32, .rw, 0, [], .shared⟩,
  ⟨"PE0_BW_IN_USE", .u32, .ro, 0, [], .shared⟩,
  ⟨"PE0_LOCK_THRESHOLD", .u32, .rw, 0, [], .shared⟩,
  ⟨"PE0_LOCK_TIME", .u32, .rw, 0, [], .shared⟩,
  ⟨"PE0_FREQ_NUM", .u64, .rws, 0, [], .shared⟩,
  ⟨"PE0_FREQ_DEN", .u32, .rws, 1, [(1, 65535)], .shared⟩,
  ⟨"PE0_LOCK_STATUS", .u8, .ro, 0, [], .shared⟩,
  ⟨"PE0_PHASE_ERROR", .i64, .ro, 0, [], .shared⟩,
  ⟨"PE0_PHASE_RMS", .u32, .ro, 0, [], .shared⟩,
  ⟨"PE0_FREQ_WORD", .i64, .ro, 0, [], .shared⟩,
  ⟨"PE0_LOOP_UNC", .u32, .ro, 4294967295, [], .shared⟩,
  ⟨"PE0_STICKY", .u8, .rw, 0, [], .shared⟩]

/-- Table 4.8 (R129): 0x2410, 8 instance(s). -/
def rec2410 : List Entry := [
  ⟨"OUT0_SUBS", .u8, .ro, 17, [], .shared⟩,
  ⟨"OUT0_MODE", .u8, .rw, 0, [(0, 5)], .shared⟩,
  ⟨"OUT0_SOURCE", .u8, .rw, 0, [(0, 0), (2, 3)], .shared⟩,
  ⟨"OUT0_DIV", .u32, .rw, 1, [(1, 16777216)], .shared⟩,
  ⟨"OUT0_PULSE_INTERVAL", .u16, .rw, 1, [(1, 65535)], .shared⟩,
  ⟨"OUT0_PULSE_RATE", .u32, .rw, 2, [(2, 10000000)], .shared⟩,
  ⟨"OUT0_WIDTH", .u32, .rw, 100000000, [(10, 4000000000)], .shared⟩,
  ⟨"OUT0_FRAME_REF", .u8, .rw, 0, [(0, 7)], .shared⟩,
  ⟨"OUT0_FRAME_LEN", .u32, .rw, 256, [(2, 16777216)], .shared⟩,
  ⟨"OUT0_OFFSET", .i64, .rw, 0, [((-500000000000), 500000000000)], .shared⟩,
  ⟨"OUT0_ALIGN", .u8, .rw, 0, [(0, 2)], .shared⟩,
  ⟨"OUT0_BOARD_DELAY", .i32, .rw, 0, [((-1000000), 1000000)], .shared⟩,
  ⟨"OUT0_POLARITY", .u8, .rw, 0, [(0, 1)], .shared⟩,
  ⟨"OUT0_SQUELCH", .u8, .rw, 0, [(0, 2)], .shared⟩,
  ⟨"OUT0_IDLE_LEVEL", .u8, .rw, 0, [(0, 1)], .shared⟩,
  ⟨"OUT0_PENDING", .bool, .ro, 0, [], .shared⟩,
  ⟨"OUT0_STATUS", .u8, .ro, 0, [], .shared⟩,
  ⟨"OUT0_STICKY", .u8, .rw, 0, [], .shared⟩]

/-- Table 4.9 (R130): 0x2418, 2 instance(s). -/
def rec2418 : List Entry := [
  ⟨"REFIN0_SUBS", .u8, .ro, 8, [], .shared⟩,
  ⟨"REFIN0_PULSE", .bool, .rws, 0, [(0, 1)], .shared⟩,
  ⟨"REFIN0_FREQ", .u8, .rws, 0, [(0, 2)], .shared⟩,
  ⟨"REFIN0_PULSE_EDGE", .u8, .rws, 0, [(0, 1)], .shared⟩,
  ⟨"REFIN0_PULSE_OFFSET", .i64, .rws, 0, [((-500000000000), 500000000000)], .shared⟩,
  ⟨"REFIN0_BOARD_DELAY", .i32, .rws, 0, [((-1000000), 1000000)], .shared⟩,
  ⟨"REFIN0_PULSE_PHASE", .i64, .ro, 0, [], .shared⟩,
  ⟨"REFIN0_PULSE_JITTER", .u32, .ro, 0, [], .shared⟩,
  ⟨"REFIN0_STATUS", .u8, .ro, 0, [], .shared⟩]

/-- Table 4.10 (R130): 0x2420, 1 instance(s). -/
def rec2420 : List Entry := [
  ⟨"OUT_CTRL_SUBS", .u8, .ro, 9, [], .shared⟩,
  ⟨"OUT_COMMIT", .u8, .cmd, 0, [(1, 2)], .shared⟩,
  ⟨"OUT_COMMIT_AT", .u64, .rw, 0, [], .shared⟩,
  ⟨"OUT_COMMIT_STATUS", .u8, .ro, 0, [], .shared⟩,
  ⟨"OUT_COMMIT_TICK", .u64, .ro, 0, [], .shared⟩,
  ⟨"OUT_COMMIT_ERROR", .u16, .ro, 65535, [], .shared⟩,
  ⟨"OUT_ALIGN_AVG", .u16, .rw, 16, [(1, 1024)], .shared⟩,
  ⟨"OUT_ALIGN_SLEW", .u32, .rw, 20000, [(1, 1000000)], .shared⟩,
  ⟨"OUT_ALIGN_STEP_LIMIT", .u32, .rw, 100000, [(0, 4000000000)], .shared⟩,
  ⟨"OUT_ALIGN_LOSS_COUNT", .u8, .rw, 2, [(1, 16)], .shared⟩]

/-- Table 5.8 (R149): 0x2600, 1 instance(s). -/
def rec2600 : List Entry := [
  ⟨"SEL_SUBS", .u8, .ro, 15, [], .shared⟩,
  ⟨"SEL_PHASE", .u8, .rw, 1, [(0, 3)], .shared⟩,
  ⟨"SEL_AUTO", .u8, .rw, 3, [(0, 3)], .shared⟩,
  ⟨"SEL_SETTLE_TIME", .u32, .rw, 600, [(0, 86400)], .shared⟩,
  ⟨"SEL_FORCE", .u8, .rw, 255, [(0, 23), (255, 255)], .shared⟩,
  ⟨"SEL_TRANSFER_TIME", .u32, .rw, 1000, [(100, 60000)], .shared⟩,
  ⟨"SEL_SWITCH_SLEW", .u32, .rw, 1000, [(1, 20000)], .shared⟩,
  ⟨"SEL_FREQONLY_UNC_RATE", .u32, .rw, 10, [(0, 1000000)], .shared⟩,
  ⟨"SEL_SELECTED", .u8, .ro, 255, [], .shared⟩,
  ⟨"SEL_TRANSFER_TARGET", .u8, .ro, 255, [], .shared⟩,
  ⟨"SEL_SWITCH_RESIDUAL", .i64, .ro, 0, [], .shared⟩,
  ⟨"SEL_PE0_STATE", .u8, .ro, 0, [], .shared⟩,
  ⟨"SEL_PE0_HISTORY", .u8, .rw, 0, [], .shared⟩,
  ⟨"SEL_PE0_EVENT_MASK", .u8, .rw, 31, [(0, 31)], .shared⟩,
  ⟨"SEL_SWITCHES", .u32, .ro, 0, [], .shared⟩,
  ⟨"SEL_STICKY", .u8, .rw, 0, [], .shared⟩]

/-- Table 5.9 (R150): 0x2620, 24 instance(s). -/
def rec2620 : List Entry := [
  ⟨"SLOT0_SUBS", .u8, .ro, 31, [], .shared⟩,
  ⟨"SLOT0_KIND", .u8, .rw, 0, [(0, 9)], .shared⟩,
  ⟨"SLOT0_PORT", .u8, .rw, 0, [(0, 31)], .shared⟩,
  ⟨"SLOT0_PTP_DOMAIN", .u8, .rw, 1, [(1, 2)], .shared⟩,
  ⟨"SLOT0_PRIORITY", .u8, .rw, 100, [], .shared⟩,
  ⟨"SLOT0_LOCKOUT", .bool, .rw, 0, [(0, 1)], .shared⟩,
  ⟨"SLOT0_QL_MIN", .u8, .rw, 2, [(1, 14)], .shared⟩,
  ⟨"SLOT0_QL_MANUAL", .u8, .rw, 2, [(1, 4), (15, 15)], .shared⟩,
  ⟨"SLOT0_WTR", .u16, .rw, 300, [(0, 3600)], .shared⟩,
  ⟨"SLOT0_FREQ_LIMIT", .u32, .rw, 4600, [(1, 10000)], .shared⟩,
  ⟨"SLOT0_XCMP_FREQ_LIMIT", .u32, .rw, 10, [(1, 10000)], .shared⟩,
  ⟨"SLOT0_XCMP_WINDOW", .u32, .rw, 100, [(10, 10000)], .shared⟩,
  ⟨"SLOT0_XCMP_PHASE_LIMIT", .u32, .rw, 50000, [(100, 100000000)], .shared⟩,
  ⟨"SLOT0_STEP_LIMIT", .u32, .rw, 1000, [(10, 100000000)], .shared⟩,
  ⟨"SLOT0_STEP_CONFIRM", .u8, .rw, 3, [(1, 16)], .shared⟩,
  ⟨"SLOT0_DRIFT_LIMIT", .u32, .rw, 1, [(1, 10000)], .shared⟩,
  ⟨"SLOT0_DRIFT_WINDOW", .u32, .rw, 1000, [(100, 86400)], .shared⟩,
  ⟨"SLOT0_STATE", .u8, .ro, 0, [], .shared⟩,
  ⟨"SLOT0_RANK", .u8, .ro, 15, [], .shared⟩,
  ⟨"SLOT0_TIME_CAPABLE", .bool, .ro, 0, [], .shared⟩,
  ⟨"SLOT0_FREQ_OFFSET", .i32, .ro, 0, [], .shared⟩,
  ⟨"SLOT0_PHASE", .i64, .ro, 0, [], .shared⟩,
  ⟨"SLOT0_DRIFT", .i32, .ro, 0, [], .shared⟩,
  ⟨"SLOT0_XCMP_FREQ", .i32, .ro, 2147483647, [], .shared⟩,
  ⟨"SLOT0_XCMP_PHASE", .i64, .ro, 2147483647, [], .shared⟩,
  ⟨"SLOT0_WTR_LEFT", .u16, .ro, 0, [], .shared⟩,
  ⟨"SLOT0_UNCERTAINTY", .u32, .ro, 4294967295, [], .shared⟩,
  ⟨"SLOT0_WTR_CLEAR", .u8, .cmd, 0, [(1, 1)], .shared⟩,
  ⟨"SLOT0_HISTORY", .u8, .rw, 0, [], .shared⟩,
  ⟨"SLOT0_TRIPS", .u8, .rw, 0, [], .shared⟩,
  ⟨"SLOT0_EVENT_MASK", .u8, .rw, 31, [(0, 31)], .shared⟩,
  ⟨"SLOT0_OUTLIERS", .u32, .ro, 0, [], .shared⟩]

/-- Table 6.2 (R172): 0x2700, 1 instance(s). -/
def rec2700 : List Entry := [
  ⟨"OSC_SUBS", .u8, .ro, 5, [], .shared⟩,
  ⟨"OSC_WARMUP", .bool, .ro, 1, [], .shared⟩,
  ⟨"OSC_WARMUP_TIME", .u32, .ro, 0, [], .shared⟩,
  ⟨"OSC_COMPARTMENT_TEMP", .i32, .ro, 0, [], .shared⟩,
  ⟨"OSC_HEATER_POWER", .u16, .ro, 0, [], .shared⟩,
  ⟨"OSC_STICKY", .u8, .rw, 0, [], .shared⟩]

/-- Table 6.3 (R172): 0x2701, 1 instance(s). -/
def rec2701 : List Entry := [
  ⟨"STEER_SUBS", .u8, .ro, 5, [], .shared⟩,
  ⟨"STEER_PPT", .i32, .rw, 0, [((-10000000), 10000000)], .shared⟩,
  ⟨"STEER_RAMP", .u32, .rw, 1000, [(1, 10000000)], .shared⟩,
  ⟨"STEER_IN_FORCE", .i32, .ro, 0, [], .shared⟩,
  ⟨"STEER_ACTIVE", .bool, .ro, 0, [], .shared⟩,
  ⟨"STEER_STICKY", .u8, .rw, 0, [], .shared⟩]

/-- Table 6.4 (R172): 0x2702, 1 instance(s). -/
def rec2702 : List Entry := [
  ⟨"HO_SUBS", .u8, .ro, 17, [], .shared⟩,
  ⟨"HO_BUDGET", .u32, .rw, 1000000, [(1000, 100000000)], .shared⟩,
  ⟨"HO_MIN_LOCK", .u32, .rw, 600, [(60, 86400)], .shared⟩,
  ⟨"HO_LEARN_WINDOW", .u32, .rw, 86400, [(3600, 604800)], .shared⟩,
  ⟨"HO_GUARD", .u16, .rw, 0, [(0, 10000)], .shared⟩,
  ⟨"HO_WARN_TIME", .u32, .rw, 3600, [(0, 86400)], .shared⟩,
  ⟨"HO_MODEL_VALID", .bool, .ro, 0, [], .shared⟩,
  ⟨"HO_AGEING", .i32, .ro, 0, [], .shared⟩,
  ⟨"HO_TEMP_COEF", .i32, .ro, 0, [], .shared⟩,
  ⟨"HO_TEMP_COEF_SOURCE", .u8, .ro, 0, [], .shared⟩,
  ⟨"HO_FREQ_UNC", .u32, .ro, 4294967295, [], .shared⟩,
  ⟨"HO_AGEING_UNC", .u32, .ro, 100, [], .shared⟩,
  ⟨"HO_TEMP_UNC", .u32, .ro, 2, [], .shared⟩,
  ⟨"HO_ELAPSED", .u32, .ro, 0, [], .shared⟩,
  ⟨"HO_TERM", .u32, .ro, 0, [], .shared⟩,
  ⟨"HO_TIME_LEFT", .u32, .ro, 4294967295, [], .shared⟩,
  ⟨"HO_LOCKED_TIME", .u32, .ro, 0, [], .shared⟩,
  ⟨"HO_STICKY", .u8, .rw, 0, [], .shared⟩]

/-- Table 6.5 (R172): 0x2703, 1 instance(s). -/
def rec2703 : List Entry := [
  ⟨"RET_SUBS", .u8, .ro, 8, [], .shared⟩,
  ⟨"RET_MODE", .u8, .rw, 0, [(0, 1)], .shared⟩,
  ⟨"RET_SLEW_LIMIT", .u32, .rw, 100000, [(0, 1000000000)], .shared⟩,
  ⟨"RET_SLEW_RATE", .u32, .rw, 20000, [(1, 1000000)], .shared⟩,
  ⟨"RET_WINDOW_START", .u32, .rw, 0, [(0, 86399)], .shared⟩,
  ⟨"RET_WINDOW_LEN", .u32, .rw, 86400, [(0, 86400)], .shared⟩,
  ⟨"RET_STATE", .u8, .ro, 0, [], .shared⟩,
  ⟨"RET_RESIDUAL", .i64, .ro, 0, [], .shared⟩,
  ⟨"RET_LAST_STEP", .i64, .ro, 0, [], .shared⟩]

/-- Table 7.6 (R192): 0x2800, 1 instance(s). -/
def rec2800 : List Entry := [
  ⟨"CAL_SUBS", .u8, .ro, 12, [], .shared⟩,
  ⟨"CAL_RAMP_RATE", .u32, .rw, 5, [(1, 1000)], .shared⟩,
  ⟨"CAL_DIE_TEMP", .i32, .ro, 0, [], .shared⟩,
  ⟨"CAL_CD_MASK", .u64, .rw, 4486076160802815, [(0, 4503599627370495)], .shared⟩,
  ⟨"CAL_CD_EVENTS", .u32, .rw, 134217728, [(1048576, 1073741824)], .shared⟩,
  ⟨"CAL_CD_SOURCE", .u8, .rw, 0, [(0, 2)], .shared⟩,
  ⟨"CAL_CD_START", .u8, .cmd, 0, [(1, 1)], .shared⟩,
  ⟨"CAL_AUTO_PERIOD", .u32, .rw, 3600, [(0, 0), (600, 86400)], .shared⟩,
  ⟨"CAL_AUTO_DELTA_T", .u16, .rw, 3000, [(500, 20000)], .shared⟩,
  ⟨"CAL_JOB", .u16, .ro, 65535, [], .shared⟩,
  ⟨"CAL_SETS_VALID", .u8, .ro, 255, [], .shared⟩,
  ⟨"CAL_RAMP_LEFT", .i64, .ro, 0, [], .shared⟩,
  ⟨"CAL_STICKY", .u8, .rw, 0, [], .shared⟩]

/-- Table 7.7 (R193): 0x2801, 1 instance(s). -/
def rec2801 : List Entry := [
  ⟨"CONV_SUBS", .u8, .ro, 8, [], .shared⟩,
  ⟨"CONV_SEL", .u8, .rw, 0, [(0, 51)], .perTenant⟩,
  ⟨"CONV_RESULT", .u8, .ro, 0, [], .bySel⟩,
  ⟨"CONV_BINS", .u16, .ro, 0, [], .bySel⟩,
  ⟨"CONV_MEAN_BIN", .u32, .ro, 0, [], .bySel⟩,
  ⟨"CONV_DNL_MAX", .u32, .ro, 0, [], .bySel⟩,
  ⟨"CONV_INL_MAX", .u32, .ro, 0, [], .bySel⟩,
  ⟨"CONV_LAST_TIME", .time96, .ro, 0, [], .bySel⟩,
  ⟨"CONV_TABLE", .domain, .ro, 0, [], .bySel⟩]

/-- Table 7.8 (R193): 0x2802, 1 instance(s). -/
def rec2802 : List Entry := [
  ⟨"CAL_SET_SUBS", .u8, .ro, 9, [], .shared⟩,
  ⟨"CAL_SET0_INFO", .u64, .ro, 0, [], .shared⟩,
  ⟨"CAL_SET1_INFO", .u64, .ro, 0, [], .shared⟩,
  ⟨"CAL_SET2_INFO", .u64, .ro, 0, [], .shared⟩,
  ⟨"CAL_SET3_INFO", .u64, .ro, 0, [], .shared⟩,
  ⟨"CAL_SET4_INFO", .u64, .ro, 0, [], .shared⟩,
  ⟨"CAL_SET5_INFO", .u64, .ro, 0, [], .shared⟩,
  ⟨"CAL_SET6_INFO", .u64, .ro, 0, [], .shared⟩,
  ⟨"CAL_SET7_INFO", .u64, .ro, 0, [], .shared⟩,
  ⟨"CAL_SET_DATA", .domain, .ro, 0, [], .shared⟩]

/-- Table 7.9 (R193): 0x2810, 16 instance(s). -/
def rec2810 : List Entry := [
  ⟨"ASY0_SUBS", .u8, .ro, 22, [], .shared⟩,
  ⟨"ASY0_PORT_P", .u8, .rws, 255, [(0, 31), (255, 255)], .shared⟩,
  ⟨"ASY0_PORT_Q", .u8, .rws, 255, [(0, 31), (255, 255)], .shared⟩,
  ⟨"ASY0_WL_P_TX", .u32, .rws, 0, [(1260000, 1625000)], .shared⟩,
  ⟨"ASY0_WL_P_RX", .u32, .rws, 0, [(1260000, 1625000)], .shared⟩,
  ⟨"ASY0_WL_Q_TX", .u32, .rws, 0, [(1260000, 1625000)], .shared⟩,
  ⟨"ASY0_WL_Q_RX", .u32, .rws, 0, [(1260000, 1625000)], .shared⟩,
  ⟨"ASY0_WL_UNC", .u32, .rws, 20, [(0, 1000)], .shared⟩,
  ⟨"ASY0_LAMBDA0", .u32, .rws, 1312000, [(1290000, 1340000)], .shared⟩,
  ⟨"ASY0_LAMBDA0_UNC", .u32, .rws, 12000, [(0, 30000)], .shared⟩,
  ⟨"ASY0_FIXED_UNC", .u32, .rws, 40, [(0, 10000)], .shared⟩,
  ⟨"ASY0_TARGET", .u32, .rw, 1, [(1, 1000)], .shared⟩,
  ⟨"ASY0_MIN_TIME", .u32, .rw, 60, [(10, 3600)], .shared⟩,
  ⟨"ASY0_STATE", .u8, .ro, 0, [], .shared⟩,
  ⟨"ASY0_KAPPA_P", .i32, .ro, 0, [], .shared⟩,
  ⟨"ASY0_KAPPA_Q", .i32, .ro, 0, [], .shared⟩,
  ⟨"ASY0_DRTT", .i64, .ro, 0, [], .shared⟩,
  ⟨"ASY0_ALPHA_P", .i32, .ro, 0, [], .shared⟩,
  ⟨"ASY0_ALPHA_Q", .i32, .ro, 0, [], .shared⟩,
  ⟨"ASY0_UNC_P", .u32, .ro, 4294967295, [], .shared⟩,
  ⟨"ASY0_UNC_Q", .u32, .ro, 4294967295, [], .shared⟩,
  ⟨"ASY0_STICKY", .u8, .rw, 0, [], .shared⟩,
  ⟨"ASY0_FAULT", .u8, .ro, 0, [], .shared⟩]

/-- Table 7.10 (R193): 0x2820, 32 instance(s). -/
def rec2820 : List Entry := [
  ⟨"LC0_SUBS", .u8, .ro, 7, [], .shared⟩,
  ⟨"LC0_START", .u8, .cmd, 0, [(1, 1)], .shared⟩,
  ⟨"LC0_TX_OFFSET", .i32, .ro, 0, [], .shared⟩,
  ⟨"LC0_RX_OFFSET", .i32, .ro, 0, [], .shared⟩,
  ⟨"LC0_SUM_UNC", .u16, .ro, 65535, [], .shared⟩,
  ⟨"LC0_FEC", .u8, .ro, 0, [], .shared⟩,
  ⟨"LC0_TEMP", .i32, .ro, 0, [], .shared⟩,
  ⟨"LC0_TIME", .time96, .ro, 0, [], .shared⟩]

/-- Table 8.6 (R214): 0x2900, 8 instance(s). -/
def rec2900 : List Entry := [
  ⟨"TIC0_SUBS", .u8, .ro, 32, [], .shared⟩,
  ⟨"TIC0_MODE", .u8, .rws, 0, [(0, 4)], .shared⟩,
  ⟨"TIC0_STOP_CH", .u8, .rws, 255, [(0, 7), (255, 255)], .shared⟩,
  ⟨"TIC0_THRESHOLD", .i16, .rws, 1000, [((-2500), 2500)], .shared⟩,
  ⟨"TIC0_HYST", .u8, .rws, 10, [(0, 50)], .shared⟩,
  ⟨"TIC0_SLOPE", .u8, .rws, 0, [(0, 1)], .shared⟩,
  ⟨"TIC0_TERM", .u8, .rws, 1, [(0, 1)], .shared⟩,
  ⟨"TIC0_BOARD_DELAY", .i32, .rws, 0, [((-1000000), 1000000)], .shared⟩,
  ⟨"TIC0_GATE", .u32, .rws, 1000, [(1, 1000000)], .shared⟩,
  ⟨"TIC0_GRID_PERIOD", .u32, .rws, 1000000000, [(100, 1000000000)], .shared⟩,
  ⟨"TIC0_GRID_OFFSET", .i64, .rws, 0, [((-500000000000), 500000000000)], .shared⟩,
  ⟨"TIC0_ARM_MODE", .u8, .rws, 0, [(0, 1)], .shared⟩,
  ⟨"TIC0_STAT_N", .u32, .rws, 1000, [(2, 16777216)], .shared⟩,
  ⟨"TIC0_RECORD", .bool, .rws, 0, [(0, 1)], .shared⟩,
  ⟨"TIC0_ARM_AT", .time96, .rw, 0, [], .shared⟩,
  ⟨"TIC0_ARM", .u8, .cmd, 0, [(1, 2)], .shared⟩,
  ⟨"TIC0_STATUS", .u8, .ro, 0, [], .shared⟩,
  ⟨"TIC0_LAST_VALUE", .i64, .ro, 0, [], .shared⟩,
  ⟨"TIC0_LAST_WHEN", (.octets 16), .ro, 0, [], .shared⟩,
  ⟨"TIC0_LAST_CTRL", .u64, .ro, 0, [], .shared⟩,
  ⟨"TIC0_STAT_COUNT", .u32, .ro, 0, [], .shared⟩,
  ⟨"TIC0_STAT_MEAN", .i64, .ro, 0, [], .shared⟩,
  ⟨"TIC0_STAT_SDEV", .u64, .ro, 0, [], .shared⟩,
  ⟨"TIC0_STAT_MIN", .i64, .ro, 0, [], .shared⟩,
  ⟨"TIC0_STAT_MAX", .i64, .ro, 0, [], .shared⟩,
  ⟨"TIC0_STAT_BLOCKS", .u32, .ro, 0, [], .shared⟩,
  ⟨"TIC0_DEADTIME_LOST", .u32, .ro, 0, [], .shared⟩,
  ⟨"TIC0_OVERRUN_LOST", .u32, .ro, 0, [], .shared⟩,
  ⟨"TIC0_RECORD_LOST", .u32, .ro, 0, [], .shared⟩,
  ⟨"TIC0_UNPAIRED", .u32, .ro, 0, [], .shared⟩,
  ⟨"TIC0_OVERFLOWS", .u32, .ro, 0, [], .shared⟩,
  ⟨"TIC0_EXCLUDED", .u32, .ro, 0, [], .shared⟩,
  ⟨"TIC0_STICKY", .u8, .rw, 0, [], .shared⟩]

/-- Table 8.7 (R215): 0x2910, 1 instance(s). -/
def rec2910 : List Entry := [
  ⟨"TIC_RING_SUBS", .u8, .ro, 5, [], .shared⟩,
  ⟨"TIC_RING_WR", .u32, .ro, 0, [], .shared⟩,
  ⟨"TIC_RING_RD", .u32, .rw, 0, [], .perTenant⟩,
  ⟨"TIC_RING_DATA", .domain, .ro, 0, [], .shared⟩,
  ⟨"TIC_RING_SIZE", .u32, .ro, 65536, [], .shared⟩,
  ⟨"TIC_RING_STICKY", .u8, .rw, 0, [], .perTenant⟩]

/-- Table 9.8 (R263): 0x3000, 1 instance(s). -/
def rec3000 : List Entry := [
  ⟨"SW_SUBS", .u8, .ro, 13, [], .shared⟩,
  ⟨"SW_MAC_AGE_TIME", .u32, .rw, 300, [(0, 0), (10, 1000000)], .shared⟩,
  ⟨"SW_LEARN_FAIL", .u64, .ro, 0, [], .shared⟩,
  ⟨"SW_MAC_ENTRIES", .u32, .ro, 0, [], .shared⟩,
  ⟨"SW_RESEED", .u8, .cmd, 0, [(1, 1)], .shared⟩,
  ⟨"SW_RESEEDS", .u32, .ro, 0, [], .shared⟩,
  ⟨"SW_BANK_SKEW", .u16, .ro, 0, [], .shared⟩,
  ⟨"SW_CELLS_FREE", .u32, .ro, 131072, [], .shared⟩,
  ⟨"SW_CELL_RESERVE", .u32, .rw, 256, [(64, 4096)], .shared⟩,
  ⟨"SW_CELLS_MIN", .u32, .rw, 131072, [], .shared⟩,
  ⟨"SW_ECC_CORRECTED", .u64, .ro, 0, [], .shared⟩,
  ⟨"SW_ECC_UNCORRECTED", .u64, .ro, 0, [], .shared⟩,
  ⟨"SW_CELLS_RETIRED", .u32, .ro, 0, [], .shared⟩,
  ⟨"SW_STICKY", .u8, .rw, 0, [], .shared⟩]

/-- Table 9.9 (R264): 0x3100, 32 instance(s). -/
def rec3100 : List Entry := [
  ⟨"P0_SUBS", .u8, .ro, 37, [], .shared⟩,
  ⟨"P0_MODE", .u8, .rws, 0, [(0, 4)], .shared⟩,
  ⟨"P0_FEC", .u8, .rws, 0, [(0, 2)], .shared⟩,
  ⟨"P0_MAX_FRAME", .u16, .rws, 9216, [(1518, 9216)], .shared⟩,
  ⟨"P0_LINKDOWN_HOLD", .u16, .rw, 50, [(0, 1000)], .shared⟩,
  ⟨"P0_AGE_LIMIT", .u16, .rw, 100, [(0, 10000)], .shared⟩,
  ⟨"P0_LINK", .bool, .ro, 0, [], .shared⟩,
  ⟨"P0_DROP_LINKDOWN", .u64, .ro, 0, [], .shared⟩,
  ⟨"P0_DROP_AGED", .u64, .ro, 0, [], .shared⟩,
  ⟨"P0_RX_FCS_ERR", .u64, .ro, 0, [], .shared⟩,
  ⟨"P0_RX_PCS_ERR", .u64, .ro, 0, [], .shared⟩,
  ⟨"P0_RX_RUNT", .u64, .ro, 0, [], .shared⟩,
  ⟨"P0_RX_OVERSIZE", .u64, .ro, 0, [], .shared⟩,
  ⟨"P0_DROP_OVERRUN", .u64, .ro, 0, [], .shared⟩,
  ⟨"P0_DROP_VLAN", .u64, .ro, 0, [], .shared⟩,
  ⟨"P0_DROP_PORT_STATE", .u64, .ro, 0, [], .shared⟩,
  ⟨"P0_DROP_FILTER", .u64, .ro, 0, [], .shared⟩,
  ⟨"P0_DROP_PTP", .u64, .ro, 0, [], .shared⟩,
  ⟨"P0_DROP_MGMT", .u64, .ro, 0, [], .shared⟩,
  ⟨"P0_DROP_POLICER", .u64, .ro, 0, [], .shared⟩,
  ⟨"P0_DROP_NO_CELL", .u64, .ro, 0, [], .shared⟩,
  ⟨"P0_DROP_QUEUE", .u64, .ro, 0, [], .shared⟩,
  ⟨"P0_DROP_WRED", .u64, .ro, 0, [], .shared⟩,
  ⟨"P0_DROP_ECC", .u64, .ro, 0, [], .shared⟩,
  ⟨"P0_DROP_STOPPED", .u64, .ro, 0, [], .shared⟩,
  ⟨"P0_RX_STOMPED", .u64, .ro, 0, [], .shared⟩,
  ⟨"P0_CT_STOMPED_IN", .u64, .ro, 0, [], .shared⟩,
  ⟨"P0_TX_STOMPED", .u64, .ro, 0, [], .shared⟩,
  ⟨"P0_RX_FRAMES", .u64, .ro, 0, [], .shared⟩,
  ⟨"P0_TX_FRAMES", .u64, .ro, 0, [], .shared⟩,
  ⟨"P0_RX_OCTETS", .u64, .ro, 0, [], .shared⟩,
  ⟨"P0_TX_OCTETS", .u64, .ro, 0, [], .shared⟩,
  ⟨"P0_CUT_THROUGH", .bool, .rw, 1, [(0, 1)], .shared⟩,
  ⟨"P0_IDLE_TIME", .u32, .rw, 1000, [(0, 0), (10, 10000000)], .shared⟩,
  ⟨"P0_IDLE", .bool, .ro, 0, [], .shared⟩,
  ⟨"P0_IDLE_ENTRIES", .u32, .ro, 0, [], .shared⟩,
  ⟨"P0_VLAN", .u32, .rw, 131073, [], .shared⟩,
  ⟨"P0_STICKY", .u16, .rw, 0, [], .shared⟩]

/-- Table 10.6 (R291): 0x3200, 32 instance(s). -/
def rec3200 : List Entry := [
  ⟨"EQ0_SUBS", .u8, .ro, 17, [], .shared⟩,
  ⟨"EQ0_SEL", .u8, .rw, 0, [(0, 15)], .perTenant⟩,
  ⟨"EQ0_LIMIT", .u32, .rw, 2048, [(16, 131072)], .bySel⟩,
  ⟨"EQ0_WRED", .u16, .rw, 0, [(0, 4095)], .bySel⟩,
  ⟨"EQ0_MODE", .u8, .rw, 0, [(0, 1)], .bySel⟩,
  ⟨"EQ0_WEIGHT", .u8, .rw, 1, [(1, 127)], .bySel⟩,
  ⟨"EQ0_SHAPE_RATE", .u32, .rw, 0, [(0, 0), (64, 100000000)], .bySel⟩,
  ⟨"EQ0_SHAPE_BURST", .u32, .rw, 16384, [(1536, 16777216)], .bySel⟩,
  ⟨"EQ0_DEPTH", .u32, .ro, 0, [], .bySel⟩,
  ⟨"EQ0_MAX_DEPTH", .u32, .rw, 0, [], .bySel⟩,
  ⟨"EQ0_TX_FRAMES", .u64, .ro, 0, [], .bySel⟩,
  ⟨"EQ0_DROP_QUEUE", .u64, .ro, 0, [], .bySel⟩,
  ⟨"EQ0_DROP_WRED", .u64, .ro, 0, [], .bySel⟩,
  ⟨"EQ0_PRIO_MAP", .u32, .rw, 1985229328, [], .shared⟩,
  ⟨"EQ0_PORT_RATE", .u32, .rw, 0, [(0, 0), (64, 100000000)], .shared⟩,
  ⟨"EQ0_PORT_BURST", .u32, .rw, 16384, [(1536, 16777216)], .shared⟩,
  ⟨"EQ0_OWN_QUEUE", .u8, .rw, 15, [(0, 15)], .shared⟩,
  ⟨"EQ0_DEI_REMARK", .bool, .rw, 0, [(0, 1)], .shared⟩]

/-- Table 10.7 (R291): 0x3220, 1 instance(s). -/
def rec3220 : List Entry := [
  ⟨"CQ_SUBS", .u8, .ro, 9, [], .shared⟩,
  ⟨"CQ_SEL", .u8, .rw, 0, [(0, 63)], .perTenant⟩,
  ⟨"CQ_LIMIT", .u32, .rw, 8192, [(16, 131072)], .bySel⟩,
  ⟨"CQ_WRED", .u16, .rw, 0, [(0, 4095)], .bySel⟩,
  ⟨"CQ_WEIGHT", .u8, .rw, 1, [(1, 127)], .bySel⟩,
  ⟨"CQ_DEPTH", .u32, .ro, 0, [], .bySel⟩,
  ⟨"CQ_MAX_DEPTH", .u32, .rw, 0, [], .bySel⟩,
  ⟨"CQ_FRAMES", .u64, .ro, 0, [], .bySel⟩,
  ⟨"CQ_DROP_QUEUE", .u64, .ro, 0, [], .bySel⟩,
  ⟨"CQ_DROP_WRED", .u64, .ro, 0, [], .bySel⟩]

/-- Table 10.8 (R292): 0x3240, 32 instance(s). -/
def rec3240 : List Entry := [
  ⟨"GCL0_SUBS", .u8, .ro, 14, [], .shared⟩,
  ⟨"GCL0_ENABLE", .bool, .rw, 0, [(0, 1)], .shared⟩,
  ⟨"GCL0_CYCLE_TIME", .u32, .rw, 1000000, [(1000, 1000000000)], .shared⟩,
  ⟨"GCL0_BASE_TIME", .time96, .rw, 0, [], .shared⟩,
  ⟨"GCL0_CYCLE_EXT", .u32, .rw, 10000, [(0, 1000000000)], .shared⟩,
  ⟨"GCL0_LIST", .domain, .rw, 0, [], .shared⟩,
  ⟨"GCL0_CHANGE", .u8, .cmd, 0, [(1, 2)], .shared⟩,
  ⟨"GCL0_CHANGE_STATUS", .u8, .ro, 0, [], .shared⟩,
  ⟨"GCL0_CHANGE_TIME", .time96, .ro, 0, [], .shared⟩,
  ⟨"GCL0_OPER_ENABLE", .bool, .ro, 0, [], .shared⟩,
  ⟨"GCL0_OPER_CYCLE_TIME", .u32, .ro, 0, [], .shared⟩,
  ⟨"GCL0_OPER_BASE_TIME", .time96, .ro, 0, [], .shared⟩,
  ⟨"GCL0_OPER_LIST", .domain, .ro, 0, [], .shared⟩,
  ⟨"GCL0_STATES", .u16, .ro, 65535, [], .shared⟩,
  ⟨"GCL0_STICKY", .u8, .rw, 0, [], .shared⟩]

/-- Table 10.9 (R292): 0x3260, 1 instance(s). -/
def rec3260 : List Entry := [
  ⟨"WRED_SUBS", .u8, .ro, 6, [], .shared⟩,
  ⟨"WRED_SEL", .u8, .rw, 1, [(0, 15)], .perTenant⟩,
  ⟨"WRED_MIN", .u32, .rw, 131072, [(0, 131072)], .bySel⟩,
  ⟨"WRED_MAX", .u32, .rw, 131072, [(1, 131072)], .bySel⟩,
  ⟨"WRED_MAX_P", .u16, .rw, 0, [(0, 10000)], .bySel⟩,
  ⟨"WRED_WEIGHT", .u8, .rw, 9, [(0, 15)], .bySel⟩,
  ⟨"WRED_DROPS", .u64, .ro, 0, [], .bySel⟩]

/-- Table 10.10 (R292): 0x3300, 1 instance(s). -/
def rec3300 : List Entry := [
  ⟨"POL_SUBS", .u8, .ro, 13, [], .shared⟩,
  ⟨"POL_SEL", .u8, .rw, 0, [], .perTenant⟩,
  ⟨"POL_MODE", .u8, .rws, 0, [(0, 1)], .bySel⟩,
  ⟨"POL_COLOUR_AWARE", .bool, .rws, 0, [(0, 1)], .bySel⟩,
  ⟨"POL_CIR", .u32, .rw, 1000000, [(64, 100000000)], .bySel⟩,
  ⟨"POL_CBS", .u32, .rw, 16384, [(64, 16777216)], .bySel⟩,
  ⟨"POL_PIR", .u32, .rw, 1000000, [(64, 100000000)], .bySel⟩,
  ⟨"POL_XBS", .u32, .rw, 16384, [(64, 16777216)], .bySel⟩,
  ⟨"POL_YELLOW_ACTION", .u8, .rw, 0, [(0, 1)], .bySel⟩,
  ⟨"POL_RED_ACTION", .u8, .rw, 0, [(0, 1)], .bySel⟩,
  ⟨"POL_GREEN_BYTES", .u64, .ro, 0, [], .bySel⟩,
  ⟨"POL_YELLOW_BYTES", .u64, .ro, 0, [], .bySel⟩,
  ⟨"POL_RED_BYTES", .u64, .ro, 0, [], .bySel⟩,
  ⟨"POL_DROPS", .u64, .ro, 0, [], .bySel⟩]

/-- Table 10.11 (R292): 0x3310, 1 instance(s). -/
def rec3310 : List Entry := [
  ⟨"CLS_SUBS", .u8, .ro, 5, [], .shared⟩,
  ⟨"CLS_SEL", .u16, .rw, 0, [(0, 511)], .perTenant⟩,
  ⟨"CLS_MATCH", (.octets 60), .rws, 0, [], .bySel⟩,
  ⟨"CLS_ACTION", .u32, .rws, 0, [], .bySel⟩,
  ⟨"CLS_HITS", .u64, .ro, 0, [], .bySel⟩,
  ⟨"CLS_RULES", .u16, .ro, 0, [], .shared⟩]

/-- Table 10.12 (R293): 0x3400, 4 instance(s). -/
def rec3400 : List Entry := [
  ⟨"MIR0_SUBS", .u8, .ro, 12, [], .shared⟩,
  ⟨"MIR0_SRC_RX", .u32, .rws, 0, [], .shared⟩,
  ⟨"MIR0_SRC_TX", .u32, .rws, 0, [], .shared⟩,
  ⟨"MIR0_BAD", .bool, .rws, 0, [(0, 1)], .shared⟩,
  ⟨"MIR0_DEST_TYPE", .u8, .rws, 0, [(0, 1)], .shared⟩,
  ⟨"MIR0_DEST", .u8, .rws, 255, [(0, 63), (255, 255)], .shared⟩,
  ⟨"MIR0_QUEUE", .u8, .rws, 0, [(0, 15)], .shared⟩,
  ⟨"MIR0_SAMPLE", .u16, .rws, 1, [(1, 65535)], .shared⟩,
  ⟨"MIR0_TRUNCATE", .u16, .rws, 0, [(0, 0), (64, 9216)], .shared⟩,
  ⟨"MIR0_CANDIDATES", .u64, .ro, 0, [], .shared⟩,
  ⟨"MIR0_COPIES", .u64, .ro, 0, [], .shared⟩,
  ⟨"MIR0_DROPS", .u64, .ro, 0, [], .shared⟩,
  ⟨"MIR0_STICKY", .u8, .rw, 0, [], .shared⟩]

/-- Table 9.10 (R265): 0x3500, 1 instance(s). -/
def rec3500 : List Entry := [
  ⟨"FDB_SUBS", .u8, .ro, 6, [], .shared⟩,
  ⟨"FDB_KEY", (.octets 8), .rw, 0, [], .perTenant⟩,
  ⟨"FDB_ENTRY", .u64, .rw, 0, [], .perTenant⟩,
  ⟨"FDB_OP", .u8, .cmd, 0, [(1, 4)], .shared⟩,
  ⟨"FDB_FLUSH_PORT", .u8, .rw, 255, [(0, 31), (255, 255)], .perTenant⟩,
  ⟨"FDB_FLUSH_VID", .u16, .rw, 65535, [(1, 4094), (65535, 65535)], .perTenant⟩,
  ⟨"FDB_DUMP", .domain, .ro, 0, [], .shared⟩]

/-- Table 9.10 (R265): 0x3510, 1 instance(s). -/
def rec3510 : List Entry := [
  ⟨"VLAN_SUBS", .u8, .ro, 3, [], .shared⟩,
  ⟨"VLAN_SEL", .u16, .rw, 1, [(1, 4094)], .perTenant⟩,
  ⟨"VLAN_MEMBERS", .u32, .rw, 0, [], .bySel⟩,
  ⟨"VLAN_UNTAGGED", .u32, .rw, 0, [], .bySel⟩]

/-- Table 9.10 (R265): 0x3520, 1 instance(s). -/
def rec3520 : List Entry := [
  ⟨"MCG_SUBS", .u8, .ro, 3, [], .shared⟩,
  ⟨"MCG_SEL", .u16, .rw, 0, [(0, 4095)], .perTenant⟩,
  ⟨"MCG_PORTS", .u32, .rw, 0, [], .bySel⟩,
  ⟨"MCG_QUEUE", .u8, .rw, 255, [(0, 63), (255, 255)], .bySel⟩]

/-- Table 9.11 (R266): 0x3530, 16 instance(s). -/
def rec3530 : List Entry := [
  ⟨"LAG0_SUBS", .u8, .ro, 7, [], .shared⟩,
  ⟨"LAG0_MEMBERS", .u32, .rws, 0, [], .shared⟩,
  ⟨"LAG0_FIELDS", .u16, .rw, 499, [(0, 511)], .shared⟩,
  ⟨"LAG0_SEED", .u32, .rw, 0, [], .shared⟩,
  ⟨"LAG0_ACTIVE", .u32, .ro, 0, [], .shared⟩,
  ⟨"LAG0_BUCKET_MAP", .domain, .ro, 0, [], .shared⟩,
  ⟨"LAG0_REBALANCES", .u32, .ro, 0, [], .shared⟩,
  ⟨"LAG0_STICKY", .u8, .rw, 0, [], .shared⟩]

/-- Table 11.6 (R316): 0x3800, 32 instance(s). -/
def rec3800 : List Entry := [
  ⟨"LANE0_SUBS", .u8, .ro, 39, [], .shared⟩,
  ⟨"LANE0_TX_INVERT", .bool, .rws, 0, [(0, 1)], .shared⟩,
  ⟨"LANE0_RX_INVERT", .bool, .rws, 0, [(0, 1)], .shared⟩,
  ⟨"LANE0_TRAIN", .bool, .rws, 0, [(0, 1)], .shared⟩,
  ⟨"LANE0_TX_PRE", .i8, .rws, (-3), [((-16), 0)], .shared⟩,
  ⟨"LANE0_TX_MAIN", .u8, .rws, 42, [(32, 64)], .shared⟩,
  ⟨"LANE0_TX_POST", .i8, .rws, (-17), [((-24), 0)], .shared⟩,
  ⟨"LANE0_TAPS_IN_USE", .u32, .ro, 16591599, [], .shared⟩,
  ⟨"LANE0_TRAIN_STATE", .u8, .ro, 0, [], .shared⟩,
  ⟨"LANE0_TRAIN_UPDATES", .u16, .ro, 0, [], .shared⟩,
  ⟨"LANE0_TRAIN_TIME", .u16, .ro, 0, [], .shared⟩,
  ⟨"LANE0_TEST", .u8, .rws, 0, [(0, 0), (2, 4)], .shared⟩,
  ⟨"LANE0_PRBS_GEN", .u8, .rws, 0, [(0, 5)], .shared⟩,
  ⟨"LANE0_PRBS_CHK", .u8, .rws, 0, [(0, 5)], .shared⟩,
  ⟨"LANE0_PRBS_INVERT", .u8, .rws, 0, [(0, 3)], .shared⟩,
  ⟨"LANE0_PRBS_LOCK", .bool, .ro, 0, [], .shared⟩,
  ⟨"LANE0_PRBS_BITS", .u64, .ro, 0, [], .shared⟩,
  ⟨"LANE0_PRBS_ERRORS", .u64, .ro, 0, [], .shared⟩,
  ⟨"LANE0_PRBS_CLEAR", .u8, .cmd, 0, [(1, 1)], .shared⟩,
  ⟨"LANE0_INJ_MODE", .u8, .rw, 0, [(0, 2)], .shared⟩,
  ⟨"LANE0_INJ_PERIOD", .u32, .rw, 1000000, [(64, 4294967295)], .shared⟩,
  ⟨"LANE0_INJ_AT", .time96, .rw, 0, [], .shared⟩,
  ⟨"LANE0_INJ_ARM", .u8, .cmd, 0, [(1, 2)], .shared⟩,
  ⟨"LANE0_INJ_COUNT", .u64, .ro, 0, [], .shared⟩,
  ⟨"LANE0_FEC_CORRECTED", .u64, .ro, 0, [], .shared⟩,
  ⟨"LANE0_FEC_UNCORRECTED", .u64, .ro, 0, [], .shared⟩,
  ⟨"LANE0_FEC_SYMBOLS", .u64, .ro, 0, [], .shared⟩,
  ⟨"LANE0_SIGNAL", .bool, .ro, 0, [], .shared⟩,
  ⟨"LANE0_CDR_LOCK", .bool, .ro, 0, [], .shared⟩,
  ⟨"LANE0_SB_IN", .u8, .ro, 128, [], .shared⟩,
  ⟨"LANE0_SB_OUT", .u8, .rw, 8, [], .shared⟩,
  ⟨"LANE0_I2C_RATE", .u8, .rw, 0, [(0, 1)], .shared⟩,
  ⟨"LANE0_I2C_DEV", .u8, .rw, 80, [(0, 127)], .perTenant⟩,
  ⟨"LANE0_I2C_OFFSET", .u8, .rw, 0, [], .perTenant⟩,
  ⟨"LANE0_I2C_PAGE", .u8, .rw, 255, [], .perTenant⟩,
  ⟨"LANE0_I2C_LEN", .u8, .rw, 1, [(1, 128)], .perTenant⟩,
  ⟨"LANE0_I2C_DATA", (.octets 128), .rw, 0, [], .perTenant⟩,
  ⟨"LANE0_I2C_OP", .u8, .cmd, 0, [(1, 2)], .shared⟩,
  ⟨"LANE0_STICKY", .u16, .rw, 0, [], .shared⟩,
  ⟨"LANE0_I2C_STATUS", .u8, .ro, 0, [], .perTenant⟩]

/-- Table 12.7 (R339): 0x4000, 1 instance(s). -/
def rec4000 : List Entry := [
  ⟨"GNSS_CFG_SUBS", .u8, .ro, 25, [], .shared⟩,
  ⟨"GNSS_SYSTEMS", .u8, .rws, 7, [(0, 7)], .shared⟩,
  ⟨"GNSS_SIGNALS", .u8, .rws, 63, [(0, 63)], .shared⟩,
  ⟨"GNSS_ELEV_MASK", .u8, .rw, 10, [(0, 60)], .shared⟩,
  ⟨"GNSS_CN0_MASK", .u16, .rw, 2500, [(0, 5000)], .shared⟩,
  ⟨"GNSS_MEAS_RATE", .u8, .rws, 1, [(1, 1), (2, 2), (4, 4), (5, 5), (10, 10), (20, 20), (25, 25), (50, 50)], .shared⟩,
  ⟨"GNSS_PLL_BW", .u16, .rws, 1000, [(100, 3000)], .shared⟩,
  ⟨"GNSS_DLL_BW", .u16, .rws, 50, [(5, 200)], .shared⟩,
  ⟨"GNSS_EL_SPACING", .u8, .rws, 16, [(4, 64)], .shared⟩,
  ⟨"GNSS_VEL_SPACING", .u8, .rws, 48, [(8, 128)], .shared⟩,
  ⟨"GNSS_MP_OFFSETS", .u32, .rws, 1613811872, [], .shared⟩,
  ⟨"GNSS_DLL_DISC", .u8, .rws, 0, [(0, 1)], .shared⟩,
  ⟨"GNSS_POS_MODE", .u8, .rws, 0, [(0, 2)], .shared⟩,
  ⟨"GNSS_POS_FIXED", (.octets 24), .rws, 0, [], .shared⟩,
  ⟨"GNSS_SURVEY_TIME", .u32, .rws, 86400, [(600, 604800)], .shared⟩,
  ⟨"GNSS_SURVEY_LIMIT", .u32, .rws, 100, [(10, 100000)], .shared⟩,
  ⟨"GNSS_TIME_SYSTEM", .u8, .rws, 0, [(0, 3)], .shared⟩,
  ⟨"GNSS_TIME_MIN_SV", .u8, .rws, 4, [(2, 12)], .shared⟩,
  ⟨"GNSS_ANT_DELAY_L1", .i32, .rws, 0, [((-1000000), 1000000)], .shared⟩,
  ⟨"GNSS_ANT_DELAY_L5", .i32, .rws, 0, [((-1000000), 1000000)], .shared⟩,
  ⟨"GNSS_ANT_DELAY_UNC", .u32, .rws, 1000, [(0, 1000000)], .shared⟩,
  ⟨"GNSS_SYSTEM_UNC", .u32, .rws, 25000, [(0, 1000000)], .shared⟩,
  ⟨"GNSS_ANT_POWER", .u8, .rw, 0, [(0, 2)], .shared⟩,
  ⟨"GNSS_DUTY_PERIOD", .u32, .rws, 0, [(0, 0), (600, 86400)], .shared⟩,
  ⟨"GNSS_DUTY_ON", .u32, .rws, 300, [(60, 86399)], .shared⟩,
  ⟨"GNSS_DUTY_PHASE", .u32, .rws, 0, [(0, 86399)], .shared⟩]

/-- Table 12.8 (R339): 0x4001, 1 instance(s). -/
def rec4001 : List Entry := [
  ⟨"GNSS_STAT_SUBS", .u8, .ro, 20, [], .shared⟩,
  ⟨"GNSS_STATUS", .u8, .ro, 0, [], .shared⟩,
  ⟨"GNSS_FIX_CLASS", .u8, .ro, 0, [], .shared⟩,
  ⟨"GNSS_SV_TRACKED", .u8, .ro, 0, [], .shared⟩,
  ⟨"GNSS_SV_USED", .u8, .ro, 0, [], .shared⟩,
  ⟨"GNSS_POSITION", (.octets 24), .ro, 0, [], .shared⟩,
  ⟨"GNSS_POS_UNC", .u32, .ro, 4294967295, [], .shared⟩,
  ⟨"GNSS_TIME_OFFSET", .i64, .ro, 0, [], .shared⟩,
  ⟨"GNSS_TIME_UNC", .u32, .ro, 4294967295, [], .shared⟩,
  ⟨"GNSS_SURVEY_STATE", .u8, .ro, 0, [], .shared⟩,
  ⟨"GNSS_TTFF", .u32, .ro, 4294967295, [], .shared⟩,
  ⟨"GNSS_START_KIND", .u8, .ro, 0, [], .shared⟩,
  ⟨"GNSS_ANT_STATE", .u8, .ro, 0, [], .shared⟩,
  ⟨"GNSS_AGC", .u32, .ro, 0, [], .shared⟩,
  ⟨"GNSS_JAM_IND", .u8, .ro, 0, [], .shared⟩,
  ⟨"GNSS_EPOCHS", .u32, .ro, 0, [], .shared⟩,
  ⟨"GNSS_SKIPPED", .u32, .ro, 0, [], .shared⟩,
  ⟨"GNSS_KEEP", .u8, .ro, 0, [], .shared⟩,
  ⟨"GNSS_KEEP_CLEAR", .u8, .cmd, 0, [(1, 1)], .shared⟩,
  ⟨"GNSS_SLIPS", .u32, .ro, 0, [], .shared⟩,
  ⟨"GNSS_STICKY", .u16, .rw, 0, [], .shared⟩]

/-- Table 12.9 (R340): 0x4002, 1 instance(s). -/
def rec4002 : List Entry := [
  ⟨"GNSS_CH_SUBS", .u8, .ro, 8, [], .shared⟩,
  ⟨"GNSS_CH_SEL", .u8, .rw, 0, [(0, 79)], .perTenant⟩,
  ⟨"GNSS_CH_STATE", .u8, .ro, 0, [], .bySel⟩,
  ⟨"GNSS_CH_SIGNAL", .u8, .ro, 0, [], .bySel⟩,
  ⟨"GNSS_CH_SVID", .u8, .ro, 0, [], .bySel⟩,
  ⟨"GNSS_CH_CN0", .u16, .ro, 0, [], .bySel⟩,
  ⟨"GNSS_CH_ELEV", .i8, .ro, 0, [], .bySel⟩,
  ⟨"GNSS_CH_AZIM", .u16, .ro, 0, [], .bySel⟩,
  ⟨"GNSS_CH_LAST", (.octets 72), .ro, 0, [], .bySel⟩]

/-- Table 12.10 (R340): 0x4003, 1 instance(s). -/
def rec4003 : List Entry := [
  ⟨"GNSS_RING_SUBS", .u8, .ro, 5, [], .shared⟩,
  ⟨"GNSS_RING_WR", .u32, .ro, 0, [], .shared⟩,
  ⟨"GNSS_RING_RD", .u32, .rw, 0, [], .perTenant⟩,
  ⟨"GNSS_RING_DATA", .domain, .ro, 0, [], .shared⟩,
  ⟨"GNSS_RING_SIZE", .u32, .ro, 4096, [], .shared⟩,
  ⟨"GNSS_RING_STICKY", .u8, .rw, 0, [], .perTenant⟩]

/-- Table 13.8 (R369): 0x5000, 1 instance(s). -/
def rec5000 : List Entry := [
  ⟨"SE_SUBS", .u8, .ro, 9, [], .shared⟩,
  ⟨"SE_MAC_LOAD", .u32, .ro, 0, [], .shared⟩,
  ⟨"SE_SAMPLE_LOAD", .u32, .ro, 0, [], .shared⟩,
  ⟨"SE_CHANNELS", .u16, .ro, 0, [], .shared⟩,
  ⟨"SE_FAST_CHANNELS", .u8, .ro, 0, [], .shared⟩,
  ⟨"SE_UDP_PORT", .u16, .rw, 48250, [(1, 65535)], .shared⟩,
  ⟨"SE_MALFORMED", .u64, .ro, 0, [], .shared⟩,
  ⟨"SE_UNKNOWN", .u64, .ro, 0, [], .shared⟩,
  ⟨"SE_SATURATIONS", .u64, .ro, 0, [], .shared⟩,
  ⟨"SE_STICKY", .u8, .rw, 0, [], .shared⟩]

/-- Table 13.9 (R369): 0x5001, 1 instance(s). -/
def rec5001 : List Entry := [
  ⟨"STR_SUBS", .u8, .ro, 15, [], .shared⟩,
  ⟨"STR_SEL", .u8, .rw, 0, [], .perTenant⟩,
  ⟨"STR_KIND", .u8, .rws, 0, [(0, 2)], .bySel⟩,
  ⟨"STR_KEY", .u64, .rws, 0, [], .bySel⟩,
  ⟨"STR_CQ", .u8, .rws, 0, [(0, 63)], .bySel⟩,
  ⟨"STR_CHANNELS", .u8, .rws, 1, [(1, 64)], .bySel⟩,
  ⟨"STR_CH_BASE", .u16, .rws, 0, [(0, 4095)], .bySel⟩,
  ⟨"STR_RATE", .u32, .rws, 100000, [(1, 200000000)], .bySel⟩,
  ⟨"STR_TIMING", .u8, .rws, 0, [(0, 1)], .bySel⟩,
  ⟨"STR_GRID_OUT", .u8, .rws, 0, [(0, 7)], .bySel⟩,
  ⟨"STR_GRAPH", .u8, .rws, 255, [(0, 15), (255, 255)], .bySel⟩,
  ⟨"STR_FRAMES", .u64, .ro, 0, [], .bySel⟩,
  ⟨"STR_GAP_SAMPLES", .u64, .ro, 0, [], .bySel⟩,
  ⟨"STR_DROPS", .u64, .ro, 0, [], .bySel⟩,
  ⟨"STR_TIME_MISMATCH", .u64, .ro, 0, [], .bySel⟩,
  ⟨"STR_STICKY", .u8, .rw, 0, [], .bySel⟩]

/-- Table 13.10 (R369): 0x5010, 16 instance(s). -/
def rec5010 : List Entry := [
  ⟨"G0_SUBS", .u8, .ro, 6, [], .shared⟩,
  ⟨"G0_GRAPH", .domain, .rws, 0, [], .shared⟩,
  ⟨"G0_MAC_COST", .u32, .ro, 0, [], .shared⟩,
  ⟨"G0_SATURATIONS", .u64, .ro, 0, [], .shared⟩,
  ⟨"G0_TRIGGERS", .u32, .ro, 0, [], .shared⟩,
  ⟨"G0_ERROR", .u16, .ro, 65535, [], .shared⟩,
  ⟨"G0_STICKY", .u8, .rw, 0, [], .shared⟩]

/-- Table 13.11 (R369): 0x5040, 1 instance(s). -/
def rec5040 : List Entry := [
  ⟨"ARC_SUBS", .u8, .ro, 16, [], .shared⟩,
  ⟨"ARC_STAGING", .u32, .rws, 2048, [(256, 4096)], .shared⟩,
  ⟨"ARC_STAGING_USED", .u32, .ro, 0, [], .shared⟩,
  ⟨"ARC_FLASH_USED", .u64, .ro, 0, [], .shared⟩,
  ⟨"ARC_FLASH_WEAR", .u16, .ro, 0, [], .shared⟩,
  ⟨"ARC_NVME_NSID", .u32, .rws, 1, [(1, 4294967294)], .shared⟩,
  ⟨"ARC_NVME_LBA_START", .u64, .rws, 0, [], .shared⟩,
  ⟨"ARC_NVME_LBA_COUNT", .u64, .rws, 0, [], .shared⟩,
  ⟨"ARC_NVME_STATE", .u8, .ro, 0, [], .shared⟩,
  ⟨"ARC_WR_SEQ", .u32, .ro, 0, [], .shared⟩,
  ⟨"ARC_RD_TARGET", .u8, .rw, 0, [(0, 1)], .perTenant⟩,
  ⟨"ARC_RD", .u32, .rw, 0, [], .perTenant⟩,
  ⟨"ARC_DATA", .domain, .ro, 0, [], .shared⟩,
  ⟨"ARC_SEEK_TIME", .time96, .rw, 0, [], .perTenant⟩,
  ⟨"ARC_SEEK", .u8, .cmd, 0, [(1, 1)], .shared⟩,
  ⟨"ARC_OVERWRITTEN", .u64, .ro, 0, [], .shared⟩,
  ⟨"ARC_STICKY", .u8, .rw, 0, [], .shared⟩]

/-- Table 14.6 (R394): 0x5100, 1 instance(s). -/
def rec5100 : List Entry := [
  ⟨"POOL_SUBS", .u8, .ro, 7, [], .shared⟩,
  ⟨"POOL_COUNT_256", .u32, .rws, 1048576, [], .shared⟩,
  ⟨"POOL_COUNT_2K", .u32, .rws, 1048576, [], .shared⟩,
  ⟨"POOL_COUNT_16K", .u32, .rws, 131072, [], .shared⟩,
  ⟨"POOL_COUNT_256K", .u32, .rws, 33536, [], .shared⟩,
  ⟨"POOL_SPILL", .bool, .rw, 1, [(0, 1)], .shared⟩,
  ⟨"POOL_REGION_MIB", .u32, .ro, 12736, [], .shared⟩,
  ⟨"POOL_STICKY", .u8, .rw, 0, [], .shared⟩]

/-- Table 14.7 (R395): 0x5101, 4 instance(s). -/
def rec5101 : List Entry := [
  ⟨"POOL256_SUBS", .u8, .ro, 7, [], .shared⟩,
  ⟨"POOL256_FREE", .u32, .ro, 0, [], .shared⟩,
  ⟨"POOL256_MIN_FREE", .u32, .rw, 0, [], .shared⟩,
  ⟨"POOL256_ALLOCS", .u64, .ro, 0, [], .shared⟩,
  ⟨"POOL256_SPILLS", .u64, .ro, 0, [], .shared⟩,
  ⟨"POOL256_WAITS", .u64, .ro, 0, [], .shared⟩,
  ⟨"POOL256_WAITERS", .u16, .ro, 0, [], .shared⟩,
  ⟨"POOL256_DOUBLE_RELEASES", .u32, .ro, 0, [], .shared⟩]

/-- Table 14.8 (R396): 0x5200, 64 instance(s). -/
def rec5200 : List Entry := [
  ⟨"DMA0_SUBS", .u8, .ro, 30, [], .shared⟩,
  ⟨"DMA0_MODE", .u8, .rws, 0, [(0, 2)], .shared⟩,
  ⟨"DMA0_TENANT", .u8, .rws, 0, [(0, 7)], .shared⟩,
  ⟨"DMA0_FUNCTION", .u8, .rws, 0, [(0, 3)], .shared⟩,
  ⟨"DMA0_PRIORITY", .u8, .rw, 3, [(0, 7)], .shared⟩,
  ⟨"DMA0_MAX_READS", .u16, .rw, 64, [(1, 1024)], .shared⟩,
  ⟨"DMA0_RETRIES", .u8, .rw, 3, [(0, 7)], .shared⟩,
  ⟨"DMA0_RING_SPACE", .u8, .rws, 0, [(0, 1)], .shared⟩,
  ⟨"DMA0_RING_BASE", .u64, .rws, 0, [], .shared⟩,
  ⟨"DMA0_RING_SIZE", .u32, .rws, 256, [(16, 16), (32, 32), (64, 64), (128, 128), (256, 256), (512, 512), (1024, 1024), (2048, 2048), (4096, 4096), (65536, 65536), (131072, 131072), (262144, 262144), (524288, 524288), (1048576, 1048576), (2097152, 2097152), (4194304, 4194304), (8388608, 8388608), (16777216, 16777216)], .shared⟩,
  ⟨"DMA0_HEAD", .u32, .ro, 0, [], .shared⟩,
  ⟨"DMA0_TAIL", .u32, .rw, 0, [], .shared⟩,
  ⟨"DMA0_WB_ADDR", .u64, .rws, 0, [], .shared⟩,
  ⟨"DMA0_IRQ_HOLDOFF", .u32, .rw, 0, [(0, 1000000)], .shared⟩,
  ⟨"DMA0_GATHER_SPACE", .u8, .rw, 0, [(0, 1)], .shared⟩,
  ⟨"DMA0_GATHER_BASE", .u64, .rw, 0, [], .shared⟩,
  ⟨"DMA0_CQ", .u8, .rws, 0, [(0, 63)], .shared⟩,
  ⟨"DMA0_CQ_BACKLOG", .u16, .rws, 1024, [(1, 65535)], .shared⟩,
  ⟨"DMA0_SOURCE_RING", .u8, .rws, 0, [(0, 2)], .shared⟩,
  ⟨"DMA0_STATUS", .u8, .ro, 0, [], .shared⟩,
  ⟨"DMA0_RESUME", .u8, .cmd, 0, [(1, 2)], .shared⟩,
  ⟨"DMA0_ERR_ADDR", .u64, .ro, 0, [], .shared⟩,
  ⟨"DMA0_ERR_INFO", .u16, .ro, 0, [], .shared⟩,
  ⟨"DMA0_ERR_DESC", .u32, .ro, 0, [], .shared⟩,
  ⟨"DMA0_BYTES", .u64, .ro, 0, [], .shared⟩,
  ⟨"DMA0_DESCRIPTORS", .u64, .ro, 0, [], .shared⟩,
  ⟨"DMA0_RETRIED", .u32, .ro, 0, [], .shared⟩,
  ⟨"DMA0_TRUNCATED", .u64, .ro, 0, [], .shared⟩,
  ⟨"DMA0_SKIPPED", .u64, .ro, 0, [], .shared⟩,
  ⟨"DMA0_DOORBELL_DROPS", .u32, .ro, 0, [], .shared⟩,
  ⟨"DMA0_STICKY", .u16, .rw, 0, [], .shared⟩]

/-- Table 17.5 (R458): 0x6000, 1 instance(s). -/
def rec6000 : List Entry := [
  ⟨"PAIR_SUBS", .u8, .ro, 11, [], .shared⟩,
  ⟨"PAIR_ENABLE", .bool, .rw, 0, [(0, 1)], .shared⟩,
  ⟨"PAIR_ENABLED", .bool, .ro, 0, [], .shared⟩,
  ⟨"PAIR_POSITION", .u8, .rw, 0, [(0, 1)], .shared⟩,
  ⟨"PAIR_STATE", .u8, .ro, 0, [], .shared⟩,
  ⟨"PAIR_PARTNER_ID", .u64, .ro, 0, [], .shared⟩,
  ⟨"PAIR_PARTNER_STATE", .u8, .ro, 255, [], .shared⟩,
  ⟨"PAIR_SWITCH_BACK", .u8, .cmd, 0, [(1, 1)], .shared⟩,
  ⟨"PAIR_SWITCHOVERS", .u32, .ro, 0, [], .shared⟩,
  ⟨"PAIR_LAST_GAP", .u32, .ro, 0, [], .shared⟩,
  ⟨"PAIR_IDENTITY", .u64, .ro, 0, [], .shared⟩,
  ⟨"PAIR_STICKY", .u8, .rw, 0, [], .shared⟩]

/-- Table 17.6 (R458): 0x6001, 1 instance(s). -/
def rec6001 : List Entry := [
  ⟨"EXPORT_SUBS", .u8, .ro, 8, [], .shared⟩,
  ⟨"EXPORT_SEQ", .u32, .ro, 0, [], .shared⟩,
  ⟨"EXPORT_ACKED", .u32, .ro, 0, [], .shared⟩,
  ⟨"EXPORT_TIME", .time96, .ro, 0, [], .shared⟩,
  ⟨"EXPORT_BYTES", .u32, .ro, 0, [], .shared⟩,
  ⟨"EXPORT_AGE", .u32, .ro, 4294967295, [], .shared⟩,
  ⟨"EXPORT_FAILS", .u32, .ro, 0, [], .shared⟩,
  ⟨"EXPORT_DISCARDED", .u32, .ro, 0, [], .shared⟩,
  ⟨"EXPORT_AGE_LIMIT", .u32, .rw, 1000, [(200, 60000)], .shared⟩]

/-- Table 17.7 (R458): 0x6002, 1 instance(s). -/
def rec6002 : List Entry := [
  ⟨"SWO_SUBS", .u8, .ro, 7, [], .shared⟩,
  ⟨"SWO_HB_MISSED", .u32, .ro, 0, [], .shared⟩,
  ⟨"SWO_PREWAKES", .u32, .ro, 0, [], .shared⟩,
  ⟨"SWO_HANDOVER_N", .bool, .ro, 1, [], .shared⟩,
  ⟨"SWO_PARTNER_ALIVE", .bool, .ro, 0, [], .shared⟩,
  ⟨"SWO_ROLE", .bool, .ro, 0, [], .shared⟩,
  ⟨"SWO_LAST_CAUSE", .u8, .ro, 0, [], .shared⟩,
  ⟨"SWO_LAST_TIME", .time96, .ro, 0, [], .shared⟩]

/-- Table 18.8 (R476): 0x7000, 1 instance(s). -/
def rec7000 : List Entry := [
  ⟨"SAFE_SUBS", .u8, .ro, 8, [], .shared⟩,
  ⟨"SAFE_STATE", .bool, .ro, 0, [], .shared⟩,
  ⟨"SAFE_CAUSE", .u8, .ro, 0, [], .shared⟩,
  ⟨"SAFE_CLEAR", .u8, .cmd, 0, [(1, 1)], .shared⟩,
  ⟨"SAFE_FORCE", .u8, .cmd, 0, [(1, 1)], .shared⟩,
  ⟨"SAFE_DP_LIMIT", .u16, .rw, 16, [(1, 65535)], .shared⟩,
  ⟨"SAFE_ENTRIES", .u32, .ro, 0, [], .shared⟩,
  ⟨"SAFE_LAST_TIME", .time96, .ro, 0, [], .shared⟩,
  ⟨"SAFE_STICKY", .u8, .rw, 0, [], .shared⟩]

/-- Table 18.8 (R476): 0x7001, 1 instance(s). -/
def rec7001 : List Entry := [
  ⟨"XW_SUBS", .u8, .ro, 11, [], .shared⟩,
  ⟨"XW_PHASE_LIMIT", .u32, .rw, 250, [(100, 100000)], .shared⟩,
  ⟨"XW_CONV_LIMIT", .u32, .rw, 50, [(20, 10000)], .shared⟩,
  ⟨"XW_STATUS", .u8, .ro, 0, [], .shared⟩,
  ⟨"XW_LAST_TRIP", .u8, .ro, 0, [], .shared⟩,
  ⟨"XW_LAST_INSTANCE", .u8, .ro, 0, [], .shared⟩,
  ⟨"XW_LAST_ERROR", .i64, .ro, 0, [], .shared⟩,
  ⟨"XW_TRIPS", .u32, .ro, 0, [], .shared⟩,
  ⟨"XW_CLOCK_DIFF", .i64, .ro, 0, [], .shared⟩,
  ⟨"XW_SELFTEST_PERIOD", .u32, .rw, 3600, [(60, 86400)], .shared⟩,
  ⟨"XW_SELFTESTS", .u32, .ro, 0, [], .shared⟩,
  ⟨"XW_STICKY", .u8, .rw, 0, [], .shared⟩]

/-- Table 18.8 (R476): 0x7002, 1 instance(s). -/
def rec7002 : List Entry := [
  ⟨"DPC_SUBS", .u8, .ro, 9, [], .shared⟩,
  ⟨"DPC_PARITY_ERRORS", .u64, .ro, 0, [], .shared⟩,
  ⟨"DPC_FCS_MISMATCH", .u64, .ro, 0, [], .shared⟩,
  ⟨"DPC_TABLE_CORRECTED", .u64, .ro, 0, [], .shared⟩,
  ⟨"DPC_TABLE_UNCORRECTED", .u64, .ro, 0, [], .shared⟩,
  ⟨"DPC_LPDDR_CORRECTED", .u64, .ro, 0, [], .shared⟩,
  ⟨"DPC_LPDDR_UNCORRECTED", .u64, .ro, 0, [], .shared⟩,
  ⟨"DPC_SRAM_CORRECTED", .u64, .ro, 0, [], .shared⟩,
  ⟨"DPC_SRAM_UNCORRECTED", .u64, .ro, 0, [], .shared⟩,
  ⟨"DPC_STICKY", .u8, .rw, 0, [], .shared⟩]

/-- Table 18.8 (R476): 0x7003, 1 instance(s). -/
def rec7003 : List Entry := [
  ⟨"SCRUB_SUBS", .u8, .ro, 8, [], .shared⟩,
  ⟨"SCRUB_PERIOD", .u32, .rw, 43200, [(3600, 86400)], .shared⟩,
  ⟨"SCRUB_PASSES", .u32, .ro, 0, [], .shared⟩,
  ⟨"SCRUB_LAST_PASS", .time96, .ro, 0, [], .shared⟩,
  ⟨"SCRUB_PROGRESS", .u16, .ro, 0, [], .shared⟩,
  ⟨"SCRUB_CORRECTED", .u64, .ro, 0, [], .shared⟩,
  ⟨"SCRUB_UNCORRECTED", .u64, .ro, 0, [], .shared⟩,
  ⟨"SCRUB_CELLS_RETURNED", .u32, .ro, 0, [], .shared⟩,
  ⟨"SCRUB_STICKY", .u8, .rw, 0, [], .shared⟩]

/-- Table 18.9 (R476): 0x7100, 1 instance(s). -/
def rec7100 : List Entry := [
  ⟨"CNT_SUBS", .u8, .ro, 5, [], .shared⟩,
  ⟨"CNT_DUMP_PERIOD", .u32, .rw, 0, [(0, 0), (10, 1000000)], .shared⟩,
  ⟨"CNT_SNAPSHOT", .u8, .cmd, 0, [(1, 1)], .shared⟩,
  ⟨"CNT_DUMPS", .u64, .ro, 0, [], .shared⟩,
  ⟨"CNT_DUMPS_MISSED", .u32, .ro, 0, [], .shared⟩,
  ⟨"CNT_STICKY", .u8, .rw, 0, [], .shared⟩]

/-- Table 18.9 (R476): 0x7101, 1 instance(s). -/
def rec7101 : List Entry := [
  ⟨"CNT_FIXED_SUBS", .u8, .ro, 16, [], .shared⟩,
  ⟨"CNT_FIXED_VESPER_CYCLES", .u64, .ro, 0, [], .shared⟩,
  ⟨"CNT_FIXED_FABRIC_CYCLES", .u64, .ro, 0, [], .shared⟩,
  ⟨"CNT_FIXED_PRIXUS_CYCLES", .u64, .ro, 0, [], .shared⟩,
  ⟨"CNT_FIXED_EVORVO_CYCLES", .u64, .ro, 0, [], .shared⟩,
  ⟨"CNT_FIXED_LPDDR_CYCLES", .u64, .ro, 0, [], .shared⟩,
  ⟨"CNT_FIXED_RX_FRAMES", .u64, .ro, 0, [], .shared⟩,
  ⟨"CNT_FIXED_TX_FRAMES", .u64, .ro, 0, [], .shared⟩,
  ⟨"CNT_FIXED_DROPS", .u64, .ro, 0, [], .shared⟩,
  ⟨"CNT_FIXED_CELL_WRITES", .u64, .ro, 0, [], .shared⟩,
  ⟨"CNT_FIXED_CQ_FRAMES", .u64, .ro, 0, [], .shared⟩,
  ⟨"CNT_FIXED_DMA_BEATS", .u64, .ro, 0, [], .shared⟩,
  ⟨"CNT_FIXED_SE_SAMPLES", .u64, .ro, 0, [], .shared⟩,
  ⟨"CNT_FIXED_MACS", .u64, .ro, 0, [], .shared⟩,
  ⟨"CNT_FIXED_OD_REQUESTS", .u64, .ro, 0, [], .shared⟩,
  ⟨"CNT_FIXED_JOB_STEPS", .u64, .ro, 0, [], .shared⟩,
  ⟨"CNT_FIXED_EVENTS", .u64, .ro, 0, [], .shared⟩]

/-- Table 18.9 (R476): 0x7102, 1 instance(s). -/
def rec7102 : List Entry := [
  ⟨"CNT_RING_SUBS", .u8, .ro, 5, [], .shared⟩,
  ⟨"CNT_RING_WR", .u32, .ro, 0, [], .shared⟩,
  ⟨"CNT_RING_RD", .u32, .rw, 0, [], .perTenant⟩,
  ⟨"CNT_RING_DATA", .domain, .ro, 0, [], .shared⟩,
  ⟨"CNT_RING_SIZE", .u32, .ro, 8192, [], .shared⟩,
  ⟨"CNT_RING_STICKY", .u8, .rw, 0, [], .perTenant⟩]

/-- Table 18.9 (R476): 0x7103, 1 instance(s). -/
def rec7103 : List Entry := [
  ⟨"CNT_ACCESS_SUBS", .u8, .ro, 9, [], .shared⟩,
  ⟨"CNT_ACCESS_T0", .u64, .rw, 0, [], .shared⟩,
  ⟨"CNT_ACCESS_T1", .u64, .rw, 0, [], .shared⟩,
  ⟨"CNT_ACCESS_T2", .u64, .rw, 0, [], .shared⟩,
  ⟨"CNT_ACCESS_T3", .u64, .rw, 0, [], .shared⟩,
  ⟨"CNT_ACCESS_T4", .u64, .rw, 0, [], .shared⟩,
  ⟨"CNT_ACCESS_T5", .u64, .rw, 0, [], .shared⟩,
  ⟨"CNT_ACCESS_T6", .u64, .rw, 0, [], .shared⟩,
  ⟨"CNT_ACCESS_T7", .u64, .rw, 0, [], .shared⟩,
  ⟨"CNT_ACCESS_FIXED", .u8, .rw, 1, [], .shared⟩]

/-- Table 18.10 (R477): 0x7110, 64 instance(s). -/
def rec7110 : List Entry := [
  ⟨"CNT0_SUBS", .u8, .ro, 7, [], .shared⟩,
  ⟨"CNT0_SELECT", .u16, .rw, 0, [], .shared⟩,
  ⟨"CNT0_MODE", .u8, .rw, 0, [(0, 2)], .shared⟩,
  ⟨"CNT0_VALUE", .u64, .rw, 0, [(0, 281474976710655)], .shared⟩,
  ⟨"CNT0_RELOAD", .u64, .rw, 0, [(0, 281474976710655)], .shared⟩,
  ⟨"CNT0_IRQ", .bool, .rw, 0, [(0, 1)], .shared⟩,
  ⟨"CNT0_OWNER", .u8, .ro, 255, [], .shared⟩,
  ⟨"CNT0_OVERFLOWS", .u32, .ro, 0, [], .shared⟩]

/-- Table 18.10 (R477): 0x7200, 1 instance(s). -/
def rec7200 : List Entry := [
  ⟨"FI_SUBS", .u8, .ro, 6, [], .shared⟩,
  ⟨"FI_ENABLE", .bool, .rw, 0, [(0, 1)], .shared⟩,
  ⟨"FI_ARMED", .u32, .ro, 0, [], .shared⟩,
  ⟨"FI_XW_TEST", .u8, .cmd, 0, [(1, 5)], .shared⟩,
  ⟨"FI_XW_TEST_SAFE", .bool, .rw, 0, [(0, 1)], .shared⟩,
  ⟨"FI_ECC_TEST", .u8, .cmd, 0, [(1, 2)], .shared⟩,
  ⟨"FI_STICKY", .u8, .rw, 0, [], .shared⟩]

/-- Table 18.10 (R477): 0x7210, 32 instance(s). -/
def rec7210 : List Entry := [
  ⟨"FIP0_SUBS", .u8, .ro, 16, [], .shared⟩,
  ⟨"FIP0_KIND", .u8, .rw, 0, [(0, 4)], .shared⟩,
  ⟨"FIP0_MATCH", .u16, .rw, 65535, [(0, 511), (32768, 32783), (65535, 65535)], .shared⟩,
  ⟨"FIP0_N", .u32, .rw, 1, [(1, 4294967295)], .shared⟩,
  ⟨"FIP0_PATTERN", .u32, .rw, 0, [], .shared⟩,
  ⟨"FIP0_BYTE", .u16, .rw, 0, [(0, 9215)], .shared⟩,
  ⟨"FIP0_BIT", .u8, .rw, 0, [(0, 7)], .shared⟩,
  ⟨"FIP0_FCS_FIXUP", .bool, .rw, 0, [(0, 1)], .shared⟩,
  ⟨"FIP0_HOLD", .u8, .rw, 1, [(1, 8)], .shared⟩,
  ⟨"FIP0_RELEASE_AFTER", .u16, .rw, 1, [(1, 65535)], .shared⟩,
  ⟨"FIP0_DELAY", .u32, .rw, 1000, [(100, 100000000)], .shared⟩,
  ⟨"FIP0_COUNT", .u32, .rw, 0, [], .shared⟩,
  ⟨"FIP0_ARM_AT", .time96, .rw, 0, [], .shared⟩,
  ⟨"FIP0_ARM", .u8, .cmd, 0, [(1, 2)], .shared⟩,
  ⟨"FIP0_STATUS", .u8, .ro, 0, [], .shared⟩,
  ⟨"FIP0_ACTIONS", .u64, .ro, 0, [], .shared⟩,
  ⟨"FIP0_STICKY", .u8, .rw, 0, [], .shared⟩]

/-- One record of Table 16.3: base index, number of instances and its entries in sub-index order. -/
abbrev Record := Nat × Nat × List Entry

/-- Records of Table 16.3, part 1. -/
def recordsPart1 : List Record := [
  (0x1000, 1, rec1000),
  (0x1001, 1, rec1001),
  (0x1100, 1, rec1100),
  (0x1101, 1, rec1101),
  (0x1110, 8, rec1110),
  (0x1200, 1, rec1200),
  (0x1202, 1, rec1202),
  (0x1203, 1, rec1203),
  (0x1210, 168, rec1210),
  (0x12C0, 16, rec12C0),
  (0x1300, 1, rec1300),
  (0x1301, 1, rec1301),
  (0x1302, 1, rec1302),
  (0x1303, 1, rec1303),
  (0x2000, 1, rec2000),
  (0x2001, 1, rec2001),
  (0x2002, 1, rec2002),
  (0x2010, 2, rec2010),
  (0x2020, 1, rec2020),
  (0x2200, 32, rec2200)]

/-- Records of Table 16.3, part 2. -/
def recordsPart2 : List Record := [
  (0x2400, 4, rec2400),
  (0x2410, 8, rec2410),
  (0x2418, 2, rec2418),
  (0x2420, 1, rec2420),
  (0x2600, 1, rec2600),
  (0x2620, 24, rec2620),
  (0x2700, 1, rec2700),
  (0x2701, 1, rec2701),
  (0x2702, 1, rec2702),
  (0x2703, 1, rec2703),
  (0x2800, 1, rec2800),
  (0x2801, 1, rec2801),
  (0x2802, 1, rec2802),
  (0x2810, 16, rec2810),
  (0x2820, 32, rec2820),
  (0x2900, 8, rec2900),
  (0x2910, 1, rec2910),
  (0x3000, 1, rec3000),
  (0x3100, 32, rec3100),
  (0x3200, 32, rec3200)]

/-- Records of Table 16.3, part 3. -/
def recordsPart3 : List Record := [
  (0x3220, 1, rec3220),
  (0x3240, 32, rec3240),
  (0x3260, 1, rec3260),
  (0x3300, 1, rec3300),
  (0x3310, 1, rec3310),
  (0x3400, 4, rec3400),
  (0x3500, 1, rec3500),
  (0x3510, 1, rec3510),
  (0x3520, 1, rec3520),
  (0x3530, 16, rec3530),
  (0x3800, 32, rec3800),
  (0x4000, 1, rec4000),
  (0x4001, 1, rec4001),
  (0x4002, 1, rec4002),
  (0x4003, 1, rec4003),
  (0x5000, 1, rec5000),
  (0x5001, 1, rec5001),
  (0x5010, 16, rec5010),
  (0x5040, 1, rec5040),
  (0x5100, 1, rec5100)]

/-- Records of Table 16.3, part 4. -/
def recordsPart4 : List Record := [
  (0x5101, 4, rec5101),
  (0x5200, 64, rec5200),
  (0x6000, 1, rec6000),
  (0x6001, 1, rec6001),
  (0x6002, 1, rec6002),
  (0x7000, 1, rec7000),
  (0x7001, 1, rec7001),
  (0x7002, 1, rec7002),
  (0x7003, 1, rec7003),
  (0x7100, 1, rec7100),
  (0x7101, 1, rec7101),
  (0x7102, 1, rec7102),
  (0x7103, 1, rec7103),
  (0x7110, 64, rec7110),
  (0x7200, 1, rec7200),
  (0x7210, 32, rec7210)]

/-- Every record of the dictionary, in ascending index (R433, Table 16.3). -/
def records : List Record := recordsPart1 ++ recordsPart2 ++ recordsPart3 ++ recordsPart4

end Sys2Proof.Machine
end

