-- ==== Sys2Proof/Machine/Keys.lean ====
section
/-! DEFINITION. The name of every dictionary entry as the key under which `State.od` and `State.blobs` hold it (R434: instance `n` has
index base + n; R439: an entry held for each tenant, and an entry behind a selector, has one copy per tenant or selected object `i`). -/

namespace Sys2Proof.Machine.Od


-- 0x1000, Table 16.1 of spec/16_od_index_map.md
def ID_VENDOR : Nat := key 0x1000 0x01
def ID_PRODUCT : Nat := key 0x1000 0x02
def ID_ORDERING_CODE : Nat := key 0x1000 0x03
def ID_STEPPING : Nat := key 0x1000 0x04
def ID_FW_MAJOR : Nat := key 0x1000 0x05
def ID_FW_MINOR : Nat := key 0x1000 0x06
def ID_FW_BUILD : Nat := key 0x1000 0x07
def ID_SERIAL : Nat := key 0x1000 0x08
def ID_MODULE_IDENTITY : Nat := key 0x1000 0x09
def ID_MAC_ADDRESS : Nat := key 0x1000 0x0A
def ID_OD_VERSION : Nat := key 0x1000 0x0B
def ID_BOOT_ROM : Nat := key 0x1000 0x0C

-- 0x1001, Table 16.2 of spec/16_od_index_map.md
def CAP_GNSS_RF : Nat := key 0x1001 0x01
def CAP_PCIE_STRAP : Nat := key 0x1001 0x02
def CAP_PCIE_FUNCTIONS : Nat := key 0x1001 0x03
def CAP_PCIE_LINK : Nat := key 0x1001 0x04
def CAP_LPDDR_MIB : Nat := key 0x1001 0x05
def CAP_NAND_MIB : Nat := key 0x1001 0x06
def CAP_TENANTS : Nat := key 0x1001 0x07

-- 0x1100, Table 15.13 of spec/15_object_dictionary.md
def AP_ENTRY0 : Nat := key 0x1100 0x01
def AP_ENTRY1 : Nat := key 0x1100 0x02
def AP_ENTRY2 : Nat := key 0x1100 0x03
def AP_ENTRY3 : Nat := key 0x1100 0x04
def AP_ENTRY4 : Nat := key 0x1100 0x05
def AP_ENTRY5 : Nat := key 0x1100 0x06
def AP_ENTRY6 : Nat := key 0x1100 0x07
def AP_ENTRY7 : Nat := key 0x1100 0x08
def AP_ENTRY8 : Nat := key 0x1100 0x09
def AP_ENTRY9 : Nat := key 0x1100 0x0A
def AP_ENTRY10 : Nat := key 0x1100 0x0B
def AP_ENTRY11 : Nat := key 0x1100 0x0C
def AP_ENTRY12 : Nat := key 0x1100 0x0D
def AP_ENTRY13 : Nat := key 0x1100 0x0E
def AP_ENTRY14 : Nat := key 0x1100 0x0F
def AP_ENTRY15 : Nat := key 0x1100 0x10
def AP_ENTRY16 : Nat := key 0x1100 0x11
def AP_ENTRY17 : Nat := key 0x1100 0x12
def AP_ENTRY18 : Nat := key 0x1100 0x13
def AP_ENTRY19 : Nat := key 0x1100 0x14
def AP_ENTRY20 : Nat := key 0x1100 0x15
def AP_ENTRY21 : Nat := key 0x1100 0x16
def AP_ENTRY22 : Nat := key 0x1100 0x17
def AP_ENTRY23 : Nat := key 0x1100 0x18
def AP_ENTRY24 : Nat := key 0x1100 0x19
def AP_ENTRY25 : Nat := key 0x1100 0x1A
def AP_ENTRY26 : Nat := key 0x1100 0x1B
def AP_ENTRY27 : Nat := key 0x1100 0x1C
def AP_ENTRY28 : Nat := key 0x1100 0x1D
def AP_ENTRY29 : Nat := key 0x1100 0x1E
def AP_ENTRY30 : Nat := key 0x1100 0x1F
def AP_ENTRY31 : Nat := key 0x1100 0x20
def AP_ENTRY32 : Nat := key 0x1100 0x21
def AP_ENTRY33 : Nat := key 0x1100 0x22
def AP_ENTRY34 : Nat := key 0x1100 0x23
def AP_ENTRY35 : Nat := key 0x1100 0x24
def AP_ENTRY36 : Nat := key 0x1100 0x25
def AP_ENTRY37 : Nat := key 0x1100 0x26
def AP_ENTRY38 : Nat := key 0x1100 0x27
def AP_ENTRY39 : Nat := key 0x1100 0x28
def AP_ENTRY40 : Nat := key 0x1100 0x29
def AP_ENTRY41 : Nat := key 0x1100 0x2A
def AP_ENTRY42 : Nat := key 0x1100 0x2B
def AP_ENTRY43 : Nat := key 0x1100 0x2C
def AP_ENTRY44 : Nat := key 0x1100 0x2D
def AP_ENTRY45 : Nat := key 0x1100 0x2E
def AP_ENTRY46 : Nat := key 0x1100 0x2F
def AP_ENTRY47 : Nat := key 0x1100 0x30
def AP_ENTRY48 : Nat := key 0x1100 0x31
def AP_ENTRY49 : Nat := key 0x1100 0x32
def AP_ENTRY50 : Nat := key 0x1100 0x33
def AP_ENTRY51 : Nat := key 0x1100 0x34
def AP_ENTRY52 : Nat := key 0x1100 0x35
def AP_ENTRY53 : Nat := key 0x1100 0x36
def AP_ENTRY54 : Nat := key 0x1100 0x37
def AP_ENTRY55 : Nat := key 0x1100 0x38
def AP_ENTRY56 : Nat := key 0x1100 0x39
def AP_ENTRY57 : Nat := key 0x1100 0x3A
def AP_ENTRY58 : Nat := key 0x1100 0x3B
def AP_ENTRY59 : Nat := key 0x1100 0x3C
def AP_ENTRY60 : Nat := key 0x1100 0x3D
def AP_ENTRY61 : Nat := key 0x1100 0x3E
def AP_ENTRY62 : Nat := key 0x1100 0x3F
def AP_ENTRY63 : Nat := key 0x1100 0x40

-- 0x1101, Table 15.14 of spec/15_object_dictionary.md
def MP_CAN0_ENABLE : Nat := key 0x1101 0x01
def MP_CAN0_NODE : Nat := key 0x1101 0x02
def MP_CAN0_RATES : Nat := key 0x1101 0x03
def MP_CAN1_ENABLE : Nat := key 0x1101 0x04
def MP_CAN1_NODE : Nat := key 0x1101 0x05
def MP_CAN1_RATES : Nat := key 0x1101 0x06
def MP_CAN_ERRORS : Nat := key 0x1101 0x07
def MP_NO_POINT : Nat := key 0x1101 0x08

-- 0x1110, Table 15.15 of spec/15_object_dictionary.md
def TNT_READ_MASK (n : Nat) : Nat := key (0x1110 + n) 0x01
def TNT_WRITE_MASK (n : Nat) : Nat := key (0x1110 + n) 0x02
def TNT_EVENT_GROUPS (n : Nat) : Nat := key (0x1110 + n) 0x03
def TNT_EVENT_POINT (n : Nat) : Nat := key (0x1110 + n) 0x04
def TNT_EVENT_NEXT (n : Nat) : Nat := key (0x1110 + n) 0x05
def TNT_EVENT_QUEUED (n : Nat) : Nat := key (0x1110 + n) 0x06
def TNT_EVENT_LOST (n : Nat) : Nat := key (0x1110 + n) 0x07
def TNT_REQUESTS (n : Nat) : Nat := key (0x1110 + n) 0x08
def TNT_BUSY (n : Nat) : Nat := key (0x1110 + n) 0x09
def TNT_STICKY (n : Nat) : Nat := key (0x1110 + n) 0x0A

-- 0x1200, Table 15.16 of spec/15_object_dictionary.md
def SRV_QUEUED : Nat := key 0x1200 0x01
def SRV_MEAN_SERVICE : Nat := key 0x1200 0x02
def SRV_LOAD : Nat := key 0x1200 0x03

-- 0x1202, Table 15.17 of spec/15_object_dictionary.md
def IMG_RUNNING : Nat := key 0x1202 0x01
def IMG_BOOT_NEXT : Nat := key 0x1202 0x02
def IMG_SLOT_A_STATE : Nat := key 0x1202 0x03
def IMG_SLOT_B_STATE : Nat := key 0x1202 0x04
def IMG_STAGE : Nat := key 0x1202 0x05
def IMG_COMMIT : Nat := key 0x1202 0x06
def IMG_BOOT_SELECT : Nat := key 0x1202 0x07
def IMG_STICKY : Nat := key 0x1202 0x08

-- 0x1203, Table 15.18 of spec/15_object_dictionary.md
def CFG_SAVE : Nat := key 0x1203 0x01
def CFG_AUTO_RESTORE : Nat := key 0x1203 0x02
def CFG_CLEAR : Nat := key 0x1203 0x03
def CFG_SAVED_TIME : Nat := key 0x1203 0x04
def CFG_STATE : Nat := key 0x1203 0x05

-- 0x1210, Table 15.19 of spec/15_object_dictionary.md
def FN_STATE (n : Nat) : Nat := key (0x1210 + n) 0x01
def FN_CMD (n : Nat) : Nat := key (0x1210 + n) 0x02
def FN_LAST_ERROR (n : Nat) : Nat := key (0x1210 + n) 0x03
def FN_HOLDER (n : Nat) : Nat := key (0x1210 + n) 0x04
def FN_STICKY (n : Nat) : Nat := key (0x1210 + n) 0x05

-- 0x12C0, Table 15.20 of spec/15_object_dictionary.md
def JOB_NUMBER (n : Nat) : Nat := key (0x12C0 + n) 0x01
def JOB_KIND (n : Nat) : Nat := key (0x12C0 + n) 0x02
def JOB_TENANT (n : Nat) : Nat := key (0x12C0 + n) 0x03
def JOB_STATE (n : Nat) : Nat := key (0x12C0 + n) 0x04
def JOB_STEPS_DONE (n : Nat) : Nat := key (0x12C0 + n) 0x05
def JOB_STEPS_TOTAL (n : Nat) : Nat := key (0x12C0 + n) 0x06
def JOB_PROGRESS (n : Nat) : Nat := key (0x12C0 + n) 0x07
def JOB_CTRL (n : Nat) : Nat := key (0x12C0 + n) 0x08
def JOB_RESULT (n : Nat) : Nat := key (0x12C0 + n) 0x09

-- 0x1300, Table 19.11 of spec/19_power_reset_startup.md
def SUP_VIN : Nat := key 0x1300 0x01
def SUP_VBAK : Nat := key 0x1300 0x02
def SUP_VHOLD : Nat := key 0x1300 0x03
def SUP_SOURCE : Nat := key 0x1300 0x04
def SUP_WARN_V : Nat := key 0x1300 0x05
def SUP_WARN_HYST : Nat := key 0x1300 0x06
def SUP_HOLDUP_READY : Nat := key 0x1300 0x07
def SUP_POWER : Nat := key 0x1300 0x08
def SUP_VIN_MIN : Nat := key 0x1300 0x09
def SUP_STICKY : Nat := key 0x1300 0x0A

-- 0x1301, Table 19.12 of spec/19_power_reset_startup.md
def BRACE_STATE : Nat := key 0x1301 0x01
def BRACE_ENTRIES : Nat := key 0x1301 0x02
def BRACE_HOLDUPS : Nat := key 0x1301 0x03
def BRACE_LAST_TIME : Nat := key 0x1301 0x04
def BRACE_LAST_LENGTH : Nat := key 0x1301 0x05
def BRACE_SNAPSHOT_TIME : Nat := key 0x1301 0x06
def BRACE_STICKY : Nat := key 0x1301 0x07

-- 0x1302, Table 19.13 of spec/19_power_reset_startup.md
def RST_LAST_CAUSE : Nat := key 0x1302 0x01
def RST_WARM : Nat := key 0x1302 0x02
def RST_FW_RESTART : Nat := key 0x1302 0x03
def RST_FUNCTION : Nat := key 0x1302 0x04
def RST_COUNT_SUPPLY : Nat := key 0x1302 0x05
def RST_COUNT_PIN : Nat := key 0x1302 0x06
def RST_COUNT_WATCHDOG : Nat := key 0x1302 0x07
def RST_COUNT_COMMAND : Nat := key 0x1302 0x08
def RST_RESET_N : Nat := key 0x1302 0x09
def RST_STICKY : Nat := key 0x1302 0x0A

-- 0x1303, Table 19.14 of spec/19_power_reset_startup.md
def SLP_FABRIC_DELAY : Nat := key 0x1303 0x01
def SLP_EVORVO_DELAY : Nat := key 0x1303 0x02
def SLP_PRIXUS_DELAY : Nat := key 0x1303 0x03
def SLP_LPDDR_DELAY : Nat := key 0x1303 0x04
def SLP_CLOCKS : Nat := key 0x1303 0x05
def SLP_FABRIC_STARTS : Nat := key 0x1303 0x06
def SLP_EVORVO_STARTS : Nat := key 0x1303 0x07
def SLP_PRIXUS_STARTS : Nat := key 0x1303 0x08
def SLP_LPDDR_EXITS : Nat := key 0x1303 0x09

-- 0x2000, Table 2.5 of spec/02_meridian_timescale.md
def MT_NOW : Nat := key 0x2000 0x01
def MT_TICK : Nat := key 0x2000 0x02
def MT_UNCERTAINTY : Nat := key 0x2000 0x03
def MT_TIME_VALID : Nat := key 0x2000 0x04
def MT_TIME_SET : Nat := key 0x2000 0x05
def MT_STEER_DOMAIN : Nat := key 0x2000 0x06
def MT_STICKY : Nat := key 0x2000 0x07

-- 0x2001, Table 2.6 of spec/02_meridian_timescale.md
def MT_UNC_LIMIT : Nat := key 0x2001 0x01
def MT_SET_TIME : Nat := key 0x2001 0x02
def MT_SET_UNC : Nat := key 0x2001 0x03

-- 0x2002, Table 2.7 of spec/02_meridian_timescale.md
def MT_UTC_OFFSET : Nat := key 0x2002 0x01
def MT_LEAP_PENDING : Nat := key 0x2002 0x02
def MT_LEAP_TAI : Nat := key 0x2002 0x03
def MT_UTC_OFFSET_MANUAL : Nat := key 0x2002 0x04
def MT_LEAP_MANUAL : Nat := key 0x2002 0x05
def MT_LEAP_TAI_MANUAL : Nat := key 0x2002 0x06
def MT_UTC_SOURCE : Nat := key 0x2002 0x07
def MT_UTC_OFFSET_VALID : Nat := key 0x2002 0x08

-- 0x2010, Table 2.8 of spec/02_meridian_timescale.md
def DOMX_KIND (n : Nat) : Nat := key (0x2010 + n) 0x01
def DOMX_PTP_DOMAIN (n : Nat) : Nat := key (0x2010 + n) 0x02
def DOMX_PORTS (n : Nat) : Nat := key (0x2010 + n) 0x03
def DOMX_STATE (n : Nat) : Nat := key (0x2010 + n) 0x04
def DOMX_OFFSET (n : Nat) : Nat := key (0x2010 + n) 0x05
def DOMX_FREQ_OFFSET (n : Nat) : Nat := key (0x2010 + n) 0x06
def DOMX_UNCERTAINTY (n : Nat) : Nat := key (0x2010 + n) 0x07
def DOMX_UTC_OFFSET (n : Nat) : Nat := key (0x2010 + n) 0x08
def DOMX_ACCEPT_ARB (n : Nat) : Nat := key (0x2010 + n) 0x09

-- 0x2020, Table 2.9 of spec/02_meridian_timescale.md
def DOM_SWITCH_MODE : Nat := key 0x2020 0x01
def DOM_SLEW_RATE : Nat := key 0x2020 0x02
def DOM_RESIDUAL : Nat := key 0x2020 0x03
def DOM_AB_OFFSET : Nat := key 0x2020 0x04
def DOM_AB_UNCERTAINTY : Nat := key 0x2020 0x05

-- 0x2200, Table 3.13 of spec/03_link_timing.md
def LT_MODE (n : Nat) : Nat := key (0x2200 + n) 0x01
def LT_MARKER_RATE (n : Nat) : Nat := key (0x2200 + n) 0x02
def LT_MARKER_PHASE (n : Nat) : Nat := key (0x2200 + n) 0x03
def LT_AVG_TIME (n : Nat) : Nat := key (0x2200 + n) 0x04
def LT_BOARD_TX_DELAY (n : Nat) : Nat := key (0x2200 + n) 0x05
def LT_BOARD_RX_DELAY (n : Nat) : Nat := key (0x2200 + n) 0x06
def LT_OPTIC_TX_DELAY (n : Nat) : Nat := key (0x2200 + n) 0x07
def LT_OPTIC_RX_DELAY (n : Nat) : Nat := key (0x2200 + n) 0x08
def LT_ASYM_SOURCE (n : Nat) : Nat := key (0x2200 + n) 0x09
def LT_ASYM_CONFIGURED (n : Nat) : Nat := key (0x2200 + n) 0x0A
def LT_ASYM_UNC (n : Nat) : Nat := key (0x2200 + n) 0x0B
def LT_ASYM_IN_USE (n : Nat) : Nat := key (0x2200 + n) 0x0C
def LT_STATE (n : Nat) : Nat := key (0x2200 + n) 0x0D
def LT_RTT (n : Nat) : Nat := key (0x2200 + n) 0x0E
def LT_OFFSET (n : Nat) : Nat := key (0x2200 + n) 0x0F
def LT_OFFSET_UNC (n : Nat) : Nat := key (0x2200 + n) 0x10
def LT_DESKEW (n : Nat) : Nat := key (0x2200 + n) 0x11
def LT_PEER_ID (n : Nat) : Nat := key (0x2200 + n) 0x12
def LT_PEER_STATUS (n : Nat) : Nat := key (0x2200 + n) 0x13
def LT_CAL_STATE (n : Nat) : Nat := key (0x2200 + n) 0x14
def LT_MARKER_ERRORS (n : Nat) : Nat := key (0x2200 + n) 0x15
def LT_EXCHANGES (n : Nat) : Nat := key (0x2200 + n) 0x16
def LT_PTP_DOMAIN (n : Nat) : Nat := key (0x2200 + n) 0x17
def LT_PTP_TRANSPORT (n : Nat) : Nat := key (0x2200 + n) 0x18
def LT_PTP_IPV4_ADDR (n : Nat) : Nat := key (0x2200 + n) 0x19
def LT_PTP_VLAN (n : Nat) : Nat := key (0x2200 + n) 0x1A
def LT_PTP_DELAY_MECH (n : Nat) : Nat := key (0x2200 + n) 0x1B
def LT_PTP_ONE_STEP (n : Nat) : Nat := key (0x2200 + n) 0x1C
def LT_PTP_LOG_SYNC (n : Nat) : Nat := key (0x2200 + n) 0x1D
def LT_PTP_LOG_DELAY (n : Nat) : Nat := key (0x2200 + n) 0x1E
def LT_PTP_LOG_ANNOUNCE (n : Nat) : Nat := key (0x2200 + n) 0x1F
def LT_PTP_ANNOUNCE_TIMEOUT (n : Nat) : Nat := key (0x2200 + n) 0x20
def LT_PTP_PORT_CONFIG (n : Nat) : Nat := key (0x2200 + n) 0x21
def LT_PTP_PORT_STATE (n : Nat) : Nat := key (0x2200 + n) 0x22
def LT_SYNCE_ESMC (n : Nat) : Nat := key (0x2200 + n) 0x23
def LT_QL_RX (n : Nat) : Nat := key (0x2200 + n) 0x24
def LT_QL_TX (n : Nat) : Nat := key (0x2200 + n) 0x25
def LT_STICKY (n : Nat) : Nat := key (0x2200 + n) 0x26

-- 0x2400, Table 4.7 of spec/04_phase_engines_outputs.md
def PE_BANDWIDTH (n : Nat) : Nat := key (0x2400 + n) 0x01
def PE_DAMPING (n : Nat) : Nat := key (0x2400 + n) 0x02
def PE_ACQ_BANDWIDTH (n : Nat) : Nat := key (0x2400 + n) 0x03
def PE_BW_IN_USE (n : Nat) : Nat := key (0x2400 + n) 0x04
def PE_LOCK_THRESHOLD (n : Nat) : Nat := key (0x2400 + n) 0x05
def PE_LOCK_TIME (n : Nat) : Nat := key (0x2400 + n) 0x06
def PE_FREQ_NUM (n : Nat) : Nat := key (0x2400 + n) 0x07
def PE_FREQ_DEN (n : Nat) : Nat := key (0x2400 + n) 0x08
def PE_LOCK_STATUS (n : Nat) : Nat := key (0x2400 + n) 0x09
def PE_PHASE_ERROR (n : Nat) : Nat := key (0x2400 + n) 0x0A
def PE_PHASE_RMS (n : Nat) : Nat := key (0x2400 + n) 0x0B
def PE_FREQ_WORD (n : Nat) : Nat := key (0x2400 + n) 0x0C
def PE_LOOP_UNC (n : Nat) : Nat := key (0x2400 + n) 0x0D
def PE_STICKY (n : Nat) : Nat := key (0x2400 + n) 0x0E

-- 0x2410, Table 4.8 of spec/04_phase_engines_outputs.md
def OUT_MODE (n : Nat) : Nat := key (0x2410 + n) 0x01
def OUT_SOURCE (n : Nat) : Nat := key (0x2410 + n) 0x02
def OUT_DIV (n : Nat) : Nat := key (0x2410 + n) 0x03
def OUT_PULSE_INTERVAL (n : Nat) : Nat := key (0x2410 + n) 0x04
def OUT_PULSE_RATE (n : Nat) : Nat := key (0x2410 + n) 0x05
def OUT_WIDTH (n : Nat) : Nat := key (0x2410 + n) 0x06
def OUT_FRAME_REF (n : Nat) : Nat := key (0x2410 + n) 0x07
def OUT_FRAME_LEN (n : Nat) : Nat := key (0x2410 + n) 0x08
def OUT_OFFSET (n : Nat) : Nat := key (0x2410 + n) 0x09
def OUT_ALIGN (n : Nat) : Nat := key (0x2410 + n) 0x0A
def OUT_BOARD_DELAY (n : Nat) : Nat := key (0x2410 + n) 0x0B
def OUT_POLARITY (n : Nat) : Nat := key (0x2410 + n) 0x0C
def OUT_SQUELCH (n : Nat) : Nat := key (0x2410 + n) 0x0D
def OUT_IDLE_LEVEL (n : Nat) : Nat := key (0x2410 + n) 0x0E
def OUT_PENDING (n : Nat) : Nat := key (0x2410 + n) 0x0F
def OUT_STATUS (n : Nat) : Nat := key (0x2410 + n) 0x10
def OUT_STICKY (n : Nat) : Nat := key (0x2410 + n) 0x11

-- 0x2418, Table 4.9 of spec/04_phase_engines_outputs.md
def REFIN_PULSE (n : Nat) : Nat := key (0x2418 + n) 0x01
def REFIN_FREQ (n : Nat) : Nat := key (0x2418 + n) 0x02
def REFIN_PULSE_EDGE (n : Nat) : Nat := key (0x2418 + n) 0x03
def REFIN_PULSE_OFFSET (n : Nat) : Nat := key (0x2418 + n) 0x04
def REFIN_BOARD_DELAY (n : Nat) : Nat := key (0x2418 + n) 0x05
def REFIN_PULSE_PHASE (n : Nat) : Nat := key (0x2418 + n) 0x06
def REFIN_PULSE_JITTER (n : Nat) : Nat := key (0x2418 + n) 0x07
def REFIN_STATUS (n : Nat) : Nat := key (0x2418 + n) 0x08

-- 0x2420, Table 4.10 of spec/04_phase_engines_outputs.md
def OUT_COMMIT : Nat := key 0x2420 0x01
def OUT_COMMIT_AT : Nat := key 0x2420 0x02
def OUT_COMMIT_STATUS : Nat := key 0x2420 0x03
def OUT_COMMIT_TICK : Nat := key 0x2420 0x04
def OUT_COMMIT_ERROR : Nat := key 0x2420 0x05
def OUT_ALIGN_AVG : Nat := key 0x2420 0x06
def OUT_ALIGN_SLEW : Nat := key 0x2420 0x07
def OUT_ALIGN_STEP_LIMIT : Nat := key 0x2420 0x08
def OUT_ALIGN_LOSS_COUNT : Nat := key 0x2420 0x09

-- 0x2600, Table 5.8 of spec/05_reference_selection.md
def SEL_PHASE : Nat := key 0x2600 0x01
def SEL_AUTO : Nat := key 0x2600 0x02
def SEL_SETTLE_TIME : Nat := key 0x2600 0x03
def SEL_FORCE : Nat := key 0x2600 0x04
def SEL_TRANSFER_TIME : Nat := key 0x2600 0x05
def SEL_SWITCH_SLEW : Nat := key 0x2600 0x06
def SEL_FREQONLY_UNC_RATE : Nat := key 0x2600 0x07
def SEL_SELECTED : Nat := key 0x2600 0x08
def SEL_TRANSFER_TARGET : Nat := key 0x2600 0x09
def SEL_SWITCH_RESIDUAL : Nat := key 0x2600 0x0A
def SEL_PE0_STATE : Nat := key 0x2600 0x0B
def SEL_PE0_HISTORY : Nat := key 0x2600 0x0C
def SEL_PE0_EVENT_MASK : Nat := key 0x2600 0x0D
def SEL_SWITCHES : Nat := key 0x2600 0x0E
def SEL_STICKY : Nat := key 0x2600 0x0F

-- 0x2620, Table 5.9 of spec/05_reference_selection.md
def SLOT_KIND (n : Nat) : Nat := key (0x2620 + n) 0x01
def SLOT_PORT (n : Nat) : Nat := key (0x2620 + n) 0x02
def SLOT_PTP_DOMAIN (n : Nat) : Nat := key (0x2620 + n) 0x03
def SLOT_PRIORITY (n : Nat) : Nat := key (0x2620 + n) 0x04
def SLOT_LOCKOUT (n : Nat) : Nat := key (0x2620 + n) 0x05
def SLOT_QL_MIN (n : Nat) : Nat := key (0x2620 + n) 0x06
def SLOT_QL_MANUAL (n : Nat) : Nat := key (0x2620 + n) 0x07
def SLOT_WTR (n : Nat) : Nat := key (0x2620 + n) 0x08
def SLOT_FREQ_LIMIT (n : Nat) : Nat := key (0x2620 + n) 0x09
def SLOT_XCMP_FREQ_LIMIT (n : Nat) : Nat := key (0x2620 + n) 0x0A
def SLOT_XCMP_WINDOW (n : Nat) : Nat := key (0x2620 + n) 0x0B
def SLOT_XCMP_PHASE_LIMIT (n : Nat) : Nat := key (0x2620 + n) 0x0C
def SLOT_STEP_LIMIT (n : Nat) : Nat := key (0x2620 + n) 0x0D
def SLOT_STEP_CONFIRM (n : Nat) : Nat := key (0x2620 + n) 0x0E
def SLOT_DRIFT_LIMIT (n : Nat) : Nat := key (0x2620 + n) 0x0F
def SLOT_DRIFT_WINDOW (n : Nat) : Nat := key (0x2620 + n) 0x10
def SLOT_STATE (n : Nat) : Nat := key (0x2620 + n) 0x11
def SLOT_RANK (n : Nat) : Nat := key (0x2620 + n) 0x12
def SLOT_TIME_CAPABLE (n : Nat) : Nat := key (0x2620 + n) 0x13
def SLOT_FREQ_OFFSET (n : Nat) : Nat := key (0x2620 + n) 0x14
def SLOT_PHASE (n : Nat) : Nat := key (0x2620 + n) 0x15
def SLOT_DRIFT (n : Nat) : Nat := key (0x2620 + n) 0x16
def SLOT_XCMP_FREQ (n : Nat) : Nat := key (0x2620 + n) 0x17
def SLOT_XCMP_PHASE (n : Nat) : Nat := key (0x2620 + n) 0x18
def SLOT_WTR_LEFT (n : Nat) : Nat := key (0x2620 + n) 0x19
def SLOT_UNCERTAINTY (n : Nat) : Nat := key (0x2620 + n) 0x1A
def SLOT_WTR_CLEAR (n : Nat) : Nat := key (0x2620 + n) 0x1B
def SLOT_HISTORY (n : Nat) : Nat := key (0x2620 + n) 0x1C
def SLOT_TRIPS (n : Nat) : Nat := key (0x2620 + n) 0x1D
def SLOT_EVENT_MASK (n : Nat) : Nat := key (0x2620 + n) 0x1E
def SLOT_OUTLIERS (n : Nat) : Nat := key (0x2620 + n) 0x1F

-- 0x2700, Table 6.2 of spec/06_oscillator_holdover.md
def OSC_WARMUP : Nat := key 0x2700 0x01
def OSC_WARMUP_TIME : Nat := key 0x2700 0x02
def OSC_COMPARTMENT_TEMP : Nat := key 0x2700 0x03
def OSC_HEATER_POWER : Nat := key 0x2700 0x04
def OSC_STICKY : Nat := key 0x2700 0x05

-- 0x2701, Table 6.3 of spec/06_oscillator_holdover.md
def STEER_PPT : Nat := key 0x2701 0x01
def STEER_RAMP : Nat := key 0x2701 0x02
def STEER_IN_FORCE : Nat := key 0x2701 0x03
def STEER_ACTIVE : Nat := key 0x2701 0x04
def STEER_STICKY : Nat := key 0x2701 0x05

-- 0x2702, Table 6.4 of spec/06_oscillator_holdover.md
def HO_BUDGET : Nat := key 0x2702 0x01
def HO_MIN_LOCK : Nat := key 0x2702 0x02
def HO_LEARN_WINDOW : Nat := key 0x2702 0x03
def HO_GUARD : Nat := key 0x2702 0x04
def HO_WARN_TIME : Nat := key 0x2702 0x05
def HO_MODEL_VALID : Nat := key 0x2702 0x06
def HO_AGEING : Nat := key 0x2702 0x07
def HO_TEMP_COEF : Nat := key 0x2702 0x08
def HO_TEMP_COEF_SOURCE : Nat := key 0x2702 0x09
def HO_FREQ_UNC : Nat := key 0x2702 0x0A
def HO_AGEING_UNC : Nat := key 0x2702 0x0B
def HO_TEMP_UNC : Nat := key 0x2702 0x0C
def HO_ELAPSED : Nat := key 0x2702 0x0D
def HO_TERM : Nat := key 0x2702 0x0E
def HO_TIME_LEFT : Nat := key 0x2702 0x0F
def HO_LOCKED_TIME : Nat := key 0x2702 0x10
def HO_STICKY : Nat := key 0x2702 0x11

-- 0x2703, Table 6.5 of spec/06_oscillator_holdover.md
def RET_MODE : Nat := key 0x2703 0x01
def RET_SLEW_LIMIT : Nat := key 0x2703 0x02
def RET_SLEW_RATE : Nat := key 0x2703 0x03
def RET_WINDOW_START : Nat := key 0x2703 0x04
def RET_WINDOW_LEN : Nat := key 0x2703 0x05
def RET_STATE : Nat := key 0x2703 0x06
def RET_RESIDUAL : Nat := key 0x2703 0x07
def RET_LAST_STEP : Nat := key 0x2703 0x08

-- 0x2800, Table 7.6 of spec/07_calibration.md
def CAL_RAMP_RATE : Nat := key 0x2800 0x01
def CAL_DIE_TEMP : Nat := key 0x2800 0x02
def CAL_CD_MASK : Nat := key 0x2800 0x03
def CAL_CD_EVENTS : Nat := key 0x2800 0x04
def CAL_CD_SOURCE : Nat := key 0x2800 0x05
def CAL_CD_START : Nat := key 0x2800 0x06
def CAL_AUTO_PERIOD : Nat := key 0x2800 0x07
def CAL_AUTO_DELTA_T : Nat := key 0x2800 0x08
def CAL_JOB : Nat := key 0x2800 0x09
def CAL_SETS_VALID : Nat := key 0x2800 0x0A
def CAL_RAMP_LEFT : Nat := key 0x2800 0x0B
def CAL_STICKY : Nat := key 0x2800 0x0C

-- 0x2801, Table 7.7 of spec/07_calibration.md
def CONV_SEL (i : Nat) : Nat := keyAt i 0x2801 0x01
def CONV_RESULT (i : Nat) : Nat := keyAt i 0x2801 0x02
def CONV_BINS (i : Nat) : Nat := keyAt i 0x2801 0x03
def CONV_MEAN_BIN (i : Nat) : Nat := keyAt i 0x2801 0x04
def CONV_DNL_MAX (i : Nat) : Nat := keyAt i 0x2801 0x05
def CONV_INL_MAX (i : Nat) : Nat := keyAt i 0x2801 0x06
def CONV_LAST_TIME (i : Nat) : Nat := keyAt i 0x2801 0x07
def CONV_TABLE (i : Nat) : Nat := keyAt i 0x2801 0x08

-- 0x2802, Table 7.8 of spec/07_calibration.md
def CAL_SET0_INFO : Nat := key 0x2802 0x01
def CAL_SET1_INFO : Nat := key 0x2802 0x02
def CAL_SET2_INFO : Nat := key 0x2802 0x03
def CAL_SET3_INFO : Nat := key 0x2802 0x04
def CAL_SET4_INFO : Nat := key 0x2802 0x05
def CAL_SET5_INFO : Nat := key 0x2802 0x06
def CAL_SET6_INFO : Nat := key 0x2802 0x07
def CAL_SET7_INFO : Nat := key 0x2802 0x08
def CAL_SET_DATA : Nat := key 0x2802 0x09

-- 0x2810, Table 7.9 of spec/07_calibration.md
def ASY_PORT_P (n : Nat) : Nat := key (0x2810 + n) 0x01
def ASY_PORT_Q (n : Nat) : Nat := key (0x2810 + n) 0x02
def ASY_WL_P_TX (n : Nat) : Nat := key (0x2810 + n) 0x03
def ASY_WL_P_RX (n : Nat) : Nat := key (0x2810 + n) 0x04
def ASY_WL_Q_TX (n : Nat) : Nat := key (0x2810 + n) 0x05
def ASY_WL_Q_RX (n : Nat) : Nat := key (0x2810 + n) 0x06
def ASY_WL_UNC (n : Nat) : Nat := key (0x2810 + n) 0x07
def ASY_LAMBDA0 (n : Nat) : Nat := key (0x2810 + n) 0x08
def ASY_LAMBDA0_UNC (n : Nat) : Nat := key (0x2810 + n) 0x09
def ASY_FIXED_UNC (n : Nat) : Nat := key (0x2810 + n) 0x0A
def ASY_TARGET (n : Nat) : Nat := key (0x2810 + n) 0x0B
def ASY_MIN_TIME (n : Nat) : Nat := key (0x2810 + n) 0x0C
def ASY_STATE (n : Nat) : Nat := key (0x2810 + n) 0x0D
def ASY_KAPPA_P (n : Nat) : Nat := key (0x2810 + n) 0x0E
def ASY_KAPPA_Q (n : Nat) : Nat := key (0x2810 + n) 0x0F
def ASY_DRTT (n : Nat) : Nat := key (0x2810 + n) 0x10
def ASY_ALPHA_P (n : Nat) : Nat := key (0x2810 + n) 0x11
def ASY_ALPHA_Q (n : Nat) : Nat := key (0x2810 + n) 0x12
def ASY_UNC_P (n : Nat) : Nat := key (0x2810 + n) 0x13
def ASY_UNC_Q (n : Nat) : Nat := key (0x2810 + n) 0x14
def ASY_STICKY (n : Nat) : Nat := key (0x2810 + n) 0x15
def ASY_FAULT (n : Nat) : Nat := key (0x2810 + n) 0x16

-- 0x2820, Table 7.10 of spec/07_calibration.md
def LC_START (n : Nat) : Nat := key (0x2820 + n) 0x01
def LC_TX_OFFSET (n : Nat) : Nat := key (0x2820 + n) 0x02
def LC_RX_OFFSET (n : Nat) : Nat := key (0x2820 + n) 0x03
def LC_SUM_UNC (n : Nat) : Nat := key (0x2820 + n) 0x04
def LC_FEC (n : Nat) : Nat := key (0x2820 + n) 0x05
def LC_TEMP (n : Nat) : Nat := key (0x2820 + n) 0x06
def LC_TIME (n : Nat) : Nat := key (0x2820 + n) 0x07

-- 0x2900, Table 8.6 of spec/08_interval_measurement.md
def TIC_MODE (n : Nat) : Nat := key (0x2900 + n) 0x01
def TIC_STOP_CH (n : Nat) : Nat := key (0x2900 + n) 0x02
def TIC_THRESHOLD (n : Nat) : Nat := key (0x2900 + n) 0x03
def TIC_HYST (n : Nat) : Nat := key (0x2900 + n) 0x04
def TIC_SLOPE (n : Nat) : Nat := key (0x2900 + n) 0x05
def TIC_TERM (n : Nat) : Nat := key (0x2900 + n) 0x06
def TIC_BOARD_DELAY (n : Nat) : Nat := key (0x2900 + n) 0x07
def TIC_GATE (n : Nat) : Nat := key (0x2900 + n) 0x08
def TIC_GRID_PERIOD (n : Nat) : Nat := key (0x2900 + n) 0x09
def TIC_GRID_OFFSET (n : Nat) : Nat := key (0x2900 + n) 0x0A
def TIC_ARM_MODE (n : Nat) : Nat := key (0x2900 + n) 0x0B
def TIC_STAT_N (n : Nat) : Nat := key (0x2900 + n) 0x0C
def TIC_RECORD (n : Nat) : Nat := key (0x2900 + n) 0x0D
def TIC_ARM_AT (n : Nat) : Nat := key (0x2900 + n) 0x0E
def TIC_ARM (n : Nat) : Nat := key (0x2900 + n) 0x0F
def TIC_STATUS (n : Nat) : Nat := key (0x2900 + n) 0x10
def TIC_LAST_VALUE (n : Nat) : Nat := key (0x2900 + n) 0x11
def TIC_LAST_WHEN (n : Nat) : Nat := key (0x2900 + n) 0x12
def TIC_LAST_CTRL (n : Nat) : Nat := key (0x2900 + n) 0x13
def TIC_STAT_COUNT (n : Nat) : Nat := key (0x2900 + n) 0x14
def TIC_STAT_MEAN (n : Nat) : Nat := key (0x2900 + n) 0x15
def TIC_STAT_SDEV (n : Nat) : Nat := key (0x2900 + n) 0x16
def TIC_STAT_MIN (n : Nat) : Nat := key (0x2900 + n) 0x17
def TIC_STAT_MAX (n : Nat) : Nat := key (0x2900 + n) 0x18
def TIC_STAT_BLOCKS (n : Nat) : Nat := key (0x2900 + n) 0x19
def TIC_DEADTIME_LOST (n : Nat) : Nat := key (0x2900 + n) 0x1A
def TIC_OVERRUN_LOST (n : Nat) : Nat := key (0x2900 + n) 0x1B
def TIC_RECORD_LOST (n : Nat) : Nat := key (0x2900 + n) 0x1C
def TIC_UNPAIRED (n : Nat) : Nat := key (0x2900 + n) 0x1D
def TIC_OVERFLOWS (n : Nat) : Nat := key (0x2900 + n) 0x1E
def TIC_EXCLUDED (n : Nat) : Nat := key (0x2900 + n) 0x1F
def TIC_STICKY (n : Nat) : Nat := key (0x2900 + n) 0x20

-- 0x2910, Table 8.7 of spec/08_interval_measurement.md
def TIC_RING_WR : Nat := key 0x2910 0x01
def TIC_RING_RD (i : Nat) : Nat := keyAt i 0x2910 0x02
def TIC_RING_DATA : Nat := key 0x2910 0x03
def TIC_RING_SIZE : Nat := key 0x2910 0x04
def TIC_RING_STICKY (i : Nat) : Nat := keyAt i 0x2910 0x05

-- 0x3000, Table 9.8 of spec/09_switch_fabric.md
def SW_MAC_AGE_TIME : Nat := key 0x3000 0x01
def SW_LEARN_FAIL : Nat := key 0x3000 0x02
def SW_MAC_ENTRIES : Nat := key 0x3000 0x03
def SW_RESEED : Nat := key 0x3000 0x04
def SW_RESEEDS : Nat := key 0x3000 0x05
def SW_BANK_SKEW : Nat := key 0x3000 0x06
def SW_CELLS_FREE : Nat := key 0x3000 0x07
def SW_CELL_RESERVE : Nat := key 0x3000 0x08
def SW_CELLS_MIN : Nat := key 0x3000 0x09
def SW_ECC_CORRECTED : Nat := key 0x3000 0x0A
def SW_ECC_UNCORRECTED : Nat := key 0x3000 0x0B
def SW_CELLS_RETIRED : Nat := key 0x3000 0x0C
def SW_STICKY : Nat := key 0x3000 0x0D

-- 0x3100, Table 9.9 of spec/09_switch_fabric.md
def P_MODE (n : Nat) : Nat := key (0x3100 + n) 0x01
def P_FEC (n : Nat) : Nat := key (0x3100 + n) 0x02
def P_MAX_FRAME (n : Nat) : Nat := key (0x3100 + n) 0x03
def P_LINKDOWN_HOLD (n : Nat) : Nat := key (0x3100 + n) 0x04
def P_AGE_LIMIT (n : Nat) : Nat := key (0x3100 + n) 0x05
def P_LINK (n : Nat) : Nat := key (0x3100 + n) 0x06
def P_DROP_LINKDOWN (n : Nat) : Nat := key (0x3100 + n) 0x07
def P_DROP_AGED (n : Nat) : Nat := key (0x3100 + n) 0x08
def P_RX_FCS_ERR (n : Nat) : Nat := key (0x3100 + n) 0x09
def P_RX_PCS_ERR (n : Nat) : Nat := key (0x3100 + n) 0x0A
def P_RX_RUNT (n : Nat) : Nat := key (0x3100 + n) 0x0B
def P_RX_OVERSIZE (n : Nat) : Nat := key (0x3100 + n) 0x0C
def P_DROP_OVERRUN (n : Nat) : Nat := key (0x3100 + n) 0x0D
def P_DROP_VLAN (n : Nat) : Nat := key (0x3100 + n) 0x0E
def P_DROP_PORT_STATE (n : Nat) : Nat := key (0x3100 + n) 0x0F
def P_DROP_FILTER (n : Nat) : Nat := key (0x3100 + n) 0x10
def P_DROP_PTP (n : Nat) : Nat := key (0x3100 + n) 0x11
def P_DROP_MGMT (n : Nat) : Nat := key (0x3100 + n) 0x12
def P_DROP_POLICER (n : Nat) : Nat := key (0x3100 + n) 0x13
def P_DROP_NO_CELL (n : Nat) : Nat := key (0x3100 + n) 0x14
def P_DROP_QUEUE (n : Nat) : Nat := key (0x3100 + n) 0x15
def P_DROP_WRED (n : Nat) : Nat := key (0x3100 + n) 0x16
def P_DROP_ECC (n : Nat) : Nat := key (0x3100 + n) 0x17
def P_DROP_STOPPED (n : Nat) : Nat := key (0x3100 + n) 0x18
def P_RX_STOMPED (n : Nat) : Nat := key (0x3100 + n) 0x19
def P_CT_STOMPED_IN (n : Nat) : Nat := key (0x3100 + n) 0x1A
def P_TX_STOMPED (n : Nat) : Nat := key (0x3100 + n) 0x1B
def P_RX_FRAMES (n : Nat) : Nat := key (0x3100 + n) 0x1C
def P_TX_FRAMES (n : Nat) : Nat := key (0x3100 + n) 0x1D
def P_RX_OCTETS (n : Nat) : Nat := key (0x3100 + n) 0x1E
def P_TX_OCTETS (n : Nat) : Nat := key (0x3100 + n) 0x1F
def P_CUT_THROUGH (n : Nat) : Nat := key (0x3100 + n) 0x20
def P_IDLE_TIME (n : Nat) : Nat := key (0x3100 + n) 0x21
def P_IDLE (n : Nat) : Nat := key (0x3100 + n) 0x22
def P_IDLE_ENTRIES (n : Nat) : Nat := key (0x3100 + n) 0x23
def P_VLAN (n : Nat) : Nat := key (0x3100 + n) 0x24
def P_STICKY (n : Nat) : Nat := key (0x3100 + n) 0x25

-- 0x3200, Table 10.6 of spec/10_congestion_scheduling_mirroring.md
def EQ_SEL (n i : Nat) : Nat := keyAt i (0x3200 + n) 0x01
def EQ_LIMIT (n i : Nat) : Nat := keyAt i (0x3200 + n) 0x02
def EQ_WRED (n i : Nat) : Nat := keyAt i (0x3200 + n) 0x03
def EQ_MODE (n i : Nat) : Nat := keyAt i (0x3200 + n) 0x04
def EQ_WEIGHT (n i : Nat) : Nat := keyAt i (0x3200 + n) 0x05
def EQ_SHAPE_RATE (n i : Nat) : Nat := keyAt i (0x3200 + n) 0x06
def EQ_SHAPE_BURST (n i : Nat) : Nat := keyAt i (0x3200 + n) 0x07
def EQ_DEPTH (n i : Nat) : Nat := keyAt i (0x3200 + n) 0x08
def EQ_MAX_DEPTH (n i : Nat) : Nat := keyAt i (0x3200 + n) 0x09
def EQ_TX_FRAMES (n i : Nat) : Nat := keyAt i (0x3200 + n) 0x0A
def EQ_DROP_QUEUE (n i : Nat) : Nat := keyAt i (0x3200 + n) 0x0B
def EQ_DROP_WRED (n i : Nat) : Nat := keyAt i (0x3200 + n) 0x0C
def EQ_PRIO_MAP (n : Nat) : Nat := key (0x3200 + n) 0x0D
def EQ_PORT_RATE (n : Nat) : Nat := key (0x3200 + n) 0x0E
def EQ_PORT_BURST (n : Nat) : Nat := key (0x3200 + n) 0x0F
def EQ_OWN_QUEUE (n : Nat) : Nat := key (0x3200 + n) 0x10
def EQ_DEI_REMARK (n : Nat) : Nat := key (0x3200 + n) 0x11

-- 0x3220, Table 10.7 of spec/10_congestion_scheduling_mirroring.md
def CQ_SEL (i : Nat) : Nat := keyAt i 0x3220 0x01
def CQ_LIMIT (i : Nat) : Nat := keyAt i 0x3220 0x02
def CQ_WRED (i : Nat) : Nat := keyAt i 0x3220 0x03
def CQ_WEIGHT (i : Nat) : Nat := keyAt i 0x3220 0x04
def CQ_DEPTH (i : Nat) : Nat := keyAt i 0x3220 0x05
def CQ_MAX_DEPTH (i : Nat) : Nat := keyAt i 0x3220 0x06
def CQ_FRAMES (i : Nat) : Nat := keyAt i 0x3220 0x07
def CQ_DROP_QUEUE (i : Nat) : Nat := keyAt i 0x3220 0x08
def CQ_DROP_WRED (i : Nat) : Nat := keyAt i 0x3220 0x09

-- 0x3240, Table 10.8 of spec/10_congestion_scheduling_mirroring.md
def GCL_ENABLE (n : Nat) : Nat := key (0x3240 + n) 0x01
def GCL_CYCLE_TIME (n : Nat) : Nat := key (0x3240 + n) 0x02
def GCL_BASE_TIME (n : Nat) : Nat := key (0x3240 + n) 0x03
def GCL_CYCLE_EXT (n : Nat) : Nat := key (0x3240 + n) 0x04
def GCL_LIST (n : Nat) : Nat := key (0x3240 + n) 0x05
def GCL_CHANGE (n : Nat) : Nat := key (0x3240 + n) 0x06
def GCL_CHANGE_STATUS (n : Nat) : Nat := key (0x3240 + n) 0x07
def GCL_CHANGE_TIME (n : Nat) : Nat := key (0x3240 + n) 0x08
def GCL_OPER_ENABLE (n : Nat) : Nat := key (0x3240 + n) 0x09
def GCL_OPER_CYCLE_TIME (n : Nat) : Nat := key (0x3240 + n) 0x0A
def GCL_OPER_BASE_TIME (n : Nat) : Nat := key (0x3240 + n) 0x0B
def GCL_OPER_LIST (n : Nat) : Nat := key (0x3240 + n) 0x0C
def GCL_STATES (n : Nat) : Nat := key (0x3240 + n) 0x0D
def GCL_STICKY (n : Nat) : Nat := key (0x3240 + n) 0x0E

-- 0x3260, Table 10.9 of spec/10_congestion_scheduling_mirroring.md
def WRED_SEL (i : Nat) : Nat := keyAt i 0x3260 0x01
def WRED_MIN (i : Nat) : Nat := keyAt i 0x3260 0x02
def WRED_MAX (i : Nat) : Nat := keyAt i 0x3260 0x03
def WRED_MAX_P (i : Nat) : Nat := keyAt i 0x3260 0x04
def WRED_WEIGHT (i : Nat) : Nat := keyAt i 0x3260 0x05
def WRED_DROPS (i : Nat) : Nat := keyAt i 0x3260 0x06

-- 0x3300, Table 10.10 of spec/10_congestion_scheduling_mirroring.md
def POL_SEL (i : Nat) : Nat := keyAt i 0x3300 0x01
def POL_MODE (i : Nat) : Nat := keyAt i 0x3300 0x02
def POL_COLOUR_AWARE (i : Nat) : Nat := keyAt i 0x3300 0x03
def POL_CIR (i : Nat) : Nat := keyAt i 0x3300 0x04
def POL_CBS (i : Nat) : Nat := keyAt i 0x3300 0x05
def POL_PIR (i : Nat) : Nat := keyAt i 0x3300 0x06
def POL_XBS (i : Nat) : Nat := keyAt i 0x3300 0x07
def POL_YELLOW_ACTION (i : Nat) : Nat := keyAt i 0x3300 0x08
def POL_RED_ACTION (i : Nat) : Nat := keyAt i 0x3300 0x09
def POL_GREEN_BYTES (i : Nat) : Nat := keyAt i 0x3300 0x0A
def POL_YELLOW_BYTES (i : Nat) : Nat := keyAt i 0x3300 0x0B
def POL_RED_BYTES (i : Nat) : Nat := keyAt i 0x3300 0x0C
def POL_DROPS (i : Nat) : Nat := keyAt i 0x3300 0x0D

-- 0x3310, Table 10.11 of spec/10_congestion_scheduling_mirroring.md
def CLS_SEL (i : Nat) : Nat := keyAt i 0x3310 0x01
def CLS_MATCH (i : Nat) : Nat := keyAt i 0x3310 0x02
def CLS_ACTION (i : Nat) : Nat := keyAt i 0x3310 0x03
def CLS_HITS (i : Nat) : Nat := keyAt i 0x3310 0x04
def CLS_RULES : Nat := key 0x3310 0x05

-- 0x3400, Table 10.12 of spec/10_congestion_scheduling_mirroring.md
def MIR_SRC_RX (n : Nat) : Nat := key (0x3400 + n) 0x01
def MIR_SRC_TX (n : Nat) : Nat := key (0x3400 + n) 0x02
def MIR_BAD (n : Nat) : Nat := key (0x3400 + n) 0x03
def MIR_DEST_TYPE (n : Nat) : Nat := key (0x3400 + n) 0x04
def MIR_DEST (n : Nat) : Nat := key (0x3400 + n) 0x05
def MIR_QUEUE (n : Nat) : Nat := key (0x3400 + n) 0x06
def MIR_SAMPLE (n : Nat) : Nat := key (0x3400 + n) 0x07
def MIR_TRUNCATE (n : Nat) : Nat := key (0x3400 + n) 0x08
def MIR_CANDIDATES (n : Nat) : Nat := key (0x3400 + n) 0x09
def MIR_COPIES (n : Nat) : Nat := key (0x3400 + n) 0x0A
def MIR_DROPS (n : Nat) : Nat := key (0x3400 + n) 0x0B
def MIR_STICKY (n : Nat) : Nat := key (0x3400 + n) 0x0C

-- 0x3500, Table 9.10 of spec/09_switch_fabric.md
def FDB_KEY (i : Nat) : Nat := keyAt i 0x3500 0x01
def FDB_ENTRY (i : Nat) : Nat := keyAt i 0x3500 0x02
def FDB_OP : Nat := key 0x3500 0x03
def FDB_FLUSH_PORT (i : Nat) : Nat := keyAt i 0x3500 0x04
def FDB_FLUSH_VID (i : Nat) : Nat := keyAt i 0x3500 0x05
def FDB_DUMP : Nat := key 0x3500 0x06

-- 0x3510, Table 9.10 of spec/09_switch_fabric.md
def VLAN_SEL (i : Nat) : Nat := keyAt i 0x3510 0x01
def VLAN_MEMBERS (i : Nat) : Nat := keyAt i 0x3510 0x02
def VLAN_UNTAGGED (i : Nat) : Nat := keyAt i 0x3510 0x03

-- 0x3520, Table 9.10 of spec/09_switch_fabric.md
def MCG_SEL (i : Nat) : Nat := keyAt i 0x3520 0x01
def MCG_PORTS (i : Nat) : Nat := keyAt i 0x3520 0x02
def MCG_QUEUE (i : Nat) : Nat := keyAt i 0x3520 0x03

-- 0x3530, Table 9.11 of spec/09_switch_fabric.md
def LAG_MEMBERS (n : Nat) : Nat := key (0x3530 + n) 0x01
def LAG_FIELDS (n : Nat) : Nat := key (0x3530 + n) 0x02
def LAG_SEED (n : Nat) : Nat := key (0x3530 + n) 0x03
def LAG_ACTIVE (n : Nat) : Nat := key (0x3530 + n) 0x04
def LAG_BUCKET_MAP (n : Nat) : Nat := key (0x3530 + n) 0x05
def LAG_REBALANCES (n : Nat) : Nat := key (0x3530 + n) 0x06
def LAG_STICKY (n : Nat) : Nat := key (0x3530 + n) 0x07

-- 0x3800, Table 11.6 of spec/11_serial_lanes.md
def LANE_TX_INVERT (n : Nat) : Nat := key (0x3800 + n) 0x01
def LANE_RX_INVERT (n : Nat) : Nat := key (0x3800 + n) 0x02
def LANE_TRAIN (n : Nat) : Nat := key (0x3800 + n) 0x03
def LANE_TX_PRE (n : Nat) : Nat := key (0x3800 + n) 0x04
def LANE_TX_MAIN (n : Nat) : Nat := key (0x3800 + n) 0x05
def LANE_TX_POST (n : Nat) : Nat := key (0x3800 + n) 0x06
def LANE_TAPS_IN_USE (n : Nat) : Nat := key (0x3800 + n) 0x07
def LANE_TRAIN_STATE (n : Nat) : Nat := key (0x3800 + n) 0x08
def LANE_TRAIN_UPDATES (n : Nat) : Nat := key (0x3800 + n) 0x09
def LANE_TRAIN_TIME (n : Nat) : Nat := key (0x3800 + n) 0x0A
def LANE_TEST (n : Nat) : Nat := key (0x3800 + n) 0x0B
def LANE_PRBS_GEN (n : Nat) : Nat := key (0x3800 + n) 0x0C
def LANE_PRBS_CHK (n : Nat) : Nat := key (0x3800 + n) 0x0D
def LANE_PRBS_INVERT (n : Nat) : Nat := key (0x3800 + n) 0x0E
def LANE_PRBS_LOCK (n : Nat) : Nat := key (0x3800 + n) 0x0F
def LANE_PRBS_BITS (n : Nat) : Nat := key (0x3800 + n) 0x10
def LANE_PRBS_ERRORS (n : Nat) : Nat := key (0x3800 + n) 0x11
def LANE_PRBS_CLEAR (n : Nat) : Nat := key (0x3800 + n) 0x12
def LANE_INJ_MODE (n : Nat) : Nat := key (0x3800 + n) 0x13
def LANE_INJ_PERIOD (n : Nat) : Nat := key (0x3800 + n) 0x14
def LANE_INJ_AT (n : Nat) : Nat := key (0x3800 + n) 0x15
def LANE_INJ_ARM (n : Nat) : Nat := key (0x3800 + n) 0x16
def LANE_INJ_COUNT (n : Nat) : Nat := key (0x3800 + n) 0x17
def LANE_FEC_CORRECTED (n : Nat) : Nat := key (0x3800 + n) 0x18
def LANE_FEC_UNCORRECTED (n : Nat) : Nat := key (0x3800 + n) 0x19
def LANE_FEC_SYMBOLS (n : Nat) : Nat := key (0x3800 + n) 0x1A
def LANE_SIGNAL (n : Nat) : Nat := key (0x3800 + n) 0x1B
def LANE_CDR_LOCK (n : Nat) : Nat := key (0x3800 + n) 0x1C
def LANE_SB_IN (n : Nat) : Nat := key (0x3800 + n) 0x1D
def LANE_SB_OUT (n : Nat) : Nat := key (0x3800 + n) 0x1E
def LANE_I2C_RATE (n : Nat) : Nat := key (0x3800 + n) 0x1F
def LANE_I2C_DEV (n i : Nat) : Nat := keyAt i (0x3800 + n) 0x20
def LANE_I2C_OFFSET (n i : Nat) : Nat := keyAt i (0x3800 + n) 0x21
def LANE_I2C_PAGE (n i : Nat) : Nat := keyAt i (0x3800 + n) 0x22
def LANE_I2C_LEN (n i : Nat) : Nat := keyAt i (0x3800 + n) 0x23
def LANE_I2C_DATA (n i : Nat) : Nat := keyAt i (0x3800 + n) 0x24
def LANE_I2C_OP (n : Nat) : Nat := key (0x3800 + n) 0x25
def LANE_STICKY (n : Nat) : Nat := key (0x3800 + n) 0x26
def LANE_I2C_STATUS (n i : Nat) : Nat := keyAt i (0x3800 + n) 0x27

-- 0x4000, Table 12.7 of spec/12_gnss_baseband.md
def GNSS_SYSTEMS : Nat := key 0x4000 0x01
def GNSS_SIGNALS : Nat := key 0x4000 0x02
def GNSS_ELEV_MASK : Nat := key 0x4000 0x03
def GNSS_CN0_MASK : Nat := key 0x4000 0x04
def GNSS_MEAS_RATE : Nat := key 0x4000 0x05
def GNSS_PLL_BW : Nat := key 0x4000 0x06
def GNSS_DLL_BW : Nat := key 0x4000 0x07
def GNSS_EL_SPACING : Nat := key 0x4000 0x08
def GNSS_VEL_SPACING : Nat := key 0x4000 0x09
def GNSS_MP_OFFSETS : Nat := key 0x4000 0x0A
def GNSS_DLL_DISC : Nat := key 0x4000 0x0B
def GNSS_POS_MODE : Nat := key 0x4000 0x0C
def GNSS_POS_FIXED : Nat := key 0x4000 0x0D
def GNSS_SURVEY_TIME : Nat := key 0x4000 0x0E
def GNSS_SURVEY_LIMIT : Nat := key 0x4000 0x0F
def GNSS_TIME_SYSTEM : Nat := key 0x4000 0x10
def GNSS_TIME_MIN_SV : Nat := key 0x4000 0x11
def GNSS_ANT_DELAY_L1 : Nat := key 0x4000 0x12
def GNSS_ANT_DELAY_L5 : Nat := key 0x4000 0x13
def GNSS_ANT_DELAY_UNC : Nat := key 0x4000 0x14
def GNSS_SYSTEM_UNC : Nat := key 0x4000 0x15
def GNSS_ANT_POWER : Nat := key 0x4000 0x16
def GNSS_DUTY_PERIOD : Nat := key 0x4000 0x17
def GNSS_DUTY_ON : Nat := key 0x4000 0x18
def GNSS_DUTY_PHASE : Nat := key 0x4000 0x19

-- 0x4001, Table 12.8 of spec/12_gnss_baseband.md
def GNSS_STATUS : Nat := key 0x4001 0x01
def GNSS_FIX_CLASS : Nat := key 0x4001 0x02
def GNSS_SV_TRACKED : Nat := key 0x4001 0x03
def GNSS_SV_USED : Nat := key 0x4001 0x04
def GNSS_POSITION : Nat := key 0x4001 0x05
def GNSS_POS_UNC : Nat := key 0x4001 0x06
def GNSS_TIME_OFFSET : Nat := key 0x4001 0x07
def GNSS_TIME_UNC : Nat := key 0x4001 0x08
def GNSS_SURVEY_STATE : Nat := key 0x4001 0x09
def GNSS_TTFF : Nat := key 0x4001 0x0A
def GNSS_START_KIND : Nat := key 0x4001 0x0B
def GNSS_ANT_STATE : Nat := key 0x4001 0x0C
def GNSS_AGC : Nat := key 0x4001 0x0D
def GNSS_JAM_IND : Nat := key 0x4001 0x0E
def GNSS_EPOCHS : Nat := key 0x4001 0x0F
def GNSS_SKIPPED : Nat := key 0x4001 0x10
def GNSS_KEEP : Nat := key 0x4001 0x11
def GNSS_KEEP_CLEAR : Nat := key 0x4001 0x12
def GNSS_SLIPS : Nat := key 0x4001 0x13
def GNSS_STICKY : Nat := key 0x4001 0x14

-- 0x4002, Table 12.9 of spec/12_gnss_baseband.md
def GNSS_CH_SEL (i : Nat) : Nat := keyAt i 0x4002 0x01
def GNSS_CH_STATE (i : Nat) : Nat := keyAt i 0x4002 0x02
def GNSS_CH_SIGNAL (i : Nat) : Nat := keyAt i 0x4002 0x03
def GNSS_CH_SVID (i : Nat) : Nat := keyAt i 0x4002 0x04
def GNSS_CH_CN0 (i : Nat) : Nat := keyAt i 0x4002 0x05
def GNSS_CH_ELEV (i : Nat) : Nat := keyAt i 0x4002 0x06
def GNSS_CH_AZIM (i : Nat) : Nat := keyAt i 0x4002 0x07
def GNSS_CH_LAST (i : Nat) : Nat := keyAt i 0x4002 0x08

-- 0x4003, Table 12.10 of spec/12_gnss_baseband.md
def GNSS_RING_WR : Nat := key 0x4003 0x01
def GNSS_RING_RD (i : Nat) : Nat := keyAt i 0x4003 0x02
def GNSS_RING_DATA : Nat := key 0x4003 0x03
def GNSS_RING_SIZE : Nat := key 0x4003 0x04
def GNSS_RING_STICKY (i : Nat) : Nat := keyAt i 0x4003 0x05

-- 0x5000, Table 13.8 of spec/13_stream_engine_memory.md
def SE_MAC_LOAD : Nat := key 0x5000 0x01
def SE_SAMPLE_LOAD : Nat := key 0x5000 0x02
def SE_CHANNELS : Nat := key 0x5000 0x03
def SE_FAST_CHANNELS : Nat := key 0x5000 0x04
def SE_UDP_PORT : Nat := key 0x5000 0x05
def SE_MALFORMED : Nat := key 0x5000 0x06
def SE_UNKNOWN : Nat := key 0x5000 0x07
def SE_SATURATIONS : Nat := key 0x5000 0x08
def SE_STICKY : Nat := key 0x5000 0x09

-- 0x5001, Table 13.9 of spec/13_stream_engine_memory.md
def STR_SEL (i : Nat) : Nat := keyAt i 0x5001 0x01
def STR_KIND (i : Nat) : Nat := keyAt i 0x5001 0x02
def STR_KEY (i : Nat) : Nat := keyAt i 0x5001 0x03
def STR_CQ (i : Nat) : Nat := keyAt i 0x5001 0x04
def STR_CHANNELS (i : Nat) : Nat := keyAt i 0x5001 0x05
def STR_CH_BASE (i : Nat) : Nat := keyAt i 0x5001 0x06
def STR_RATE (i : Nat) : Nat := keyAt i 0x5001 0x07
def STR_TIMING (i : Nat) : Nat := keyAt i 0x5001 0x08
def STR_GRID_OUT (i : Nat) : Nat := keyAt i 0x5001 0x09
def STR_GRAPH (i : Nat) : Nat := keyAt i 0x5001 0x0A
def STR_FRAMES (i : Nat) : Nat := keyAt i 0x5001 0x0B
def STR_GAP_SAMPLES (i : Nat) : Nat := keyAt i 0x5001 0x0C
def STR_DROPS (i : Nat) : Nat := keyAt i 0x5001 0x0D
def STR_TIME_MISMATCH (i : Nat) : Nat := keyAt i 0x5001 0x0E
def STR_STICKY (i : Nat) : Nat := keyAt i 0x5001 0x0F

-- 0x5010, Table 13.10 of spec/13_stream_engine_memory.md
def G_GRAPH (n : Nat) : Nat := key (0x5010 + n) 0x01
def G_MAC_COST (n : Nat) : Nat := key (0x5010 + n) 0x02
def G_SATURATIONS (n : Nat) : Nat := key (0x5010 + n) 0x03
def G_TRIGGERS (n : Nat) : Nat := key (0x5010 + n) 0x04
def G_ERROR (n : Nat) : Nat := key (0x5010 + n) 0x05
def G_STICKY (n : Nat) : Nat := key (0x5010 + n) 0x06

-- 0x5040, Table 13.11 of spec/13_stream_engine_memory.md
def ARC_STAGING : Nat := key 0x5040 0x01
def ARC_STAGING_USED : Nat := key 0x5040 0x02
def ARC_FLASH_USED : Nat := key 0x5040 0x03
def ARC_FLASH_WEAR : Nat := key 0x5040 0x04
def ARC_NVME_NSID : Nat := key 0x5040 0x05
def ARC_NVME_LBA_START : Nat := key 0x5040 0x06
def ARC_NVME_LBA_COUNT : Nat := key 0x5040 0x07
def ARC_NVME_STATE : Nat := key 0x5040 0x08
def ARC_WR_SEQ : Nat := key 0x5040 0x09
def ARC_RD_TARGET (i : Nat) : Nat := keyAt i 0x5040 0x0A
def ARC_RD (i : Nat) : Nat := keyAt i 0x5040 0x0B
def ARC_DATA : Nat := key 0x5040 0x0C
def ARC_SEEK_TIME (i : Nat) : Nat := keyAt i 0x5040 0x0D
def ARC_SEEK : Nat := key 0x5040 0x0E
def ARC_OVERWRITTEN : Nat := key 0x5040 0x0F
def ARC_STICKY : Nat := key 0x5040 0x10

-- 0x5100, Table 14.6 of spec/14_dma_buffer_pools.md
def POOL_COUNT_256 : Nat := key 0x5100 0x01
def POOL_COUNT_2K : Nat := key 0x5100 0x02
def POOL_COUNT_16K : Nat := key 0x5100 0x03
def POOL_COUNT_256K : Nat := key 0x5100 0x04
def POOL_SPILL : Nat := key 0x5100 0x05
def POOL_REGION_MIB : Nat := key 0x5100 0x06
def POOL_STICKY : Nat := key 0x5100 0x07

-- 0x5101, Table 14.7 of spec/14_dma_buffer_pools.md
def POOLP_FREE (n : Nat) : Nat := key (0x5101 + n) 0x01
def POOLP_MIN_FREE (n : Nat) : Nat := key (0x5101 + n) 0x02
def POOLP_ALLOCS (n : Nat) : Nat := key (0x5101 + n) 0x03
def POOLP_SPILLS (n : Nat) : Nat := key (0x5101 + n) 0x04
def POOLP_WAITS (n : Nat) : Nat := key (0x5101 + n) 0x05
def POOLP_WAITERS (n : Nat) : Nat := key (0x5101 + n) 0x06
def POOLP_DOUBLE_RELEASES (n : Nat) : Nat := key (0x5101 + n) 0x07

-- 0x5200, Table 14.8 of spec/14_dma_buffer_pools.md
def DMA_MODE (n : Nat) : Nat := key (0x5200 + n) 0x01
def DMA_TENANT (n : Nat) : Nat := key (0x5200 + n) 0x02
def DMA_FUNCTION (n : Nat) : Nat := key (0x5200 + n) 0x03
def DMA_PRIORITY (n : Nat) : Nat := key (0x5200 + n) 0x04
def DMA_MAX_READS (n : Nat) : Nat := key (0x5200 + n) 0x05
def DMA_RETRIES (n : Nat) : Nat := key (0x5200 + n) 0x06
def DMA_RING_SPACE (n : Nat) : Nat := key (0x5200 + n) 0x07
def DMA_RING_BASE (n : Nat) : Nat := key (0x5200 + n) 0x08
def DMA_RING_SIZE (n : Nat) : Nat := key (0x5200 + n) 0x09
def DMA_HEAD (n : Nat) : Nat := key (0x5200 + n) 0x0A
def DMA_TAIL (n : Nat) : Nat := key (0x5200 + n) 0x0B
def DMA_WB_ADDR (n : Nat) : Nat := key (0x5200 + n) 0x0C
def DMA_IRQ_HOLDOFF (n : Nat) : Nat := key (0x5200 + n) 0x0D
def DMA_GATHER_SPACE (n : Nat) : Nat := key (0x5200 + n) 0x0E
def DMA_GATHER_BASE (n : Nat) : Nat := key (0x5200 + n) 0x0F
def DMA_CQ (n : Nat) : Nat := key (0x5200 + n) 0x10
def DMA_CQ_BACKLOG (n : Nat) : Nat := key (0x5200 + n) 0x11
def DMA_SOURCE_RING (n : Nat) : Nat := key (0x5200 + n) 0x12
def DMA_STATUS (n : Nat) : Nat := key (0x5200 + n) 0x13
def DMA_RESUME (n : Nat) : Nat := key (0x5200 + n) 0x14
def DMA_ERR_ADDR (n : Nat) : Nat := key (0x5200 + n) 0x15
def DMA_ERR_INFO (n : Nat) : Nat := key (0x5200 + n) 0x16
def DMA_ERR_DESC (n : Nat) : Nat := key (0x5200 + n) 0x17
def DMA_BYTES (n : Nat) : Nat := key (0x5200 + n) 0x18
def DMA_DESCRIPTORS (n : Nat) : Nat := key (0x5200 + n) 0x19
def DMA_RETRIED (n : Nat) : Nat := key (0x5200 + n) 0x1A
def DMA_TRUNCATED (n : Nat) : Nat := key (0x5200 + n) 0x1B
def DMA_SKIPPED (n : Nat) : Nat := key (0x5200 + n) 0x1C
def DMA_DOORBELL_DROPS (n : Nat) : Nat := key (0x5200 + n) 0x1D
def DMA_STICKY (n : Nat) : Nat := key (0x5200 + n) 0x1E

-- 0x6000, Table 17.5 of spec/17_redundant_pair.md
def PAIR_ENABLE : Nat := key 0x6000 0x01
def PAIR_ENABLED : Nat := key 0x6000 0x02
def PAIR_POSITION : Nat := key 0x6000 0x03
def PAIR_STATE : Nat := key 0x6000 0x04
def PAIR_PARTNER_ID : Nat := key 0x6000 0x05
def PAIR_PARTNER_STATE : Nat := key 0x6000 0x06
def PAIR_SWITCH_BACK : Nat := key 0x6000 0x07
def PAIR_SWITCHOVERS : Nat := key 0x6000 0x08
def PAIR_LAST_GAP : Nat := key 0x6000 0x09
def PAIR_IDENTITY : Nat := key 0x6000 0x0A
def PAIR_STICKY : Nat := key 0x6000 0x0B

-- 0x6001, Table 17.6 of spec/17_redundant_pair.md
def EXPORT_SEQ : Nat := key 0x6001 0x01
def EXPORT_ACKED : Nat := key 0x6001 0x02
def EXPORT_TIME : Nat := key 0x6001 0x03
def EXPORT_BYTES : Nat := key 0x6001 0x04
def EXPORT_AGE : Nat := key 0x6001 0x05
def EXPORT_FAILS : Nat := key 0x6001 0x06
def EXPORT_DISCARDED : Nat := key 0x6001 0x07
def EXPORT_AGE_LIMIT : Nat := key 0x6001 0x08

-- 0x6002, Table 17.7 of spec/17_redundant_pair.md
def SWO_HB_MISSED : Nat := key 0x6002 0x01
def SWO_PREWAKES : Nat := key 0x6002 0x02
def SWO_HANDOVER_N : Nat := key 0x6002 0x03
def SWO_PARTNER_ALIVE : Nat := key 0x6002 0x04
def SWO_ROLE : Nat := key 0x6002 0x05
def SWO_LAST_CAUSE : Nat := key 0x6002 0x06
def SWO_LAST_TIME : Nat := key 0x6002 0x07

-- 0x7000, Table 18.8 of spec/18_safety_diagnostics_counters.md
def SAFE_STATE : Nat := key 0x7000 0x01
def SAFE_CAUSE : Nat := key 0x7000 0x02
def SAFE_CLEAR : Nat := key 0x7000 0x03
def SAFE_FORCE : Nat := key 0x7000 0x04
def SAFE_DP_LIMIT : Nat := key 0x7000 0x05
def SAFE_ENTRIES : Nat := key 0x7000 0x06
def SAFE_LAST_TIME : Nat := key 0x7000 0x07
def SAFE_STICKY : Nat := key 0x7000 0x08

-- 0x7001, Table 18.8 of spec/18_safety_diagnostics_counters.md
def XW_PHASE_LIMIT : Nat := key 0x7001 0x01
def XW_CONV_LIMIT : Nat := key 0x7001 0x02
def XW_STATUS : Nat := key 0x7001 0x03
def XW_LAST_TRIP : Nat := key 0x7001 0x04
def XW_LAST_INSTANCE : Nat := key 0x7001 0x05
def XW_LAST_ERROR : Nat := key 0x7001 0x06
def XW_TRIPS : Nat := key 0x7001 0x07
def XW_CLOCK_DIFF : Nat := key 0x7001 0x08
def XW_SELFTEST_PERIOD : Nat := key 0x7001 0x09
def XW_SELFTESTS : Nat := key 0x7001 0x0A
def XW_STICKY : Nat := key 0x7001 0x0B

-- 0x7002, Table 18.8 of spec/18_safety_diagnostics_counters.md
def DPC_PARITY_ERRORS : Nat := key 0x7002 0x01
def DPC_FCS_MISMATCH : Nat := key 0x7002 0x02
def DPC_TABLE_CORRECTED : Nat := key 0x7002 0x03
def DPC_TABLE_UNCORRECTED : Nat := key 0x7002 0x04
def DPC_LPDDR_CORRECTED : Nat := key 0x7002 0x05
def DPC_LPDDR_UNCORRECTED : Nat := key 0x7002 0x06
def DPC_SRAM_CORRECTED : Nat := key 0x7002 0x07
def DPC_SRAM_UNCORRECTED : Nat := key 0x7002 0x08
def DPC_STICKY : Nat := key 0x7002 0x09

-- 0x7003, Table 18.8 of spec/18_safety_diagnostics_counters.md
def SCRUB_PERIOD : Nat := key 0x7003 0x01
def SCRUB_PASSES : Nat := key 0x7003 0x02
def SCRUB_LAST_PASS : Nat := key 0x7003 0x03
def SCRUB_PROGRESS : Nat := key 0x7003 0x04
def SCRUB_CORRECTED : Nat := key 0x7003 0x05
def SCRUB_UNCORRECTED : Nat := key 0x7003 0x06
def SCRUB_CELLS_RETURNED : Nat := key 0x7003 0x07
def SCRUB_STICKY : Nat := key 0x7003 0x08

-- 0x7100, Table 18.9 of spec/18_safety_diagnostics_counters.md
def CNT_DUMP_PERIOD : Nat := key 0x7100 0x01
def CNT_SNAPSHOT : Nat := key 0x7100 0x02
def CNT_DUMPS : Nat := key 0x7100 0x03
def CNT_DUMPS_MISSED : Nat := key 0x7100 0x04
def CNT_STICKY : Nat := key 0x7100 0x05

-- 0x7101, Table 18.9 of spec/18_safety_diagnostics_counters.md
def CNT_FIXED_VESPER_CYCLES : Nat := key 0x7101 0x01
def CNT_FIXED_FABRIC_CYCLES : Nat := key 0x7101 0x02
def CNT_FIXED_PRIXUS_CYCLES : Nat := key 0x7101 0x03
def CNT_FIXED_EVORVO_CYCLES : Nat := key 0x7101 0x04
def CNT_FIXED_LPDDR_CYCLES : Nat := key 0x7101 0x05
def CNT_FIXED_RX_FRAMES : Nat := key 0x7101 0x06
def CNT_FIXED_TX_FRAMES : Nat := key 0x7101 0x07
def CNT_FIXED_DROPS : Nat := key 0x7101 0x08
def CNT_FIXED_CELL_WRITES : Nat := key 0x7101 0x09
def CNT_FIXED_CQ_FRAMES : Nat := key 0x7101 0x0A
def CNT_FIXED_DMA_BEATS : Nat := key 0x7101 0x0B
def CNT_FIXED_SE_SAMPLES : Nat := key 0x7101 0x0C
def CNT_FIXED_MACS : Nat := key 0x7101 0x0D
def CNT_FIXED_OD_REQUESTS : Nat := key 0x7101 0x0E
def CNT_FIXED_JOB_STEPS : Nat := key 0x7101 0x0F
def CNT_FIXED_EVENTS : Nat := key 0x7101 0x10

-- 0x7102, Table 18.9 of spec/18_safety_diagnostics_counters.md
def CNT_RING_WR : Nat := key 0x7102 0x01
def CNT_RING_RD (i : Nat) : Nat := keyAt i 0x7102 0x02
def CNT_RING_DATA : Nat := key 0x7102 0x03
def CNT_RING_SIZE : Nat := key 0x7102 0x04
def CNT_RING_STICKY (i : Nat) : Nat := keyAt i 0x7102 0x05

-- 0x7103, Table 18.9 of spec/18_safety_diagnostics_counters.md
def CNT_ACCESS_T0 : Nat := key 0x7103 0x01
def CNT_ACCESS_T1 : Nat := key 0x7103 0x02
def CNT_ACCESS_T2 : Nat := key 0x7103 0x03
def CNT_ACCESS_T3 : Nat := key 0x7103 0x04
def CNT_ACCESS_T4 : Nat := key 0x7103 0x05
def CNT_ACCESS_T5 : Nat := key 0x7103 0x06
def CNT_ACCESS_T6 : Nat := key 0x7103 0x07
def CNT_ACCESS_T7 : Nat := key 0x7103 0x08
def CNT_ACCESS_FIXED : Nat := key 0x7103 0x09

-- 0x7110, Table 18.10 of spec/18_safety_diagnostics_counters.md
def CNTN_SELECT (n : Nat) : Nat := key (0x7110 + n) 0x01
def CNTN_MODE (n : Nat) : Nat := key (0x7110 + n) 0x02
def CNTN_VALUE (n : Nat) : Nat := key (0x7110 + n) 0x03
def CNTN_RELOAD (n : Nat) : Nat := key (0x7110 + n) 0x04
def CNTN_IRQ (n : Nat) : Nat := key (0x7110 + n) 0x05
def CNTN_OWNER (n : Nat) : Nat := key (0x7110 + n) 0x06
def CNTN_OVERFLOWS (n : Nat) : Nat := key (0x7110 + n) 0x07

-- 0x7200, Table 18.10 of spec/18_safety_diagnostics_counters.md
def FI_ENABLE : Nat := key 0x7200 0x01
def FI_ARMED : Nat := key 0x7200 0x02
def FI_XW_TEST : Nat := key 0x7200 0x03
def FI_XW_TEST_SAFE : Nat := key 0x7200 0x04
def FI_ECC_TEST : Nat := key 0x7200 0x05
def FI_STICKY : Nat := key 0x7200 0x06

-- 0x7210, Table 18.10 of spec/18_safety_diagnostics_counters.md
def FIP_KIND (n : Nat) : Nat := key (0x7210 + n) 0x01
def FIP_MATCH (n : Nat) : Nat := key (0x7210 + n) 0x02
def FIP_N (n : Nat) : Nat := key (0x7210 + n) 0x03
def FIP_PATTERN (n : Nat) : Nat := key (0x7210 + n) 0x04
def FIP_BYTE (n : Nat) : Nat := key (0x7210 + n) 0x05
def FIP_BIT (n : Nat) : Nat := key (0x7210 + n) 0x06
def FIP_FCS_FIXUP (n : Nat) : Nat := key (0x7210 + n) 0x07
def FIP_HOLD (n : Nat) : Nat := key (0x7210 + n) 0x08
def FIP_RELEASE_AFTER (n : Nat) : Nat := key (0x7210 + n) 0x09
def FIP_DELAY (n : Nat) : Nat := key (0x7210 + n) 0x0A
def FIP_COUNT (n : Nat) : Nat := key (0x7210 + n) 0x0B
def FIP_ARM_AT (n : Nat) : Nat := key (0x7210 + n) 0x0C
def FIP_ARM (n : Nat) : Nat := key (0x7210 + n) 0x0D
def FIP_STATUS (n : Nat) : Nat := key (0x7210 + n) 0x0E
def FIP_ACTIONS (n : Nat) : Nat := key (0x7210 + n) 0x0F
def FIP_STICKY (n : Nat) : Nat := key (0x7210 + n) 0x10

end Sys2Proof.Machine.Od
end

