-- ==== Sys2Proof/Machine/Od.lean ====
section
/-! DEFINITION. Finding an entry of the dictionary and the value it holds after a reset that clears it (R11, R433, R434). -/

namespace Sys2Proof.Machine

/-- Where an entry stands: base index of its record, instance and sub-index. -/
structure Place where
  base : Nat
  inst : Nat
  sub : Nat
  deriving DecidableEq, Repr

/-- The record that holds an index, from a list of records. -/
def findRecord : List Record → Nat → Option Record
  | [], _ => none
  | r :: rest, index => if r.1 ≤ index ∧ index < r.1 + r.2.1 then some r else findRecord rest index

/-- The place of an index and sub-index, none where the map has no such entry (R433). -/
def placeOf (index sub : Nat) : Option Place :=
  match findRecord records index with
  | none => none
  | some r => if sub < r.2.2.length then some ⟨r.1, index - r.1, sub⟩ else none

/-- The row of the table that defines an entry. -/
def entryAt (base sub : Nat) : Option Entry :=
  match findRecord records base with
  | none => none
  | some r => r.2.2[sub]?

/-- Defaults that depend on the instance or on the factory, the straps or NAND (R410, R429, R430, Tables 4.3, 4.7, 15.15, 16.1, 16.2, 18.10).
`none` is the default of the entry's own row. -/
def specialDefault (sel index sub : Nat) : Option Int :=
  if index < 0x1100 then
    if index = 0x1000 then
      if sub = 3 then some Config.orderingCode else if sub = 7 then some Config.fwBuild
      else if sub = 9 then some Config.moduleIdentity else if sub = 12 then some Config.bootRom else none
    else if index = 0x1001 then
      if sub = 1 then some (if Config.orderingCode = 0 then 1 else 0) else if sub = 2 then some Config.strapPcieRole
      else if sub = 3 then some Config.strapPcieFunctions else none
    else none
  else if index = 0x1100 then
    if sub = 1 then some 0xC400000000000000 else if sub = 2 then some 0xC200000000000000 else none
  else if 0x1110 ≤ index ∧ index < 0x1118 then
    if sub = 1 then some (if index = 0x1110 then 0x01FFFFFF else 0x15)
    else if sub = 2 ∨ sub = 3 then some (if index = 0x1110 then 0x01FFFFFF else 0)
    else none
  else if index = 0x1202 then
    if sub = 1 then some Config.nandRunning else if sub = 2 then some Config.nandBootNext
    else if sub = 3 then some Config.nandSlotAState else if sub = 4 then some Config.nandSlotBState else none
  else if 0x1210 ≤ index ∧ index < 0x12B8 then
    if sub = 1 ∧ (index = 0x1230 ∨ index = 0x1231) then some 2 else none
  else if index = 0x1302 ∧ 5 ≤ sub ∧ sub ≤ 8 then some (Config.factoryEntry (key index sub))
  else if index = 0x2401 then
    if sub = 1 then some 400000 else if sub = 3 then some 400000 else if sub = 5 then some 100
    else if sub = 6 then some 10 else if sub = 7 then some 10312500000 else none
  else if index = 0x2400 then
    if sub = 1 then some 100 else if sub = 3 then some 2000 else if sub = 5 then some 10000
    else if sub = 6 then some 60000 else if sub = 7 then some 100000000 else none
  else if index = 0x2402 ∨ index = 0x2403 then
    if sub = 1 then some 100000 else if sub = 3 then some 1000000 else if sub = 5 then some 20
    else if sub = 6 then some 10 else if sub = 7 then some 100000000 else none
  else if index = 0x2702 ∧ sub = 8 then some Config.tempCoef
  else if index = 0x2802 ∧ sub ≤ 8 ∧ 1 ≤ sub then some (Config.factoryEntry (key index sub))
  else if index = 0x3510 then
    -- VLAN_MEMBERS and VLAN_UNTAGGED: VID 1 holds every port (R240)
    if sub = 2 ∨ sub = 3 then some (if sel = 1 then 0xFFFFFFFF else 0) else none
  else if 0x5101 ≤ index ∧ index < 0x5105 then
    if sub = 1 ∨ sub = 2 then
      some (if index = 0x5101 then 1048576 else if index = 0x5102 then 1048576 else if index = 0x5103 then 131072 else 33536)
    else none
  else if index = 0x7103 ∧ sub = 1 then some (2 ^ 64 - 1)
  else none

/-- The value an entry holds after a reset that clears it (R11), by key. -/
def odDefault (k : Nat) : Int :=
  let index := k / 256 % 65536
  let sub := k % 256
  match specialDefault (k / 2 ^ 24) index sub with
  | some v => v
  | none =>
    match findRecord records index with
    | none => 0
    | some r => match r.2.2[sub]? with
      | none => 0
      | some e => e.dflt

/-- The OCTETS and STRING entries whose default is not all zero (R436), by key. -/
def blobDefault (k : Nat) : Bytes :=
  if k = Od.ID_VENDOR then [66, 101, 114, 111, 108, 109, 121, 116, 104, 0, 0, 0, 0, 0, 0, 0]
  else if k = Od.ID_PRODUCT then [87, 84, 51, 50, 50, 53, 0, 0, 0, 0, 0, 0, 0, 0, 0, 0]
  else if k = Od.ID_SERIAL then Config.serialNumber
  else if k = Od.ID_MAC_ADDRESS then Config.macAddress
  else match entryAt (k / 256 % 65536) (k % 256) with
    | some e => match e.ty with
      | .octets n => List.replicate n 0
      | .string n => List.replicate n 0
      | _ => []
    | none => []

end Sys2Proof.Machine
end

