-- ==== Sys2Proof/Machine/Ops.lean ====
section
/-! DEFINITION. The named operations every meaning is built from: reading and writing dictionary entries, sticky bits, counters, free
values, raising events (R412, R413, R523), sending, time. -/

namespace Sys2Proof.Machine

-- Dictionary entries

/-- The value of a numeric entry. -/
def Block.rd (b : Block) (k : Nat) : Int := (tget b.od k).getD (odDefault k)

/-- The value of a numeric entry that is never negative. -/
def Block.rdN (b : Block) (k : Nat) : Nat := (b.rd k).toNat

/-- Whether a BOOL entry is 1. -/
def Block.on (b : Block) (k : Nat) : Bool := b.rd k == 1

/-- The module with a numeric entry at a value; an entry at its default is not listed. -/
def Block.wr (b : Block) (k : Nat) (v : Int) : Block :=
  { b with od := if v = odDefault k then tdel b.od k else tput b.od k v }

/-- The value of an OCTETS, STRING or DOMAIN entry. -/
def Block.blob (b : Block) (k : Nat) : Bytes := (tget b.blobs k).getD (blobDefault k)

/-- The module with an OCTETS, STRING or DOMAIN entry at a value. -/
def Block.wrBlob (b : Block) (k : Nat) (v : Bytes) : Block :=
  { b with blobs := if v = blobDefault k then tdel b.blobs k else tput b.blobs k v }

/-- The module with bits of a status entry set. -/
def Block.orBits (b : Block) (k mask : Nat) : Block := b.wr k (((b.rdN k) ||| mask : Nat) : Int)

/-- The module with bits of an entry cleared, as a write of 1 to a sticky bit clears it (R12). -/
def Block.clearBits (b : Block) (k mask : Nat) : Block := b.wr k ((b.rdN k - (b.rdN k &&& mask) : Nat) : Int)

-- Free values (log 4)

/-- A free value below n, and the module that has drawn it. (DESIGN CHOICE, log 4.) -/
def Block.draw (b : Block) (n : Nat) : Nat × Block := (Config.freeValue b.free % n, { b with free := b.free + 1 })

/-- The width of an entry's unsigned type, as the number of values it can hold. -/
def typeSize : EType → Nat
  | .bool => 2
  | .u8 => 2 ^ 8
  | .u16 => 2 ^ 16
  | .u32 => 2 ^ 32
  | .u64 => 2 ^ 64
  | .i8 => 2 ^ 7
  | .i16 => 2 ^ 15
  | .i32 => 2 ^ 31
  | .i64 => 2 ^ 63
  | _ => 2 ^ 96

/-- How many values the type of the entry under a key holds. -/
def keySize (k : Nat) : Nat :=
  match entryAt ((findRecord records (k / 256 % 65536)).elim 0 (·.1)) (k % 256) with
  | some e => typeSize e.ty
  | none => 2 ^ 64

/-- A count raised by n. Past the width of its entry the spec states no value: a free value (log 4). -/
def Block.bump (b : Block) (k n : Nat) : Block :=
  let v := b.rdN k + n
  if v < keySize k then b.wr k v
  else
    let (f, b) := b.draw (keySize k)
    b.wr k f

/-- A count raised by n that its rule says saturates. -/
def Block.bumpSat (b : Block) (k n : Nat) : Block := b.wr k ((min (b.rdN k + n) (keySize k - 1) : Nat) : Int)

-- Time

/-- Ticks in a second (R38). -/
def ticksPerSec : Nat := 65536000000000

/-- The time word wraps after this many ticks (R38). -/
def wordWrap : Nat := 2 ^ 48 * ticksPerSec

/-- Meridian time in ticks since the epoch. -/
def Block.mer (b : Block) : Nat := b.tm.mt.mer

/-- The tick view (R44). -/
def Block.tick (b : Block) : Nat := b.tm.mt.mer % 2 ^ 64

/-- d of R47: the target less now, read as a signed 64-bit number. -/
def tickDiff (target now : Nat) : Int := signed 64 (unsigned 64 ((target : Int) - now))

/-- Whether a tick target is due (R47). -/
def Block.due (b : Block) (target : Nat) : Bool := tickDiff target b.tick ≤ 0

/-- The tick view of a time word (R44). -/
def tickOf (word : Nat) : Nat := word % 2 ^ 64

/-- Whether an instant is at or before another, both in ticks since the epoch, on the tick view (R47, R48). -/
def upTo (x y : Nat) : Bool := tickDiff (tickOf x) (tickOf y) ≤ 0

/-- The earlier of two instants (R47). -/
def earlier (x y : Nat) : Nat := if upTo x y then x else y

/-- How far a time word lies ahead of another, negative where it lies before it: within the window of R48 this is d of R47, and beyond it the judgement
on the time word that R49 makes. (DEDUCED, log 126.) -/
def wordDiff (x y : Nat) : Int := ((x : Int) - y + wordWrap / 2) % wordWrap - wordWrap / 2

/-- The time word of a tick value (R46): A + d, the anchor A being the current Meridian time. -/
def Block.wordOf (b : Block) (tick : Nat) : Nat := (((b.mer : Int) + tickDiff tick b.tick) % wordWrap).toNat

/-- Whether the instant of a time word has come. (DEDUCED, log 126.) -/
def Block.reached (b : Block) (word : Nat) : Bool := decide (wordDiff word b.mer ≤ 0)

/-- SECONDS of a time word. -/
def secondsOf (word : Nat) : Nat := word / ticksPerSec

/-- NANOSECONDS of a time word. -/
def nanosOf (word : Nat) : Nat := word % ticksPerSec / 65536

/-- FRACTION of a time word. -/
def fractionOf (word : Nat) : Nat := word % 65536

/-- The twelve bytes of a time word (R40). -/
def timeBytes (word : Nat) : Bytes := toLE 2 (fractionOf word) ++ toLE 4 (nanosOf word) ++ toLE 6 (secondsOf word)

/-- Vesper cycles in a microsecond, a millisecond and a second. -/
def us (n : Nat) : Nat := n * 100
def ms (n : Nat) : Nat := n * 100000
def secs (n : Nat) : Nat := n * 100000000

/-- The nearest integer to n / d for d > 0, halves away from zero. (DEDUCED, log 54.) -/
def roundDiv (n : Int) (d : Nat) : Int :=
  if d = 0 then 0 else if 0 ≤ n then (2 * n + d) / (2 * d) else -((-2 * n + d) / (2 * d))

/-- Picoseconds and femtoseconds to ticks, to the nearest. (DESIGN CHOICE, log 12.) -/
def psToTicks (ps : Int) : Int := roundDiv (ps * 65536) 1000
def fsToTicks (fs : Int) : Int := roundDiv (fs * 65536) 1000000

/-- Ticks to picoseconds, rounded up in magnitude, as a bound must be. (DESIGN CHOICE, log 12.) -/
def ticksToPsUp (t : Int) : Nat := divUp (t.natAbs * 1000) 65536

/-- Where a ramp stands at a cycle when it moves `rate` picoseconds a second (ticks). -/
def Ramp.at_ (r : Ramp) (cyc : Nat) : Int :=
  let moved : Int := (r.rate * (cyc - r.since) * 65536 / 100000000000 : Nat)
  if r.start < r.goal then min r.goal (r.start + moved) else max r.goal (r.start - moved)

/-- Where a ramp stands at a cycle when it moves `rate` of its own units a second. -/
def Ramp.unit (r : Ramp) (cyc : Nat) : Int :=
  let moved : Int := (r.rate * (cyc - r.since) / 100000000 : Nat)
  if r.start < r.goal then min r.goal (r.start + moved) else max r.goal (r.start - moved)

-- Sending and events

/-- The module having sent something more. (DESIGN CHOICE, log 11 and 111; DEDUCED, log 61.) -/
def Block.emit (b : Block) (o : Output) : Block := { b with sent := b.sent ++ [o] }

/-- The group of Table 15.9 whose range holds an index or the high byte of an event number (R412, R435), none where no group does. -/
def groupOf (index : Nat) : Option Nat :=
  let h := index / 256
  if h = 0x10 then some 0 else if h = 0x11 then some 1 else if h = 0x12 then some 2 else if h = 0x13 then some 3
  else if h = 0x20 then some 4 else if h = 0x22 then some 5 else if h = 0x24 then some 6 else if h = 0x26 then some 7
  else if h = 0x27 then some 8 else if h = 0x28 then some 9 else if h = 0x29 then some 10 else if h = 0x30 then some 11
  else if h = 0x31 then some 12 else if h = 0x32 ∨ h = 0x33 then some 13 else if h = 0x34 then some 14
  else if h = 0x35 then some 15 else if h = 0x38 then some 16 else if h = 0x40 then some 17 else if h = 0x50 then some 18
  else if h = 0x51 then some 19 else if h = 0x52 then some 20 else if h = 0x60 then some 21 else if h = 0x70 then some 22
  else if h = 0x71 then some 23 else if h = 0x72 then some 24 else none

/-- A tenant's queue with one more event, or the event lost (R413). (DEDUCED, log 101.) -/
def TenantEv.push (q : TenantEv) (num argA argB tick : Nat) : TenantEv :=
  let seq := (q.seq + 1) % 2 ^ 32
  if q.queue.length < 256 then
    { q with queue := q.queue ++ [⟨num, argA, argB, tick, seq, 0⟩], seq := seq }
  else { q with seq := seq, lost := q.lost + 1, lostSince := q.lostSince + 1, sticky := q.sticky ||| 1 }

/-- The oldest event of a tenant's queue as delivered, with the events lost since the record delivered before it (Table 15.8). (DEDUCED, log 101.) -/
def TenantEv.take (q : TenantEv) : Option (Event × TenantEv) :=
  match q.queue with
  | [] => none
  | e :: r => some ({ e with lost := q.lostSince }, { q with queue := r, lostSince := 0 })

/-- The 24 bytes of an event record (Table 15.8). (DEDUCED, log 101.) -/
def Event.bytes (e : Event) : Bytes :=
  toLE 2 e.num ++ toLE 2 e.argA ++ toLE 4 e.argB ++ toLE 8 e.tick ++ toLE 4 e.seq ++ toLE 4 e.lost

/-- An event queued for one tenant whose event-group bit is set (R412). -/
def Block.queueTo (b : Block) (t num argA argB : Nat) : Block :=
  match groupOf num with
  | none => b
  | some g =>
    if bit (b.rdN (Od.TNT_EVENT_GROUPS t)) g then
      { b with mg := { b.mg with ev := tmod {} b.mg.ev t (·.push num argA argB b.tick) } }
    else b

-- Performance counters (R470)

/-- Whether an overflow event of counter n already waits in a tenant's queue (R472). -/
def Block.overflowWaits (b : Block) (t n : Nat) : Bool := (tat {} b.mg.ev t).queue.any fun e => e.num == 0x7101 && e.argA == n

/-- k occurrences counted by programmable counter n (R470, R472). -/
def Block.cntAdd (b : Block) (n k : Nat) : Block :=
  let v := b.rdN (Od.CNTN_VALUE n) + k
  if v < 2 ^ 48 then b.wr (Od.CNTN_VALUE n) v
  else
    let b := (b.wr (Od.CNTN_VALUE n) ((b.rdN (Od.CNTN_RELOAD n) + (v - 2 ^ 48)) % 2 ^ 48 : Nat)).bump (Od.CNTN_OVERFLOWS n) 1
    let t := b.rdN (Od.CNTN_OWNER n)
    if b.on (Od.CNTN_IRQ n) && decide (t < 8) && !b.overflowWaits t n then (b.queueTo t 0x7101 n 0).bump Od.CNT_FIXED_EVENTS 1 else b

/-- An occurrence of a source of Table 18.5, `mode` 1 EDGE or 2 LEVEL, k times. -/
def Block.count (b : Block) (mode cls inst ev : Nat) (k : Nat := 1) : Block :=
  b.mg.cnt.foldl (fun b e => if e.1 < 64 ∧ e.2.1 = cls * 2048 + inst * 32 + ev ∧ e.2.2 = mode ∧ 0 < k then b.cntAdd e.1 k else b) b

/-- An occurrence of an EDGE source. -/
def Block.tally (b : Block) (cls inst ev : Nat) (k : Nat := 1) : Block := b.count 1 cls inst ev k

/-- The 64-byte requests that n bytes from an address on take (R380), and such requests of the LPDDR5 counted (Table 18.5). (DEDUCED, log 160.) -/
def blocks (a n : Nat) : Nat := if n = 0 then 0 else (a + n - 1) / 64 - a / 64 + 1
def Block.lpRead (b : Block) (k : Nat) : Block := b.tally 11 0 0 k
def Block.lpWrite (b : Block) (k : Nat) : Block := b.tally 11 0 1 k

/-- One more event raised by the module (R470). -/
def Block.countEvent (b : Block) : Block := (b.bump Od.CNT_FIXED_EVENTS 1).tally 10 0 3

/-- An event directed to one tenant (R412): the event-group bit alone decides. -/
def Block.raiseTo (b : Block) (t num argA argB : Nat) : Block := (b.queueTo t num argA argB).countEvent

/-- Any other event (R412): queued for every tenant whose event-group and read-mask bits are set. -/
def Block.raise (b : Block) (num : Nat) (argA : Nat := 0) (argB : Nat := 0) : Block :=
  match groupOf num with
  | none => b
  | some g =>
    ((List.range 8).foldl (fun acc t => if bit (b.rdN (Od.TNT_READ_MASK t)) g then acc.queueTo t num argA argB else acc) b).countEvent

-- Events that cross clocks (R27)

/-- The number a crossing is held under. -/
def Boundary.no : Boundary → Nat
  | .portEvents p => p
  | .ingress p => 32 + p
  | .egress p => 64 + p
  | .compute q => 96 + q
  | .dmaLpddr => 160
  | .server t => 161 + t
  | .edge g => 169 + g
  | .gnssRing => 185
  | .fnEvents f => if f.val < 32 then f else 186 + f
  | .switchEvents => 354
  | .computeEvents => 355

/-- A crossing's state, and the module with it, or one of its toggles, changed. -/
def Block.crossing (b : Block) (x : Nat) : Crossing := tat {} b.cross x
def Block.setCrossing (b : Block) (x : Nat) (f : Crossing → Crossing) : Block := { b with cross := tmod {} b.cross x f }
def Block.setToggle (b : Block) (x k : Nat) (f : Toggle → Toggle) : Block :=
  b.setCrossing x fun c => { c with toggles := tmod {} c.toggles k f }

/-- The crossing into the Vesper domain of the block that raises an event, none where the event does not cross (Table 1.2). (DEDUCED, log 13.) -/
def eventCrossing (num argA : Nat) : Option Nat :=
  match num / 256 with
  | 0x30 | 0x33 => some Boundary.switchEvents.no
  | 0x31 => some (argA % 32)
  | 0x32 => some (if num = 0x3221 then Boundary.switchEvents.no else argA % 32)
  | 0x34 => some (186 + 49 + argA % 4)
  | 0x35 => some (if num = 0x3502 then 186 + 53 + argA % 16 else Boundary.switchEvents.no)
  | 0x38 => if num = 0x3808 then none else some (argA % 32)
  | 0x40 => some (186 + 85)
  | 0x50 => some (if num = 0x5003 ∨ num = 0x5004 ∨ num = 0x5008 then 186 + 86 + argA % 16 else Boundary.computeEvents.no)
  | 0x51 => some (186 + 102)
  | 0x52 => some (186 + 104 + argA % 64)
  | _ => none

/-- The number of a source's toggle in its crossing: its event and the item it names, and the tenant of an event directed to one. -/
def Pulse.source (e : Pulse) : Nat := (e.num * 65536 + e.argA) * 16 + (match e.dest with | some t => t + 1 | none => 0)

/-- A toggle sent: at the destination within one source and three Vesper periods, at the source again within three of each (R31, Table 1.6). (DESIGN CHOICE, log 125.) -/
def Toggle.send (_ : Toggle) (cyc : Nat) (e : Pulse) : Toggle := ⟨cyc + 4, some (cyc + 3, e), none⟩

/-- An event raised on the source side of a crossing: sent where the crossing carries and the source's toggle is free, else pending, merged with one
that is pending (R27, R35). (DEDUCED, log 13; DESIGN CHOICE, log 125.) -/
def Block.crossEvent (b : Block) (x : Nat) (e : Pulse) : Block :=
  b.setToggle x e.source fun t => if (b.crossing x).settled ∧ t.busyUntil ≤ b.cyc ∧ t.flight.isNone then t.send b.cyc e else { t with held := some e }

/-- An event raised by its block: across a crossing where it has to cross one. -/
def Block.report (b : Block) (num : Nat) (argA : Nat := 0) (argB : Nat := 0) : Block :=
  match eventCrossing num argA with
  | some x => b.crossEvent x { num := num, argA := argA, argB := argB }
  | none => b.raise num argA argB

/-- The same for an event directed to one tenant. -/
def Block.reportTo (b : Block) (t num argA argB : Nat) : Block :=
  match eventCrossing num argA with
  | some x => b.crossEvent x { num := num, argA := argA, argB := argB, dest := some t }
  | none => b.raiseTo t num argA argB

/-- Whether an event limited to one a second per item may be raised now (R523), with the stamp of this one. -/
def Block.limit (b : Block) (num item : Nat) : Bool × Block :=
  let k := num * 65536 + item
  match tget b.mg.lim k with
  | some t => if t + secs 1 ≤ b.cyc then (true, { b with mg := { b.mg with lim := tput b.mg.lim k b.cyc } }) else (false, b)
  | none => (true, { b with mg := { b.mg with lim := tput b.mg.lim k b.cyc } })

/-- An event raised at most once per second for an item (R523). -/
def Block.raiseLim (b : Block) (num argA : Nat) (argB : Nat := 0) : Block :=
  let r := b.limit num argA
  if r.1 then r.2.report num argA argB else r.2

/-- The same for an event directed to one tenant. -/
def Block.raiseToLim (b : Block) (t num argA : Nat) (argB : Nat := 0) : Block :=
  let r := b.limit num (argA * 8 + t)
  if r.1 then r.2.reportTo t num argA argB else r.2

-- Clocks and functions

/-- The number a fast clock is held under. -/
def FastClock.no : FastClock → Nat
  | .fabric => 0
  | .evorvo => 1
  | .prixus => 2
  | .lpddr => 3

/-- The start latency of a fast clock in cycles (Table 1.4). -/
def FastClock.latency : FastClock → Nat
  | .fabric => us 12
  | .evorvo => us 12
  | .prixus => us 40
  | .lpddr => us 3

/-- Whether a fast clock runs. -/
def Block.clockRuns (b : Block) (c : FastClock) : Bool := (tat {} b.clk c.no).phase == .running

/-- The state of function f: 0 STOPPED, 1 STARTING, 2 RUN, 3 STOPPING (R419). -/
def Block.fnState (b : Block) (f : Nat) : Nat := b.rdN (Od.FN_STATE f)

/-- Whether function f is RUN. -/
def Block.fnRuns (b : Block) (f : Nat) : Bool := b.fnState f == 2

/-- Function f in a new state, with event 0x1201 (R419). -/
def Block.setFn (b : Block) (f st : Nat) : Block := (b.wr (Od.FN_STATE f) st).raise 0x1201 f st

/-- Two ports' link states and the like: the block applied to a condition. -/
def Block.when (b : Block) (c : Bool) (f : Block → Block) : Block := if c then f b else b

-- Lanes and ports (R295)

/-- The mode port p works in: the one it last started with (R221). -/
def Block.modeNow (b : Block) (p : Nat) : Nat := (tat {} b.fab.port p).modeInForce

/-- The port that uses lane n under the mode in force (R295, R296). -/
def Block.laneOwner (b : Block) (n : Nat) : Nat := if b.modeNow (n / 4 * 4) = 4 then n / 4 * 4 else n

/-- The lanes of port p in a mode. -/
def lanesOf (mode p : Nat) : List Nat := if mode = 4 then [p, p + 1, p + 2, p + 3] else [p]

-- The partner link (R442, R444)

/-- Whether port p stands for the partner link. -/
def Block.partner (b : Block) (p : Nat) : Bool := p == 31 && b.on Od.PAIR_ENABLED
/-- Whether port p's link timing runs: the port is RUN, a standby keeps it lit, or it is the partner link. -/
def Block.lit (b : Block) (p : Nat) : Bool := b.fnRuns p || (tat {} b.fab.port p).lit || b.partner p
/-- Link timing mode and marker rate, port mode and FEC of port p: the partner link's are fixed. -/
def Block.ltMode (b : Block) (p : Nat) : Nat := if b.partner p then 1 else b.rdN (Od.LT_MODE p)
def Block.ltRate (b : Block) (p : Nat) : Nat := if b.partner p then 8000 else b.rdN (Od.LT_MARKER_RATE p)
def Block.pMode (b : Block) (p : Nat) : Nat := if b.partner p then 3 else b.rdN (Od.P_MODE p)
def Block.pFec (b : Block) (p : Nat) : Nat := if b.partner p then 0 else b.rdN (Od.P_FEC p)

/-- Whether this module is a standby (R444). -/
def Block.standby (b : Block) : Bool := let s := b.rdN Od.PAIR_STATE; decide (3 ≤ s) && decide (s ≤ 5)

/-- The identity the module shows (R436, R446). -/
def Block.identity (b : Block) : Nat := if b.on Od.PAIR_ENABLED then b.rdN Od.PAIR_IDENTITY else b.rdN Od.ID_MODULE_IDENTITY

-- The module's own frames

/-- Whether a lane test is in force on port p (R305). -/
def Block.inTest (b : Block) (p : Nat) : Bool := (tat {} b.fab.port p).testInForce != 0

-- Armed targets (R47)

/-- The module with its Meridian state changed. -/
def Block.setMt (b : Block) (f : Meridian → Meridian) : Block := { b with tm := { b.tm with mt := f b.tm.mt } }

/-- The number an owner's target is held under. -/
def Owner.no : Owner → Nat
  | .outCommit => 0
  | .tic c => 16 + c
  | .gcl p => 32 + p
  | .lane l => 64 + l
  | .injector p => 96 + p

/-- An owner with no target armed. -/
def Block.disarm (b : Block) (o : Owner) : Block := b.setMt fun m => { m with targets := tdel m.targets o.no }

end Sys2Proof.Machine
end

