-- ==== Sys2Proof/Machine/Parts.lean ====
section
/-! DEFINITION. Which part of the module holds an entry (R490, R528), which function's blocks hold it (R296, R420), and the reset generation of a
counter (R36). -/

namespace Sys2Proof.Machine

/-- The part that holds function f (R490): 0 Vesper domain, 1 fabric, 2 compute, 3 GNSS. (DEDUCED, log 116.) -/
def fnPart (f : Nat) : Nat :=
  if f < 32 then 1 else if f < 48 then 0 else if f < 69 then 1 else if f < 85 then 0 else if f = 85 then 3 else 2

/-- The part that holds the entry under a key (R490): 0 Vesper domain, 1 fabric, 2 compute, 3 GNSS, 4 management, 5 kept through every
reset (NAND, and the RST_ record of R495). (DEDUCED, log 116.) -/
def partOf (k : Nat) : Nat :=
  let index := k / 256 % 65536
  let sub := k % 256
  let tenant : Bool := match entryAt ((findRecord records index).elim 0 (·.1)) sub with | some e => e.scope == .perTenant | none => false
  if tenant then 4
  else if index = 0x1001 then 2
  else if index = 0x1101 ∨ index = 0x1200 then 4
  else if index = 0x1202 then (if sub ≤ 4 then 5 else 4)
  else if index = 0x1203 then (if sub = 5 then 4 else 5)
  else if 0x1210 ≤ index ∧ index < 0x12B8 then fnPart (index - 0x1210)
  else if index = 0x1302 then 5
  else if 0x3000 ≤ index ∧ index < 0x4000 then 1
  else if 0x4000 ≤ index ∧ index < 0x5000 then 3
  else if 0x5000 ≤ index ∧ index < 0x6000 then 2
  else if 0x7100 ≤ index then 4
  else 0

/-- The function whose blocks hold the entry under a key: the one that must be STOPPED where the entry is RWS, and that a function reset
returns to its default. (DEDUCED, log 106.) -/
def Block.blockFn (b : Block) (k : Nat) : Option Nat :=
  let i := k / 256 % 65536
  if i < 0x1210 then none
  else if i < 0x12B8 then some (i - 0x1210)
  else if i < 0x2010 then none
  else if i < 0x2012 then some (38 + (i - 0x2010))
  else if 0x2200 ≤ i ∧ i < 0x2220 then some (i - 0x2200)
  else if 0x2400 ≤ i ∧ i < 0x2404 then some (32 + (i - 0x2400))
  else if 0x2418 ≤ i ∧ i < 0x241A then some (36 + (i - 0x2418))
  else if 0x2810 ≤ i ∧ i < 0x2820 then some (69 + (i - 0x2810))
  else if 0x2820 ≤ i ∧ i < 0x2840 then some (i - 0x2820)
  else if 0x2900 ≤ i ∧ i < 0x2908 then some (40 + (i - 0x2900))
  else if 0x3100 ≤ i ∧ i < 0x3120 then some (i - 0x3100)
  else if 0x3200 ≤ i ∧ i < 0x3220 then some (i - 0x3200)
  else if 0x3240 ≤ i ∧ i < 0x3260 then some (i - 0x3240)
  else if i = 0x3300 ∨ i = 0x3310 then some 48
  else if 0x3400 ≤ i ∧ i < 0x3404 then some (49 + (i - 0x3400))
  else if 0x3530 ≤ i ∧ i < 0x3540 then some (53 + (i - 0x3530))
  else if 0x3800 ≤ i ∧ i < 0x3820 then some (b.laneOwner (i - 0x3800))
  else if 0x4000 ≤ i ∧ i < 0x4004 then some 85
  else if i = 0x5001 then (let g := b.rdN (Od.STR_GRAPH (k / 2 ^ 24)); if g < 16 then some (86 + g) else none)
  else if 0x5010 ≤ i ∧ i < 0x5020 then some (86 + (i - 0x5010))
  else if i = 0x5040 then some 103
  else if 0x5100 ≤ i ∧ i < 0x5105 then some 102
  else if 0x5200 ≤ i ∧ i < 0x5240 then some (104 + (i - 0x5200))
  else none

/-- The number under which the resets of a part, or of one function, are counted. (DEDUCED, log 98.) -/
def genPart (p : Nat) : Nat := p
def genFn (f : Nat) : Nat := 16 + f

/-- Whether a reset of function f clears the entry under a key (R430, R528): what its blocks hold outside the Vesper domain; of a function that the
Vesper domain holds, what only the module writes; and its FNf_ record. (DEDUCED, log 106.) -/
def Block.clearedBy (b : Block) (f k : Nat) : Bool :=
  let i := k / 256 % 65536
  b.blockFn k == some f &&
    (partOf k != 0 || (decide (0x1210 ≤ i) && decide (i < 0x12B8)) || (fnPart f == 0 && match entryAt ((findRecord records i).elim 0 (·.1)) (k % 256) with
      | some e => e.acc != .rw && e.acc != .rws
      | none => false))

/-- The number under which the function resets that clear the entry under a key are counted: by stream and by lane where its function changes with
configuration; none where no function reset clears it (R36, R528). (DEDUCED, log 98.) -/
def Block.genBlock (b : Block) (k : Nat) : Option Nat :=
  let i := k / 256 % 65536
  if i = 0x5001 then some (256 + k / 2 ^ 24)
  else if 0x3800 ≤ i ∧ i < 0x3820 then some (512 + (i - 0x3800))
  else match b.blockFn k with
    | some f => if b.clearedBy f k then some (genFn f) else none
    | none => none

/-- The numbers under which a reset of function f counts: its own, its lanes', its streams'. (DEDUCED, log 98.) -/
def Block.genBlocks (b : Block) (f : Nat) : List Nat :=
  genFn f :: ((List.range 32).filter fun l => b.laneOwner l == f).map (512 + ·)
    ++ ((List.range 256).filter fun i => decide (86 ≤ f) && b.rdN (Od.STR_GRAPH i) == f - 86).map (256 + ·)

/-- The reset generation of the counter under a key (R36): how often a reset has cleared it, modulo 256. (DEDUCED, log 98.) -/
def Block.genOf (b : Block) (k : Nat) : Nat :=
  (tat 0 b.gen (genPart (partOf k)) + (match b.genBlock k with | some x => tat 0 b.gen x | none => 0)) % 256

/-- The sub-indices of each record that are counters, whose reads carry a reset generation (R36). (DEDUCED, log 98.) -/
def counterSubs : List (Nat × List Nat) := [
  (0x1101, [0x07, 0x08]),
  (0x1110, [0x07, 0x08, 0x09]),
  (0x1301, [0x02, 0x03]),
  (0x1302, [0x05, 0x06, 0x07, 0x08]),
  (0x1303, [0x06, 0x07, 0x08, 0x09]),
  (0x2200, [0x15, 0x16]),
  (0x2600, [0x0E]),
  (0x2620, [0x1F]),
  (0x2900, [0x19, 0x1A, 0x1B, 0x1C, 0x1D, 0x1E, 0x1F]),
  (0x3000, [0x02, 0x05, 0x0A, 0x0B]),
  (0x3100, [0x07, 0x08, 0x09, 0x0A, 0x0B, 0x0C, 0x0D, 0x0E, 0x0F, 0x10, 0x11, 0x12, 0x13, 0x14, 0x15, 0x16, 0x17, 0x18, 0x19, 0x1A, 0x1B, 0x1C, 0x1D, 0x1E, 0x1F, 0x23]),
  (0x3200, [0x0A, 0x0B, 0x0C]),
  (0x3220, [0x07, 0x08, 0x09]),
  (0x3260, [0x06]),
  (0x3300, [0x0A, 0x0B, 0x0C, 0x0D]),
  (0x3310, [0x04]),
  (0x3400, [0x09, 0x0A, 0x0B]),
  (0x3530, [0x06]),
  (0x3800, [0x10, 0x11, 0x17, 0x18, 0x19, 0x1A]),
  (0x4001, [0x0F, 0x10, 0x13]),
  (0x5000, [0x06, 0x07, 0x08]),
  (0x5001, [0x0B, 0x0C, 0x0D, 0x0E]),
  (0x5010, [0x03, 0x04]),
  (0x5040, [0x0F]),
  (0x5101, [0x03, 0x04, 0x05, 0x07]),
  (0x5200, [0x18, 0x19, 0x1A, 0x1B, 0x1C, 0x1D]),
  (0x6000, [0x08]),
  (0x6001, [0x06, 0x07]),
  (0x6002, [0x01, 0x02]),
  (0x7000, [0x06]),
  (0x7001, [0x07, 0x0A]),
  (0x7002, [0x01, 0x02, 0x03, 0x04, 0x05, 0x06, 0x07, 0x08]),
  (0x7003, [0x02, 0x05, 0x06]),
  (0x7100, [0x03, 0x04]),
  (0x7101, [0x01, 0x02, 0x03, 0x04, 0x05, 0x06, 0x07, 0x08, 0x09, 0x0A, 0x0B, 0x0C, 0x0D, 0x0E, 0x0F, 0x10]),
  (0x7110, [0x03, 0x07]),
  (0x7210, [0x0F])]

/-- Whether the entry under a key is a counter. (DEDUCED, log 98.) -/
def isCounter (k : Nat) : Bool :=
  match findRecord records (k / 256 % 65536) with
  | some r => counterSubs.any fun e => e.1 == r.1 && e.2.contains (k % 256)
  | none => false

end Sys2Proof.Machine
end

