-- ==== Sys2Proof/Machine/Clocks.lean ====
section
/-! DEFINITION. Fast clocks (R19 to R21, R496), crossings with their reset fence (R24 to R35). -/

namespace Sys2Proof.Machine

-- Fast clocks

/-- A fast clock's state, and the module with it changed. -/
def Block.clock (b : Block) (c : FastClock) : ClockSt := tat {} b.clk c.no
def Block.setClock (b : Block) (c : FastClock) (f : ClockSt → ClockSt) : Block := { b with clk := tmod {} b.clk c.no f }

/-- The starts counted for a clock, and the delay after which it sleeps, in cycles (Table 19.8). -/
def startsKey : FastClock → Nat
  | .fabric => Od.SLP_FABRIC_STARTS
  | .evorvo => Od.SLP_EVORVO_STARTS
  | .prixus => Od.SLP_PRIXUS_STARTS
  | .lpddr => Od.SLP_LPDDR_EXITS
def Block.sleepDelay (b : Block) (c : FastClock) : Nat :=
  us (b.rdN (match c with
    | .fabric => Od.SLP_FABRIC_DELAY
    | .evorvo => Od.SLP_EVORVO_DELAY
    | .prixus => Od.SLP_PRIXUS_DELAY
    | .lpddr => Od.SLP_LPDDR_DELAY))

/-- A consumer needs a clock (R21; LPDDR5 that a reset has cleared is trained first, R20, Table 19.9): a stopped clock starts, one that is being stopped starts after its stop. Its idle time starts over. (DEDUCED, log 15.) -/
def Block.need (b : Block) (c : FastClock) : Block :=
  let b := b.setClock c fun x => { x with idleSince := b.cyc }
  match (b.clock c).phase with
  | .stopped => (b.bump (startsKey c) 1).setClock c fun x => { x with phase := .starting (b.cyc + if c = .lpddr ∧ !x.trained then ms 18 else c.latency) }
  | .stopping t _ => b.setClock c fun x => { x with phase := .stopping t true }
  | .starting _ => b
  | .running => b

/-- A clock that is being stopped has stopped (R21: within 1 µs); a start that waited begins now. (DEDUCED, log 15.) -/
def Block.clockStopped (b : Block) (c : FastClock) : Block :=
  match (b.clock c).phase with
  | .stopping t again =>
    if t ≤ b.cyc then
      let b := b.setClock c fun x => { x with phase := .stopped }
      if again then b.need c else b
    else b
  | _ => b

/-- A start completes (R19): the clock runs and SLP_CLOCKS shows it. -/
def Block.clockReady (b : Block) (c : FastClock) : Bool :=
  match (b.clock c).phase with
  | .starting t => decide (t ≤ b.cyc)
  | _ => false
def Block.clockUp (b : Block) (c : FastClock) : Block :=
  (b.setClock c fun x => { x with phase := .running, idleSince := b.cyc, trained := true }).orBits Od.SLP_CLOCKS (2 ^ c.no)

/-- A clock stops (R496). (DEDUCED, log 15.) -/
def Block.clockDown (b : Block) (c : FastClock) : Block :=
  (b.setClock c fun x => { x with phase := .stopping (b.cyc + us 1) false }).clearBits Od.SLP_CLOCKS (2 ^ c.no)

-- Crossings

/-- The parts that the two sides of a crossing lie in (R490), and the function whose block one of them is. -/
def Boundary.sides : Boundary → List Nat × Option Nat
  | .portEvents p => ([1, 0], some p)
  | .switchEvents => ([1, 0], none)
  | .computeEvents => ([2, 0], none)
  | .fnEvents f => ([fnPart f, 0], some f)
  | .ingress p | .egress p => ([1], some p)
  | .compute _ => ([1, 2], none)
  | .dmaLpddr => ([2], none)
  | .server _ => ([0, 4], none)
  | .edge g => ([2], some (86 + g))
  | .gnssRing => ([3, 2], some 85)

/-- Whether a part is held in reset (R490). -/
def Block.partHeld (b : Block) (p : Nat) : Bool := bit b.pw.rst.parts p

/-- Whether a side of a crossing is held in reset. -/
def Block.sideHeld (b : Block) (x : Boundary) : Bool :=
  x.sides.1.any b.partHeld || match x.sides.2 with | some f => b.pw.rst.fns.contains f | none => false

/-- Whether the two sides have agreed their epochs since either was reset (R34): the crossing carries nothing until they have. -/
def Block.agreed (b : Block) (x : Nat) : Bool := (b.crossing x).settled

/-- A side of a crossing is reset (R26, R34, R35): its epoch is inverted, what is in flight or pending across it is lost. -/
def Block.resetCrossing (b : Block) (x : Nat) (src dst : Bool) : Block :=
  b.setCrossing x fun c => { c with srcEpoch := c.srcEpoch != src, dstEpoch := c.dstEpoch != dst, settled := false, toggles := [] }

/-- The toggle of one source at a cycle (R27): what is in flight arrives, then what waits is sent if the crossing carries and the toggle is free. -/
def Block.deliverToggle (b : Block) (x k : Nat) : Block :=
  let t : Toggle := tat {} (b.crossing x).toggles k
  let b := match t.flight with
    | some (at_, e) =>
      if at_ ≤ b.cyc then
        let b := b.setToggle x k fun t => { t with flight := none }
        match e.dest with
        | some u => b.raiseTo u e.num e.argA e.argB
        | none => b.raise e.num e.argA e.argB
      else b
    | none => b
  match t.held with
  | some e => if b.agreed x ∧ t.busyUntil ≤ b.cyc then b.setToggle x k fun t => t.send b.cyc e else b
  | none => b

/-- Every toggle of a crossing, and of every crossing, at a cycle. -/
def Block.deliverCrossing (b : Block) (x : Nat) : Block :=
  (b.crossing x).toggles.foldl (fun (b : Block) (e : Nat × Toggle) => b.deliverToggle x e.1) b
def Block.deliverAll (b : Block) : Block := b.cross.foldl (fun b e => b.deliverCrossing e.1) b

/-- Both sides out of reset agree the new epochs (R34); what was held pending is sent, and the producer has every credit again (R26). (DEDUCED, log 13.) -/
def Block.fenceAgree (b : Block) (x : Boundary) : Block :=
  if b.sideHeld x then b
  else (b.setCrossing x.no fun c => { c with used := if c.settled then c.used else 0, usedWrites := if c.settled then c.usedWrites else 0, settled := true }).deliverCrossing x.no

-- Credits (R24, R25)

/-- The credits of a boundary (Table 1.5); those of the DMA engine's reads. -/
def Block.credits (b : Block) : Boundary → Nat
  | .ingress p => match b.modeNow p with | 1 => 4 | 4 => 64 | _ => 16
  | .egress p => match b.modeNow p with | 1 => 8 | 4 => 96 | _ => 24
  | .compute _ => 256
  | .dmaLpddr => 1024
  | .server _ => 16
  | .edge _ => 8
  | .gnssRing => 64
  | .portEvents _ | .switchEvents | .computeEvents | .fnEvents _ => 0

/-- The credits of the DMA engine's writes (Table 1.5). -/
def writeCredits : Nat := 512

/-- The credits that the producer of a boundary holds. -/
def Block.creditsLeft (b : Block) (x : Boundary) : Nat := b.credits x - (b.crossing x.no).used

/-- Credits of a boundary spent on n items, as far as they go, and n items' credits returned. -/
def Block.spend (b : Block) (x : Boundary) (n : Nat) : Block :=
  b.setCrossing x.no fun c => { c with used := min (b.credits x) (c.used + n) }
def Block.refund (b : Block) (x : Boundary) (n : Nat) : Block := b.setCrossing x.no fun c => { c with used := c.used - n }

/-- Whether the producer of a boundary may send: the fence is settled and a credit is left. -/
def Block.mayCross (b : Block) (x : Boundary) : Bool := b.agreed x.no && decide (0 < b.creditsLeft x)

end Sys2Proof.Machine
end

