-- ==== Sys2Proof/Machine/Gates.lean ====
section
/-! DEFINITION. Time-aware gates (R281 to R285): the running of a gate control list, its change, and what a gate still allows. -/

namespace Sys2Proof.Machine

/-- The fabric's state changed. -/
def Block.setFab (b : Block) (f : Fabric → Fabric) : Block := { b with fab := f b.fab }
/-- Port p of the fabric, and the module with it changed. -/
def Block.pf (b : Block) (p : Nat) : PortFab := tat {} b.fab.port p
def Block.setPf (b : Block) (p : Nat) (f : PortFab → PortFab) : Block := b.setFab fun x => { x with port := tmod {} x.port p f }

/-- Entry k of the list begins at an instant of the running cycle (R281): its states until its interval or the cycle ends; past the last
entry the last states hold. -/
def Gate.enter (g : Gate) (k at_ : Nat) : Gate :=
  match g.list[k]? with
  | some e => { g with idx := k, states := e.2, until_ := some (earlier (at_ + e.1) g.cend) }
  | none => { g with idx := k, until_ := some g.cend }

/-- A cycle begins (R284): whole while it ends at or before an armed change; a leftover shorter than CYCLE_EXT extends the cycle before
it, any other is cut. -/
def Gate.begin_ (g : Gate) (at_ : Nat) : Gate :=
  match g.pend with
  | some c =>
    if upTo (at_ + g.cycle) c.at_ then ({ g with start := at_, cend := at_ + g.cycle }).enter 0 at_
    else if tickDiff (tickOf c.at_) (tickOf at_) < c.ext then { g with cend := c.at_, until_ := some c.at_ }
    else ({ g with start := at_, cend := c.at_ }).enter 0 at_
  | none => ({ g with start := at_, cend := at_ + g.cycle }).enter 0 at_

/-- An armed change in force (R284): the new list starts at entry 0; with ENABLE false every gate is open. -/
def Gate.apply (g : Gate) (c : GatePend) (at_ : Nat) : Gate :=
  let g := { g with on := c.on, list := c.list, cycle := c.cycle, base := c.base, pend := none }
  if c.on then g.begin_ at_ else { g with states := 0xFFFF, until_ := none }

/-- What happens at the end of the present states. -/
def Gate.next (g : Gate) : Gate :=
  match g.until_ with
  | none => g
  | some u =>
    match g.pend with
    | some c => if upTo c.at_ u then g.apply c c.at_ else if upTo g.cend u then g.begin_ u else g.enter (g.idx + 1) u
    | none => if upTo g.cend u then g.begin_ u else g.enter (g.idx + 1) u

/-- The gates as they stand at an instant, at most n changes ahead. -/
def Gate.atTime : Nat → Gate → Nat → Gate
  | 0, g, _ => g
  | n + 1, g, x => match g.until_ with
    | some u => if upTo u x then g.next.atTime n x else g
    | none => g

/-- The instant at which the gate of queue q closes, at most n changes ahead: none where it does not. -/
def Gate.closes : Nat → Gate → Nat → Option Nat
  | 0, _, _ => none
  | n + 1, g, q => match g.until_ with
    | none => none
    | some u => if bit g.next.states q then g.next.closes n q else some u

/-- Whether the gate of queue q is open at an instant with at least `need` ticks left (R283). -/
def Gate.open_ (g : Gate) (q x need : Nat) : Bool :=
  let h := g.atTime 1024 x
  bit h.states q && match h.closes 1024 q with
    | none => true
    | some u => upTo (x + need) u

/-- A port's gates as the dictionary shows them. -/
def Block.showGate (b : Block) (p : Nat) : Block := b.wr (Od.GCL_STATES p) (b.pf p).gate.states

/-- Port p's gates changed. -/
def Block.setGate (b : Block) (p : Nat) (f : Gate → Gate) : Block := (b.setPf p fun x => { x with gate := f x.gate }).showGate p

/-- The first cycle boundary of a list at or after an instant: the base time where that lies ahead (R49). -/
def nextBoundary (base cycle x : Nat) : Nat :=
  let d := wordDiff base x
  if cycle = 0 then x else if 0 ≤ d then x + d.toNat else x + (cycle - (-d).toNat % cycle) % cycle

/-- The admin list as (interval in ticks, states); none where an entry is out of range (R284, Table 10.3). -/
def gclEntries : Nat → Bytes → Option (List (Nat × Nat))
  | _, [] => some []
  | 0, _ => none
  | n + 1, l =>
    if l.length < 8 then none
    else
      let v := ofLE (l.take 8)
      let ns := bits v 32 32
      if 32 ≤ ns ∧ ns ≤ 1000000000 ∧ bits v 24 8 = 0 ∧ bits v 16 8 = 0 then
        (gclEntries n (l.drop 8)).map fun r => (ns * 65536, bits v 0 16) :: r
      else none

/-- The dictionary entries of a change that is now in force (R284): status, bit [0] of GCLn_STICKY, event 0x3201. -/
def Block.gclApplied (b : Block) (p : Nat) (c : GatePend) : Block :=
  let b := (b.wr (Od.GCL_OPER_ENABLE p) (b2n c.on)).wr (Od.GCL_OPER_CYCLE_TIME p) (c.cycle / 65536 : Nat)
  let bytes := c.list.flatMap fun e => toLE 8 (e.1 / 65536 * 2 ^ 32 + e.2)
  let b := ((b.wr (Od.GCL_OPER_BASE_TIME p) c.base).wrBlob (Od.GCL_OPER_LIST p) bytes).disarm (.gcl (Fin.ofNat 32 p))
  ((b.wr (Od.GCL_CHANGE_STATUS p) 2).orBits (Od.GCL_STICKY p) 1).report 0x3201 p

/-- The list resumes at entry 0 on the first cycle boundary of the new time; the present states hold until then. -/
def Gate.hold (g : Gate) (now : Nat) : Gate :=
  let r := nextBoundary g.base g.cycle now
  let r := match g.pend with | some c => earlier r c.at_ | none => r
  { g with cend := r, until_ := some r }

/-- A port's gates at a step of Meridian time (R285); an armed change that the step passes is applied in place of the resumption. (DEDUCED, log 64.) -/
def Block.realignGate (b : Block) (p : Nat) : Block :=
  let g := (b.pf p).gate
  let passed := match g.pend with | some c => if upTo c.at_ b.mer then some c else none | none => none
  match passed with
  | some c =>
    let b := (b.gclApplied p c).setGate p fun g => if c.on then (g.apply c b.mer).hold (b.mer + 1) else g.apply c b.mer
    (b.orBits (Od.GCL_STICKY p) 2).report 0x3202 p
  | none => if g.on then ((b.setGate p (·.hold b.mer)).orBits (Od.GCL_STICKY p) 2).report 0x3202 p else b

/-- Every port's gates at a step. -/
def Block.realignGates (b : Block) : Block := b.fab.port.foldl (fun b e => b.realignGate e.1) b

end Sys2Proof.Machine
end

