-- ==== Sys2Proof/Machine/Frames.lean ====
section
/-! DEFINITION. Frames as bytes: FCS (R247, R249), CRC-32C (R260), the header fields of stage 2 (R230), tags (R232), the flow-rule match
(R268, R269) and the hash of a link aggregation group (R260). -/

namespace Sys2Proof.Machine

-- CRCs

/-- One bit of a reflected CRC. -/
def crcBit (poly c : Nat) : Nat := if c % 2 = 1 then (c / 2) ^^^ poly else c / 2

/-- A reflected CRC register after one more byte, least-significant bit first. -/
def crcByte (poly c : Nat) (x : Byte) : Nat :=
  let c := c ^^^ x.toNat
  crcBit poly (crcBit poly (crcBit poly (crcBit poly (crcBit poly (crcBit poly (crcBit poly (crcBit poly c)))))))

/-- A reflected 32-bit CRC from a start value, XORed at the end with all ones. -/
def crc32 (poly start : Nat) (l : Bytes) : Nat := (l.foldl (crcByte poly) start) ^^^ 0xFFFFFFFF

/-- The FCS of a frame's bytes (IEEE 802.3), as its four bytes on the wire. -/
def fcsOf (l : Bytes) : Bytes := toLE 4 (crc32 0xEDB88320 0xFFFFFFFF l)

/-- The stomped FCS (R247): the complement of the correct one. -/
def stompOf (l : Bytes) : Bytes := (fcsOf l).map fun x => ~~~x

/-- A frame without its FCS, and its FCS. -/
def body (f : Bytes) : Bytes := f.take (f.length - 4)
def fcsField (f : Bytes) : Bytes := f.drop (f.length - 4)

/-- Bytes with a correct FCS, and with a stomped one. -/
def withFcs (l : Bytes) : Bytes := l ++ fcsOf l
def withStomp (l : Bytes) : Bytes := l ++ stompOf l

-- Headers (stage 2)

/-- The header fields that the pipeline reads (R230 stage 2). `tag` is the TCI of the one tag read; `frag` says the IPv4 packet is a
fragment. -/
structure Header where
  da : Nat
  sa : Nat
  tag : Option Nat
  etype : Nat
  ip : Option (Nat × Nat × Nat × Nat × Bool)
  l4 : Option (Nat × Nat)
  off : Nat
  deriving DecidableEq, Repr

/-- The number that bytes spell, most significant first. -/
def ofBE (l : Bytes) : Nat := ofLE l.reverse

/-- n bytes from an offset. -/
def slice (f : Bytes) (o n : Nat) : Bytes := (f.drop o).take n

/-- The header of a frame of at least 64 bytes (R230): addresses, one tag of TPID 0x8100, IPv4, TCP or UDP ports. -/
def header (f : Bytes) : Header :=
  let t := ofBE (slice f 12 2)
  let tag := if t = 0x8100 then some (ofBE (slice f 14 2)) else none
  let off := if tag.isSome then 18 else 14
  let etype := ofBE (slice f (off - 2) 2)
  let v := ofBE (slice f off 1)
  let isIp := etype == 0x0800 && v / 16 == 4 && decide (5 ≤ v % 16)
  let fragWord := ofBE (slice f (off + 6) 2)
  let frag := decide (fragWord % 2 ^ 14 ≠ 0)
  let proto := ofBE (slice f (off + 9) 1)
  let ip := if isIp then
      some (ofBE (slice f (off + 12) 4), ofBE (slice f (off + 16) 4), proto, ofBE (slice f (off + 1) 1) / 4, frag)
    else none
  let l4o := off + 4 * (v % 16)
  let l4 := if isIp && !frag && (proto == 6 || proto == 17) then some (ofBE (slice f l4o 2), ofBE (slice f (l4o + 2) 2)) else none
  ⟨ofBE (slice f 0 6), ofBE (slice f 6 6), tag, etype, ip, l4, off⟩

/-- Whether a frame carries a tag that is not a priority tag (R232). -/
def Header.tagged (h : Header) : Bool := match h.tag with | some t => t % 4096 != 0 | none => false

/-- The priority of default classification (R270). -/
def Header.prio (h : Header) : Nat := match h.tag with | some t => t / 8192 | none => 0

/-- The DEI of a frame's tag. -/
def Header.dei (h : Header) : Bool := match h.tag with | some t => bit t 12 | none => false

-- Egress form (R232, R280)

/-- The body of a frame as it leaves: its tag removed, or kept with its DEI set to `dei`. (DEDUCED, log 55.) -/
def egressBody (f : Bytes) (strip : Bool) (dei : Option Bool) : Bytes :=
  let l := body f
  if ofBE (slice l 12 2) = 0x8100 then
    if strip then l.take 12 ++ l.drop 16
    else match dei with
      | none => l
      | some d =>
        let tci := ofBE (slice l 14 2)
        let tci := tci - tci / 4096 % 2 * 4096 + b2n d * 4096
        l.take 14 ++ toBE 2 tci ++ l.drop 16
  else l

-- The hash of a link aggregation group (R260)

/-- The hash key: the fields of LAGg_FIELDS that the frame has, in ascending bit order. -/
def hashKey (fields vid : Nat) (h : Header) : Bytes :=
  let pick (i : Nat) (l : Bytes) : Bytes := if bit fields i then l else []
  pick 0 (toBE 6 h.da) ++ pick 1 (toBE 6 h.sa) ++ pick 2 (toBE 2 (vid % 4096)) ++ pick 3 (toBE 2 h.etype)
    ++ (match h.ip with
        | some (s, d, p, _, _) => pick 4 (toBE 4 s) ++ pick 5 (toBE 4 d) ++ pick 6 (toBE 1 p)
        | none => [])
    ++ (match h.l4 with | some (s, d) => pick 7 (toBE 2 s) ++ pick 8 (toBE 2 d) | none => [])

/-- The bucket of a frame; one without hashed fields uses bucket 0. -/
def hashBucket (fields seed vid : Nat) (h : Header) : Nat :=
  let k := hashKey fields vid h
  if k.isEmpty then 0 else crc32 0x82F63B78 seed k % 256

-- Flow rules (R268, R269)

/-- Whether the masked bits of two numbers agree. -/
def maskEq (mask a c : Nat) : Bool := (a ^^^ c) &&& mask == 0

/-- Whether two addresses agree in their first n bits of 32. -/
def prefixEq (n a c : Nat) : Bool := n == 0 || decide (32 < n) || a / 2 ^ (32 - n) == c / 2 ^ (32 - n)

/-- Whether a match record (Table 10.1) matches a frame from port p with VID vid (R269). -/
def ruleMatches (m : Bytes) (p vid : Nat) (h : Header) : Bool :=
  let le (o n : Nat) := ofLE (slice m o n)
  let be (o n : Nat) := ofBE (slice m o n)
  let l2 := bit (le 0 4) p && maskEq (be 10 6) h.da (be 4 6) && maskEq (be 22 6) h.sa (be 16 6) && maskEq (le 30 2 % 4096) vid (le 28 2)
    && maskEq (le 34 2) h.etype (le 32 2)
  let sl := le 44 1
  let dl := le 45 1
  let pm := le 47 1
  let dm := le 49 1 % 64
  let l3 := if sl = 0 ∧ dl = 0 ∧ pm = 0 ∧ dm = 0 then true
    else match h.ip with
      | none => false
      | some (s, d, pr, ds, _) => prefixEq sl s (be 36 4) && prefixEq dl d (be 40 4) && maskEq pm pr (le 46 1) && maskEq dm ds (le 48 1)
  let pcp := le 50 1
  let okPcp := !bit pcp 7 || match h.tag with | some t => t / 8192 == pcp % 8 | none => false
  let slo := le 52 2
  let shi := le 54 2
  let dlo := le 56 2
  let dhi := le 58 2
  let l4 := if slo = 0 ∧ shi = 65535 ∧ dlo = 0 ∧ dhi = 65535 then true
    else match h.l4 with
      | none => false
      | some (s, d) => decide (slo ≤ s) && decide (s ≤ shi) && decide (dlo ≤ d) && decide (d ≤ dhi)
  l2 && l3 && okPcp && l4

end Sys2Proof.Machine
end

