-- ==== Sys2Proof/Machine/Banks.lean ====
section
/-! DEFINITION. The 16 banks of packet memory (R251, R254 to R256): the cells in use, the writes of a window, the cells retired. -/

namespace Sys2Proof.Machine

/-- The counts of the 16 banks with n more at bank i. -/
def addAt (l : List Nat) (i n : Nat) : List Nat := (List.range 16).map fun j => l.getD j 0 + if j = i then n else 0

/-- The counts of the 16 banks with one less at bank i. -/
def takeAt (l : List Nat) (i : Nat) : List Nat := (List.range 16).map fun j => l.getD j 0 - if j = i then 1 else 0

/-- The bank that takes a cell: the one its hash names, or the next one that has a cell free (R251). (DESIGN CHOICE, log 67.) -/
def Banks.pick (x : Banks) (i : Nat) : Nat :=
  (((List.range 16).map fun j => (i + j) % 16).find? fun j => decide (x.used.getD j 0 < 8192)).getD (i % 16)

/-- A cell written to bank i (R256): a window of 1,024 writes ends with its last one. -/
def Banks.write (x : Banks) (i : Nat) : Banks :=
  let w := addAt x.writes i 1
  let x := { x with used := addAt x.used i 1, writes := w, n := x.n + 1 }
  if x.n = 1024 then { x with writes := List.replicate 16 0, n := 0, ended := x.ended ++ [w.foldl max 0] } else x

/-- Cells returned to the banks they lie in, and the cell in bank i retired (R254). -/
def Banks.free (x : Banks) (l : List Nat) : Banks := { x with used := l.foldl takeAt x.used }
def Banks.retire (x : Banks) (i : Nat) : Banks := { x with retired := x.retired ++ [i] }

/-- The cells retired first returned by the memory scrub (R466). -/
def Banks.restore (x : Banks) (n : Nat) : Banks := { x.free (x.retired.take n) with retired := x.retired.drop n }

end Sys2Proof.Machine
end

