-- ==== Sys2Proof/Machine/Timebase.lean ====
section
/-! DEFINITION. Meridian time as every command leaves it (chapter 2): the uncertainty (R524), TIME_VALID (R59), a step of time (R41, R51),
armed targets (R47 to R50), the UTC offset and leap seconds (R53, R54), and the states of PE0 (R140). -/

namespace Sys2Proof.Machine

/-- The saturated value that stands for an unknown uncertainty (R524). -/
def unknownUnc : Nat := 0xFFFFFFFF

-- Updates of one unit's state

/-- The module with its dictionary server's state changed. -/
def Block.setSrv (b : Block) (f : Server → Server) : Block := { b with mg := { b.mg with srv := f b.mg.srv } }
/-- The module with its timing state changed. -/
def Block.setTm (b : Block) (f : Timing → Timing) : Block := { b with tm := f b.tm }
/-- The module with its selector state changed. -/
def Block.setSel (b : Block) (f : Selector → Selector) : Block := { b with tm := { b.tm with sel := f b.tm.sel } }
/-- The module with its holdover state changed. -/
def Block.setHo (b : Block) (f : Holdover → Holdover) : Block := { b with tm := { b.tm with ho := f b.tm.ho } }
/-- The module with its oscillator state changed. -/
def Block.setOsc (b : Block) (f : Osc → Osc) : Block := { b with tm := { b.tm with osc := f b.tm.osc } }
/-- Slot k's monitors, and the module with them changed. -/
def Block.slot (b : Block) (k : Nat) : Slot := tat {} b.tm.slot k
def Block.setSlot (b : Block) (k : Nat) (f : Slot → Slot) : Block := { b with tm := { b.tm with slot := tmod {} b.tm.slot k f } }
/-- Engine e's loop, and the module with it changed. -/
def Block.pe (b : Block) (e : Nat) : Engine := tat {} b.tm.pe e
def Block.setPe (b : Block) (e : Nat) (f : Engine → Engine) : Block := { b with tm := { b.tm with pe := tmod {} b.tm.pe e f } }
/-- Output n, and the module with it changed. -/
def Block.out (b : Block) (n : Nat) : OutSt := tat {} b.tm.out n
def Block.setOut (b : Block) (n : Nat) (f : OutSt → OutSt) : Block := { b with tm := { b.tm with out := tmod {} b.tm.out n f } }

-- Corrections in force (R187)

/-- The numbers under which corrections are held: transmit and receive residual of a port, offset of a converter's twin, asymmetry of a
port, path of a measurement input. -/
def txItem (p : Nat) : Nat := p
def rxItem (p : Nat) : Nat := 32 + p
def twinItem (c : Nat) : Nat := 64 + c
def alphaItem (p : Nat) : Nat := 128 + p
def ticItem (c : Nat) : Nat := 192 + c
def outItem (n : Nat) : Nat := 200 + n
def refinItem (r : Nat) : Nat := 208 + r

/-- A correction as it stands at this cycle, in ticks. -/
def Block.corr (b : Block) (item : Nat) : Int := (tat {} b.tm.cal.corr item).at_ b.cyc

/-- A correction given a new target (R187): a ramp at CAL_RAMP_RATE from its present value, or at once. -/
def Block.setCorr (b : Block) (item : Nat) (goal : Int) (ramps : Bool) : Block :=
  let r : Ramp := if ramps then ⟨b.corr item, goal, b.rdN Od.CAL_RAMP_RATE, b.cyc⟩ else ⟨goal, goal, 0, b.cyc⟩
  { b with tm := { b.tm with cal := { b.tm.cal with corr := tput b.tm.cal.corr item r } } }

/-- Figures latched for a tenant that come of entries hit, forgotten. -/
def Block.unlatch (b : Block) (hit : Nat → Bool) : Block := b.setSrv fun s => { s with latched := tdrop s.latched fun x => hit (x / 8) }

-- States

/-- PE0's state: 0 FREE_RUN, 1 ACQUIRING, 2 LOCKED, 3 HOLDOVER_IN_SPEC, 4 HOLDOVER_OUT_OF_SPEC (Table 5.5). -/
def Block.pe0 (b : Block) : Nat := b.rdN Od.SEL_PE0_STATE

/-- The SELECTED slot, none while SEL_SELECTED reads 0xFF. -/
def Block.selected (b : Block) : Option Nat := let s := b.rdN Od.SEL_SELECTED; if s < 24 then some s else none

/-- The kind of slot k (Table 5.1). -/
def Block.slotKind (b : Block) (k : Nat) : Nat := b.rdN (Od.SLOT_KIND k)

/-- The domain a slot belongs to: 1 A, 2 B, 0 neither (R132). -/
def Block.slotDomain (b : Block) (k : Nat) : Nat :=
  match b.slotKind k with
  | 2 => b.rdN (Od.SLOT_PTP_DOMAIN k)
  | 8 => 1
  | 9 => 2
  | _ => 0

/-- Whether PE0 steers from an ARB domain (R57). -/
def Block.steersArb (b : Block) : Bool :=
  match b.selected with
  | some k => let d := b.slotDomain k; d != 0 && tat false b.tm.mt.obsArb (d - 1)
  | none => false

/-- Whether the safe state is in force (R467). -/
def Block.safe (b : Block) : Bool := b.on Od.SAFE_STATE

/-- The residual of a domain switch at this cycle (R64). -/
def Block.domResidual (b : Block) : Int := b.tm.mt.dom.at_ b.cyc
/-- The residual of a handover at this cycle (R146). -/
def Block.switchResidual (b : Block) : Int := b.tm.sel.residual.at_ b.cyc
/-- The residual of a return at this cycle (R169). -/
def Block.retResidual (b : Block) : Int := b.tm.ho.ret.at_ b.cyc

-- Uncertainty and TIME_VALID

/-- The reference and link terms of Table 2.2 for the SELECTED slot (R149). (DEDUCED, log 26.) -/
def Block.refTerm (b : Block) : Nat :=
  match b.selected with
  | none => unknownUnc
  | some k =>
    if b.on (Od.SLOT_TIME_CAPABLE k) then b.rdN (Od.SLOT_UNCERTAINTY k)
    else match b.tm.sel.freqBase with
      | none => unknownUnc
      | some u => u + b.rdN Od.SEL_FREQONLY_UNC_RATE * ((b.cyc - b.tm.sel.freqAt) / secs 1)

/-- The Meridian uncertainty: the sum of the terms of Table 2.2 in force (R524). (DEDUCED, log 25.) -/
def Block.uncertainty (b : Block) : Nat :=
  match b.tm.mt.manual, b.selected, b.pe0 with
  | some u, none, 0 => u
  | _, sel, st =>
    if !b.on Od.MT_TIME_SET || st == 0 then unknownUnc
    else if (st == 3 || st == 4) && sel.isNone then min unknownUnc (b.tm.ho.e0 + b.rdN Od.HO_TERM)
    else min unknownUnc (b.refTerm + b.rdN (Od.PE_LOOP_UNC 0) + ticksToPsUp b.domResidual + ticksToPsUp b.switchResidual
      + ticksToPsUp b.retResidual)

/-- The four conditions of R59. -/
def Block.timeConditions (b : Block) (unc : Nat) : Bool :=
  b.on Od.MT_TIME_SET && (b.pe0 == 2 || b.pe0 == 3) && decide (unc ≤ b.rdN Od.MT_UNC_LIMIT) && !b.safe

/-- What every command ends with: MT_UNCERTAINTY and TIME_VALID follow their terms (R59, R524), with event 0x2001 or 0x2002. (DEDUCED, log 10.) -/
def settle (b : Block) : Block :=
  let was := b.on Od.MT_TIME_VALID
  let now := b.timeConditions b.uncertainty
  let b := if was && !now then (b.orBits Od.MT_STICKY 1).raise 0x2001 else if !was && now then b.raise 0x2002 else b
  (b.wr Od.MT_UNCERTAINTY b.uncertainty).wr Od.MT_TIME_VALID (b2n (b.timeConditions b.uncertainty))

-- Targets

/-- A late target reported (R50). -/
def Block.lateTarget (b : Block) : Block := (b.orBits Od.MT_STICKY 16).raise 0x200A

/-- An owner's target armed at a tick; one already due is late (R50). -/
def Block.armTick (b : Block) (o : Owner) (tick : Nat) : Block :=
  let late := b.due tick
  let b := b.setMt fun m => { m with targets := tput m.targets o.no ⟨tick, late⟩ }
  if late then b.lateTarget else b

/-- The ramp that DOM_SWITCH_MODE and DOM_SLEW_RATE give a domain residual (R64); it stands still while no slot is SELECTED. (DESIGN CHOICE, log 127.) -/
def Block.domRamp (b : Block) (r : Int) : Ramp :=
  let hold := b.rdN Od.DOM_SWITCH_MODE = 1 || b.selected.isNone
  ⟨r, if hold then r else 0, if hold then 0 else b.rdN Od.DOM_SLEW_RATE, b.cyc⟩

/-- Whether a TIME96 target may be armed (R49): at most 86,400 s ahead of Meridian time. -/
def Block.armable (b : Block) (word : Nat) : Bool := decide (word ≤ b.mer + 86400 * ticksPerSec)

/-- An owner's TIME96 target armed (R49, R50): one at or before Meridian time is due at once, however far in the past. -/
def Block.armWord (b : Block) (o : Owner) (word : Nat) : Block :=
  if word ≤ b.mer then
    (b.setMt fun m => { m with targets := tput m.targets o.no ⟨b.tick, true⟩ }).lateTarget
  else b.setMt fun m => { m with targets := tput m.targets o.no ⟨tickOf word, false⟩ }

/-- An owner's armed target. -/
def Block.target (b : Block) (o : Owner) : Option Target := tget b.tm.mt.targets o.no

-- UTC and leap seconds

/-- A pending leap applied (R54). (DEDUCED, log 29.) -/
def Block.applyLeap (b : Block) : Block :=
  let d : Int := if b.rdN Od.MT_LEAP_PENDING = 1 then 1 else -1
  let b := b.setMt fun m => { m with preLeap := some (b.rd Od.MT_UTC_OFFSET) }
  let b := (b.wr Od.MT_UTC_OFFSET (b.rd Od.MT_UTC_OFFSET + d)).wr Od.MT_LEAP_PENDING 0
  let b := if b.rdN Od.MT_UTC_SOURCE = 1 then
      (b.wr Od.MT_UTC_OFFSET_MANUAL (b.rd Od.MT_UTC_OFFSET_MANUAL + d)).wr Od.MT_LEAP_MANUAL 0
    else b
  (b.orBits Od.MT_STICKY 8).raise 0x2007

/-- LEAP_APPLY: Meridian time has reached MT_LEAP_TAI. -/
def Block.leapDue (b : Block) : Block := if b.rdN Od.MT_LEAP_PENDING ≠ 0 ∧ b.reached (b.rdN Od.MT_LEAP_TAI) then b.applyLeap else b

/-- A leap second that a source announces: 0 none, 1 insert, 2 delete, at a TAI second (R54). One already due is not taken; a pending one that has come
due is applied before it can be replaced. (DEDUCED, log 29.) -/
def Block.learnLeap (b : Block) (kind taiSecond : Nat) : Block :=
  let b := b.leapDue
  let word := taiSecond * ticksPerSec
  if kind = 0 ∨ b.reached word then b.wr Od.MT_LEAP_PENDING 0
  else
    let was := b.rdN Od.MT_LEAP_PENDING
    let b := (b.wr Od.MT_LEAP_PENDING kind).wr Od.MT_LEAP_TAI word
    if was = 0 then b.raise 0x2006 else b

/-- MT_UTC_OFFSET_VALID (R53): the offset in force was declared valid, and PE0 does not steer from an ARB domain (R57). -/
def Block.showUtc (b : Block) : Block := b.wr Od.MT_UTC_OFFSET_VALID (b2n (b.tm.mt.utcGood && !b.steersArb))

/-- An offset that the selected reference declares, in AUTO (R53, R54): after a leap the applied offset stays while the reference
still reports the one before it. (DEDUCED, log 29.) -/
def Block.takeOffset (b : Block) (off : Int) (valid : Bool) : Block :=
  if b.rdN Od.MT_UTC_SOURCE = 0 && valid then
    if b.tm.mt.preLeap == some off then b
    else ((b.setMt fun m => { m with preLeap := none, utcGood := true }).wr Od.MT_UTC_OFFSET off).showUtc
  else b

/-- The manual offset and leap taken into force (R53). (DEDUCED, log 29.) -/
def Block.takeManual (b : Block) : Block :=
  if b.rdN Od.MT_UTC_SOURCE = 1 then
    (((b.setMt fun m => { m with utcGood := true }).wr Od.MT_UTC_OFFSET (b.rd Od.MT_UTC_OFFSET_MANUAL)).learnLeap (b.rdN Od.MT_LEAP_MANUAL)
      (secondsOf (b.rdN Od.MT_LEAP_TAI_MANUAL))).showUtc
  else b

-- Grid of an output (R107, R108)

/-- The rate F = p / q of an output's settings, in lowest terms; none in OFF. `cfgs` are the settings of all outputs of the commit. -/
def outRate (b : Block) (cfgs : List OutCfg) (c : OutCfg) : Option (Nat × Nat) :=
  let engine (e : Nat) : Nat × Nat := if e = 0 then (100000000, 1) else (b.rdN (Od.PE_FREQ_NUM e), b.rdN (Od.PE_FREQ_DEN e))
  let red (p q : Nat) : Nat × Nat := (p / Nat.gcd p q, q / Nat.gcd p q)
  match c.mode with
  | 0 => none
  | 1 => some (1, c.interval)
  | 2 => some (c.rate, 1)
  | 3 => some (red (engine c.source).1 ((engine c.source).2 * c.div))
  | 4 => some (red (engine 2).1 ((engine 2).2 * c.div))
  | _ => match cfgs[c.frameRef]? with
    | none => none
    | some r => some (red (engine 2).1 ((engine 2).2 * r.div * c.frameLen))

/-- The settings of all eight outputs in force. -/
def Block.outCfgs (b : Block) : List OutCfg := (List.range 8).map fun n => (b.out n).cfg

/-- The first active edge at or after an instant (ticks): t_j of R108 for the least such j, the period being q / p seconds. -/
def gridEdge (p q : Nat) (origin : Int) (from_ : Int) : Int :=
  -- q whole seconds hold p edges; edge j of them lies j * q / p seconds after the start of its group
  let span : Int := q * ticksPerSec
  let rel := (from_ - origin) % span
  let base := from_ - rel
  let j := -((-(rel * p)) / span)
  base + j * span / p

/-- The last active edge at or before an instant. -/
def gridLast (p q : Nat) (origin : Int) (at_ : Int) : Int :=
  let span : Int := q * ticksPerSec
  let rel := (at_ - origin) % span
  at_ - rel + ((rel + 1) * p - 1) / span * span / p

/-- The rate of output n's settings in force as p / q, where it has one. -/
def Block.outGrid (b : Block) (n : Nat) : Option (Nat × Nat) :=
  match outRate b b.outCfgs (b.out n).cfg with
  | some (p, q) => if p = 0 ∨ q = 0 then none else some (p, q)
  | none => none

/-- A + OUTn_OFFSET of R108: where the grid of output n lies after S₀, in ticks. -/
def Block.outOrigin (b : Block) (n : Nat) : Int :=
  let o := b.out n
  (if o.cfg.align = 0 then 0 else o.phi.at_ b.cyc) + psToTicks o.cfg.offset

/-- The first active edge of output n at or after an instant (R108). -/
def Block.outEdge (b : Block) (n : Nat) (from_ : Int) : Option Int := (b.outGrid n).map fun r => gridEdge r.1 r.2 (b.outOrigin n) from_

/-- The high time of an output's pulse or half-period in ticks (Table 4.4, R114). (DEDUCED, log 23.) -/
def highTime (b : Block) (cfgs : List OutCfg) (c : OutCfg) : Int :=
  let period (p q : Nat) : Int := if p = 0 then 0 else ((q * ticksPerSec / p : Nat) : Int)
  match c.mode with
  | 1 | 2 => ((c.width * 65536 : Nat) : Int)
  | 5 => match cfgs[c.frameRef]? with
    | some r => match outRate b cfgs r with | some (p, q) => period p q | none => 0
    | none => 0
  | _ => match outRate b cfgs c with
    | some (p, q) => if c.div % 2 = 0 ∨ c.div = 1 then period p q / 2 else period p q * ((c.div + 1) / 2 : Nat) / c.div
    | none => 0

/-- The last active edge that output n has produced by an instant, on its present grid or before it. (DEDUCED, log 23.) -/
def Block.lastRise (b : Block) (n : Nat) (at_ : Int) : Option Int :=
  match (b.out n).first, b.outGrid n with
  | some f, some (p, q) => if f ≤ at_ then some (gridLast p q (b.outOrigin n) at_) else (b.out n).rose
  | _, _ => (b.out n).rose

/-- The falling edge that ends output n's pulse in progress at an instant, or that ended its last (R117). (DEDUCED, log 23.) -/
def Block.lastFall (b : Block) (n : Nat) (at_ : Int) : Option Int :=
  match (b.out n).first with
  | some f => if f ≤ at_ then (b.lastRise n at_).map (· + highTime b b.outCfgs (b.out n).cfg) else (b.out n).fall
  | none => (b.out n).fall

-- Edge placers (R108, R111, R112)

/-- How much sooner the placer of output n acts than its edge crosses the point OUTn_BOARD_DELAY beyond the land (R108): that delay, the path to the land
(R181), less what is left of a twin swap's offset, in 1/65,536 ps. -/
def Block.placerLead (b : Block) (n : Nat) : Int := (b.out n).cfg.board * 65536 + (b.corr (outItem n) - b.corr (twinItem (44 + n))) * 1000

/-- The placing of output n's edge of the instant t (R111, R112): from PE0 the cycle of the Meridian clock and the nearest ps in it; from PE2 and PE3 the whole
engine periods of OFFSET less the lead, which are the divider's starting phase, and the remainder in ps. -/
def Block.placing (b : Block) (n : Nat) (t : Int) : Placing :=
  let o := b.out n
  if o.cfg.source = 0 then
    let at_ := t * 1000 - b.placerLead n
    { whole := at_ / 655360000, ps := roundDiv (at_ % 655360000) 65536 }
  else
    let num := b.rdN (Od.PE_FREQ_NUM o.cfg.source)
    let one : Nat := b.rdN (Od.PE_FREQ_DEN o.cfg.source) * 65536000000000000
    let d := (o.cfg.offset * 65536 - b.placerLead n) * num
    { whole := d / one, ps := roundDiv (d % one) (65536 * num) }

/-- Output n's grid stopped at an instant: the pulse in progress completes (R117). -/
def Block.stopGrid (b : Block) (n : Nat) (at_ : Int) : Block :=
  let fall := b.lastFall n at_
  let rose := b.lastRise n at_
  b.setOut n fun o => { o with fall := fall, rose := rose, held := o.held && o.first.isNone, first := none }

/-- Output n's grid started: the first active edge at or after an instant that comes no sooner than half a period after the last falling edge (R117, R121). (DEDUCED, log 23.) -/
def Block.startOut (b : Block) (n : Nat) (from_ : Int) : Block :=
  let half : Int := match b.outGrid n with | some (p, q) => ((q * ticksPerSec / (2 * p) : Nat) : Int) | none => 0
  let first := b.outEdge n (match (b.out n).fall with | some f => max from_ (f + half) | none => from_)
  b.setOut n fun o => { o with first := first, place := b.placing n (first.getD 0) }

/-- Output n's grid restarted; output n held at its idle level once its pulse has completed (R116, R122). -/
def Block.restartOut (b : Block) (n : Nat) (from_ : Int) : Block := (b.stopGrid n from_).startOut n from_
def Block.holdOut (b : Block) (n : Nat) (at_ : Int) : Block := (b.stopGrid n at_).setOut n fun o => { o with held := true }

/-- The outputs that an engine drives, and their hold. -/
def Block.outsOf (b : Block) (e : Nat) : List Nat := (List.range 8).filter fun n => (b.out n).cfg.mode != 0 && (b.out n).cfg.source == e
def Block.holdEngine (b : Block) (e : Nat) (at_ : Int) : Block := (b.outsOf e).foldl (fun b n => b.holdOut n at_) b

/-- The level of output n's land when Meridian time is x (R108, R113, R116): driven OUTn_BOARD_DELAY before the instant at the point beyond it. -/
def Block.outLevel (b : Block) (n : Nat) (x : Int) : Level :=
  let o := b.out n
  let y := x + psToTicks o.cfg.board
  let level (active : Bool) : Level := if active != (o.cfg.polarity == 1) then .high else .low
  let rest : Level := if o.cfg.mode = 0 ∨ o.held then (if o.cfg.idle = 1 then .z else level false) else level false
  match o.first with
  | some f => if f ≤ y then level (decide (y < (b.lastFall n y).getD y)) else if y < o.fall.getD y then level true else rest
  | none => if y < o.fall.getD y then level true else rest

/-- Whether an engine that drives an output is LOCKED; PE0 places edges without a lock of its own (R123, R125). -/
def Block.engineReady (b : Block) (source : Nat) : Bool := source == 0 || b.rdN (Od.PE_LOCK_STATUS source) == 2

/-- OUTn_STATUS as its settings, engine, squelch and alignment make it (Table 4.8). -/
def Block.outStatus (b : Block) (n : Nat) : Nat :=
  let o := b.out n
  if o.cfg.mode = 0 then 0
  else if o.invalid || !b.engineReady o.cfg.source then 2
  else if o.squelched then 3
  else if o.flywheel then 4
  else 1

/-- Every output's reported status brought up to date; an output newly held for its engine sets bit [3] of its sticky. -/
def Block.refreshOuts (b : Block) : Block :=
  (List.range 8).foldl (fun b n =>
    let st := b.outStatus n
    let b := if st = 2 && b.rdN (Od.OUT_STATUS n) != 2 && !(b.out n).invalid then b.orBits (Od.OUT_STICKY n) 8 else b
    b.wr (Od.OUT_STATUS n) st) b

/-- An engine's acquisition begun again (R125, R123): bit [1] of PEn_STICKY, no samples held, its outputs held from an instant on. -/
def Block.reacquire (b : Block) (e : Nat) (at_ : Int) : Block :=
  if b.rdN (Od.PE_LOCK_STATUS e) = 0 then b
  else
    let b := (b.setPe e fun p => { p with errs := [], within := none, overs := 0, acq := p.acq + 1 }).holdEngine e at_
    (b.wr (Od.PE_LOCK_STATUS e) 1).orBits (Od.PE_STICKY e) 2

-- A step of Meridian time

/-- An output's instants carried to the time after a step: its pulse in progress ends when it would have. -/
def Block.carryOut (b : Block) (n : Nat) (d : Int) : Block := b.setOut n fun o => { o with fall := o.fall.map (· + d) }

/-- What an output does at a step (R125): PE0's completes its pulse and resumes on the first grid edge after it, on none that it has produced before where
time has gone back; the others hold until their engine is LOCKED. -/
def Block.stepOutputs (b : Block) (old : Nat) : Block :=
  let new : Int := b.mer
  let b := (b.reacquire 2 old).reacquire 3 old
  let b := (List.range 8).foldl (fun b n =>
    if (b.out n).cfg.mode = 0 then b
    else
      let b :=
        if (b.out n).first.isSome then
          let b := b.stopGrid n old
          (b.carryOut n (new - old)).startOut n (if new < old then max (new + 1) ((b.out n).rose.getD new + 1) else new + 1)
        else b.carryOut n (new - old)
      (b.orBits (Od.OUT_STICKY n) 4).raise 0x2416 n) b
  b.refreshOuts

/-- The instants of counter snapshots that a step has passed are not made up (R473): the next one is at or after the new time. (DEDUCED, log 119.) -/
def Block.dumpStep (b : Block) : Block :=
  let last := (b.mer - 1) / (b.rdN Od.CNT_DUMP_PERIOD * 1000 * 65536)
  { b with mg := { b.mg with safe := { b.mg.safe with dumpAt := max b.mg.safe.dumpAt last } } }

/-- Meridian time at a new value (R41, R51): event 0x2003, the step bit, each target that a forward step passes becomes late, a leap that it
passes is applied, outputs realign. (DEDUCED, log 28.) -/
def Block.stepTime (b : Block) (new : Nat) : Block :=
  let old := b.mer
  let new := new % wordWrap
  let passed (t : Target) : Bool := let d := tickDiff t.tick (tickOf old); decide (0 < d) && decide ((old : Int) + d ≤ new)
  let hit := (b.tm.mt.targets.filter fun e => passed e.2).length
  let b := b.setMt fun m =>
    { m with mer := new, steps := m.steps + 1, landed := new, targets := m.targets.map fun e => if passed e.2 then (e.1, ⟨tickOf new, true⟩) else e }
  let b := (b.orBits Od.MT_STICKY 2).raise 0x2003
  let b := (List.range hit).foldl (fun b _ => b.lateTarget) b
  let b := if old < new then b.leapDue else b
  (b.stepOutputs old).realignGates.dumpStep

/-- Meridian time raised by the ticks of one Vesper cycle (R99), with the wrap of SECONDS as a step (R38). (DESIGN CHOICE, log 2; DEDUCED, log 28.) -/
def Block.advance (b : Block) : Block :=
  let b := { b with cyc := b.cyc + 1 }
  let n := b.mer + 655360
  if n < wordWrap then b.setMt fun m => { m with mer := n }
  else b.stepTime (n - wordWrap)

-- PE0 states (R140)

/-- PE0 in a new state: history bit, event as masked, the count of LOCKED time. (DEDUCED, log 16.) -/
def Block.setPe0 (b : Block) (st : Nat) : Block :=
  let was := b.pe0
  if was = st then b
  else
    let b := (b.wr Od.SEL_PE0_STATE st).orBits Od.SEL_PE0_HISTORY (2 ^ st)
    let b := b.setSel fun s =>
      { s with lockedAt := if st = 2 then some b.cyc else none,
               lockedSum := match s.lockedAt with | some t => s.lockedSum + (b.cyc - t) | none => s.lockedSum }
    let b := if was = 2 then b.setHo fun h => { h with lockEnd := ((b.pe 0).integ, b.cyc, b.rd Od.OSC_COMPARTMENT_TEMP) } else b
    let b := b.wr (Od.PE_LOCK_STATUS 0) (if st = 0 then 0 else if st = 1 then 1 else if st = 2 then 2 else 3)
    let b := if st = 1 ∨ st = 2 then b else b.wr Od.HO_TIME_LEFT (if st = 4 then 0 else if st = 0 then unknownUnc else b.rd Od.HO_TIME_LEFT)
    let b := if st = 1 ∨ st = 2 then b.wr Od.HO_TIME_LEFT unknownUnc else b
    if bit (b.rdN Od.SEL_PE0_EVENT_MASK) st then b.raise 0x2601 0 st else b

/-- The total time in LOCKED in cycles (R160). -/
def Block.lockedCycles (b : Block) : Nat :=
  b.tm.sel.lockedSum + match b.tm.sel.lockedAt with | some t => b.cyc - t | none => 0

end Sys2Proof.Machine
end

