-- ==== Sys2Proof/Machine/SafeState.lean ====
section
/-! DEFINITION. The safe state (R465, R467, R468) and the errors of the frame path that can cause it (R464). -/

namespace Sys2Proof.Machine

/-- The safety state changed. -/
def Block.setSafe (b : Block) (f : SafeSt → SafeSt) : Block := { b with mg := { b.mg with safe := f b.mg.safe } }

/-- A cause of the safe state (R468): an entry, or a cause added to the one in force. -/
def Block.enterSafe (b : Block) (cause : Nat) : Block :=
  let was := b.safe
  let b := (b.orBits Od.SAFE_CAUSE (2 ^ cause)).setSafe fun s => { s with causeAt := if cause < 2 then some b.cyc else s.causeAt }
  if was then b
  else
    let b := ((b.wr Od.SAFE_STATE 1).bump Od.SAFE_ENTRIES 1).wr Od.SAFE_LAST_TIME b.mer
    (b.orBits Od.SAFE_STICKY 1).raise 0x7001 0 (b.rdN Od.SAFE_CAUSE)

/-- SAFE_CLEAR (R468): refused with STATE within 10 s of a trip or excess, or with cause [2] set. Outside the safe state nothing is left. (DEDUCED, log 118.) -/
def Block.clearSafeBarred (b : Block) : Bool :=
  bit (b.rdN Od.SAFE_CAUSE) 2 || match b.mg.safe.causeAt with | some t => decide (b.cyc < t + secs 10) | none => false
def Block.clearSafe (b : Block) : Block :=
  if b.safe then ((b.wr Od.SAFE_STATE 0).wr Od.SAFE_CAUSE 0).raise 0x7007 else b

/-- A scrub pass that is not complete within SCRUB_PERIOD of the last one sets bit [1] of SCRUB_STICKY, once, and goes on (R466). -/
def Block.scrubOverrun (b : Block) : Block :=
  if !b.mg.safe.scrubLate ∧ b.mg.safe.scrubAt + secs (b.rdN Od.SCRUB_PERIOD) < b.cyc then
    (b.orBits Od.SCRUB_STICKY 2).setSafe fun s => { s with scrubLate := true }
  else b

/-- A datapath error of a mechanism (R464): 1 parity, 2 FCS mismatch, 3 table, 4 LPDDR5, 5 SRAM; `item` is the port or bank. More than
SAFE_DP_LIMIT of the first two within one second enter the safe state (R465). -/
def Block.dpError (b : Block) (mech item : Nat) : Block :=
  let b := b.orBits Od.DPC_STICKY (2 ^ (mech - 1))
  let r := b.limit 0x7003 mech
  let b := if r.1 then r.2.raise 0x7003 item mech else r.2
  if mech ≤ 2 then
    let b := b.setSafe fun s => { s with dpAt := b.cyc :: s.dpAt.takeWhile fun t => decide (b.cyc < t + secs 1) }
    if b.rdN Od.SAFE_DP_LIMIT < b.mg.safe.dpAt.length then b.enterSafe 1 else b
  else b

end Sys2Proof.Machine
end

