-- ==== Sys2Proof/Machine/Wake.lean ====
section
/-! DEFINITION. What a frame needs to leave a port (R278, R283), the wake of an idle port (R229), and the module's own frames (R279). -/

namespace Sys2Proof.Machine

/-- Queue k: port p's Qq under p * 16 + q, compute queue c under 512 + c. -/
def Block.queue (b : Block) (k : Nat) : Queue := tat {} b.fab.queue k
def Block.setQueue (b : Block) (k : Nat) (f : Queue → Queue) : Block := b.setFab fun x => { x with queue := tmod {} x.queue k f }

-- Times and shapers

/-- The line rate of a port in Gb/s (R244). -/
def Block.lineRate (b : Block) (p : Nat) : Nat :=
  match b.rdN (Od.P_MODE p) with
  | 1 => 1
  | 2 => 10
  | 3 => 25
  | 4 => 100
  | _ => 1

/-- The Out contribution of a port in ticks (Table 9.6), behind the markers that put its next frame off (R79). -/
def Block.outTicks (b : Block) (p : Nat) : Nat :=
  let ps := match b.rdN (Od.P_MODE p), b.rdN (Od.P_FEC p) with
    | 1, _ => 600000
    | 2, 1 => 97680
    | 2, _ => 90000
    | 3, 1 => 87560
    | 3, 2 => 91400
    | 3, _ => 85000
    | 4, 2 => 85120
    | 4, _ => 80000
    | _, _ => 0
  ps * 65536 / 1000 + (b.pf p).gap

/-- The wire time of n bytes, plus one block of R79, in ticks (R283). 1000BASE-X has no such block. (DEDUCED, log 56.) -/
def Block.wireTicks (b : Block) (p n : Nat) : Nat :=
  ((n + 20) * 8 + if b.rdN (Od.P_MODE p) = 1 then 0 else 64) * 65536 / b.lineRate p

/-- Whether the gate of Qq of port p is open for a frame of n bytes that would start now (R282, R283). (DEDUCED, log 56.) -/
def Block.gateOpen (b : Block) (p q n : Nat) : Bool := (b.pf p).gate.open_ q (b.mer + b.outTicks p) (b.wireTicks p n)

/-- Tokens of a shaper at this cycle, in 1/800,000 byte (R278). -/
def fillTokens (tokens : Int) (rate burst elapsed : Nat) : Int := min (burst * 800000 : Nat) (tokens + (rate * elapsed : Nat))

/-- A queue's shaper, and the port's, brought to this cycle. -/
def Block.fillShapers (b : Block) (p : Nat) : Block :=
  let b := (List.range 16).foldl (fun b q =>
    let rate := b.rdN (Od.EQ_SHAPE_RATE p q)
    if rate = 0 then b
    else b.setQueue (p * 16 + q) fun x =>
      { x with tokens := fillTokens x.tokens rate (b.rdN (Od.EQ_SHAPE_BURST p q)) (b.cyc - x.tokensAt), tokensAt := b.cyc }) b
  if b.rdN (Od.EQ_PORT_RATE p) = 0 then b
  else b.setPf p fun x =>
    { x with tokens := fillTokens x.tokens (b.rdN (Od.EQ_PORT_RATE p)) (b.rdN (Od.EQ_PORT_BURST p)) (b.cyc - x.tokensAt), tokensAt := b.cyc }

/-- Whether the shapers of Qq of port p and of the port let a frame start (R278). -/
def Block.shapersOpen (b : Block) (p q : Nat) : Bool :=
  (b.rdN (Od.EQ_SHAPE_RATE p q) == 0 || decide (0 ≤ (b.queue (p * 16 + q)).tokens)) && (b.rdN (Od.EQ_PORT_RATE p) == 0 || decide (0 ≤ (b.pf p).tokens))

/-- A frame of n bytes paid for at the shapers of Qq and of its port (R278). -/
def Block.payShapers (b : Block) (p q n : Nat) : Block :=
  let cost : Int := (n + 20) * 800000
  (b.setQueue (p * 16 + q) fun x => { x with tokens := x.tokens - cost }).setPf p fun x => { x with tokens := x.tokens - cost }

-- Wakes (R229)

/-- A wake of port p requested: a frame arrived, was enqueued for it or is the module's own (R229). (DEDUCED, log 66.) -/
def Block.wakePort (b : Block) (p : Nat) : Block :=
  let b := b.setPf p fun x => { x with busyAt := b.cyc }
  if b.on (Od.P_IDLE p) ∧ (b.pf p).wakeAt.isNone then
    let b := b.need .fabric
    b.setPf p fun x => { x with wakeAt := some (b.cyc + us 2) }
  else b

/-- Whether a wake that was requested is complete: 2 µs after it, with the fabric clock running. (DEDUCED, log 66.) -/
def Block.wakeReady (b : Block) (p : Nat) : Bool :=
  b.on (Od.P_IDLE p) && b.clockRuns .fabric && match (b.pf p).wakeAt with | some t => decide (t ≤ b.cyc) | none => false

/-- The port is awake. -/
def Block.awake (b : Block) (p : Nat) : Block := (b.wr (Od.P_IDLE p) 0).setPf p fun x => { x with wakeAt := none, busyAt := b.cyc }

-- Own frames (R279)

/-- Whether a frame of n bytes that the module itself sends can start on port p now: the port is awake and not sending, its injector
has nothing to send first and does not hold the port (R476), the gate of its EQn_OWN_QUEUE is
open and the shapers let it pass. (DEDUCED, log 61.) -/
def Block.ownClear (b : Block) (p n : Nat) : Bool :=
  !b.on (Od.P_IDLE p) && (b.pf p).sending.isNone && (b.pf p).fip.ready.isEmpty && (b.pf p).fip.delayed.isNone && b.gateOpen p (b.rdN (Od.EQ_OWN_QUEUE p)) n && b.shapersOpen p (b.rdN (Od.EQ_OWN_QUEUE p))

/-- Every own frame that waits on port p given up for a reason of the port (R221, R223). -/
def Block.dropOwn (b : Block) (p key : Nat) : Block :=
  let n := (b.pf p).own.length
  if n = 0 then b
  else (((b.setPf p fun x => { x with own := [] }).bump key n).bump Od.CNT_FIXED_DROPS n).tally 1 p 2 n

end Sys2Proof.Machine
end

