-- ==== Sys2Proof/Machine/Queues.lean ====
section
/-! DEFINITION. Packet memory (R251 to R255), admission to a queue (R274, R275) and egress scheduling (R276 to R278). -/

namespace Sys2Proof.Machine

-- Drops and cells

/-- A drop counted in an entry of port p (R263); the counters of the upper ports of a 100G port stay at zero (R218). (DEDUCED, log 151.) -/
def Block.dropOn (b : Block) (p key : Nat) : Block :=
  if b.laneOwner p = p then ((b.bump key 1).bump Od.CNT_FIXED_DROPS 1).tally 1 p 2 else b

/-- SW_CELLS_FREE at a new count, with the lowest count and the reserve's event (R253). -/
def Block.setFree (b : Block) (n : Nat) : Block :=
  let b := (b.wr Od.SW_CELLS_FREE n).wr Od.SW_CELLS_MIN (min (b.rdN Od.SW_CELLS_MIN) n : Nat)
  let low := decide (n ≤ b.rdN Od.SW_CELL_RESERVE)
  let b := if low && !b.fab.atReserve then (b.orBits Od.SW_STICKY 4).report 0x3003 else b
  b.setFab fun x => { x with atReserve := low }

/-- The cells of a frame. -/
def cellsOf (f : Bytes) : Nat := divUp f.length 256

/-- The chain of a descriptor. -/
def Block.chain (b : Block) (c : Nat) : Option Chain := tget b.fab.chains c

/-- The cells of a chain. -/
def Block.chainCells (b : Block) (c : Nat) : Nat := match b.chain c with | some x => x.banks.length | none => 0

/-- A chain changed. -/
def Block.setChain (b : Block) (c : Nat) (f : Chain → Chain) : Block :=
  b.setFab fun x => { x with chains := x.chains.map fun e => if e.1 = c then (c, f e.2) else e }

/-- The banks of a frame's n cells (R255), and the banks with them written. (DESIGN CHOICE, log 152.) -/
def Block.placeCells (b : Block) (k n : Nat) : List Nat × Banks :=
  (List.range n).foldl (fun (r : List Nat × Banks) i =>
    let j := r.2.pick (Config.bankOf b.fab.bankKey k (b.queue k).seq i % 16)
    (r.1 ++ [j], r.2.write j)) ([], b.fab.banks)

/-- A frame stored (R251): its number, with no copy yet; k is the queue of its first copy, for the hash of R255. (DESIGN CHOICE, log 152.) -/
def Block.store (b : Block) (f : Bytes) (vid : Nat) (dei : Bool) (k : Nat) : Nat × Block :=
  let n := cellsOf f
  let id := b.fab.nextChain
  let (l, banks) := b.placeCells k n
  let b := b.setFab fun x =>
    { x with chains := tput x.chains id ⟨f, vid, dei, l, 0, x.eccNext, [], false⟩, nextChain := id + 1, eccNext := 0, banks := banks }
  let b := (b.setFree (b.rdN Od.SW_CELLS_FREE - n)).bump Od.CNT_FIXED_CELL_WRITES n
  (id, if b.mg.cnt.isEmpty then b else l.foldl (fun b i => b.tally 4 i 0) b)

/-- A chain with no copy left returns its cells (R252). One that held an uncorrectable cell loses that cell (R254). (DEDUCED, log 69.) -/
def Block.freeChain (b : Block) (c : Nat) : Block :=
  match b.chain c with
  | none => b
  | some x =>
    if x.refs = 0 then
      let lost := b2n (x.ecc == 3)
      let b := b.setFab fun f =>
        { f with chains := tdel f.chains c
                 banks := let k := f.banks.free (x.banks.drop lost); if lost = 1 then k.retire (x.banks.headD 0) else k }
      b.setFree (b.rdN Od.SW_CELLS_FREE + x.banks.length - lost)
    else b

/-- A copy's reference released (R252). -/
def Block.release (b : Block) (c : Nat) : Block :=
  (b.setChain c fun x => { x with refs := x.refs - 1 }).freeChain c

/-- A memory error found in a copy's cells as it is read (R254): 0 none, 1 corrected, 2 uncorrectable. The cell is taken out of use. (DEDUCED, log 69.) -/
def Block.readEcc (b : Block) (chain : Nat) : Nat × Block :=
  match b.chain chain with
  | none => (0, b)
  | some x =>
    if x.ecc = 1 then (1, (b.setChain chain fun y => { y with ecc := 0 }).bump Od.SW_ECC_CORRECTED 1)
    else if x.ecc = 2 then
      (2, ((((b.setChain chain fun y => { y with ecc := 3 }).bump Od.SW_ECC_UNCORRECTED 1).orBits Od.SW_STICKY 8).report 0x3004).bump
        Od.SW_CELLS_RETIRED 1)
    else if x.ecc = 3 then (2, b)
    else (0, b)

/-- The cells of a stored frame read, each in its bank (Table 18.5). -/
def Block.readCells (b : Block) (c : Nat) : Block :=
  if b.mg.cnt.isEmpty then b
  else match b.chain c with
    | some x => x.banks.foldl (fun b i => b.tally 4 i 1) b
    | none => b

/-- The reference of a frame that will not leave, where it is a copy of a stored one. -/
def Block.releaseTx (b : Block) (t : Tx) : Block := if t.own.isSome then b else b.release t.desc.chain

/-- The depth entry of queue k, and its largest. -/
def depthKey (k : Nat) : Nat := if k < 512 then Od.EQ_DEPTH (k / 16) (k % 16) else Od.CQ_DEPTH (k - 512)
def maxDepthKey (k : Nat) : Nat := if k < 512 then Od.EQ_MAX_DEPTH (k / 16) (k % 16) else Od.CQ_MAX_DEPTH (k - 512)
def limitKey (k : Nat) : Nat := if k < 512 then Od.EQ_LIMIT (k / 16) (k % 16) else Od.CQ_LIMIT (k - 512)
def wredKey (k : Nat) : Nat := if k < 512 then Od.EQ_WRED (k / 16) (k % 16) else Od.CQ_WRED (k - 512)

/-- A drop of a copy bound for queue k: by its limit or by WRED (R274). -/
def Block.dropCopy (b : Block) (k : Nat) (wred : Bool) : Block :=
  if k < 512 then
    let p := k / 16
    let q := k % 16
    ((b.dropOn p (if wred then Od.P_DROP_WRED p else Od.P_DROP_QUEUE p)).bump (if wred then Od.EQ_DROP_WRED p q else Od.EQ_DROP_QUEUE p q) 1).tally
      3 p q
  else
    let c := k - 512
    ((b.bump (if wred then Od.CQ_DROP_WRED c else Od.CQ_DROP_QUEUE c) 1).raiseLim 0x3221 c).tally 5 c 1

/-- Whether WRED drops a copy of a colour at queue k (R275), with its profile; the random 16 bits are a free value (log 4). (DEDUCED, log 63.) -/
def Block.wredDrops (b : Block) (k colour : Nat) : Option Nat × Block :=
  let prof := bits (b.rdN (wredKey k)) (4 * colour) 4
  let a := (b.queue k).avg
  let lo := b.rdN (Od.WRED_MIN prof) * 65536
  let hi := b.rdN (Od.WRED_MAX prof) * 65536
  if prof = 0 ∨ a < lo then (none, b)
  else if hi ≤ a then (some prof, b)
  else
    let (r, b) := b.draw 65536
    (if r * 10000 * (hi - lo) < 65536 * b.rdN (Od.WRED_MAX_P prof) * (a - lo) then some prof else none, b)

/-- Why a queue refuses a copy (R274): its limit, or WRED on a profile. -/
inductive Refused where
  | limit
  | wred (profile : Nat)
  deriving DecidableEq, Repr

/-- A copy judged at queue k (R274, steps 2 and 3); none where it is admitted. -/
def Block.judgeCopy (b : Block) (k : Nat) (d : Desc) : Option Refused × Block :=
  if b.rdN (limitKey k) < b.rdN (depthKey k) + b.chainCells d.chain then (some .limit, b)
  else match b.wredDrops k d.colour with
    | (some prof, b) => (some (.wred prof), b)
    | (none, b) => (none, b)

/-- A copy put at the end of queue k. -/
def Block.takeIn (b : Block) (k : Nat) (d : Desc) : Block :=
  let depth := b.rdN (depthKey k) + b.chainCells d.chain
  let b := (b.wr (depthKey k) depth).wr (maxDepthKey k) (max (b.rdN (maxDepthKey k)) depth : Nat)
  let b := b.setChain d.chain fun x => { x with refs := x.refs + 1 }
  let b := b.setQueue k fun q => { q with frames := q.frames ++ [{ d with enq := b.cyc }], seq := q.seq + 1 }
  if k < 512 then b.tally 2 (k / 16) (k % 16) else b.tally 5 (k - 512) 0

/-- A refusal counted (R274). -/
def Block.countRefused (b : Block) (k : Nat) : Refused → Block
  | .limit => b.dropCopy k false
  | .wred prof => (b.dropCopy k true).bump (Od.WRED_DROPS prof) 1

/-- A copy judged at queue k and enqueued, or dropped and counted (R274). The first component says whether it was admitted. -/
def Block.enqueue (b : Block) (k : Nat) (d : Desc) : Bool × Block :=
  match b.judgeCopy k d with
  | (some why, b) => (false, b.countRefused k why)
  | (none, b) => (true, b.takeIn k d)

/-- The head of queue k removed; the reference stays with the copy. A queue that empties loses its deficit (R277); a port's idle time starts
with the last frame that leaves its queues (R228). -/
def Block.popHead (b : Block) (k : Nat) : Block :=
  match (b.queue k).frames with
  | [] => b
  | d :: rest =>
    let b := (b.setQueue k fun q => { q with frames := rest, deficit := if rest.isEmpty then 0 else q.deficit }).wr (depthKey k)
      (b.rdN (depthKey k) - b.chainCells d.chain : Nat)
    if k < 512 then b.setPf (k / 16) fun x => { x with busyAt := b.cyc } else b

/-- The head of queue k dropped for a reason of port p. -/
def Block.dropHead (b : Block) (k p key : Nat) : Block :=
  match (b.queue k).frames with
  | [] => b
  | d :: _ => ((b.popHead k).dropOn p key).release d.chain

/-- Every frame queued for port p dropped for a reason (R221, R223). -/
def Block.flushPort (b : Block) (p key : Nat) : Block :=
  ((List.range 16).foldl (fun b q =>
    (List.range (b.queue (p * 16 + q)).frames.length).foldl (fun b _ => b.dropHead (p * 16 + q) p key) b) b).dropOwn p key

/-- Every queue's average depth (R275). (DEDUCED, log 63.) -/
def Block.wredUpdate (b : Block) : Block :=
  b.setFab fun f =>
    { f with queue := f.queue.map fun e =>
        let w := b.rdN (Od.WRED_WEIGHT (bits (b.rdN (wredKey e.1)) 0 4))
        (e.1, { e.2 with avg := ((e.2.avg : Int) + ((b.rdN (depthKey e.1) * 65536 : Nat) - e.2.avg) / 2 ^ w).toNat }) }

-- Scheduling

/-- The bytes that a copy leaves with on port p, FCS included (R232, R280): unchanged frames keep their FCS. (DEDUCED, log 55.) -/
def Block.txBytes (b : Block) (p : Nat) (d : Desc) : Bytes :=
  match d.content, b.chain d.chain with
  | some c, _ => c
  | none, some x =>
    let strip := bit (b.rdN (Od.VLAN_UNTAGGED x.vid)) p
    let l := egressBody x.bytes strip (if b.on (Od.EQ_DEI_REMARK p) then some (d.colour != 0) else none)
    if l == body x.bytes then x.bytes else withFcs l
  | none, none => []

/-- Whether Qq of port p is eligible (R276). -/
def Block.eligible (b : Block) (p q : Nat) : Bool :=
  match (b.queue (p * 16 + q)).frames with
  | [] => false
  | d :: _ =>
    b.gateOpen p q (b.txBytes p d).length && b.shapersOpen p q

/-- Aged frames at the heads of a port's queues dropped (R224). -/
def Block.dropAged (b : Block) (p : Nat) : Block :=
  let limit := b.rdN (Od.P_AGE_LIMIT p)
  if limit = 0 then b
  else (List.range 16).foldl (fun b q =>
    let k := p * 16 + q
    let old := ((b.queue k).frames.takeWhile fun d => decide (d.enq + ms limit < b.cyc)).length
    (List.range old).foldl (fun b _ => (b.dropHead k p (Od.P_DROP_AGED p)).orBits (Od.P_STICKY p) 32) b) b

/-- The deficit round robin (R277): the queue in turn sends while its deficit covers the head frame; each visit adds its weight. -/
def Block.drr : Nat → Block → Nat → List Nat → Option Nat × Block
  | 0, b, _, _ => (none, b)
  | n + 1, b, p, qs =>
    let q := (b.pf p).rr
    if qs.contains q then
      let k := p * 16 + q
      let b := if (b.pf p).rrOn then b
        else (b.setQueue k fun x => { x with deficit := x.deficit + b.rdN (Od.EQ_WEIGHT p q) * 512 }).setPf p fun x => { x with rrOn := true }
      let len := match (b.queue k).frames with | d :: _ => (b.txBytes p d).length | [] => 0
      if len ≤ (b.queue k).deficit then (some q, b.setQueue k fun x => { x with deficit := x.deficit - len })
      else Block.drr n (b.setPf p fun x => { x with rr := (q + 1) % 16, rrOn := false }) p qs
    else Block.drr n (b.setPf p fun x => { x with rr := (q + 1) % 16, rrOn := false }) p qs

/-- The queue to be served next (R277): strict queues first, the highest number first. -/
def Block.pick (b : Block) (p : Nat) : Option Nat × Block :=
  let el := (List.range 16).filter fun q => b.eligible p q
  match (el.filter fun q => b.rdN (Od.EQ_MODE p q) == 0).getLast? with
  | some q => (some q, b)
  | none => if el.isEmpty then (none, b) else Block.drr 512 b p el

end Sys2Proof.Machine
end

