-- ==== Sys2Proof/Machine/Injectors.lean ====
section
/-! DEFINITION. The injectors on the egress path (R475, R476), the start of a transmission, and the module's own frames (R279). -/

namespace Sys2Proof.Machine

-- Injectors (R475, R476)

/-- An injector's state changed. -/
def Block.setFip (b : Block) (p : Nat) (f : Fip → Fip) : Block := b.setPf p fun x => { x with fip := f x.fip }

/-- An injector at its end (R475): 1 count reached, 2 disarmed, 3 port stopped or FI_ENABLE cleared. Frames it held are sent next. (DEDUCED, log 68.) -/
def Block.fipEnd (b : Block) (p why : Nat) : Block :=
  if !(b.pf p).fip.armed then b
  else
    let b := b.setFip p fun f => { f with armed := false, acting := false, ready := f.ready ++ f.held, held := [] }
    (((b.wr (Od.FIP_STATUS p) 0).clearBits Od.FI_ARMED (2 ^ p)).disarm (.injector (Fin.ofNat 32 p))).raise 0x7202 p why

/-- An action counted; the last one ends the injector. -/
def Block.fipAct (b : Block) (p : Nat) : Block :=
  let b := ((b.bump (Od.FIP_ACTIONS p) 1).orBits (Od.FIP_STICKY p) 1).setFip p fun f => { f with acts := f.acts + 1 }
  let f := (b.pf p).fip
  if f.count ≠ 0 ∧ f.count ≤ f.acts then b.fipEnd p 1 else b

/-- Whether an injector acts on a frame of Qq (FIPn_MATCH). -/
def Block.fipMatches (b : Block) (p : Nat) (t : Tx) : Bool :=
  let m := (b.pf p).fip.match_
  if m = 0xFFFF then true
  else if 0x8000 ≤ m then m - 0x8000 == t.queue
  else ruleMatches (b.blob (Od.CLS_MATCH m)) t.desc.inPort (match b.chain t.desc.chain with | some c => c.vid | none => 0) (header t.bytes)

/-- A byte list with a bit of one byte inverted. -/
def flipBit (l : Bytes) (i n : Nat) : Bytes :=
  match l[i]? with
  | some x => l.take i ++ [x ^^^ BitVec.ofNat 8 (2 ^ n)] ++ l.drop (i + 1)
  | none => l

/-- What an acting injector makes of a frame about to be sent (Table 18.7): the frame to send now, if any. (DEDUCED, log 68.) -/
def Block.fipPass (b : Block) (p : Nat) (t : Tx) : Option Tx × Block :=
  let f := (b.pf p).fip
  if !f.acting ∨ !b.fipMatches p t then (some t, b)
  else
    let i := f.seen
    let nth := f.n != 0 && (i + 1) % f.n == 0
    let b := b.setFip p fun f => { f with seen := f.seen + 1 }
    match f.kind with
    | 1 =>
      let hit := if f.pattern = 0 then nth else bit f.pattern (i % 32)
      if hit then (none, (b.releaseTx t).fipAct p) else (some t, b)
    | 2 =>
      if nth ∧ f.byte < t.bytes.length then
        let l := flipBit t.bytes f.byte f.bit
        (some { t with bytes := if f.fixup then withFcs (body l) else l }, b.fipAct p)
      else (some t, b)
    | 3 =>
      if f.held.isEmpty then
        if nth then (none, b.setFip p fun f => { f with held := [t], heldAt := b.cyc, passed := 0 }) else (some t, b)
      else if f.held.length < f.hold then (none, b.setFip p fun f => { f with held := f.held ++ [t] })
      else
        let b := b.setFip p fun f => { f with passed := f.passed + 1 }
        if f.release ≤ f.passed + 1 then
          (some t, (b.setFip p fun f => { f with ready := f.ready ++ f.held, held := [] }).fipAct p)
        else (some t, b)
    | 4 =>
      if nth then (none, (b.setFip p fun f => { f with delayed := some (t, b.cyc + divUp f.delay 10) }).fipAct p) else (some t, b)
    | _ => (some t, b)

/-- Whether a REORDER or DELAY injector is armed on port p, so that copies to it are stored (R476). -/
def Block.fipStores (b : Block) (p : Nat) : Bool := let f := (b.pf p).fip; f.armed && (f.kind == 3 || f.kind == 4)

/-- The 10 ms of held REORDER frames have passed (R476). (DEDUCED, log 68.) -/
def Block.fipReorderTimeout (b : Block) (p : Nat) : Block :=
  let f := (b.pf p).fip
  if !f.held.isEmpty ∧ f.heldAt + ms 10 ≤ b.cyc then
    ((b.setFip p fun f => { f with ready := f.ready ++ f.held, held := [] }).orBits (Od.FIP_STICKY p) 2).fipAct p
  else b

-- Transmission

/-- A copy begins to leave port p: its cells spend egress credits as far as those go; each is spent again as it comes back (R24). -/
def Block.startTx (b : Block) (p : Nat) (t : Tx) : Block :=
  (b.setPf p fun x => { x with sending := some t, busyAt := b.cyc, gap := 0 }).spend (.egress (Fin.ofNat 32 p)) (cellsOf t.bytes)

/-- The credits of a copy that has left port p, or is cut, back with the scheduler. -/
def Block.refundTx (b : Block) (p : Nat) (t : Tx) : Block := b.refund (.egress (Fin.ofNat 32 p)) (cellsOf t.bytes)

-- Own frames (R279, R404)

/-- A response as bytes (Table 15.3). -/
def Response.bytes (r : Response) : Bytes :=
  toLE 1 r.op ++ toLE 1 r.status ++ toLE 2 r.token ++ toLE 2 r.index ++ toLE 1 r.sub ++ toLE 1 r.ty ++ toLE 4 r.aux ++ toLE 2 r.data.length
    ++ toLE 2 0 ++ r.data

/-- The module's own MAC address. -/
def Block.ownMac (b : Block) : Bytes := (b.blob Od.ID_MAC_ADDRESS ++ List.replicate 6 0).take 6

/-- An in-band frame that carries a message (R404): to an address with a VID, KIND 1 request, 2 response, 3 event. -/
def Block.inbandFrame (b : Block) (vid dest kind : Nat) (msg : Bytes) : Bytes :=
  let tag : Bytes := if vid = 0 then [] else toBE 2 0x8100 ++ toBE 2 vid
  let l := toBE 6 dest ++ b.ownMac ++ tag ++ toBE 2 0x88B5 ++ toBE 1 1 ++ toBE 1 kind ++ toBE 2 0 ++ msg
  withFcs (l ++ List.replicate (60 - l.length) 0)

/-- The bytes of an own frame on port p. -/
def Own.bytes (b : Block) : Own → Bytes
  | .response (.inband _ vid src) r => b.inbandFrame vid src 2 r.bytes
  | .event (.inband _ vid src) e => b.inbandFrame vid src 3 e.bytes
  | .frame l => l
  | _ => []

/-- What leaves port p with an own frame. -/
def Own.output (p : Nat) : Own → Output
  | .response c r => .response c r
  | .event c e => .event c e
  | .frame l => .frame p l
  | .held l => .frame p l

/-- A frame of the module's own as the injector sees it. -/
def Block.ownTx (b : Block) (p : Nat) (o : Own) : Tx :=
  { desc := ⟨0, b.cyc, 0, 32, 0, none⟩, queue := b.rdN (Od.EQ_OWN_QUEUE p), bytes := o.bytes b, stomped := false, cut := false, own := some o }

/-- An own frame past the injector: sent as it is, or with the bytes that the injector left it, and counted. A PTP event message that it held
leaves at its own command, which is then not held again (R475). (PRESUMED, log 33; DEDUCED, log 61 and 68.) -/
def Block.ownOut (b : Block) (p : Nat) (o : Own) (t : Tx) : Block :=
  match o with
  | .held _ => b.setFip p fun f => { f with through := f.through + 1 }
  | _ =>
    let n := t.bytes.length
    let b := b.emit (if t.bytes = o.bytes b then o.output p else .frame p t.bytes)
    let b := (((b.bump (Od.P_TX_FRAMES p) 1).bump (Od.P_TX_OCTETS p) n).bump (Od.EQ_TX_FRAMES p t.queue) 1).bump Od.CNT_FIXED_TX_FRAMES 1
    ((b.setPf p fun x => { x with busyAt := b.cyc }).tally 1 p 1).tally 1 p 4

/-- A frame past the injector: a stored copy begins to leave, an own frame has left. -/
def Block.sendTx (b : Block) (p : Nat) (t : Tx) : Block :=
  match t.own with
  | some o => b.ownOut p o t
  | none => b.startTx p t

/-- A frame that leaves its queue, through the injector (R475). -/
def Block.leave (b : Block) (p : Nat) (t : Tx) : Block :=
  match b.fipPass p t with
  | (some t, b) => b.sendTx p t
  | (none, b) => b

/-- An own frame that starts: paid for at the shapers, then through the injector. -/
def Block.ownLeave (b : Block) (p : Nat) (o : Own) : Block :=
  let t := b.ownTx p o
  (b.payShapers p t.queue t.bytes.length).leave p t

/-- A frame of the module's own for port p: sent now, or behind those that wait. (DEDUCED, log 61.) -/
def Block.ownSend (b : Block) (p : Nat) (o : Own) : Block :=
  let n := (o.bytes b).length
  let b := b.fillShapers p
  if (b.pf p).own.isEmpty && b.ownClear p n then b.ownLeave p o
  else (b.setPf p fun x => { x with own := x.own ++ [(o, n)] }).wakePort p

/-- The frame whose departure a command is: sent if it can start now; an idle port is woken for it. -/
def Block.ownTurn (b : Block) (p n : Nat) (send : Block → Block) : Block :=
  let b := b.fillShapers p
  if b.on (Od.P_IDLE p) then b.wakePort p else if b.ownClear p n then send b else b

/-- The oldest own frame that waits on port p sent, if it can start. -/
def Block.ownNext (b : Block) (p : Nat) : Block :=
  match (b.pf p).own with
  | (o, n) :: rest => if b.ownClear p n then ((b.setPf p fun x => { x with own := rest }).ownLeave p o) else b
  | [] => b

/-- A PTP event message of port p whose departure a command is. The injector may remove it, after which the module goes on as if it had been sent
(`gone`), or hold it, after which a later command is its departure; else it leaves, with its stamp, and `sent` says what follows (R475). (DEDUCED, log 68.) -/
def Block.eventMsg (b : Block) (p : Nat) (l : Bytes) (gone sent : Block → Block) : Block :=
  b.ownTurn p l.length fun b =>
    if (b.pf p).fip.through ≠ 0 then
      sent (((b.setFip p fun f => { f with through := f.through - 1 }).ownOut p (.frame l) (b.ownTx p (.frame l))).tally 1 p 7)
    else
      let kind := (b.pf p).fip.kind
      let t := { b.ownTx p (.frame l) with own := some (.held l) }
      match (b.payShapers p t.queue l.length).fipPass p t with
      | (some t, b) => sent ((b.ownOut p (.frame l) t).tally 1 p 7)
      | (none, b) => if kind = 1 then gone b else b

end Sys2Proof.Machine
end

