-- ==== Sys2Proof/Machine/Stamps.lean ====
section
/-! DEFINITION. Converters and the stamps formed with them: Table 7.1, bin widths and code times (R174, R178), the stamp of a bit on a port's lane (R68 to
R70), the reference planes (R71, R72). -/

namespace Sys2Proof.Machine

/-- The calibration state changed. -/
def Block.setCal (b : Block) (f : Cal → Cal) : Block := { b with tm := { b.tm with cal := f b.tm.cal } }
/-- Converter c, and the module with it changed. -/
def Block.conv (b : Block) (c : Nat) : Conv := tat {} b.tm.cal.conv c
def Block.setConv (b : Block) (c : Nat) (f : Conv → Conv) : Block := b.setCal fun x => { x with conv := tmod {} x.conv c f }

-- Converters (Table 7.1)

/-- Whether a converter has a twin (Table 7.1): all but the measurement verniers. -/
def hasTwin (c : Nat) : Bool := decide (c < 36) || decide (44 ≤ c)

/-- The port whose lane n is (Table 9.1): a lower port in 100G that reaches it, else Pn. -/
def Block.portOfLane (b : Block) (n : Nat) : Nat := b.laneOwner n

/-- The span of a converter in fs (Table 7.1). -/
def Block.convSpan (b : Block) (c : Nat) : Nat :=
  if c < 32 then
    match b.modeNow (b.portOfLane c) with
    | 1 => 8000000
    | 2 => 6400000
    | _ => 2560000
  else 10000000

/-- The nominal bins of a converter (Table 7.1). -/
def Block.convBins (b : Block) (c : Nat) : Nat :=
  if c < 32 then
    match b.modeNow (b.portOfLane c) with
    | 1 => 5000
    | 2 => 4000
    | _ => 1600
  else if c < 44 then 6250 else 12800

/-- Twice the width sum up to the middle of a code's bin (R178), in the table's units. -/
def Bins.twice (t : Bins) (code : Nat) : Nat := 2 * (t.bins.take code).foldl (· + ·) 0 + t.bins.getD code 0

/-- t_k of a code plus an offset in fs, in fs and in ticks, rounded once: from the table in force (R178), or the factory's. -/
def Block.codeFs (b : Block) (c code : Nat) (off : Int) : Int :=
  let t := (b.conv c).table
  if t.bins.isEmpty then (Config.factoryTime c code % b.convSpan c : Nat) + off
  else roundDiv ((t.span * t.twice code : Nat) + off * (2 * t.den : Nat)) (2 * t.den)
def Block.codeTicks (b : Block) (c code : Nat) (off : Int) : Int :=
  let t := (b.conv c).table
  if t.bins.isEmpty then fsToTicks ((Config.factoryTime c code % b.convSpan c : Nat) + off)
  else roundDiv (((t.span * t.twice code : Nat) + off * (2 * t.den : Nat)) * 65536) (2 * t.den * 1000000)

/-- Width in fs of the bin of a code. -/
def Block.codeBin (b : Block) (c code : Nat) : Nat :=
  let t := (b.conv c).table
  if t.bins.isEmpty then Config.factoryBin c code % b.convSpan c else (roundDiv (t.span * t.bins.getD code 0 : Nat) t.den).toNat

/-- A converter's reading of a live edge in ticks (R178, R187): the time of its code, less what is left of the offset of its last twin swap. -/
def Block.reading (b : Block) (c code : Nat) : Int := b.codeTicks c code 0 - b.corr (twinItem c)

-- Stamps (R68 to R70)

/-- The unit interval of a port mode in fs (R69). -/
def unitInterval (mode : Nat) : Nat := if mode = 1 then 800000 else if mode = 2 then 96970 else 38788

/-- E of R69: the counter's reading on the Vesper cycle against which the lane-clock edge was measured, and the lane phase meter's reading (R70). (DEDUCED, log 129.) -/
def Block.laneEdge (b : Block) (p : Nat) (s : Stamp) : Int := (b.mer : Int) - (s.ago * 655360 : Nat) + b.reading (p + s.lane) s.code

/-- The stamp of a bit at port p's stamp point (R69): E + k × UI, in ticks. (DEDUCED, log 129.) -/
def Block.stampAt (b : Block) (p : Nat) (s : Stamp) : Int := b.laneEdge p s + fsToTicks (s.k * unitInterval (b.pMode p) : Nat)

-- Reference planes (R71, R72)

/-- Table 3.1 in ps by port mode and FEC: MAC egress, MAC ingress, Reel transmit, Reel receive. -/
def corrections (mode fec : Nat) : Int × Int × Int × Int :=
  match mode, fec with
  | 1, _ => (44800, 68800, 0, 0)
  | 2, 1 => (35840, 246400, 26880, 236800)
  | 2, _ => (28160, 41600, 19200, 32000)
  | 3, 1 => (19200, 106240, 14080, 101120)
  | 3, 2 => (23040, 257280, 17920, 252160)
  | 3, _ => (16640, 24320, 11520, 19200)
  | 4, 2 => (26880, 112640, 21760, 107520)
  | 4, _ => (21760, 35840, 16640, 30720)
  | _, _ => (0, 0, 0, 0)

/-- Table 3.1 for port p as its MODE and FEC stand. -/
def Block.portCorrections (b : Block) (p : Nat) : Int × Int × Int × Int := corrections (b.pMode p) (b.pFec p)

/-- A departure stamp moved to the fibre face; `corr` is the egress correction in ps, `lane` the lane of the stamped bit. (DEDUCED, log 36.) -/
def Block.departFace (b : Block) (p lane : Nat) (corr stamp : Int) : Int :=
  stamp + psToTicks (corr + b.rd (Od.LT_BOARD_TX_DELAY p) + b.rd (Od.LT_OPTIC_TX_DELAY p)) + b.corr (txItem (p + lane))

/-- An arrival stamp moved to the fibre face; `corr` is the ingress correction in ps. (DEDUCED, log 36.) -/
def Block.arriveFace (b : Block) (p lane : Nat) (corr stamp : Int) : Int :=
  stamp - psToTicks (corr + b.rd (Od.LT_BOARD_RX_DELAY p) + b.rd (Od.LT_OPTIC_RX_DELAY p)) - b.rd (Od.LT_DESKEW p) - b.corr (rxItem (p + lane))

/-- A frame stamp of an arriving and of a departing bit at the fibre face (R68, R71, R72), and the same of a Reel marker. -/
def Block.frameArrival (b : Block) (p : Nat) (s : Stamp) : Int := b.arriveFace p s.lane (b.portCorrections p).2.1 (b.stampAt p s)
def Block.frameDeparture (b : Block) (p : Nat) (s : Stamp) : Int := b.departFace p s.lane (b.portCorrections p).1 (b.stampAt p s)
def Block.markerArrival (b : Block) (p : Nat) (s : Stamp) : Int := b.arriveFace p s.lane (b.portCorrections p).2.2.2 (b.stampAt p s)
def Block.markerDeparture (b : Block) (p : Nat) (s : Stamp) : Int := b.departFace p s.lane (b.portCorrections p).2.2.1 (b.stampAt p s)

end Sys2Proof.Machine
end

