-- ==== Sys2Proof/Machine/Engines.lean ====
section
/-! DEFINITION. The phase engines' loop filter, bandwidth clamp, lock detector and frequency word (R97 to R106), software steering
(R155, R156) and the holdover model's frequency (R162). Arithmetic is in fixed point, rounded toward minus infinity (log 12). -/

namespace Sys2Proof.Machine

/-- The most steps FW may take either way: ±10 ppm (R98). -/
def fwLimit : Int := 281474976711

/-- ωₙ in 10⁻⁹ rad/s for a bandwidth in mHz and a damping ζ × 100 (R101). (DESIGN CHOICE, log 12.) -/
def omegaNano (bw zeta : Nat) : Nat :=
  let a := 10000 + 2 * zeta * zeta
  let r := isqrt ((a * a + 10 ^ 8) * 10 ^ 16)
  let s := isqrt ((a * 10 ^ 8 + r) * 10 ^ 20)
  bw * 10 ^ 22 * 6283185307179586 / (s * 10 ^ 15)

/-- Kp = 2ζωₙ in 10⁻⁹ per second (R101). (DESIGN CHOICE, log 12.) -/
def kpNano (bw zeta : Nat) : Nat := zeta * omegaNano bw zeta / 50

/-- Ki = ωₙ² × Ts in 10⁻¹⁸ per second and sample, the sample rate in mHz (R101). (DESIGN CHOICE, log 12.) -/
def kiAtto (bw zeta rate : Nat) : Nat := if rate = 0 then 0 else omegaNano bw zeta * omegaNano bw zeta * 1000 / rate

/-- A correction of k × 10⁻⁹ per second on an error in ticks, in 10⁻⁹ steps of the frequency word (R98: 100 × 2⁴⁸ steps to a unit). (DESIGN CHOICE, log 12.) -/
def stepsNano (k : Nat) (err : Int) : Int := (k : Int) * err * 4294967296 / 10 ^ 7

/-- The software steering in force at this cycle, in ppt (R155). (DEDUCED, log 45.) -/
def Block.steerNow (b : Block) : Int := b.tm.osc.steer.unit b.cyc

/-- Bit [0] of STEER_STICKY, set while clipping applies (R156). -/
def Block.clipSticky (b : Block) : Block := if b.tm.osc.clipped then b.orBits Od.STEER_STICKY 1 else b

/-- The steering added to FW at this cycle: none while a slot is SELECTED (R155). -/
def Block.steerIn (b : Block) : Int := if b.selected.isSome then 0 else b.steerNow

/-- FW from the loop or the model, plus the steering in force, kept within its limit (R98, R156). (DESIGN CHOICE, log 12.) -/
def Block.setFw (b : Block) (loop : Int) : Block :=
  let added := b.steerIn
  let steer := added * 281475 / 10
  let fw := clampI (-fwLimit) fwLimit (loop + steer)
  let cut := decide (fw ≠ loop + steer)
  let b := b.wr (Od.PE_FREQ_WORD 0) fw
  let hit := decide (fw = fwLimit ∨ fw = -fwLimit)
  let b := if hit && !(b.pe 0).atLimit then (b.orBits (Od.PE_STICKY 0) 8).raise 0x2404 0 else b
  let b := b.setPe 0 fun p => { p with atLimit := hit }
  let clips := cut && decide (steer ≠ 0)
  let b := if clips && !b.tm.osc.clipped then b.raise 0x2708 else b
  (b.setOsc fun o => { o with loop := loop, added := added, clipped := clips }).clipSticky

/-- FW formed again where the steering in force has moved since it was last formed (R155). -/
def Block.reformFw (b : Block) : Block := if b.steerIn = b.tm.osc.added then b else b.setFw b.tm.osc.loop

/-- The port whose exchanges a domain observer tracks: the lowest port of its set whose mode matches its KIND (R90). (DEDUCED, log 27.) -/
def Block.observerPort (b : Block) (d : Nat) : Option Nat :=
  let want := b.rdN (Od.DOMX_KIND d)
  ((maskBits 32 (b.rdN (Od.DOMX_PORTS d))).filter fun p =>
    (want == 2 && b.ltMode p == 1) || (want == 1 && b.ltMode p == 2)).head?

/-- The port a slot takes its source from, where its kind has one. -/
def Block.slotPort (b : Block) (k : Nat) : Option Nat :=
  match b.slotKind k with
  | 1 | 2 | 3 => some (b.rdN (Od.SLOT_PORT k))
  | 7 => some 31
  | 8 => b.observerPort 0
  | 9 => b.observerPort 1
  | _ => none

/-- The domainNumber a slot of kind PORT_PTP takes, or that a slot of a PTP domain's observer does (Table 5.1). -/
def Block.slotDomainNumber (b : Block) (k : Nat) : Nat := b.rdN (Od.DOMX_PTP_DOMAIN (b.slotDomain k - 1))

/-- What port p receives of a PTP domain. -/
def Block.ptpDom (b : Block) (p dom : Nat) : PtpDom := tat {} (tat {} b.tm.ptp p).dom dom

/-- A PTP logMessageInterval as a rate in mHz. -/
def logRate (l : Int) : Nat := if l < 0 then 1000 * 2 ^ (-l).toNat else 1000 / 2 ^ l.toNat

/-- PE0's sample rate for a slot in mHz (Table 4.2). -/
def Block.slotRate (b : Block) (k : Nat) : Nat :=
  let reel (p : Nat) := b.ltRate p * 1000
  let ptp (p : Nat) := logRate (b.ptpDom p (b.slotDomainNumber k)).logSync
  match b.slotKind k with
  | 1 | 7 => reel ((b.slotPort k).getD 0)
  | 2 => ptp ((b.slotPort k).getD 0)
  | 3 => 1000000
  | 4 => 1000
  | 5 => if b.on (Od.REFIN_PULSE 0) then 1000 else 1000000
  | 6 => if b.on (Od.REFIN_PULSE 1) then 1000 else 1000000
  | 8 => if b.rdN (Od.DOMX_KIND 0) = 2 then reel ((b.slotPort k).getD 0) else ptp ((b.slotPort k).getD 0)
  | 9 => if b.rdN (Od.DOMX_KIND 1) = 2 then reel ((b.slotPort k).getD 0) else ptp ((b.slotPort k).getD 0)
  | _ => 0

/-- An engine's sample rate in mHz (R100). -/
def Block.engineRate (b : Block) (e : Nat) : Nat :=
  if e = 0 then match b.selected with | some k => b.slotRate k | none => 0 else 1000000000

/-- An engine's bandwidth brought into force (R102): the one its state asks for, at most a twentieth of the sample rate. -/
def Block.setBandwidth (b : Block) (e : Nat) : Block :=
  let want :=
    if b.rdN (Od.PE_LOCK_STATUS e) = 1 then (if e = 1 then b.rdN (Od.PE_BANDWIDTH 1) else b.rdN (Od.PE_ACQ_BANDWIDTH e))
    else b.rdN (Od.PE_BANDWIDTH e)
  let most := b.engineRate e / 20
  let cut := decide (most < want)
  let b := b.wr (Od.PE_BW_IN_USE e) (min want most : Nat)
  let b := if cut && !(b.pe e).clamped then (b.orBits (Od.PE_STICKY e) 4).raise 0x2403 e else b
  b.setPe e fun p => { p with clamped := cut }

/-- The sum of squares of a list of integers. -/
def sumSquares (l : List Int) : Nat := l.foldl (fun a x => a + x.natAbs * x.natAbs) 0

/-- The lock detector's report: ē over 8 samples, σ over 64, and the tracking bound 10 ps + |ē| + 3σ (R104, R106). (DESIGN CHOICE, log 12; DEDUCED, log 17.) -/
def Block.reportLoop (b : Block) (e : Nat) : Block :=
  let errs := (b.pe e).errs
  let mean := meanI (errs.take 8)
  let rms := if errs.isEmpty then 0 else isqrtUp (divUp (sumSquares (errs.take 64) * 1000000) (4294967296 * (errs.take 64).length))
  ((b.wr (Od.PE_PHASE_ERROR e) mean).wr (Od.PE_PHASE_RMS e) (min rms unknownUnc : Nat)).wr (Od.PE_LOOP_UNC e)
    (min unknownUnc (10 + ticksToPsUp mean + 3 * rms) : Nat)

/-- Outputs resume at the first grid edge from now on, where nothing holds them at their idle level (R122). -/
def Block.resumeOuts (b : Block) (l : List Nat) : Block :=
  l.foldl (fun b n =>
    if (b.out n).invalid || (b.out n).squelched || !b.engineReady (b.out n).cfg.source then b.setOut n fun o => { o with held := true }
    else b.startOut n b.mer) b

/-- What follows when an engine becomes LOCKED (R104): PE0's state, or the outputs an engine drives resuming on their grid (R122). -/
def Block.onLock (b : Block) (e : Nat) : Block :=
  let b := (b.wr (Od.PE_LOCK_STATUS e) 2).raise 0x2401 e
  if e = 0 then b.setPe0 2
  else
    (b.resumeOuts (b.outsOf e)).refreshOuts

/-- What follows when an engine loses lock (R104). -/
def Block.onUnlock (b : Block) (e : Nat) : Block :=
  let b := ((b.wr (Od.PE_LOCK_STATUS e) 1).orBits (Od.PE_STICKY e) 1).raise 0x2402 e
  if e = 0 then b.setPe0 1 else (b.holdEngine e b.mer).refreshOuts

/-- The lock detector after a sample (R104). PE0 becomes LOCKED from ACQUIRING only, and not while a return runs (R171). (DEDUCED, log 17.) -/
def Block.lockDetector (b : Block) (e : Nat) : Block :=
  let p := b.pe e
  let sum8 := (sumI (p.errs.take 8)).natAbs * 1000
  let thr := 8 * b.rdN (Od.PE_LOCK_THRESHOLD e) * 65536
  let st := b.rdN (Od.PE_LOCK_STATUS e)
  if p.errs.length < 8 then b
  else if st = 1 then
    if sum8 ≤ thr then
      let since := p.within.getD b.cyc
      let b := b.setPe e fun p => { p with within := some since, overs := 0 }
      if since + ms (b.rdN (Od.PE_LOCK_TIME e)) ≤ b.cyc && (e != 0 || (b.pe0 == 1 && b.rdN Od.RET_STATE == 0)) then b.onLock e else b
    else b.setPe e fun p => { p with within := none }
  else if st = 2 then
    if 4 * thr < sum8 then
      if p.overs + 1 < 3 then b.setPe e fun p => { p with overs := p.overs + 1 }
      else (b.setPe e fun p => { p with overs := 0, within := none }).onUnlock e
    else b.setPe e fun p => { p with overs := 0 }
  else b

/-- The integrator of PE0 in 10⁻³ ppt (R158). (DESIGN CHOICE, log 12.) -/
def yMilli (integ : Int) : Int := integ * 2000 / (56295 * 10 ^ 9)

/-- One phase sample of an engine (R101 to R106); `err` is its phase error in ticks, reference minus engine. (DESIGN CHOICE, log 4.) -/
def Block.peSample (b : Block) (e : Nat) (err : Int) : Block :=
  -- PE1, which always runs, acquires from its first sample on
  let b := if e = 1 ∧ b.rdN (Od.PE_LOCK_STATUS 1) = 0 then b.wr (Od.PE_LOCK_STATUS 1) 1 else b
  let b := (b.setBandwidth e).tally 9 0 0 (b2n (e == 0))
  let err := if e = 0 then err - b.corr (twinItem 32) else err
  let bw := b.rdN (Od.PE_BW_IN_USE e)
  let z := b.rdN (Od.PE_DAMPING e)
  let integ := (b.pe e).integ + stepsNano (kiAtto bw z (b.engineRate e)) err / 10 ^ 9
  let y := (stepsNano (kpNano bw z) err + integ) / 10 ^ 9
  -- the samples of the last 10 s, the most HO_GUARD may be, and the one before them
  let keep := let near := (b.pe e).history.takeWhile fun h => decide (b.cyc ≤ h.1 + secs 10)
    near ++ ((b.pe e).history.drop near.length).take 1
  let b := b.setPe e fun p =>
    { p with integ := integ, errs := (err :: p.errs).take 64, history := if e = 0 then (b.cyc, integ) :: keep else [] }
  let b := if e = 0 then
      let b := b.setFw y
      if b.pe0 = 2 ∧ !b.on Od.OSC_WARMUP then b.setHo fun h => { h with secY := h.secY + yMilli integ, secN := h.secN + 1 } else b
    else
      -- the scale of the word of PE1 to PE3 is not stated (log 4)
      let (f, b) := b.draw (2 ^ 48)
      b.wr (Od.PE_FREQ_WORD e) (signed 48 f)
  (b.reportLoop e).lockDetector e

/-- The lock detector begun again on a new target (R146 rule 3). (DEDUCED, log 17.) -/
def Block.restartDetector (b : Block) : Block := b.setPe 0 fun p => { p with errs := [], within := none, overs := 0 }

/-- The holdover model's frequency in 10⁻³ ppt at this cycle (R162). (DESIGN CHOICE, log 12; DEDUCED, log 19.) -/
def Block.modelY (b : Block) : Int :=
  let h := b.tm.ho
  h.ye + b.rd Od.HO_AGEING * 1000 * (((b.cyc - h.te) / secs 1 : Nat) : Int) / 86400
    + b.rd Od.HO_TEMP_COEF * (b.rd Od.OSC_COMPARTMENT_TEMP - h.tempE)

/-- FW set from the holdover model (R162), and the loop's integrator preset to it, from which a return goes on (R144, R171). (DEDUCED, log 142.) -/
def Block.applyModel (b : Block) : Block :=
  let y := b.modelY
  (b.setFw (y * 281475 / 10000)).setPe 0 fun p => { p with integ := y * 281475 * 10 ^ 5 }

/-- The seconds until H reaches the budget at the present compartment temperature (R165): the most whole seconds in which H stays within it, as the
example after R166 rounds. After s seconds more H is (h0 + lin · s + quad · s²) / 864000, solved by bisection over 2³² seconds. (DEDUCED, log 18.) -/
def timeLeft (h0 lin quad budget : Nat) : Nat :=
  let within (s : Nat) : Bool := decide (h0 + lin * s + quad * s * s ≤ 864000 * budget)
  if 864000 * budget ≤ h0 then 0
  else if within (2 ^ 32 - 2) then 2 ^ 32 - 2
  else ((List.range 32).foldl (fun (r : Nat × Nat) _ =>
      let mid := (r.1 + r.2) / 2
      if within mid then (mid, r.2) else (r.1, mid)) (0, 2 ^ 32 - 2)).1

/-- 864000 × H(τ) of R164 in ps for the elapsed time and integrals held, the unit in which every term of it is whole. (DESIGN CHOICE, log 12.) -/
def Block.holdoverSum (b : Block) (tau : Nat) : Nat :=
  864000 * (b.rdN Od.HO_FREQ_UNC * tau + b.tm.ho.steerInt) + 5 * b.rdN Od.HO_AGEING_UNC * tau * tau + 864 * b.rdN Od.HO_TEMP_UNC * b.tm.ho.tempInt

/-- H(τ) in ps, rounded up. (DESIGN CHOICE, log 12.) -/
def Block.holdoverTerm (b : Block) (tau : Nat) : Nat := min unknownUnc (divUp (b.holdoverSum tau) 864000)

/-- The τ still to run after a time in holdover (R165). (DEDUCED, log 18.) -/
def Block.holdoverLeft (b : Block) (tau : Nat) : Nat :=
  let dT := (b.rd Od.OSC_COMPARTMENT_TEMP - b.tm.ho.tempE).natAbs
  let uD := b.rdN Od.HO_AGEING_UNC
  timeLeft (b.holdoverSum tau) (864000 * (b.rdN Od.HO_FREQ_UNC + b.steerNow.natAbs) + 10 * uD * tau + 864 * b.rdN Od.HO_TEMP_UNC * dT) (5 * uD) (b.rdN Od.HO_BUDGET)

/-- The HO_TIME_LEFT warning, once per holdover (R165): also where leaving specification makes it 0. -/
def Block.warnTimeLeft (b : Block) : Block :=
  if (b.pe0 = 3 ∨ b.pe0 = 4) ∧ !b.tm.ho.warned ∧ b.rdN Od.HO_TIME_LEFT < b.rdN Od.HO_WARN_TIME then
    ((b.setHo fun h => { h with warned := true }).orBits Od.HO_STICKY 4).raise 0x2705
  else b

/-- HO_ELAPSED, HO_TERM and HO_TIME_LEFT for the elapsed time, with its warning (R164, R165). (DEDUCED, log 18.) -/
def Block.reportHoldover (b : Block) (tau : Nat) : Block :=
  let b := (b.wr Od.HO_ELAPSED (min tau (2 ^ 32 - 1) : Nat)).wr Od.HO_TERM (b.holdoverTerm tau)
  (b.wr Od.HO_TIME_LEFT (if b.pe0 = 4 then 0 else b.holdoverLeft tau)).warnTimeLeft

/-- Holdover entered (R162): y_e from the last sample HO_GUARD before the loss (or from the end of the last LOCKED period), E₀ the
uncertainty just before, τ from 0. (DEDUCED, log 19.) -/
def Block.enterHoldover (b : Block) (unc : Nat) : Block :=
  let guard := ms (b.rdN Od.HO_GUARD)
  let fromLocked := b.pe0 == 2
  let (ye, te, tempE) :=
    if fromLocked then
      let h := ((b.pe 0).history.find? fun h => decide (h.1 + guard ≤ b.cyc)).getD (b.cyc, (b.pe 0).integ)
      (yMilli h.2, b.cyc, b.rd Od.OSC_COMPARTMENT_TEMP)
    else
      let (i, t, temp) := b.tm.ho.lockEnd
      let dt : Int := ((b.cyc - t) / secs 1 : Nat)
      (yMilli i + b.rd Od.HO_AGEING * 1000 * dt / 86400 + b.rd Od.HO_TEMP_COEF * (b.rd Od.OSC_COMPARTMENT_TEMP - temp),
        b.cyc, b.rd Od.OSC_COMPARTMENT_TEMP)
  let b := b.setHo fun h =>
    { h with ye := ye, te := te, tempE := tempE, e0 := unc, startAt := some b.cyc, stopped := 0, tempInt := 0, steerInt := 0, warned := false }
  (b.setPe0 3).applyModel.reportHoldover 0

end Sys2Proof.Machine
end

