-- ==== Sys2Proof/Machine/Selector.lean ====
section
/-! DEFINITION. Candidate slots, their monitors and ranks, the selector and its transfers (R132 to R149, R525), the loss of a reference
and the return to one (R162 to R172). -/

namespace Sys2Proof.Machine

-- Sources

/-- Whether a slot takes time of day (Table 5.1): every kind but PORT_FREQ and a REFIN slot without its pulse. -/
def Block.timeCapable (b : Block) (k : Nat) : Bool :=
  match b.slotKind k with
  | 1 | 2 | 4 | 7 | 8 | 9 => true
  | 5 => b.on (Od.REFIN_PULSE 0)
  | 6 => b.on (Od.REFIN_PULSE 1)
  | _ => false

/-- Whether a slot's time names its second: time-capable and not a REFIN slot (R42). -/
def Block.namesSecond (b : Block) (k : Nat) : Bool := b.timeCapable k && b.slotKind k != 5 && b.slotKind k != 6

/-- The period of a port's Reel markers in cycles. -/
def Block.markerPeriod (b : Block) (p : Nat) : Nat := if b.ltRate p = 0 then secs 1 else secs 1 / b.ltRate p

/-- A Reel source active (Table 5.1): MODE REEL, STATE MEASURING or VALID, a valid T marker in the last 3 periods. -/
def Block.reelActive (b : Block) (p : Nat) : Bool :=
  b.ltMode p == 1 && b.lit p && !b.inTest p && (b.rdN (Od.LT_STATE p) == 3 || b.rdN (Od.LT_STATE p) == 4) &&
    match (tat {} b.tm.reel p).lastT with
    | some t => decide (b.cyc ≤ t + 3 * b.markerPeriod p)
    | none => false

/-- Whether a REFIN input gives a reference (Table 5.1, R130). -/
def Block.refinActive (b : Block) (r : Nat) : Bool :=
  let st := b.rdN (Od.REFIN_STATUS r)
  let pulse := b.on (Od.REFIN_PULSE r)
  let freq := b.rdN (Od.REFIN_FREQ r) != 0
  b.fnRuns (36 + r) && (pulse || freq) && (!pulse || bit st 0) && (!freq || bit st 1)

/-- Whether the source of slot k is active (Table 5.1). -/
def Block.sourceActive (b : Block) (k : Nat) : Bool :=
  let p := b.rdN (Od.SLOT_PORT k)
  match b.slotKind k with
  | 1 => b.reelActive p
  | 2 =>
    let q := b.ptpDom p (b.slotDomainNumber k)
    !b.standby && b.rdN (Od.LT_MODE p) == 2 && b.fnRuns p && b.on (Od.P_LINK p) && !b.inTest p && q.lastSync.isSome && q.parent.isSome
  | 3 => b.on (Od.P_LINK p) && !b.inTest p
  | 4 => !b.standby && b.fnRuns 85 && decide (1 ≤ b.rdN Od.GNSS_FIX_CLASS) && decide (b.cyc ≤ b.gn.solvedAt + secs 2)
  | 5 => b.refinActive 0
  | 6 => b.refinActive 1
  | 7 => b.reelActive 31
  | 8 => b.fnRuns 38 && b.rdN (Od.DOMX_STATE 0) == 2
  | 9 => b.fnRuns 39 && b.rdN (Od.DOMX_STATE 1) == 2
  | _ => false

-- Ranks

/-- The rank of an SSM code (Table 5.2). -/
def rankOfQl (ql : Nat) : Nat := if ql = 2 then 1 else if ql = 4 then 2 else if ql = 8 then 3 else if ql = 11 then 4 else 15

/-- The rank of a clockClass (Table 5.2). -/
def rankOfClass (c : Nat) : Nat :=
  if c = 6 ∨ c = 13 then 1
  else if c = 7 ∨ c = 14 then 2
  else if c = 52 ∨ c = 58 ∨ c = 140 ∨ c = 150 ∨ c = 160 ∨ c = 187 ∨ c = 193 then 3
  else if c = 248 then 4 else 15

/-- The clockClass of slow word 3 received on a port, none before it has arrived. -/
def Block.slowClass (b : Block) (p : Nat) : Option Nat := (tget (tat {} b.tm.reel p).words 3).map (bits · 8 8)

/-- Whether a slot takes its time from an ARB domain that is not accepted (R57). -/
def Block.arbRefused (b : Block) (k : Nat) : Bool :=
  let d := b.slotDomain k
  d != 0 && tat false b.tm.mt.obsArb (d - 1) && !b.on (Od.DOMX_ACCEPT_ARB (d - 1))

/-- A slot's rank as its received quality gives it (R134, Table 5.2). -/
def Block.rankNow (b : Block) (k : Nat) : Nat :=
  if b.arbRefused k then 15
  else match b.slotKind k with
    | 1 | 7 => match b.slowClass ((b.slotPort k).getD 0) with | some c => rankOfClass c | none => 15
    | 2 => match (b.ptpDom (b.rdN (Od.SLOT_PORT k)) (b.slotDomainNumber k)).parent with | some a => rankOfClass a.cls | none => 15
    | 3 => rankOfQl (b.rdN (Od.LT_QL_RX (b.rdN (Od.SLOT_PORT k))))
    | 4 => let f := b.rdN Od.GNSS_FIX_CLASS; if f = 3 then 1 else if f = 2 then 2 else if f = 1 then 3 else 15
    | 5 | 6 => b.rdN (Od.SLOT_QL_MANUAL k)
    | 8 => rankOfClass (tat 255 b.tm.mt.obsClass 0)
    | 9 => rankOfClass (tat 255 b.tm.mt.obsClass 1)
    | _ => 15

/-- Whether the quality monitor's condition holds (Table 5.3). -/
def Block.qualityBad (b : Block) (k : Nat) : Bool :=
  b.rdN (Od.SLOT_RANK k) == 15 || (b.rdN Od.SEL_PHASE == 0 && decide (b.rdN (Od.SLOT_QL_MIN k) < b.rdN (Od.SLOT_RANK k)))

-- Slot states

/-- Slot k in a new state (R139): history bit, event as masked. -/
def Block.setSlotState (b : Block) (k st : Nat) : Block :=
  let b := (b.wr (Od.SLOT_STATE k) st).orBits (Od.SLOT_HISTORY k) (2 ^ st)
  if bit (b.rdN (Od.SLOT_EVENT_MASK k)) st then b.raise 0x2620 k st else b

/-- A slot's state: 0 ABSENT, 1 DISQUALIFIED, 2 WAITING, 3 QUALIFIED, 4 SELECTED. -/
def Block.slotState (b : Block) (k : Nat) : Nat := b.rdN (Od.SLOT_STATE k)

/-- The slots in some state that holds for them. -/
def Block.slotsWhere (b : Block) (p : Nat → Bool) : List Nat := (List.range 24).filter fun k => p (b.slotState k)

/-- The order of R142 as a number: time-capable first, then rank outside NORMAL, then priority, then slot number. -/
def Block.orderKey (b : Block) (k : Nat) : Nat :=
  let rank := if b.rdN Od.SEL_PHASE = 0 then 0 else b.rdN (Od.SLOT_RANK k)
  ((b2n (!b.timeCapable k) * 16 + rank) * 256 + b.rdN (Od.SLOT_PRIORITY k)) * 32 + k

/-- The best-ordered slot of a list. -/
def Block.best (b : Block) : List Nat → Option Nat
  | [] => none
  | k :: r => match b.best r with
    | none => some k
    | some j => some (if b.orderKey k ≤ b.orderKey j then k else j)

/-- The witnesses of slot k: the two best-ordered other slots QUALIFIED or SELECTED (R136). (DEDUCED, log 39.) -/
def Block.witnesses (b : Block) (k : Nat) (onlyTime : Bool) : Option (Nat × Nat) :=
  let c := (b.slotsWhere fun st => st == 3 || st == 4).filter fun j => j != k && (!onlyTime || b.timeCapable j)
  match b.best c with
  | none => none
  | some w => match b.best (c.filter (· != w)) with
    | none => none
    | some v => some (w, v)

/-- No slot QUALIFIED and none SELECTED (R148): the sticky bit each time that comes about, the event once until a slot has been SELECTED. -/
def Block.checkNone (b : Block) : Block :=
  if (b.slotsWhere fun st => st == 3 || st == 4).isEmpty then
    let b := b.orBits Od.SEL_STICKY 2
    if b.tm.sel.noneRaised then b else (b.setSel fun s => { s with noneRaised := true }).raise 0x2607
  else b

/-- The service phase changed (R141). `byModule` sets bit [2] of SEL_STICKY. -/
def Block.setPhase (b : Block) (ph : Nat) (byModule : Bool) : Block :=
  let b := (b.wr Od.SEL_PHASE ph).setSel fun s => { s with phaseAt := b.cyc }
  let b := if byModule then b.orBits Od.SEL_STICKY 4 else b
  b.raise 0x2606 0 ph

/-- STEER_IN_FORCE begins to move toward its goal: the request while no slot is SELECTED, else 0 (R155). (DEDUCED, log 45.) -/
def Block.retargetSteer (b : Block) : Block :=
  let free := b.selected.isNone
  let goal := if free then b.rd Od.STEER_PPT else 0
  let now := b.steerNow
  ((b.setOsc fun o => { o with steer := ⟨now, goal, b.rdN Od.STEER_RAMP, b.cyc⟩ }).wr Od.STEER_ACTIVE (b2n free)).reformFw

/-- The start of a transfer to a slot (R144). -/
def Block.startTransfer (b : Block) (k : Nat) : Block :=
  ((b.setSel fun s => { s with transfer := some { target := k, startAt := b.cyc } }).wr Od.SEL_TRANSFER_TARGET k).raise 0x2602 k

/-- The slot forced (R143), 0xFF where none is: on a standby the PARTNER slot (R445). -/
def Block.forced (b : Block) : Nat :=
  if b.standby then ((List.range 24).find? fun k => b.slotKind k == 7).getD 255 else b.rdN Od.SEL_FORCE

/-- The selector's evaluation (R143): the best-ordered slot, or the forced one; a transfer where it is not SELECTED. It comes at each Meridian second, at each
change of a slot's state, and at once on a write that changes the order (priority, service phase, force). (DESIGN CHOICE, log 146 and 147.) -/
def Block.evaluate (b : Block) : Block :=
  let c := (b.slotsWhere fun st => st == 3 || st == 4).filter fun k => b.rdN (Od.SLOT_PRIORITY k) != 0
  let f := b.forced
  let forced := decide (f < 24)
  let ok := forced && c.contains f
  let b := if forced && !ok then b.orBits Od.SEL_STICKY 8 else b
  let best := if ok then some f else if b.standby then none else b.best c
  match best, b.tm.sel.transfer with
  | some k, none => if b.selected == some k then b else b.startTransfer k
  | _, _ => b

/-- A running transfer abandoned because its target left QUALIFIED (R147). -/
def Block.abandon (b : Block) (k : Nat) : Block :=
  match b.tm.sel.transfer with
  | some t =>
    if t.target = k then
      ((((b.setSel fun s => { s with transfer := none }).wr Od.SEL_TRANSFER_TARGET 0xFF).orBits Od.SEL_STICKY 1).raise 0x2604 k).evaluate
    else b
  | none => b

/-- Whether a monitor of slot k is tripped. -/
def Block.isTripped (b : Block) (k mon : Nat) : Bool := bit (b.slot k).tripped mon

/-- A monitor of slot k clears (Table 5.3). -/
def Block.untrip (b : Block) (k mon : Nat) : Block :=
  if b.isTripped k mon then b.setSlot k fun s => { s with tripped := s.tripped - 2 ^ mon } else b

/-- Whether the observer of a slot's domain is TRACKING, true of a slot of no domain (R62). (DEDUCED, log 128.) -/
def Block.domainTracks (b : Block) (k : Nat) : Bool :=
  let d := b.slotDomain k
  d == 0 || (b.fnRuns (37 + d) && b.rdN (Od.DOMX_STATE (d - 1)) == 2)

/-- A DISQUALIFIED slot with no trip, not locked out, a full 10 s window and its domain tracked goes on (R62, R139). (DEDUCED, log 39 and 128.) -/
def Block.qualify (b : Block) (k : Nat) : Block :=
  if b.slotState k = 1 && b.domainTracks k && (b.slot k).active && (b.slot k).tripped == 0 && !b.on (Od.SLOT_LOCKOUT k)
      && decide ((b.slot k).activeAt + secs 10 ≤ b.cyc) then
    if b.rdN Od.SEL_PHASE = 0 && decide (0 < b.rdN (Od.SLOT_WTR k)) then
      (b.setSlot k fun s => { s with wtrEnd := some (b.cyc + secs (b.rdN (Od.SLOT_WTR k))) }).setSlotState k 2
    else (b.setSlotState k 3).evaluate
  else b

/-- A WAITING slot becomes QUALIFIED (R139); while its domain is not tracked its wait is over and it stays (R62). (DEDUCED, log 128.) -/
def Block.endWait (b : Block) (k : Nat) : Block :=
  if b.slotState k ≠ 2 then b
  else if b.domainTracks k then ((b.setSlot k fun s => { s with wtrEnd := none }).setSlotState k 3).evaluate
  else b.setSlot k fun s => { s with wtrEnd := some b.cyc }

/-- A WAITING slot whose wait is over. (DEDUCED, log 128.) -/
def Block.waitOver (b : Block) (k : Nat) : Block :=
  match (b.slot k).wtrEnd with
  | some t => if t ≤ b.cyc then b.endWait k else b
  | none => b

/-- Service phases in which wait-to-restore is bypassed and only rank 15 disqualifies, entered from NORMAL or START (R141): quality monitors that this clears
clear, and WAITING ends (R139). -/
def Block.leaveNormal (b : Block) : Block :=
  let b := (List.range 24).foldl (fun b k => if b.slotState k = 0 ∨ b.qualityBad k then b else (b.untrip k 6).qualify k) b
  (List.range 24).foldl Block.endWait b

/-- PE0 enters HOLDOVER_OUT_OF_SPEC (R141, R165): the RECOVERY phase where SEL_AUTO permits it. -/
def Block.enterOutOfSpec (b : Block) : Block :=
  let b := (b.setPe0 4).warnTimeLeft
  let ph := b.rdN Od.SEL_PHASE
  if bit (b.rdN Od.SEL_AUTO) 1 ∧ (ph = 0 ∨ ph = 1) then (b.setPhase 3 true).leaveNormal else b

/-- PE0 without its reference (R140, R145, R172, Table 5.5). `unc` is the uncertainty just before the loss. (DEDUCED, log 44 and 45.) -/
def Block.pe0Lost (b : Block) (unc : Nat) : Block :=
  let ret := b.rdN Od.RET_STATE
  let b := if ret = 0 then b
    else (b.wr Od.RET_STATE 0).setHo fun h => { h with ret := {} }
  if ret != 0 && b.tm.ho.fromHoldover then
    -- the interrupted holdover goes on; its time runs over the return as well
    let from_ := b.tm.ho.retSince - b.tm.ho.stopped
    let b := b.setHo fun h => { h with startAt := some from_ }
    let b := if b.tm.ho.fromSpec then b.setPe0 3 else b.enterOutOfSpec
    b.applyModel.reportHoldover ((b.cyc - from_) / secs 1)
  else if b.on Od.HO_MODEL_VALID then b.enterHoldover unc
  else
    let hold := if b.pe0 = 2 then
        let guard := ms (b.rdN Od.HO_GUARD)
        (((b.pe 0).history.find? fun h => decide (h.1 + guard ≤ b.cyc)).getD (b.cyc, (b.pe 0).integ)).2 / 10 ^ 9
      else b.rd (Od.PE_FREQ_WORD 0)
    (b.setPe0 0).setFw hold

/-- The SELECTED slot lost (R140, R162): SEL_SELECTED and MT_STEER_DOMAIN read 0xFF, the residual of a handover ends and that of a
domain switch stands still (R64), PE0 follows Table 5.5. (DESIGN CHOICE, log 127.) -/
def Block.loseSelected (b : Block) : Block :=
  let unc := b.uncertainty
  let dom := b.rdN Od.MT_STEER_DOMAIN
  let b := ((b.wr Od.SEL_SELECTED 0xFF).wr Od.MT_STEER_DOMAIN 0xFF).setSel fun s =>
    { s with lostDomain := if b.rdN Od.RET_STATE ≠ 0 ∧ b.tm.ho.fromHoldover then s.lostDomain else dom, residual := {}, freqBase := none }
  let b := b.setMt fun m => { m with dom := if b.domResidual = 0 then m.dom else b.domRamp b.domResidual }
  b.showUtc.retargetSteer.pe0Lost unc

/-- Slot k leaves the states that may be selected for `st` (ABSENT or DISQUALIFIED), with what follows for PE0 and the transfer. -/
def Block.dropSlot (b : Block) (k st : Nat) : Block :=
  let was := b.slotState k
  let b := (b.setSlot k fun s => { s with wtrEnd := none }).setSlotState k st
  let b := if was = 4 then b.loseSelected else b
  let b := b.abandon k
  (b.checkNone).evaluate

/-- A monitor of slot k trips (R135): TRIPS bit, event 0x2621 with the monitor, the slot DISQUALIFIED. -/
def Block.trip (b : Block) (k mon : Nat) : Block :=
  let b := (b.setSlot k fun s => { s with tripped := s.tripped ||| 2 ^ mon }).orBits (Od.SLOT_TRIPS k) (2 ^ mon)
  let b := (b.raise 0x2621 k mon).tally 9 0 2
  let st := b.slotState k
  if st = 2 ∨ st = 3 ∨ st = 4 then b.dropSlot k 1 else b

/-- The observer of a domain has become TRACKING: its slots go on where nothing else holds them (R62). (DEDUCED, log 128.) -/
def Block.domainTracked (b : Block) (d : Nat) : Block :=
  (List.range 24).foldl (fun b k => if b.slotDomain k = d + 1 then (b.qualify k).waitOver k else b) b

/-- A domain observer's state: 0 NO_SIGNAL, 1 ACQUIRING, 2 TRACKING, with event 0x2008 or 0x2009 on a change (R62, R67). -/
def Block.observerState (b : Block) (d st : Nat) : Block :=
  if b.rdN (Od.DOMX_STATE d) = st then b
  else
    let b := (b.wr (Od.DOMX_STATE d) st).raise (0x2008 + d) 0 st
    if st = 2 then b.domainTracked d else b

/-- The quality monitor judged (Table 5.3). -/
def Block.judgeQuality (b : Block) (k : Nat) : Block :=
  if b.slotState k = 0 then b
  else if b.qualityBad k then (if b.isTripped k 6 then b else b.trip k 6)
  else (b.untrip k 6).qualify k

/-- Slot k's rank brought up to date (R134): event 0x2623 on a change, and the quality monitor judged. -/
def Block.rerank (b : Block) (k : Nat) : Block :=
  let r := b.rankNow k
  if b.rdN (Od.SLOT_RANK k) = r then b
  else ((b.wr (Od.SLOT_RANK k) r).raise 0x2623 k r).judgeQuality k

/-- Every slot's rank brought up to date. -/
def Block.rerankAll (b : Block) : Block := (List.range 24).foldl Block.rerank b

/-- Every slot's quality monitor judged, as a change of service phase or of QL_MIN asks. -/
def Block.judgeAll (b : Block) : Block := (List.range 24).foldl Block.judgeQuality b

/-- What a change of service phase does (R139, R141): WAITING ends outside NORMAL, quality is judged. -/
def Block.phaseChanged (b : Block) : Block :=
  let b := b.judgeAll
  if b.rdN Od.SEL_PHASE = 0 then b else (List.range 24).foldl Block.endWait b

-- The return to a reference (R169 to R171)

/-- Seconds after 00:00:00 UTC at a Meridian time, by the offset in force. -/
def Block.utcOfDay (b : Block) (word : Nat) : Nat := (((secondsOf word : Int) - b.rd Od.MT_UTC_OFFSET) % 86400).toNat

/-- Whether the step window is open at a Meridian time (R170). -/
def Block.inWindow (b : Block) (word : Nat) : Bool :=
  let len := b.rdN Od.RET_WINDOW_LEN
  len != 0 && (len == 86400 || decide ((b.utcOfDay word + 86400 - b.rdN Od.RET_WINDOW_START) % 86400 < len))

/-- A return on Δ (R169): slewed, or held until the step window. A further handover within a return from holdover is part of the same return, whose time
counts on (R172). (DEDUCED, log 44.) -/
def Block.startReturn (b : Block) (delta : Int) (fromHoldover fromSpec : Bool) : Block :=
  let slew := decide (delta.natAbs * 1000 ≤ b.rdN Od.RET_SLEW_LIMIT * 65536) || b.rdN Od.RET_MODE == 1
  let b := b.setHo fun h =>
    { h with ret := ⟨delta, if slew then 0 else delta, if slew then b.rdN Od.RET_SLEW_RATE else 0, b.cyc⟩, fromHoldover := fromHoldover, fromSpec := fromSpec,
             retSince := if b.rdN Od.RET_STATE ≠ 0 ∧ h.fromHoldover ∧ fromHoldover then h.retSince else b.cyc }
  if slew then b.wr Od.RET_STATE 1
  else
    let b := b.wr Od.RET_STATE 2
    let next := (secondsOf b.mer + 1) * ticksPerSec
    if b.inWindow next then b else b.raise 0x2706

/-- The return complete (R171): event 0x2707; from HOLDOVER_IN_SPEC PE0 is LOCKED, otherwise it stays ACQUIRING, as it becomes where the oven has left its
band during the return (R154). (DESIGN CHOICE, log 143.) -/
def Block.endReturn (b : Block) : Block :=
  let b := ((b.wr Od.RET_STATE 0).setHo fun h => { h with ret := {} }).raise 0x2707
  if b.tm.ho.fromSpec then b.setPe0 2 else ((if b.pe0 = 4 then b.setPe0 1 else b).restartDetector).setBandwidth 0

/-- The holdover timer stopped at a handover (R169): HO_ELAPSED holds, the holdover term is 0. (DEDUCED, log 44.) -/
def Block.stopHoldover (b : Block) : Block :=
  let e := match b.tm.ho.startAt with | some t => b.cyc - t | none => b.tm.ho.stopped
  (b.setHo fun h => { h with startAt := none, stopped := e }).wr Od.HO_TERM 0

/-- Meridian time that is first taken from a slot that names the second (R42). -/
def Block.takeTimeOfDay (b : Block) (k : Nat) : Block := if b.namesSecond k then b.wr Od.MT_TIME_SET 1 else b

/-- A phase in ticks reduced into half a second about 0. (DEDUCED, log 123.) -/
def nearSecond (x : Int) : Int := (x + ticksPerSec / 2) % ticksPerSec - ticksPerSec / 2

/-- The phases held of the slots hit moved by d ticks, a REFIN pulse's within half a second: what they are counted against has moved, not their source. (DEDUCED, log 123.) -/
def Block.movePhases (b : Block) (hit : Nat → Bool) (d : Int) : Block :=
  let move (k : Nat) (x : Int) : Int := if b.namesSecond k then x + d else nearSecond (x + d)
  b.setTm fun t =>
    { t with
      slot := t.slot.map fun e =>
        if hit e.1 then
          (e.1, { e.2 with last := e.2.last.map fun l => (move e.1 l.1, l.2), held := e.2.held.map fun l => (move e.1 l.1, l.2),
                           means := e.2.means.map (·.map (move e.1)), secSum := e.2.secSum + d * e.2.secN })
        else e
      sel := { t.sel with transfer := t.sel.transfer.map fun x => { x with sum := if hit x.target then x.sum + d * x.n else x.sum } } }

/-- A Reel port's stamps and exchanges carried over a step by s ticks: the offsets stay within a tick span, whose whole spans go to the time of day. (DEDUCED, log 123.) -/
def Reel.carryStep (r : Reel) (s : Int) : Reel :=
  let newest := match r.exch.head? with | some e => e.theta | none => 0
  let span := (newest - s + 2 ^ 63) / 2 ^ 64 * 2 ^ 64
  let on (x : Nat) : Nat := unsigned 64 ((x : Int) + s)
  let move (e : Exchange) : Exchange := { e with theta := e.theta - s - span, mid := on e.mid, sent := on e.sent }
  { r with sent := r.sent.map fun e => (e.1, on e.2), rx := r.rx.map fun e => (e.1, on e.2), exch := r.exch.map move,
           trips := r.trips.map move, tod := r.tod.map (· + span) }

/-- A PTP port's own stamps carried over a step by s ticks. (DEDUCED, log 123.) -/
def PtpPort.carryStep (q : PtpPort) (s : Int) : PtpPort :=
  { q with dom := q.dom.map fun e => (e.1, { e.2 with t2 := e.2.t2 + s, t3 := e.2.t3.map fun x => (x.1, x.2 + s) }),
           pdelayT1 := q.pdelayT1.map fun e => (e.1, e.2 + s), pdelayWait := q.pdelayWait.map fun e => (e.1, e.2.1, e.2.2.1 + s, e.2.2.2) }

/-- What is held in terms of Meridian time carried over a step of it by s ticks (R41): the step changes labels and no reference, so no monitor,
measure step or exchange takes it for a step of its source (R137, Table 19.10). An edge phase is against the clock and stays. (DEDUCED, log 123.) -/
def Block.carryStep (b : Block) (s : Int) : Block :=
  (b.movePhases b.timeCapable (-s)).setTm fun t =>
    { t with reel := t.reel.map fun e => (e.1, e.2.carryStep s), ptp := t.ptp.map fun e => (e.1, e.2.carryStep s) }

/-- The residual a handover to slot k leaves and what PE0 does with it (R64, R146, R168, R169). (DEDUCED, log 123; DESIGN CHOICE, log 127.) -/
def Block.settleHandover (b : Block) (k : Nat) (delta : Int) (prevDomain : Nat) : Block :=
  let st := b.pe0
  let dom := b.slotDomain k
  let timeSet := b.on Od.MT_TIME_SET
  let prev := if st = 3 ∨ st = 4 then b.tm.sel.lostDomain else prevDomain
  let cross := (dom == 1 && prev == 2) || (dom == 2 && prev == 1)
  -- a residual against the slot's own domain stays in force until the next switch (R64)
  let kept := if (st == 2 || st == 3 || st == 4) && !cross && dom != 0 && dom == b.tm.mt.domOf then b.domResidual else 0
  let delta := delta - kept
  let b := b.setMt fun m => { m with dom := if kept = 0 then {} else b.domRamp kept }
  if (st = 2 ∨ st = 3 ∨ st = 4) ∧ cross then
    -- rule 1: the other domain; the observer's offset becomes the residual (R63)
    let r := b.rd (Od.DOMX_OFFSET (dom - 1))
    let b := b.setMt fun m => { m with dom := b.domRamp r, domOf := dom }
    let b := (b.orBits Od.MT_STICKY 4).raise 0x2004
    let b := b.takeTimeOfDay k
    if st = 2 then b
    else
      let b := ((b.wr Od.RET_STATE 0).setHo fun h => { h with ret := {} }).stopHoldover.raise 0x2707
      if st = 3 then b.setPe0 2 else (b.setPe0 1).restartDetector
  else if st = 3 ∨ st = 4 then
    -- rule 2: the return rules
    let b := b.stopHoldover
    let b := if st = 4 then (b.setPe0 1).restartDetector else b
    (b.startReturn delta true (st == 3)).takeTimeOfDay k
  else if st = 0 ∨ st = 1 then
    -- rule 3: a first acquisition
    let b := (b.setPe0 1).restartDetector
    if timeSet then b.startReturn delta false false
    else if b.timeCapable k then ((b.stepTime (((b.mer : Int) + delta) % wordWrap).toNat).carryStep delta).takeTimeOfDay k
    else b
  else
    -- rule 4: LOCKED; the residual is slewed away
    let b := (b.setSel fun s => { s with residual := ⟨delta, 0, b.rdN Od.SEL_SWITCH_SLEW, b.cyc⟩ }).takeTimeOfDay k
    if delta = 0 then b.raise 0x2605 else b

/-- The system whose UTC parameters serve (R335). (DEDUCED, log 77.) -/
def Block.utcSystem (b : Block) : Nat := let s := b.rdN Od.GNSS_TIME_SYSTEM; if s = 3 then 0 else s

/-- The UTC parameters that serve R53 and R54, and whether they were received within the last 7 days (R335). -/
def Block.gnssUtc (b : Block) : Option ((Int × Nat × Nat) × Bool) :=
  (tget b.gn.keep.utc b.utcSystem).map fun u => ((u.1, u.2.1, u.2.2.1), decide (b.mer ≤ u.2.2.2 + 7 * 86400 * ticksPerSec))

/-- The offset, validity and leap that a slot's source declares (R53): none where it declares no offset. (DEDUCED, log 77.) -/
def Block.slotUtc (b : Block) (k : Nat) : Option (Int × Bool) :=
  let reel (p : Nat) : Option (Int × Bool) :=
    let w := (tat {} b.tm.reel p).words
    match tget w 1, tget w 3 with
    | some w1, some w3 => some (signed 16 (bits w1 16 16), bit w3 16)
    | _, _ => none
  let ptp (p : Nat) : Option (Int × Bool) := (b.ptpDom p (b.slotDomainNumber k)).parent.map fun a => (a.utc, a.utcValid)
  let dom (d : Nat) : Option (Int × Bool) :=
    match b.observerPort d with
    | none => none
    | some p => if b.rdN (Od.DOMX_KIND d) = 2 then reel p else ptp p
  match b.slotKind k with
  | 1 => reel (b.rdN (Od.SLOT_PORT k))
  | 2 => ptp (b.rdN (Od.SLOT_PORT k))
  | 4 => b.gnssUtc.map fun u => (u.1.1, u.2)
  | 7 => reel 31
  | 8 => dom 0
  | 9 => dom 1
  | _ => none

/-- The UTC offset of the selected reference taken in AUTO (R53, R57). -/
def Block.followUtc (b : Block) : Block :=
  let b := match b.selected with
    | none => b
    | some k => match b.slotUtc k with
      | some (o, v) => b.takeOffset o v
      | none => b
  b.showUtc

/-- The period of a frequency-only reference in ticks, by which its edge phase is taken (R525). (DEDUCED, log 37.) -/
def Block.edgePeriod (b : Block) (k : Nat) : Int :=
  let refin (r : Nat) : Int := if b.rdN (Od.REFIN_FREQ r) = 2 then 655360 else 6553600
  match b.slotKind k with
  | 3 => let m := b.rdN (Od.P_MODE (b.rdN (Od.SLOT_PORT k))); if m = 1 then 524288 else if m = 2 then 419430 else 167772
  | 5 => refin 0
  | 6 => refin 1
  | _ => 0

/-- A frequency-only slot's edge phase carried on over its periods from one before it. -/
def Block.unwrap (b : Block) (k : Nat) (before phase : Int) : Int :=
  let per := b.edgePeriod k
  if per = 0 then phase else before + ((phase - before + per / 2) % per - per / 2)

/-- Δ of R144: the mean of the samples; a REFIN pulse's reduced into [−0.5 s, +0.5 s); 0 for a frequency-only target. -/
def Block.transferDelta (b : Block) (k : Nat) (t : Transfer) : Int :=
  if !b.timeCapable k || t.n == 0 then 0
  else
    let m := t.sum / t.n
    if b.namesSecond k then m else nearSecond m

/-- The edge phase that a frequency-only target's averages give at this cycle: its mean phase carried on at its mean frequency, which PE0 holds it at from
handover on, so that nothing steps (R144, R145). (DEDUCED, log 144.) -/
def Transfer.edgeAt (t : Transfer) (cyc : Nat) : Int :=
  match t.first with
  | none => 0
  | some f =>
    let run : Int := (t.newest.2 - f.2 : Nat)
    let n : Int := t.n
    let ahead : Int := ((cyc - t.startAt : Nat) : Int) * n - t.at_
    if run = 0 ∨ n = 0 then t.newest.1 else (t.sum * run + (t.newest.1 - f.1) * ahead) / (n * run)

/-- The handover to the target of the running transfer (R144 to R147). A priority written 0 meanwhile does not stop it, as a transfer is always finished;
a SELECTED slot whose priority is written 0 stays SELECTED until another is handed over to. (DESIGN CHOICE, log 146.) -/
def Block.handover (b : Block) : Block :=
  match b.tm.sel.transfer with
  | none => b
  | some t =>
    let k := t.target
    let delta := b.transferDelta k t
    let unc := b.uncertainty
    let prevDomain := b.rdN Od.MT_STEER_DOMAIN
    let b := match b.selected with | some j => b.setSlotState j 3 | none => b
    let b := b.setSlotState k 4
    let b := ((b.wr Od.SEL_SELECTED k).wr Od.SEL_TRANSFER_TARGET 0xFF).wr Od.MT_STEER_DOMAIN (b.slotDomain k)
    let b := b.setSel fun s =>
      { s with transfer := none, residual := {}, noneRaised := false,
               freqBase := if b.timeCapable k || unc == unknownUnc then none else some unc, freqAt := b.cyc,
               edgeBase := t.edgeAt b.cyc, edgeNow := t.newest.1 }
    let b := b.setMt fun m => { m with manual := none }
    let b := ((b.bump Od.SEL_SWITCHES 1).raise 0x2603 k).tally 9 0 3
    let b := b.settleHandover k delta prevDomain
    (b.retargetSteer.followUtc.setBandwidth 0).evaluate

/-- Whether the target's phase is still averaged for SEL_TRANSFER_TIME (R144). (DEDUCED, log 124.) -/
def Block.measureTime (b : Block) (t : Transfer) : Bool := decide (b.cyc ≤ t.startAt + ms (b.rdN Od.SEL_TRANSFER_TIME))

/-- A sample of the target taken into the mean (R144): all those of SEL_TRANSFER_TIME, and more until there are 16. (DEDUCED, log 124.) -/
def Transfer.take (t : Transfer) (phase : Int) (cyc : Nat) (inTime : Bool) : Transfer :=
  let t := { t with newest := (phase, cyc) }
  if inTime || decide (t.n < 16) then
    { t with n := t.n + 1, sum := t.sum + phase, at_ := t.at_ + (cyc - t.startAt), first := some (t.first.getD (phase, cyc)) }
  else t

/-- A sample of the target of the running transfer, a frequency-only target's carried on over its periods (R144). -/
def Block.transferTake (b : Block) (t : Transfer) (phase : Int) : Transfer :=
  let k := t.target
  t.take (if b.timeCapable k || t.first.isNone then phase else b.unwrap k t.newest.1 phase) b.cyc (b.measureTime t)

/-- Whether the measure step of the running transfer is complete (R144): the handover then comes with this sample, the 16th at the earliest
(Table 5.6). (DEDUCED, log 124.) -/
def Block.measured (b : Block) : Bool :=
  match b.tm.sel.transfer with
  | some t => decide (t.startAt + ms (b.rdN Od.SEL_TRANSFER_TIME) ≤ b.cyc) && decide (16 ≤ t.n)
  | none => false

-- Phase samples

/-- The departure of a sample from its prediction: the previous sample carried on by the slot's frequency against Meridian time
(Table 5.3); on a frequency-only slot modulo the reference's period (R525). (DEDUCED, log 37.) -/
def Block.departure (b : Block) (k : Nat) (from_ : Int × Nat) (phase : Int) : Int :=
  let y := b.rd (Od.PE_FREQ_WORD 0) * 10 / 281475
  let slope := b.rd (Od.SLOT_FREQ_OFFSET k) - y
  let pred := from_.1 + psToTicks (slope * ((b.cyc - from_.2 : Nat) : Int) / 100000000)
  let d := phase - pred
  let per := b.edgePeriod k
  if b.timeCapable k || per == 0 then d else (d + per / 2) % per - per / 2

/-- Whether a difference in ticks lies within the slot's step limit. -/
def Block.withinStep (b : Block) (k : Nat) (d : Int) : Bool := decide (d.natAbs * 1000 ≤ b.rdN (Od.SLOT_STEP_LIMIT k) * 65536)

/-- The phase-step monitor on a sample (R137): whether the sample goes on to the other monitors and PE0. (DEDUCED, log 37.) -/
def Block.stepMonitor (b : Block) (k : Nat) (phase : Int) : Bool × Block :=
  let s := b.slot k
  match s.last with
  | none => (true, b.setSlot k fun s => { s with last := some (phase, b.cyc) })
  | some l =>
    let inside := b.withinStep k (b.departure k l phase)
    if b.isTripped k 4 then
      let good := if inside then s.good + 1 else 0
      let b := b.setSlot k fun s => { s with last := some (phase, b.cyc), good := good }
      (inside, if 16 ≤ good then b.untrip k 4 else b)
    else if inside then
      let n := s.held.length
      let b := b.setSlot k fun s => { s with last := some (phase, b.cyc), held := [] }
      (true, if n = 0 then b else (b.bump (Od.SLOT_OUTLIERS k) n).raise 0x2622 k n)
    else
      let agrees := s.held.all fun h => b.withinStep k (b.departure k h phase)
      let stale := if agrees then 0 else s.held.length
      let held := if agrees then s.held ++ [(phase, b.cyc)] else [(phase, b.cyc)]
      let b := if stale = 0 then b else (b.bump (Od.SLOT_OUTLIERS k) stale).raise 0x2622 k stale
      if b.rdN (Od.SLOT_STEP_CONFIRM k) ≤ held.length then
        (false, (b.setSlot k fun s => { s with held := [], good := 0, last := some (phase, b.cyc) }).trip k 4)
      else (false, b.setSlot k fun s => { s with held := held })

/-- A sample of the SELECTED slot to PE0, less what is still to be removed; of a frequency-only slot its edge phase against the one it is held at (R144,
R149). (DEDUCED, log 144.) -/
def Block.followSample (b : Block) (k : Nat) (phase : Int) : Block :=
  if b.timeCapable k then b.peSample 0 (phase - b.domResidual - b.switchResidual - b.retResidual)
  else
    let x := b.unwrap k b.tm.sel.edgeNow phase
    (b.setSel fun s => { s with edgeNow := x }).peSample 0 (x - b.tm.sel.edgeBase)

/-- A phase sample of slot k (R100, R137, R144): its monitors, the measure step of a transfer to it, PE0 if it is SELECTED. (DESIGN CHOICE, log 4; DEDUCED, log 37 and 124.) -/
def Block.slotSample (b : Block) (k : Nat) (phase : Int) : Block :=
  if b.slotState k = 0 then b
  else
    let (pass, b) := b.stepMonitor k phase
    if !pass then b
    else
      let b := b.wr (Od.SLOT_PHASE k) (if b.timeCapable k then phase else 0)
      let b := b.setSlot k fun s => { s with secSum := s.secSum + phase, secN := s.secN + 1 }
      let isTarget := match b.tm.sel.transfer with | some t => t.target == k | none => false
      if isTarget then
        let b := b.setSel fun s => { s with transfer := s.transfer.map fun t => b.transferTake t phase }
        if b.measured then b.handover else b
      else if b.selected = some k then b.followSample k phase
      else b

/-- Whether slot k takes the Reel exchanges of port p (Table 5.1). (DEDUCED, log 123.) -/
def Block.onReel (b : Block) (p k : Nat) : Bool :=
  let kd := b.slotKind k
  (kd == 1 || kd == 7 || (kd == 8 && b.rdN (Od.DOMX_KIND 0) == 2) || (kd == 9 && b.rdN (Od.DOMX_KIND 1) == 2)) && b.slotPort k == some p

/-- A sample of a Reel port for every slot that takes it (Table 5.1). -/
def Block.reelSample (b : Block) (p : Nat) (phase : Int) : Block :=
  (List.range 24).foldl (fun b k => if b.onReel p k then b.slotSample k phase else b) b

/-- A sample of a PTP domain on a port for every slot that takes it. -/
def Block.ptpSample (b : Block) (p domain : Nat) (phase : Int) : Block :=
  (List.range 24).foldl (fun b k =>
    let kd := b.slotKind k
    let mine := b.slotPort k == some p && ((kd == 2 && b.slotDomainNumber k == domain)
      || (kd == 8 && b.rdN (Od.DOMX_KIND 0) == 1 && b.rdN (Od.DOMX_PTP_DOMAIN 0) == domain)
      || (kd == 9 && b.rdN (Od.DOMX_KIND 1) == 1 && b.rdN (Od.DOMX_PTP_DOMAIN 1) == domain))
    if mine then b.slotSample k phase else b) b

/-- A sample for every slot of one kind. -/
def Block.kindSample (b : Block) (kind : Nat) (phase : Int) : Block :=
  (List.range 24).foldl (fun b k => if b.slotKind k = kind then b.slotSample k phase else b) b

-- Sources that come and go (R139)

/-- A slot's windows and monitors started afresh. -/
def freshSlot (cyc : Nat) (active : Bool) : Slot := { active := active, activeAt := cyc }

/-- Slot k's source becomes active: ABSENT to DISQUALIFIED, windows start (R139). (DESIGN CHOICE, log 38.) -/
def Block.sourceOn (b : Block) (k : Nat) : Block :=
  let q := (b.slot k).tripped &&& 64
  let b := b.setSlot k fun _ => { freshSlot b.cyc true with tripped := q }
  let b := (b.wr (Od.SLOT_TIME_CAPABLE k) (b2n (b.timeCapable k))).setSlotState k 1
  let b := match b.slotKind k with
    | 5 | 6 => let (f, b) := b.draw (2 ^ 32); b.wr (Od.SLOT_UNCERTAINTY k) f
    | 8 | 9 => b.wr (Od.SLOT_UNCERTAINTY k) (b.rd (Od.DOMX_UNCERTAINTY (b.slotDomain k - 1)))
    | _ => b
  (b.rerank k).judgeQuality k

/-- Slot k's source becomes inactive: the activity monitor trips, the slot is ABSENT (R135, R139). -/
def Block.sourceOff (b : Block) (k : Nat) : Block :=
  let b := (b.orBits (Od.SLOT_TRIPS k) 1).raise 0x2621 k 0
  let b := b.dropSlot k 0
  b.setSlot k fun _ => freshSlot b.cyc false

/-- Slot k restarted in ABSENT by a change of its configuration (R133): the quality monitor of a slot that has a KIND is judged at once, that of a slot of
KIND NONE, which has no source to judge, is not. (DESIGN CHOICE, log 145.) -/
def Block.restartSlot (b : Block) (k : Nat) : Block :=
  let was := b.slotState k
  let b := b.setSlot k fun _ => {}
  let b := if was = 0 then b else (b.setSlotState k 0)
  let b := (((b.wr (Od.SLOT_WTR_LEFT k) 0).wr (Od.SLOT_TIME_CAPABLE k) 0).wr (Od.SLOT_FREQ_OFFSET k) 0).wr (Od.SLOT_PHASE k) 0
  let b := ((b.wr (Od.SLOT_DRIFT k) 0).wr (Od.SLOT_XCMP_FREQ k) 0x7FFFFFFF).wr (Od.SLOT_XCMP_PHASE k) 0x7FFFFFFF
  let b := b.wr (Od.SLOT_UNCERTAINTY k) 0xFFFFFFFF
  let b := b.rerank k
  let b := if b.slotKind k != 0 && b.qualityBad k then b.trip k 6 else b
  b.checkNone.evaluate

end Sys2Proof.Machine
end

