-- ==== Sys2Proof/Machine/LinkTiming.lean ====
section
/-! DEFINITION. Time over the link (chapter 3): the Reel marker and the exchange (R76 to R86), ESMC
and the quality level sent (R88), what the module announces of itself (R92). -/

namespace Sys2Proof.Machine

-- The Reel marker (R77, R78)

/-- CRC-8 of polynomial x⁸ + x² + x + 1 over n bits of a value, most significant first. -/
def crc8 : Nat → Nat → Nat → Nat
  | 0, _, c => c
  | n + 1, v, c =>
    let fb := (b2n (bit v n) + c / 128) % 2
    let c := c * 2 % 256
    crc8 n v (if fb = 1 then c ^^^ 7 else c)

/-- The check of a marker: over KIND then PAYLOAD, 44 bits. -/
def markerCheck (kind payload : Nat) : Nat := crc8 44 (kind * 2 ^ 40 + payload) 0

/-- A Reel marker block (Table 3.2). -/
def mkMarker (kind payload : Nat) : Word64 :=
  BitVec.ofNat 64 (kind * 2 ^ 60 + payload / 2 ^ 16 * 2 ^ 36 + 0xA * 2 ^ 32 + payload % 2 ^ 16 * 2 ^ 16 + markerCheck kind payload * 2 ^ 8 + 0x4B)

/-- The KIND and PAYLOAD of a received block that is a marker with a good check and a KIND that is not reserved; none otherwise. -/
def readMarker (m : Word64) : Option (Nat × Nat) :=
  let v := m.toNat
  let kind := bits v 60 4
  let payload := bits v 36 24 * 2 ^ 16 + bits v 16 16
  if bits v 0 8 = 0x4B ∧ bits v 32 4 = 0xA ∧ bits v 8 8 = markerCheck kind payload ∧ 1 ≤ kind ∧ kind ≤ 6 then some (kind, payload)
  else none

/-- Port p's Reel state, and the module with it changed. -/
def Block.reel (b : Block) (p : Nat) : Reel := tat {} b.tm.reel p
def Block.setReel (b : Block) (p : Nat) (f : Reel → Reel) : Block := { b with tm := { b.tm with reel := tmod {} b.tm.reel p f } }

/-- A discarded marker (R78). -/
def Block.markerError (b : Block) (p : Nat) : Block := (b.bump (Od.LT_MARKER_ERRORS p) 1).orBits (Od.LT_STICKY p) 2

/-- Whether Reel runs on a port: MODE REEL, link timing that runs, a mode other than 1000BASE-X, link up (R76, R80, Table 9.2). -/
def Block.reelRuns (b : Block) (p : Nat) : Bool :=
  b.ltMode p == 1 && b.lit p && decide (2 ≤ b.pMode p) && b.on (Od.P_LINK p) && !b.inTest p

-- What the module announces of itself

/-- Whether the SELECTED slot is a PTP domain (R92). -/
def Block.ptpSelected (b : Block) : Option Nat :=
  match b.selected with
  | none => none
  | some k =>
    let kd := b.slotKind k
    if kd = 2 ∨ (kd = 8 ∧ b.rdN (Od.DOMX_KIND 0) = 1) ∨ (kd = 9 ∧ b.rdN (Od.DOMX_KIND 1) = 1) then b.slotPort k else none

/-- The Announce of the parent, where a PTP domain is selected and one has arrived. -/
def Block.parentSelected (b : Block) : Option Parent :=
  match b.ptpSelected, b.selected with
  | some p, some k => (b.ptpDom p (b.slotDomainNumber k)).parent
  | _, _ => none

/-- clockClass and timeSource of Table 3.11, or the parent's where a PTP domain is selected (R92). Before slow word 3 of the selected Reel link has
arrived, 248 and 0xA0. (DESIGN CHOICE, log 133.) -/
def Block.announced (b : Block) : Nat × Nat :=
  let own :=
    if b.pe0 = 4 then (140, 0xA0)
    else if b.pe0 = 0 ∨ b.pe0 = 1 ∨ !b.on Od.MT_TIME_VALID then (248, 0xA0)
    else if b.pe0 = 3 then (7, 0xA0)
    else match b.selected with
      | none => (248, 0xA0)
      | some k =>
        match b.slotKind k with
        | 4 => (6, 0x20)
        | 5 | 6 => if b.timeCapable k then (6, 0x90) else (7, 0xA0)
        | 3 => (7, 0xA0)
        | _ => match tget (b.reel ((b.slotPort k).getD 0)).words 3 with
          | some w => (bits w 8 8, bits w 18 8)
          | none => (248, 0xA0)
  match b.parentSelected with
  | some a => (a.cls, a.source)
  | none => own

/-- The SSM code that stands for a rank (Table 5.2). (DEDUCED, log 31.) -/
def qlOfRank (r : Nat) : Nat := if r = 1 then 2 else if r = 2 then 4 else if r = 3 then 8 else if r = 4 then 11 else 15

/-- The quality level of the selected reference (R88): QL-DNU for a Reel reference whose slow word 3 has not arrived. (DEDUCED, log 31; DESIGN CHOICE, log 133.) -/
def Block.qlOfSelected (b : Block) : Nat :=
  match b.selected with
  | none => 11
  | some k =>
    let reel (p : Nat) := match tget (b.reel p).words 3 with | some w => bits w 0 8 | none => 15
    match b.slotKind k with
    | 3 => b.rdN (Od.LT_QL_RX (b.rdN (Od.SLOT_PORT k)))
    | 1 | 7 => reel ((b.slotPort k).getD 0)
    | _ => qlOfRank (b.rdN (Od.SLOT_RANK k))

/-- The quality level a port sends (R88). -/
def Block.qlSend (b : Block) (p : Nat) : Nat :=
  let carries := match b.selected with | some k => b.slotPort k == some p | none => false
  if carries then 15 else if b.pe0 = 2 then b.qlOfSelected else 11

/-- The HOPS the module announces (R86). (DEDUCED, log 31.) -/
def Block.hops (b : Block) : Nat :=
  match b.selected with
  | none => 0
  | some k =>
    let kd := b.slotKind k
    if kd = 1 ∨ kd = 7 ∨ (kd = 8 ∧ b.rdN (Od.DOMX_KIND 0) = 2) ∨ (kd = 9 ∧ b.rdN (Od.DOMX_KIND 1) = 2) then
      min 127 (bits (b.rdN (Od.LT_PEER_STATUS ((b.slotPort k).getD 0))) 0 7 + 1)
    else 0

/-- The STATUS field of a D3 marker (Table 3.4). -/
def Block.statusField (b : Block) (p : Nat) (rxValid : Bool) : Nat :=
  b2n rxValid * 2 ^ 15 + b2n (b.on Od.MT_TIME_VALID) * 2 ^ 14 + b2n (b.on Od.MT_TIME_SET) * 2 ^ 13 + b.pe0 * 2 ^ 10
    + b.rdN Od.MT_LEAP_PENDING * 2 ^ 8 + b2n (b.rdN (Od.LT_CAL_STATE p) == 1) * 2 ^ 7 + b.hops

/-- The DATA of slow word i (Table 3.5), for the instant of the T marker of its period. -/
def Block.slowWord (b : Block) (p i : Nat) : Nat :=
  let sec := secondsOf (b.reel p).txWord
  let leap := secondsOf (b.rdN Od.MT_LEAP_TAI)
  let id := if b.partner p then b.rdN Od.ID_MODULE_IDENTITY else b.identity
  match i with
  | 0 => sec % 2 ^ 32
  | 1 => unsigned 16 (b.rd Od.MT_UTC_OFFSET) * 2 ^ 16 + sec / 2 ^ 32 % 2 ^ 16
  | 2 => b.rdN Od.MT_UNCERTAINTY
  | 3 => b.announced.2 * 2 ^ 18 + b2n b.steersArb * 2 ^ 17 + b2n (b.on Od.MT_UTC_OFFSET_VALID) * 2 ^ 16 + b.announced.1 * 2 ^ 8 + b.qlSend p
  | 4 => leap % 2 ^ 32
  | 5 => leap / 2 ^ 32 % 2 ^ 16
  | 6 => id % 2 ^ 32
  | 7 => id / 2 ^ 32 % 2 ^ 32
  | 8 => b.rdN Od.ID_FW_MINOR * 2 ^ 8 + b.rdN Od.ID_FW_MAJOR
  | _ => 0

/-- The RATE code of a T marker (Table 3.3). -/
def rateCode (r : Nat) : Nat :=
  if r = 16 then 0 else if r = 32 then 1 else if r = 64 then 2 else if r = 125 then 3 else if r = 250 then 4
  else if r = 500 then 5 else if r = 1000 then 6 else if r = 2000 then 7 else if r = 4000 then 8 else 9

/-- A Reel period begins (R78): its six markers become due. After a peer loss the port sends one period a second, until a valid T marker has arrived (R80). (DEDUCED, log 31.) -/
def Block.reelPeriod (b : Block) (p : Nat) : Block :=
  let rate := if (b.reel p).slow then 1 else b.ltRate p
  let per := 1000000000 / rate
  let n := (b.mer / 65536 + per - b.rdN (Od.LT_MARKER_PHASE p) % per) / per
  if b.reelRuns p && (b.reel p).period != some n then b.setReel p fun r => { r with due := [1, 2, 3, 4, 5, 6], period := some n } else b

/-- The PAYLOAD of the next due marker (Table 3.3). -/
def Block.markerPayload (b : Block) (p kind : Nat) : Nat :=
  let r := b.reel p
  let rx := r.snap.getD (0, 0)
  match kind with
  | 1 => r.seq * 2 ^ 24 + rateCode (b.ltRate p) * 2 ^ 20 + 2 ^ 16
  | 2 => r.txStamp % 2 ^ 40
  | 3 => r.txStamp / 2 ^ 40 % 2 ^ 24 * 2 ^ 16 + rx.1
  | 4 => rx.2 % 2 ^ 40
  | 5 => rx.2 / 2 ^ 40 % 2 ^ 24 * 2 ^ 16 + b.statusField p r.snap.isSome
  | _ => r.sIndex * 2 ^ 36 + b.slowWord p r.sIndex

/-- The time of one 66-bit block on a port's line in ticks (R79). -/
def blockTicks (mode : Nat) : Nat := if mode = 2 then 419430 else if mode = 4 then 41943 else 167772

/-- A due marker leaves in an inter-frame gap (R79): one that falls due during a frame waits for the frame's end, and a frame that waits behind it leaves one
block later. `s` is the stamp of its first bit. (DEDUCED, log 130.) -/
def Block.markerTx (b : Block) (p : Nat) (s : Stamp) : Block :=
  let r := b.reel p
  match r.due, (b.pf p).sending with
  | kind :: rest, none =>
    let b :=
      if kind = 1 then
        let t := unsigned 64 (b.markerDeparture p s)
        let b := b.emit (.marker p (mkMarker 1 (b.markerPayload p 1)))
        b.setReel p fun r =>
          { r with txStamp := t, txWord := b.wordOf t, snap := r.rx, sent := (r.seq, t) :: r.sent.take 63, seq := (r.seq + 1) % 65536 }
      else
        let b := b.emit (.marker p (mkMarker kind (b.markerPayload p kind)))
        if kind = 6 then b.setReel p fun r => { r with sIndex := (r.sIndex + 1) % 16 } else b
    let waits := (List.range 16).any fun q => !(tat {} b.fab.queue (p * 16 + q)).frames.isEmpty
    let b := if waits then b.setPf p fun x => { x with gap := x.gap + blockTicks (b.pMode p) } else b
    b.setReel p fun r => { r with due := rest }
  | _, _ => b

/-- A T marker received (R80, R81); `s` is the stamp of its first bit. -/
def Block.tMarkerRx (b : Block) (p : Nat) (m : Word64) (s : Stamp) : Block :=
  if !b.reelRuns p then b
  else match readMarker m with
    | some (1, payload) =>
      if bits payload 16 4 != 1 then b
      else
        let b := b.tally 1 p 6
        let seq := bits payload 24 16
        let t := unsigned 64 (b.markerArrival p s)
        let gap := match (b.reel p).rx with | some (s, _) => (s + 1) % 65536 != seq | none => false
        let b := if gap then (b.orBits (Od.LT_STICKY p) 4).raise 0x2208 p else b
        let first := b.rdN (Od.LT_STATE p) == 2
        let b := b.setReel p fun r =>
          { r with rx := some (seq, t), lastT := some b.cyc, lost := false, slow := false, peerTx := none, since := if first then none else r.since }
        if first then b.wr (Od.LT_STATE p) 3 else b
    | some _ => b
    | none => (b.markerError p).setReel p fun r => { r with lost := true, peerTx := none }

/-- The running pair that gives a port its asymmetry (R192): it has converged since it started and is not in FAULT. -/
def Block.solverOf (b : Block) (p : Nat) : Option Nat :=
  if b.rdN (Od.LT_ASYM_SOURCE p) = 1 then
    (List.range 16).find? fun i => b.fnRuns (69 + i) && (tat {} b.tm.cal.asy i).ever &&
      (b.rdN (Od.ASY_PORT_P i) == p || b.rdN (Od.ASY_PORT_Q i) == p)
  else none

/-- The asymmetry a port is to use, in ticks (R83, R192). -/
def Block.alphaGoal (b : Block) (p : Nat) : Int :=
  match b.rdN (Od.LT_ASYM_SOURCE p), b.solverOf p with
  | 2, _ => psToTicks (b.rd (Od.LT_ASYM_CONFIGURED p))
  | 1, some i => if b.rdN (Od.ASY_PORT_P i) = p then (tat {} b.tm.cal.asy i).alphaP else (tat {} b.tm.cal.asy i).alphaQ
  | _, _ => 0

/-- LTn_ASYM_IN_USE at this cycle, in whole ps. -/
def Block.alphaInUse (b : Block) (p : Nat) : Int := (b.corr (alphaItem p) * 1000 + 32768) / 65536

/-- The bound on α that is in force on a port (R83, R188, R192). -/
def Block.asymBound (b : Block) (p : Nat) : Nat :=
  match b.solverOf p with
  | some i =>
    (if b.rdN (Od.ASY_PORT_P i) = p then b.rdN (Od.ASY_UNC_P i) else b.rdN (Od.ASY_UNC_Q i))
      + ticksToPsUp (b.alphaGoal p - b.corr (alphaItem p))
  | none => b.rdN (Od.LT_ASYM_UNC p)

/-- θ of an exchange carried forward from its midpoint to a tick by the frequency offset that a port's exchanges show (R84). (DEDUCED, log 32.) -/
def carried (exch : List Exchange) (e : Exchange) (tick : Nat) : Int :=
  match exch.head?, exch.getLast? with
  | some new, some old =>
    let span := tickDiff new.mid old.mid
    if span ≤ 0 then e.theta else e.theta + (new.theta - old.theta) * tickDiff tick e.mid / span
  | _, _ => e.theta

/-- The mean of a port's exchanges carried forward to a tick (R84). (DEDUCED, log 32.) -/
def offsetNow (exch : List Exchange) (tick : Nat) : Int := meanI (exch.map fun e => carried exch e tick)

/-- LTn_OFFSET_UNC: 40 ps, the bound on α, three times the rms of the averaged offset, 500 ps while INVALIDATED (Table 3.13). (DEDUCED, log 32.) -/
def Block.linkUnc (b : Block) (p : Nat) : Nat :=
  let th := (b.reel p).exch.map (·.theta)
  if th.isEmpty then unknownUnc
  else
    let m := meanI th
    let rms := isqrtUp (divUp (sumSquares (th.map (· - m)) * 1000000) (4294967296 * th.length * th.length))
    min unknownUnc (40 + b.asymBound p + 3 * rms + if b.rdN (Od.LT_CAL_STATE p) = 2 then 500 else 0)

/-- The uncertainty of every Reel slot on a port: declared in slow word 2, plus the link term (R149). -/
def Block.reelUncertainty (b : Block) (p : Nat) : Block :=
  match tget (b.reel p).words 2 with
  | none => b
  | some u =>
    (List.range 24).foldl (fun b k =>
      if (b.slotKind k = 1 ∨ b.slotKind k = 7) ∧ b.slotPort k = some p then
        b.wr (Od.SLOT_UNCERTAINTY k) (min unknownUnc (u + b.rdN (Od.LT_OFFSET_UNC p)) : Nat)
      else b) b

/-- An exchange within range (R82 to R84): means, link term, the sample for the port's slots. (DEDUCED, log 32.) -/
def Block.useExchange (b : Block) (p : Nat) (e : Exchange) : Block :=
  let b := if b.rdN (Od.LT_STATE p) = 5 then (b.wr (Od.LT_STATE p) 3).setReel p fun r => { r with since := none } else b
  let b := (b.bump (Od.LT_EXCHANGES p) 1).tally 9 0 1
  let keep := ms (b.rdN (Od.LT_AVG_TIME p))
  let b := b.setReel p fun r =>
    { r with since := some (r.since.getD b.cyc), exch := e :: r.exch.takeWhile fun x => decide (b.cyc < x.cyc + keep),
             trips := e :: r.trips.takeWhile fun x => decide (b.cyc < x.cyc + secs 2) }
  let ex := (b.reel p).exch
  let b := (b.wr (Od.LT_RTT p) (meanI (ex.map (·.rtt)))).wr (Od.LT_OFFSET p) (offsetNow ex b.tick)
  let b := (b.wr (Od.LT_OFFSET_UNC p) (b.linkUnc p)).reelUncertainty p
  b.reelSample p (carried ex e b.tick + ((b.reel p).tod.getD 0))

/-- The exchange of four stamps at the fibre face (R82), completed at this cycle: t1 and t4 on the module's clock, t2 and t3 on the peer's. Its θ refers to
the midpoint between t2 and t3 (R84). -/
def Block.exchange (b : Block) (p t1 t2 t3 t4 : Nat) : Exchange :=
  let theta := (tickDiff t2 t1 - tickDiff t4 t3) / 2 - b.corr (alphaItem p)
  { cyc := b.cyc, rtt := tickDiff t4 t1 - tickDiff t3 t2, theta := theta, mid := unsigned 64 ((t2 : Int) + tickDiff t3 t2 / 2 - theta), sent := t1 }

/-- The peer's report (R81, R82, R85): each of its markers that fails its check is counted (R78); with all four it completes an exchange. (DEDUCED, log 32.) -/
def Block.reportRx (b : Block) (p : Nat) (d0 d1 d2 d3 : Word64) : Block :=
  if !b.reelRuns p then b
  else
    let b := [d0, d1, d2, d3].foldl (fun (b : Block) (m : Word64) => if (readMarker m).isNone then b.markerError p else b) b
    if (b.reel p).lost then b
    else match readMarker d0, readMarker d1, readMarker d2, readMarker d3 with
    | some (2, p0), some (3, p1), some (4, p2), some (5, p3) =>
      let tx : Nat := p0 + p1 / 2 ^ 16 * 2 ^ 40
      let rxSeq := p1 % 2 ^ 16
      let rxStamp : Nat := p2 + p3 / 2 ^ 16 * 2 ^ 40
      let status : Nat := p3 % 2 ^ 16
      let b := (b.wr (Od.LT_PEER_STATUS p) status).setReel p fun r => { r with peerTx := some tx }
      let r := b.reel p
      match bit status 15, r.sent.find? (·.1 == rxSeq), r.rx with
      | true, some (n, t1), some (m, t4) =>
        if r.pair = some (n, m) then b
        else
          let b := b.setReel p fun r => { r with pair := some (n, m) }
          let e := b.exchange p t1 rxStamp tx t4
          if e.rtt < 0 ∨ 81920000000 < e.rtt then
            ((b.wr (Od.LT_STATE p) 5).orBits (Od.LT_STICKY p) 8).raise 0x2203 p
          else b.useExchange p e
      | _, _, _ => b
    | _, _, _, _ => b

/-- Whether the selected reference comes over port p. -/
def Block.selectedOn (b : Block) (p : Nat) : Bool := match b.selected with | some k => b.slotPort k == some p | none => false

/-- Whether the SELECTED slot takes its time of day from the Reel exchanges of port p (R86). -/
def Block.reelSelected (b : Block) (p : Nat) : Bool := match b.selected with | some k => b.onReel p k | none => false

/-- A leap that a Reel upstream announces, when its words 4 and 5 are held (R54, R86). -/
def Block.reelLeap (b : Block) (p : Nat) : Block :=
  let w := (b.reel p).words
  if b.reelSelected p && b.rdN Od.MT_UTC_SOURCE == 0 then
    match tget w 4, tget w 5 with
    | some lo, some hi => b.learnLeap (bits (b.rdN (Od.LT_PEER_STATUS p)) 8 2) (lo + bits hi 0 16 * 2 ^ 32)
    | _, _ => b
  else b

/-- The peer's time of day from word 1 of one period and word 0 of the period before (R86): the whole tick spans between it and Meridian time,
which the phases held of the port's slots take up. (DEDUCED, log 32 and 123.) -/
def Block.reelTod (b : Block) (p w1 : Nat) : Block :=
  let r := b.reel p
  match r.word0, r.rx with
  | some (w0, tx, m), some (seq, _) =>
    if seq ≠ (m + 1) % 65536 then b
    else
      let sec : Nat := w0 + bits w1 0 16 * 2 ^ 32
      let frac : Nat := unsigned 64 ((tx : Int) - (sec * ticksPerSec : Nat))
      let theta := match r.exch.head? with | some e => e.theta | none => 0
      let diff : Int := ((sec * ticksPerSec + frac : Nat) : Int) - b.mer - theta
      let tod : Int := (diff + 2 ^ 63) / 2 ^ 64 * 2 ^ 64
      (b.setReel p fun r => { r with tod := some tod }).movePhases (b.onReel p) (tod - r.tod.getD 0)
  | _, _ => b

/-- A slow word taken (R86, Table 3.5): word 0 with the TX_STAMP and SEQ of its own period. -/
def Block.slowWordRx (b : Block) (p : Nat) (m : Word64) : Block :=
  if !b.reelRuns p then b
  else match readMarker m with
    | some (6, payload) =>
      let i := bits payload 36 4
      let data := bits payload 0 32
      let b := if i = 1 then b.reelTod p data else b
      let b := b.setReel p fun r =>
        { r with words := tput r.words i data,
                 word0 := if i = 0 then (match r.peerTx, r.rx with | some tx, some (seq, _) => some (data, tx, seq) | _, _ => none) else r.word0 }
      let b := if i = 7 then
          match tget (b.reel p).words 6 with
          | some lo => b.wr (Od.LT_PEER_ID p) ((lo + data * 2 ^ 32 : Nat) : Int)
          | none => b
        else b
      let b := if i = 2 then b.reelUncertainty p else b
      let b := if i = 5 then b.reelLeap p else b
      let b := if i = 3 then b.rerankAll else b
      if (i = 1 ∨ i = 3) ∧ b.selectedOn p then b.followUtc else b
    | some _ => b
    | none => b.markerError p

/-- Valid exchanges have run for LTn_AVG_TIME (R80). -/
def Block.reelAvgExpiry (b : Block) (p : Nat) : Block :=
  match (b.reel p).since with
  | some t =>
    if b.rdN (Od.LT_STATE p) = 3 ∧ t + ms (b.rdN (Od.LT_AVG_TIME p)) ≤ b.cyc then (b.wr (Od.LT_STATE p) 4).raise 0x2201 p else b
  | none => b

/-- No valid T marker for 2 s (R80): the peer is lost, a new average begins, and the port sends one period a second. A port that has had no T marker since
its link came up is NO_PEER already and has no peer to lose. (DESIGN CHOICE, log 6 and 131.) -/
def Block.reelPeerTimeout (b : Block) (p : Nat) : Block :=
  let st := b.rdN (Od.LT_STATE p)
  let silent : Bool := match (b.reel p).lastT with | some t => decide (t + secs 2 ≤ b.cyc) | none => false
  if (st = 3 ∨ st = 4 ∨ st = 5) ∧ silent then
    (((b.wr (Od.LT_STATE p) 2).orBits (Od.LT_STICKY p) 1).raise 0x2202 p).setReel p fun r =>
      { r with lastT := none, slow := true, since := none, exch := [], trips := [] }
  else b

/-- What a link that comes up or restarts does to the port's Reel state (R80); a 1000BASE-X port in MODE REEL, which carries no Reel (R76), stays NO_PEER. (DESIGN CHOICE, log 132.) -/
def Block.reelLinkUp (b : Block) (p : Nat) : Block :=
  let b := b.setReel p fun r => { seq := r.seq }
  if b.ltMode p = 1 then b.wr (Od.LT_STATE p) 2 else b.wr (Od.LT_STATE p) 0

/-- What a link that goes down does to it: LINK_DOWN, averages and LTn_OFFSET_UNC cleared (R80). -/
def Block.reelLinkDown (b : Block) (p : Nat) : Block :=
  let b := b.setReel p fun r => { seq := r.seq }
  let b := ((b.wr (Od.LT_RTT p) 0).wr (Od.LT_OFFSET p) 0).wr (Od.LT_OFFSET_UNC p) unknownUnc
  if b.ltMode p = 1 then b.wr (Od.LT_STATE p) 1 else b.wr (Od.LT_STATE p) 0

/-- A link calibration invalidated (R75). -/
def Block.invalidateCal (b : Block) (p : Nat) : Block :=
  if b.rdN (Od.LT_CAL_STATE p) = 1 then
    ((b.wr (Od.LT_CAL_STATE p) 2).orBits (Od.LT_STICKY p) 16).raise 0x2204 p
  else b

-- ESMC (R88)

/-- Port p's ESMC state changed. -/
def Block.setEsmc (b : Block) (p : Nat) (f : Esmc → Esmc) : Block := { b with tm := { b.tm with esmc := tmod {} b.tm.esmc p f } }

/-- The quality level received on a port changes (R88): sticky bit [6], event 0x2206. -/
def Block.setQl (b : Block) (p ql : Nat) : Block :=
  if b.rdN (Od.LT_QL_RX p) = ql then b else (((b.wr (Od.LT_QL_RX p) ql).orBits (Od.LT_STICKY p) 64).raise 0x2206 p ql).rerankAll

/-- An ESMC PDU received with an SSM code and, where it carries one, an Extended QL TLV, which is recorded (Table 3.9). -/
def Block.esmcRx (b : Block) (p ql : Nat) (ext : Bytes) : Block :=
  if b.rdN (Od.LT_SYNCE_ESMC p) = 0 ∨ !b.fnRuns p ∨ b.inTest p then b
  else (b.setEsmc p fun e => { e with lastRx := some b.cyc, ext := if ext.isEmpty then e.ext else ext }).setQl p ql

/-- LTn_SYNCE_ESMC written (R88, R134): with OFF the port receives no quality level. (DESIGN CHOICE, log 134.) -/
def Block.esmcMode (b : Block) (p : Nat) : Block :=
  if b.rdN (Od.LT_SYNCE_ESMC p) = 0 then (b.setEsmc p fun e => { e with lastRx := none, ext := [] }).setQl p 0xFF else b

/-- No ESMC PDU for 5 s. (DESIGN CHOICE, log 6.) -/
def Block.esmcTimeout (b : Block) (p : Nat) : Block :=
  match (tat {} b.tm.esmc p).lastRx with
  | some t =>
    if t + secs 5 ≤ b.cyc then
      ((((b.setEsmc p fun e => { e with lastRx := none }).wr (Od.LT_QL_RX p) 0xFF).orBits (Od.LT_STICKY p) 128).raise 0x2207 p).rerankAll
    else b
  | none => b

/-- Whether a port sends ESMC. -/
def Block.esmcSends (b : Block) (p : Nat) : Bool := b.rdN (Od.LT_SYNCE_ESMC p) == 2 && b.fnRuns p && b.on (Od.P_LINK p) && !b.inTest p

/-- Whether the information PDU of this second is still to be sent. (DEDUCED, log 30.) -/
def Block.esmcDue (b : Block) (p : Nat) : Bool :=
  match (tat {} b.tm.esmc p).sentAt with
  | some t => decide (t + secs 1 ≤ b.cyc)
  | none => true

/-- The frame of an ESMC PDU (Table 3.9): slow protocol, ITU-T OUI, version 1, the event flag, one QL TLV. (PRESUMED, log 33.) -/
def Block.esmcFrame (b : Block) (ql : Nat) (event : Bool) : Bytes :=
  let l := toBE 6 0x0180C2000002 ++ b.ownMac ++ toBE 2 0x8809 ++ toBE 1 0x0A ++ toBE 3 0x0019A7 ++ toBE 2 1 ++ toBE 1 (16 + 8 * b2n event) ++ toBE 3 0
    ++ toBE 1 1 ++ toBE 2 4 ++ toBE 1 (ql % 16)
  withFcs (l ++ List.replicate (60 - l.length) 0)

/-- An ESMC PDU sent: the information PDU of each second, or an event PDU after a change of the level sent. (DEDUCED, log 30.) -/
def Block.esmcTx (b : Block) (p : Nat) (event : Bool) : Block :=
  let ql := b.qlSend p
  if b.esmcSends p && (if event then b.rdN (Od.LT_QL_TX p) != ql else b.esmcDue p) then
    ((b.ownSend p (.frame (b.esmcFrame ql event))).wr (Od.LT_QL_TX p) ql).setEsmc p fun e => if event then e else { e with sentAt := some b.cyc }
  else b

/-- The asymmetry of a port taken to its target (R83, R187): by a ramp while the port is RUN. -/
def Block.takeAlpha (b : Block) (p : Nat) : Block :=
  let b := b.setCorr (alphaItem p) (b.alphaGoal p) (b.fnRuns p)
  b.wr (Od.LT_ASYM_IN_USE p) (b.alphaInUse p)

end Sys2Proof.Machine
end

