-- ==== Sys2Proof/Machine/Ptp.lean ====
section
/-! DEFINITION. IEEE 1588-2019 on a port (R89 to R92): messages received and sent, offset-from-master samples, delay measurements, Announce
and port states. Message kinds in what is sent carry the standard's messageType. -/

namespace Sys2Proof.Machine

/-- Port p's PTP state, and the module with it changed. -/
def Block.ptp (b : Block) (p : Nat) : PtpPort := tat {} b.tm.ptp p
def Block.setPtp (b : Block) (p : Nat) (f : PtpPort → PtpPort) : Block := { b with tm := { b.tm with ptp := tmod {} b.tm.ptp p f } }

/-- Whether PTP runs on a port. -/
def Block.ptpRuns (b : Block) (p : Nat) : Bool := b.rdN (Od.LT_MODE p) == 2 && b.fnRuns p && b.on (Od.P_LINK p) && !b.inTest p

/-- Whether a received message is of the port's transport and VLAN (Table 3.10). -/
def Block.ptpTakes (b : Block) (p : Nat) (m : PtpMsg) : Bool :=
  b.ptpRuns p && m.udp == (b.rdN (Od.LT_PTP_TRANSPORT p) == 1) && m.vid == b.rdN (Od.LT_PTP_VLAN p)

/-- What port p receives of a domain changed. -/
def Block.setPtpDom (b : Block) (p dom : Nat) (f : PtpDom → PtpDom) : Block := b.setPtp p fun q => { q with dom := tmod {} q.dom dom f }

/-- The domainNumbers received: those of DOMA and DOMB whose KIND is PTP (Table 3.10). -/
def Block.ptpDomains (b : Block) : List Nat :=
  (([0, 1].filter fun d => b.rdN (Od.DOMX_KIND d) == 1).map fun d => b.rdN (Od.DOMX_PTP_DOMAIN d)).eraseDups
def Block.ptpDomain (b : Block) (n : Nat) : Bool := b.ptpDomains.contains n

/-- Whether a message of a domain is for the PTP of port p: a domain received, or the one sent as master (Table 3.10, R231). -/
def Block.ptpOwn (b : Block) (p n : Nat) : Bool := b.ptpDomain n || n == b.rdN (Od.LT_PTP_DOMAIN p)

-- Frames sent (R89, R91; the formats are those of IEEE 1588-2019, log 33)

/-- The ones' complement checksum of bytes taken as 16-bit words. -/
def sum16 : Bytes → Nat
  | x :: y :: r => x.toNat * 256 + y.toNat + sum16 r
  | [x] => x.toNat * 256
  | [] => 0
def checksum (l : Bytes) : Nat :=
  let s := sum16 l
  let s := s % 65536 + s / 65536
  65535 - (s % 65536 + s / 65536)

/-- The multicast addresses of a message of a kind: Ethernet, UDP over IPv4 (Table 3.10). -/
def ptpMulticast (udp peer : Bool) : Nat × Nat :=
  match udp, peer with
  | false, false => (0x011B19000000, 0)
  | false, true => (0x0180C200000E, 0)
  | true, false => (0x01005E000181, 0xE0000181)
  | true, true => (0x01005E00006B, 0xE000006B)

/-- A PTP message in UDP over IPv4 (Table 3.10): ports 319 and 320; a one-step message carries a UDP checksum of 0 (R91). (PRESUMED, log 33.) -/
def udpPacket (src dst port : Nat) (oneStep : Bool) (msg : Bytes) : Bytes :=
  let n := msg.length
  let head (sum : Nat) : Bytes := toBE 1 0x45 ++ toBE 1 0 ++ toBE 2 (28 + n) ++ toBE 4 0 ++ toBE 1 1 ++ toBE 1 17 ++ toBE 2 sum ++ toBE 4 src ++ toBE 4 dst
  let udp (sum : Nat) : Bytes := toBE 2 port ++ toBE 2 port ++ toBE 2 (8 + n) ++ toBE 2 sum ++ msg
  let sum := checksum (toBE 4 src ++ toBE 4 dst ++ toBE 2 17 ++ toBE 2 (8 + n) ++ udp 0)
  head (checksum (head 0)) ++ udp (if oneStep then 0 else if sum = 0 then 65535 else sum)

/-- The frame that carries a PTP message of a kind on port p: transport, VLAN with priority 7, source address and FCS. (PRESUMED, log 33.) -/
def Block.ptpFrame (b : Block) (p kind : Nat) (oneStep : Bool) (msg : Bytes) : Bytes :=
  let udp := b.rdN (Od.LT_PTP_TRANSPORT p) == 1
  let to_ := ptpMulticast udp (kind == 2 || kind == 3 || kind == 10)
  let vlan := b.rdN (Od.LT_PTP_VLAN p)
  let tag : Bytes := if vlan = 0 then [] else toBE 2 0x8100 ++ toBE 2 (7 * 8192 + vlan)
  let load := if udp then udpPacket (b.rdN (Od.LT_PTP_IPV4_ADDR p)) to_.2 (if kind < 8 then 319 else 320) oneStep msg else msg
  withFcs (toBE 6 to_.1 ++ b.ownMac ++ tag ++ toBE 2 (if udp then 0x0800 else 0x88F7) ++ load ++ List.replicate (46 - load.length) 0)

/-- The port identity under which port p sends: clockIdentity (R436) and portNumber. (PRESUMED, log 33.) -/
def Block.portIdentity (b : Block) (p : Nat) : Nat := b.identity * 65536 + p + 1

/-- A PTP Timestamp as bytes. -/
def stampBytes (sec ns : Nat) : Bytes := toBE 6 sec ++ toBE 4 ns

/-- controlField and logMessageInterval of a message of a kind. (PRESUMED, log 33.) -/
def ptpControl (kind : Nat) : Nat := if kind = 0 then 0 else if kind = 1 then 1 else if kind = 8 then 2 else if kind = 9 then 3 else 5
def Block.ptpInterval (b : Block) (p kind : Nat) : Int :=
  if kind = 0 ∨ kind = 8 then b.rd (Od.LT_PTP_LOG_SYNC p) else if kind = 9 then b.rd (Od.LT_PTP_LOG_DELAY p)
  else if kind = 11 then b.rd (Od.LT_PTP_LOG_ANNOUNCE p) else 127

/-- A PTP message: header with its flags and correctionField (ticks are its 2⁻¹⁶ ns), then its body. (PRESUMED, log 33.) -/
def Block.ptpMessage (b : Block) (p kind domain seq flags : Nat) (corr : Int) (body : Bytes) : Bytes :=
  toBE 1 kind ++ toBE 1 0x12 ++ toBE 2 (34 + body.length) ++ toBE 1 domain ++ toBE 1 0 ++ toBE 2 flags ++ toBE 8 (unsigned 64 corr) ++ toBE 4 0
    ++ toBE 10 (b.portIdentity p) ++ toBE 2 seq ++ toBE 1 (ptpControl kind) ++ toBE 1 (unsigned 8 (b.ptpInterval p kind)) ++ body

/-- The frame of a message of a kind on port p with a Timestamp; one that answers names the port that asked. `twoStep` is the twoStepFlag. -/
def Block.ptpTimed (b : Block) (p kind domain seq : Nat) (twoStep : Bool) (sec ns : Nat) (corr : Int) (asked : Option Nat) : Bytes :=
  let rest : Bytes := match asked with
    | some id => toBE 10 id
    | none => if kind = 2 then toBE 10 0 else []
  b.ptpFrame p kind (!twoStep && (kind == 0 || kind == 3)) (b.ptpMessage p kind domain seq (if twoStep then 0x200 else 0) corr (stampBytes sec ns ++ rest))

/-- A general message's frame sent on port p. -/
def Block.sendGeneral (b : Block) (p : Nat) (l : Bytes) : Block := b.ownSend p (.frame l)

/-- A PTP Timestamp with its correctionField, in ticks since the epoch (R56). -/
def ptpTicks (t : PtpTime) (corr : Int) : Int := ((t.sec * ticksPerSec + t.ns * 65536 : Nat) : Int) + corr

/-- A time word written as a PTP Timestamp: secondsField, nanosecondsField and the FRACTION for the correctionField (R55). -/
def ptpStamp (word : Int) : Nat × Nat × Int :=
  let w := (word % (wordWrap : Int)).toNat
  (secondsOf w, nanosOf w, (fractionOf w : Int))

/-- The delay from a domain's master to port p: measured with it, or the peer delay (R89). -/
def Block.ptpDelay (b : Block) (p dom : Nat) : Option Int :=
  if b.rdN (Od.LT_PTP_DELAY_MECH p) = 1 then (b.ptp p).peerDelay else (b.ptpDom p dom).meanDelay

/-- A Sync with its time and the delay measured: the sample for the slots that take its domain (R90, Table 4.2). The delay toward the module is
the mean path delay less α (R82, Table 3.10). -/
def Block.ptpOffset (b : Block) (p dom : Nat) : Block :=
  let q := b.ptpDom p dom
  match q.t1, b.ptpDelay p dom with
  | some t1, some d => b.ptpSample p dom (t1 + d - b.corr (alphaItem p) - q.t2)
  | _, _ => b

/-- A Sync received (R89). -/
def Block.syncRx (b : Block) (p : Nat) (m : PtpMsg) (twoStep : Bool) (origin : PtpTime) (logInterval : Int) (stamp : Stamp) : Block :=
  if !b.ptpTakes p m || !b.ptpDomain m.domain then b
  else
    let t2 := b.frameArrival p stamp
    let b := (b.tally 1 p 7).setPtpDom p m.domain fun q => { q with lastSync := some b.cyc, logSync := logInterval, t2 := t2 }
    if twoStep then b.setPtpDom p m.domain fun q => { q with syncWait := some (m.seq, m.src, m.corr), t1 := none }
    else (b.setPtpDom p m.domain fun q => { q with syncWait := none, t1 := some (ptpTicks origin m.corr) }).ptpOffset p m.domain

/-- A Follow_Up received: the precise origin time of a two-step Sync. -/
def Block.followUpRx (b : Block) (p : Nat) (m : PtpMsg) (origin : PtpTime) : Block :=
  match b.ptpTakes p m, (b.ptpDom p m.domain).syncWait with
  | true, some (seq, src, corr) =>
    if seq = m.seq ∧ src = m.src then
      (b.setPtpDom p m.domain fun q => { q with syncWait := none, t1 := some (ptpTicks origin (corr + m.corr)) }).ptpOffset p m.domain
    else b
  | _, _ => b

/-- A Delay_Req received on a master port, answered with Delay_Resp. (DEDUCED, log 35.) -/
def Block.delayReqRx (b : Block) (p : Nat) (m : PtpMsg) (stamp : Stamp) : Block :=
  if b.ptpTakes p m && b.rdN (Od.LT_PTP_PORT_STATE p) == 6 && b.rdN (Od.LT_PTP_DELAY_MECH p) == 0 && m.domain == b.rdN (Od.LT_PTP_DOMAIN p) then
    let (s, n, f) := ptpStamp (b.frameArrival p stamp)
    (b.tally 1 p 7).sendGeneral p (b.ptpTimed p 9 m.domain m.seq false s n (m.corr + f) (some m.src))
  else b

/-- A Delay_Resp received: the mean path delay of the exchange. -/
def Block.delayRespRx (b : Block) (p : Nat) (m : PtpMsg) (received : PtpTime) : Block :=
  let q := b.ptpDom p m.domain
  match b.ptpTakes p m, q.t3, q.t1 with
  | true, some (seq, t3), some t1 =>
    if seq = m.seq then
      (b.setPtpDom p m.domain fun q => { q with t3 := none, meanDelay := some (((q.t2 - t1) + (ptpTicks received m.corr - t3)) / 2) }).ptpOffset p m.domain
    else b
  | _, _, _ => b

/-- The peer delay of port p measured: a sample for every domain received. -/
def Block.peerDelayed (b : Block) (p : Nat) (d : Int) : Block :=
  b.ptpDomains.foldl (fun b n => b.ptpOffset p n) (b.setPtp p fun q => { q with pdelayT1 := none, pdelayWait := none, peerDelay := some d })

/-- A Pdelay_Req received, answered with Pdelay_Resp and, in two-step, a follow-up; `sent` is what is observed of the answer as it leaves. (DEDUCED, log 35.) -/
def Block.pdelayReqRx (b : Block) (p : Nat) (m : PtpMsg) (stamp sent : Stamp) : Block :=
  if b.ptpTakes p m && b.ptpOwn p m.domain && b.rdN (Od.LT_PTP_DELAY_MECH p) == 1 then
    let t2 := b.frameArrival p stamp
    let t3 := b.frameDeparture p sent
    let b := b.tally 1 p 7
    if b.on (Od.LT_PTP_ONE_STEP p) then
      let l := b.ptpTimed p 3 m.domain m.seq false 0 0 (m.corr + (t3 - t2)) (some m.src)
      b.eventMsg p l id id
    else
      let (s2, n2, f2) := ptpStamp t2
      let (s3, n3, f3) := ptpStamp t3
      let l := b.ptpTimed p 3 m.domain m.seq true s2 n2 0 (some m.src)
      b.eventMsg p l id fun b => b.sendGeneral p (b.ptpTimed p 10 m.domain m.seq false s3 n3 (m.corr + f3 - f2) (some m.src))
  else b

/-- A Pdelay_Resp received; one-step carries the turnaround in its correctionField. (DEDUCED, log 35.) -/
def Block.pdelayRespRx (b : Block) (p : Nat) (m : PtpMsg) (twoStep : Bool) (received : PtpTime) (stamp : Stamp) : Block :=
  match b.ptpTakes p m, (b.ptp p).pdelayT1 with
  | true, some (seq, t1) =>
    if seq = m.seq then
      let b := b.tally 1 p 7
      let t4 := b.frameArrival p stamp
      if twoStep then b.setPtp p fun q => { q with pdelayWait := some (m.seq, ptpTicks received 0, t4, m.corr) }
      else b.peerDelayed p ((t4 - t1 - m.corr) / 2)
    else b
  | _, _ => b

/-- A Pdelay_Resp_Follow_Up received, completing the peer delay. (DEDUCED, log 35.) -/
def Block.pdelayFollowUpRx (b : Block) (p : Nat) (m : PtpMsg) (origin : PtpTime) : Block :=
  match b.ptpTakes p m, (b.ptp p).pdelayWait, (b.ptp p).pdelayT1 with
  | true, some (seq, t2, t4, corr), some (_, t1) =>
    if seq = m.seq then b.peerDelayed p ((t4 - t1 - (ptpTicks origin 0 - t2) - corr - m.corr) / 2) else b
  | _, _, _ => b

/-- A port's PTP state (R89): sticky bit [5] and event 0x2205 on a change. -/
def Block.setPortState (b : Block) (p st : Nat) : Block :=
  if b.rdN (Od.LT_PTP_PORT_STATE p) = st then b
  else ((b.wr (Od.LT_PTP_PORT_STATE p) st).orBits (Od.LT_STICKY p) 32).raise 0x2205 p st

/-- The port state that LTn_PTP_PORT_CONFIG fixes, or the one that the default BMCA decides. (DEDUCED, log 34.) -/
def Block.portState (b : Block) (p decided : Nat) : Nat :=
  match b.rdN (Od.LT_PTP_PORT_CONFIG p) with
  | 1 => 6
  | 2 => 9
  | 3 => 7
  | _ => decided

/-- The TAI second of a leap at the end of the present UTC day (R54). -/
def Block.leapSecond (b : Block) (utc : Int) (insert : Bool) : Nat :=
  let day := ((secondsOf b.mer : Int) - utc) / 86400
  ((day + 1) * 86400 + utc + (if insert then 1 else -1)).toNat

/-- What an Announce tells a domain observer that receives its port (R57, R62, R90). -/
def Block.observerAnnounce (b : Block) (p d : Nat) (m : PtpMsg) (a : Announce) : Block :=
  if b.rdN (Od.DOMX_KIND d) = 1 ∧ b.rdN (Od.DOMX_PTP_DOMAIN d) = m.domain ∧ b.observerPort d = some p then
    (b.setMt fun t => { t with obsArb := tput t.obsArb d (!a.tai), obsClass := tput t.obsClass d a.cls }).wr (Od.DOMX_UTC_OFFSET d) a.utc
  else b

/-- Whether the selected slot takes a PTP domain on port p. -/
def Block.ptpSelectedOn (b : Block) (p domain : Nat) : Bool :=
  match b.ptpSelected, b.selected with
  | some q, some k => q == p && b.slotDomainNumber k == domain
  | _, _ => false

/-- An Announce received: the slot's clockClass, UTC and leap, ARB timescale, port state (R53, R54, R57, R89, R90, R134). (DESIGN CHOICE, log 4 and 38; DEDUCED, log 34.) -/
def Block.announceRx (b : Block) (p : Nat) (m : PtpMsg) (a : Announce) : Block :=
  if !b.ptpTakes p m || !b.ptpDomain m.domain then b
  else
    let par : Parent :=
      { domain := m.domain, cls := a.cls, accuracy := a.accuracy, variance := a.variance, priority1 := a.priority1, priority2 := a.priority2,
        gm := a.gm, steps := a.steps, source := a.source, utc := a.utc, utcValid := a.utcValid, leap61 := a.leap61, leap59 := a.leap59, tai := a.tai }
    let b := b.setPtpDom p m.domain fun q => { q with parent := some par, lastAnnounce := some b.cyc, logAnnounce := a.logInterval }
    let b := (b.observerAnnounce p 0 m a).observerAnnounce p 1 m a
    let b := b.setPortState p (b.portState p a.decided)
    -- the uncertainty a PTP grandmaster declares is not stated in ps (log 4)
    let (f, b) := b.draw (2 ^ 32)
    let b := (List.range 24).foldl (fun b k =>
      if b.slotKind k = 2 ∧ b.rdN (Od.SLOT_PORT k) = p ∧ b.slotDomainNumber k = m.domain then b.wr (Od.SLOT_UNCERTAINTY k) f else b) b
    let b := b.rerankAll
    if b.ptpSelectedOn p m.domain then
      let b := b.followUtc
      if b.rdN Od.MT_UTC_SOURCE = 0 then
        b.learnLeap (if a.leap61 then 1 else if a.leap59 then 2 else 0) (b.leapSecond a.utc a.leap61)
      else b
    else b

/-- The cycles of an interval of 2^l seconds. -/
def logCycles (l : Int) : Nat := if l < 0 then secs 1 / 2 ^ (-l).toNat else secs 1 * 2 ^ l.toNat

/-- Whether a message last sent at a cycle is due again after an interval of 2^l seconds (R89). (DEDUCED, log 30.) -/
def Block.intervalDue (b : Block) (at_ : Option Nat) (l : Int) : Bool :=
  match at_ with
  | some t => decide (t + logCycles l ≤ b.cyc)
  | none => true

/-- Whether port p may send as master: MASTER, with PTP running. -/
def Block.ptpMaster (b : Block) (p : Nat) : Bool := b.ptpRuns p && b.rdN (Od.LT_PTP_PORT_STATE p) == 6

/-- A master port sends Sync: one-step, or two-step with its Follow_Up (R55, R91). A two-step Sync carries an originTimestamp and a
correctionField of 0. (DEDUCED, log 30; DESIGN CHOICE, log 135.) -/
def Block.syncTx (b : Block) (p : Nat) (stamp : Stamp) : Block :=
  if b.ptpMaster p && b.intervalDue (b.ptp p).syncSentAt (b.rd (Od.LT_PTP_LOG_SYNC p)) then
    let dom := b.rdN (Od.LT_PTP_DOMAIN p)
    let seq := (b.ptp p).syncSeqTx
    let (s, n, f) := ptpStamp (b.frameDeparture p stamp)
    let sent (b : Block) : Block := b.setPtp p fun q => { q with syncSeqTx := (seq + 1) % 65536, syncSentAt := some b.cyc }
    if b.on (Od.LT_PTP_ONE_STEP p) then
      let l := b.ptpTimed p 0 dom seq false s n f none
      b.eventMsg p l sent sent
    else
      let l := b.ptpTimed p 0 dom seq true 0 0 0 none
      b.eventMsg p l sent fun b => (sent b).sendGeneral p (b.ptpTimed p 8 dom seq false s n f none)
  else b

/-- The domain that a port's next Delay_Req is for: the first domain received whose Sync has been heard and whose delay interval has passed. (DESIGN CHOICE, log 136.) -/
def Block.delayDomain (b : Block) (p : Nat) : Option Nat :=
  b.ptpDomains.find? fun n => (b.ptpDom p n).lastSync.isSome && b.intervalDue (b.ptpDom p n).delaySentAt (b.rd (Od.LT_PTP_LOG_DELAY p))

/-- A port sends Delay_Req, in one of the domains it receives, or Pdelay_Req, in the domain it sends as master (R89). (DEDUCED, log 30; DESIGN CHOICE, log 136.) -/
def Block.delayReqTx (b : Block) (p : Nat) (stamp : Stamp) : Block :=
  let t := b.frameDeparture p stamp
  let seq := (b.ptp p).delaySeq
  if !b.ptpRuns p then b
  else if b.rdN (Od.LT_PTP_DELAY_MECH p) = 1 then
    if b.intervalDue (b.ptp p).delaySentAt (b.rd (Od.LT_PTP_LOG_DELAY p)) then
      let l := b.ptpTimed p 2 (b.rdN (Od.LT_PTP_DOMAIN p)) seq false 0 0 0 none
      let gone (b : Block) : Block := b.setPtp p fun q => { q with pdelayT1 := none, pdelayWait := none, delaySeq := (seq + 1) % 65536, delaySentAt := some b.cyc }
      b.eventMsg p l gone fun b => (gone b).setPtp p fun q => { q with pdelayT1 := some (seq, t) }
    else b
  else if b.rdN (Od.LT_PTP_PORT_STATE p) = 8 ∨ b.rdN (Od.LT_PTP_PORT_STATE p) = 9 then
    match b.delayDomain p with
    | some n =>
      let l := b.ptpTimed p 1 n seq false 0 0 0 none
      let gone (b : Block) : Block :=
        (b.setPtp p fun q => { q with delaySeq := (seq + 1) % 65536 }).setPtpDom p n fun q => { q with t3 := none, delaySentAt := some b.cyc }
      b.eventMsg p l gone fun b => (gone b).setPtpDom p n fun q => { q with t3 := some (seq, t) }
    | none => b
  else b

/-- The grandmaster attributes a port announces (R92): the parent's where a PTP domain is selected, else the module's own. (PRESUMED, log 33.) -/
def Block.gmAttributes (b : Block) : Parent :=
  let own : Parent :=
    { cls := b.announced.1, source := b.announced.2, priority1 := 128, priority2 := 128, gm := b.identity, utc := b.rd Od.MT_UTC_OFFSET,
      utcValid := b.on Od.MT_UTC_OFFSET_VALID, leap61 := b.rdN Od.MT_LEAP_PENDING == 1, leap59 := b.rdN Od.MT_LEAP_PENDING == 2, tai := !b.steersArb }
  match b.parentSelected with
  | some a => { a with steps := a.steps + 1 }
  | none => own

/-- The frame of an Announce on port p. (PRESUMED, log 33.) -/
def Block.announceFrame (b : Block) (p : Nat) : Bytes :=
  let a := b.gmAttributes
  let flags := b2n a.leap61 + 2 * b2n a.leap59 + 4 * b2n a.utcValid + 8 * b2n a.tai
  b.ptpFrame p 11 false (b.ptpMessage p 11 (b.rdN (Od.LT_PTP_DOMAIN p)) (b.ptp p).announceSeqTx flags 0
    (stampBytes 0 0 ++ toBE 2 (unsigned 16 a.utc) ++ toBE 1 0 ++ toBE 1 a.priority1 ++ toBE 1 a.cls ++ toBE 1 a.accuracy ++ toBE 2 a.variance
      ++ toBE 1 a.priority2 ++ toBE 8 a.gm ++ toBE 2 a.steps ++ toBE 1 a.source))

/-- A master port sends Announce (R92). (DEDUCED, log 30.) -/
def Block.announceTx (b : Block) (p : Nat) : Block :=
  if b.ptpMaster p && b.intervalDue (b.ptp p).announceSentAt (b.rd (Od.LT_PTP_LOG_ANNOUNCE p)) then
    (b.sendGeneral p (b.announceFrame p)).setPtp p fun q => { q with announceSeqTx := (q.announceSeqTx + 1) % 65536, announceSentAt := some b.cyc }
  else b

/-- Whether a domain's Announce on port p, or its Sync, has stayed away for its timeout (R89; R132, Table 5.1). -/
def Block.announceLate (b : Block) (p n : Nat) : Bool :=
  let q := b.ptpDom p n
  match q.lastAnnounce with
  | some t => decide (t + b.rdN (Od.LT_PTP_ANNOUNCE_TIMEOUT p) * logCycles q.logAnnounce ≤ b.cyc)
  | none => false
def Block.syncLate (b : Block) (p n : Nat) : Bool :=
  let q := b.ptpDom p n
  match q.lastSync with
  | some t => decide (t + 3 * logCycles q.logSync ≤ b.cyc)
  | none => false

/-- The slots of port p's PTP whose source is no longer active made inactive. -/
def Block.ptpSlotsOff (b : Block) (p : Nat) : Block :=
  (List.range 24).foldl (fun b k =>
    if b.slotKind k = 2 ∧ b.rdN (Od.SLOT_PORT k) = p ∧ b.slotState k ≠ 0 ∧ !b.sourceActive k then b.sourceOff k else b) b

/-- announceReceiptTimeout expires in each domain it does (R89): no parent; with no parent left the port is MASTER under the default BMCA. (DEDUCED, log 34.) -/
def Block.announceTimeout (b : Block) (p : Nat) : Block :=
  let late := ((b.ptp p).dom.map (·.1)).filter fun n => b.announceLate p n
  if late.isEmpty then b
  else
    let b := late.foldl (fun b n => b.setPtpDom p n fun q => { q with parent := none, lastAnnounce := none }) b
    let b := if (b.ptp p).dom.any fun e => e.2.parent.isSome then b else b.setPortState p (b.portState p 6)
    (b.ptpSlotsOff p).rerankAll

/-- Three Sync intervals without a Sync of a domain: its slots on the port become inactive (R132, Table 5.1). -/
def Block.syncTimeout (b : Block) (p : Nat) : Block :=
  let late := ((b.ptp p).dom.map (·.1)).filter fun n => b.syncLate p n
  if late.isEmpty then b
  else (late.foldl (fun b n => b.setPtpDom p n fun q => { q with lastSync := none, t1 := none, syncWait := none }) b).ptpSlotsOff p

/-- What a link that goes down does to a port's PTP state: nothing is received any more. -/
def Block.ptpLinkDown (b : Block) (p : Nat) : Block :=
  b.setPtp p fun q =>
    { q with dom := q.dom.map fun e => (e.1, { e.2 with lastSync := none, t1 := none, t3 := none, syncWait := none, meanDelay := none }),
             pdelayT1 := none, pdelayWait := none, peerDelay := none }

end Sys2Proof.Machine
end

