-- ==== Sys2Proof/Machine/Outputs.lean ====
section
/-! DEFINITION. Timing outputs and reference inputs (R107 to R131): shadows and the commit, alignment to a REFIN pulse, squelch, REFIN
pulses and presence, and the commands on Meridian time itself (chapter 2, R526). -/

namespace Sys2Proof.Machine

-- Settings

/-- The shadow settings of output n (R119). -/
def Block.shadow (b : Block) (n : Nat) : OutCfg :=
  { mode := b.rdN (Od.OUT_MODE n), source := b.rdN (Od.OUT_SOURCE n), div := b.rdN (Od.OUT_DIV n), interval := b.rdN (Od.OUT_PULSE_INTERVAL n),
    rate := b.rdN (Od.OUT_PULSE_RATE n), width := b.rdN (Od.OUT_WIDTH n), frameRef := b.rdN (Od.OUT_FRAME_REF n),
    frameLen := b.rdN (Od.OUT_FRAME_LEN n), offset := b.rd (Od.OUT_OFFSET n), align := b.rdN (Od.OUT_ALIGN n), board := b.rd (Od.OUT_BOARD_DELAY n),
    polarity := b.rdN (Od.OUT_POLARITY n), squelch := b.rdN (Od.OUT_SQUELCH n), idle := b.rdN (Od.OUT_IDLE_LEVEL n) }

/-- OUTn_PENDING of every output: the shadow differs from the settings in force (R119). -/
def Block.refreshPending (b : Block) : Block :=
  (List.range 8).foldl (fun b n => b.wr (Od.OUT_PENDING n) (b2n (decide (b.shadow n ≠ (b.out n).cfg)))) b

/-- The first field of an output's settings that R107, R113 or R114 forbids, as its sub-index; none where all is allowed. (DEDUCED, log 21.) -/
def checkOut (b : Block) (cfgs : List OutCfg) (c : OutCfg) : Option Nat :=
  let rateSub := match c.mode with | 1 => 4 | 2 => 5 | 5 => 8 | _ => 3
  let rateBad := match outRate b cfgs c with
    | some (p, q) => decide (65535 < q) || decide (250000000 * q < p)
    | none => true
  match c.mode with
  | 0 => none
  | 1 => if c.source ≠ 0 then some 2 else if c.width < 10 ∨ c.interval * 1000000000 < c.width + 10 then some 6 else none
  | 2 => if c.source ≠ 0 then some 2 else if c.width < 10 ∨ 1000000000 < (c.width + 10) * c.rate then some 6 else if rateBad then some rateSub else none
  | 3 => if c.source ≠ 0 ∧ c.source ≠ 3 then some 2 else if rateBad then some rateSub else none
  | 4 => if c.source ≠ 2 then some 2 else if rateBad then some rateSub else none
  | _ =>
    if c.source ≠ 2 then some 2
    else match cfgs[c.frameRef]? with
      | some r => if r.mode ≠ 4 then some 7 else if rateBad then some rateSub else none
      | none => some 7

/-- The first offending output and sub-index of a set of settings (R120). (DEDUCED, log 21.) -/
def firstOffence (b : Block) (cfgs : List OutCfg) : List Nat → Option (Nat × Nat)
  | [] => none
  | n :: r => match cfgs[n]? with
    | none => none
    | some c => match checkOut b cfgs c with
      | some s => some (n, s)
      | none => firstOffence b cfgs r

/-- φ of R115: the mean of the phases of the last OUT_ALIGN_AVG pulses of input r, of those there are, with PULSE_OFFSET added. (DESIGN CHOICE, log 140.) -/
def Block.alignPhi (b : Block) (r : Nat) : Option Int :=
  let ps := (tat {} b.tm.refin r).phases.take (b.rdN Od.OUT_ALIGN_AVG)
  if ps.isEmpty then none else some (meanI ps + psToTicks (b.rd (Od.REFIN_PULSE_OFFSET r)))

/-- Output n with new settings in force, its grid stopped; a new alignment takes the phase of its input as it stands. (DESIGN CHOICE, log 121.) -/
def Block.takeCfg (b : Block) (n : Nat) (c : OutCfg) : Block :=
  if c.align = (b.out n).cfg.align then b.setOut n fun o => { o with cfg := c, invalid := false, rose := none }
  else
    let phi := if c.align = 0 then 0 else (b.alignPhi (c.align - 1)).getD 0
    let hit := if c.align = 0 then none else (tat {} b.tm.refin (c.align - 1)).lastAt
    b.setOut n fun o => { o with cfg := c, invalid := false, rose := none, phi := ⟨phi, phi, 0, b.cyc⟩, hitAt := hit, back := 0, flywheel := false }

/-- New settings for a list of outputs from an instant on (R121): each output changed, and each frame output whose reference is, completes its pulse and
starts on its new grid; what waits for an engine or a squelch stays held. -/
def Block.takeCfgs (b : Block) (cfgs : List OutCfg) (at_ : Int) : Block :=
  let changed := (List.range 8).filter fun n => match cfgs[n]? with | some x => decide (x ≠ (b.out n).cfg) | none => false
  let hit := (List.range 8).filter fun n =>
    changed.contains n || match cfgs[n]? with | some x => x.mode == 5 && changed.contains x.frameRef | none => false
  let b := hit.foldl (fun b n => b.stopGrid n at_) b
  let b := hit.foldl (fun b n => match cfgs[n]? with | some x => b.takeCfg n x | none => b) b
  b.resumeOuts hit

/-- The instant of a commit with OUT_COMMIT_AT = 0: the first whole Meridian second at least 10 ms ahead (R120). -/
def Block.nextCommitSecond (b : Block) : Nat := (b.mer + 10000000 * 65536 + ticksPerSec - 1) / ticksPerSec * ticksPerSec

/-- Whether this module's commits must lie 10 ms ahead: ACTIVE with a partner that syncs or is ready (R120). -/
def Block.pairCommits (b : Block) : Bool :=
  b.rdN Od.PAIR_STATE == 2 && (b.rdN Od.PAIR_PARTNER_STATE == 3 || b.rdN Od.PAIR_PARTNER_STATE == 4)

/-- Whether a change of settings restarts its engine's acquisition in a pair (R123). -/
def restartsEngine (old new : OutCfg) : Bool :=
  new.source != 0 && (old.mode != new.mode || old.div != new.div || old.rate != new.rate || old.interval != new.interval
    || old.frameRef != new.frameRef || old.frameLen != new.frameLen)

/-- Whether commits and engine starts act on both modules (R123): this module is ACTIVE or STANDBY in a pair whose other module works with it. -/
def Block.pairActs (b : Block) : Bool := b.pairCommits || b.rdN Od.PAIR_STATE == 3 || b.rdN Od.PAIR_STATE == 4

/-- The commit taking effect (R120, R121, R123): each changed output starts its new grid; events 0x2410 and, late, 0x2411. -/
def Block.applyCommit (b : Block) (late : Bool) : Block :=
  match b.tm.commit with
  | none => b
  | some c =>
    let changed := (List.range 8).filter fun n => match c.cfgs[n]? with | some x => decide (x ≠ (b.out n).cfg) | none => false
    let mask := changed.foldl (fun a n => a + 2 ^ n) 0
    let engines := if b.pairActs then
        [2, 3].filter fun e => changed.any fun n => match c.cfgs[n]? with | some x => x.source == e && restartsEngine (b.out n).cfg x | none => false
      else []
    let b := b.takeCfgs c.cfgs b.mer
    let b := engines.foldl (fun b e => b.reacquire e b.mer) b
    let b := (b.setTm fun t => { t with commit := none }).disarm .outCommit
    let b := (b.wr Od.OUT_COMMIT_STATUS (if late then 3 else 2)).wr Od.OUT_COMMIT_TICK b.tick
    let b := b.refreshOuts.refreshPending
    let b := b.raise 0x2410 0 mask
    if late then b.raise 0x2411 0 mask else b

/-- An accepted commit armed (R120); one already due applies at once as late. (DEDUCED, log 22; DESIGN CHOICE, log 111.) -/
def Block.armCommit (b : Block) : Block :=
  let at_ := b.rdN Od.OUT_COMMIT_AT
  let tick := if at_ = 0 then tickOf b.nextCommitSecond else at_
  let b := b.setTm fun t => { t with commit := some ⟨(List.range 8).map b.shadow, tick⟩ }
  let b := (b.wr Od.OUT_COMMIT_STATUS 1).wr Od.OUT_COMMIT_ERROR 0xFFFF
  let late := b.due tick
  let b := b.armTick .outCommit tick
  if late then b.applyCommit true else b

/-- An armed commit cancelled (R120). (DEDUCED, log 22.) -/
def Block.cancelCommit (b : Block) : Block :=
  if b.tm.commit.isSome then ((b.setTm fun t => { t with commit := none }).disarm .outCommit).wr Od.OUT_COMMIT_STATUS 0 else b

-- Alignment (R115)

/-- Whether a pulse now comes within ±50 ms of a whole number of seconds after a cycle (R115). (DEDUCED, log 24.) -/
def Block.onTime (b : Block) : Option Nat → Bool
  | none => true
  | some t => let d := (b.cyc - t) % secs 1; decide (d ≤ ms 50) || decide (secs 1 - ms 50 ≤ d)

/-- Output n taken to a new φ as its alignment returns (R115): slewed within OUT_ALIGN_STEP_LIMIT, else by a step at its next active edge. -/
def Block.alignReturn (b : Block) (n : Nat) (phi : Int) : Block :=
  let b := (b.setOut n fun o => { o with flywheel := false, back := 0 }).raise 0x2415 n
  let old := (b.out n).phi.at_ b.cyc
  if (phi - old).natAbs * 1000 ≤ b.rdN Od.OUT_ALIGN_STEP_LIMIT * 65536 then
    b.setOut n fun o => { o with phi := ⟨old, phi, b.rdN Od.OUT_ALIGN_SLEW, b.cyc⟩ }
  else
    let go := (b.out n).first.isSome
    let b := (b.stopGrid n b.mer).setOut n fun o => { o with phi := ⟨phi, phi, 0, b.cyc⟩ }
    ((if go then b.startOut n b.mer else b).orBits (Od.OUT_STICKY n) 4).raise 0x2416 n

/-- A REFIN pulse of input r, whose last one before it was at `last`, for every output aligned to it. A slew in progress goes on to the newest φ. (DEDUCED, log 24; DESIGN CHOICE, log 140.) -/
def Block.alignPulse (b : Block) (r : Nat) (last : Option Nat) : Block :=
  let phi := (b.alignPhi r).getD 0
  ((List.range 8).foldl (fun b n =>
    let o := b.out n
    if o.cfg.align ≠ r + 1 then b
    else if o.flywheel then
      let back := if b.onTime last then o.back + 1 else 1
      let b := b.setOut n fun o => { o with back := back, hitAt := some b.cyc }
      if back < b.rdN Od.OUT_ALIGN_AVG then b else b.alignReturn n phi
    else
      let now := o.phi.at_ b.cyc
      b.setOut n fun o =>
        { o with hitAt := if b.onTime o.hitAt then some b.cyc else o.hitAt,
                 phi := if now = o.phi.goal then ⟨phi, phi, 0, b.cyc⟩ else ⟨now, phi, b.rdN Od.OUT_ALIGN_SLEW, b.cyc⟩ }) b).refreshOuts

/-- Whether the pulse that output n is aligned to is lost (R115): OUT_ALIGN_LOSS_COUNT expected pulses without one within 50 ms, or the input STOPPED. With
no pulse since the input's start there is none to be aligned to. (DESIGN CHOICE, log 141.) -/
def Block.alignLost (b : Block) (n : Nat) : Bool :=
  !b.fnRuns (36 + ((b.out n).cfg.align - 1)) || match (b.out n).hitAt with
    | none => true
    | some t => decide (t + secs (b.rdN Od.OUT_ALIGN_LOSS_COUNT) + ms 50 ≤ b.cyc)

/-- An output's alignment input lost: FLYWHEEL on the last φ (R115). (DEDUCED, log 24.) -/
def Block.alignLoss (b : Block) (n : Nat) : Block :=
  let o := b.out n
  if o.cfg.mode ≠ 0 ∧ o.cfg.align ≠ 0 ∧ !o.flywheel ∧ b.alignLost n then
    (((b.setOut n fun o => { o with flywheel := true, back := 0 }).orBits (Od.OUT_STICKY n) 2).raise 0x2414 n).refreshOuts
  else b

-- Squelch (R116)

/-- Whether output n's squelch condition holds. -/
def Block.squelchNow (b : Block) (n : Nat) : Bool :=
  match (b.out n).cfg.squelch with
  | 1 => !b.on Od.MT_TIME_VALID
  | 2 => b.pe0 != 2 && b.pe0 != 3
  | _ => false

/-- A squelch takes effect. -/
def Block.squelch (b : Block) (n : Nat) : Block :=
  if (b.out n).cfg.mode ≠ 0 ∧ !(b.out n).squelched ∧ b.squelchNow n then
    ((((b.holdOut n b.mer).setOut n fun o => { o with squelched := true }).orBits (Od.OUT_STICKY n) 1).raise 0x2412 n).refreshOuts
  else b

/-- A squelch ends at the first active edge after its condition has cleared. -/
def Block.unsquelch (b : Block) (n : Nat) : Block :=
  if (b.out n).squelched ∧ !b.squelchNow n then
    (((b.setOut n fun o => { o with squelched := false }).resumeOuts [n]).raise 0x2413 n).refreshOuts
  else b

-- Reference inputs (R109, R130)

/-- The rms of 64 values about their mean, in ps (Table 4.9). -/
def rmsPs (l : List Int) : Nat :=
  if l.isEmpty then 0
  else
    let m := meanI l
    min unknownUnc (isqrt (sumSquares (l.map (· - m)) * 1000000 / (4294967296 * l.length)))

/-- A pulse accepted on input r; `frac` is where it reached its converter, in ticks after Meridian time now (R109, R130). (DEDUCED, log 24.) -/
def Block.refinPulse (b : Block) (r : Nat) (frac : Int) : Block :=
  if !b.fnRuns (36 + r) || !b.on (Od.REFIN_PULSE r) then b
  else
    let at_ : Int := b.mer + frac - b.corr (refinItem r) - psToTicks (b.rd (Od.REFIN_BOARD_DELAY r)) - psToTicks (b.rd (Od.REFIN_PULSE_OFFSET r))
    let phase := (at_ + ticksPerSec / 2) % ticksPerSec - ticksPerSec / 2
    let last := (tat {} b.tm.refin r).lastAt
    let all := (phase :: (tat {} b.tm.refin r).phases).take 1024
    let b := b.setTm fun t => { t with refin := tput t.refin r ⟨some b.cyc, all⟩ }
    let b := ((b.wr (Od.REFIN_PULSE_PHASE r) phase).wr (Od.REFIN_PULSE_JITTER r) (rmsPs (all.take 64))).orBits (Od.REFIN_STATUS r) 1
    (b.kindSample (5 + r) (-phase)).alignPulse r last

/-- No pulse by 1.05 s after its expected instant (R130). (DESIGN CHOICE, log 6; DEDUCED, log 24.) -/
def Block.refinTimeout (b : Block) (r : Nat) : Block :=
  match (tat {} b.tm.refin r).lastAt with
  | some t => if t + ms 2050 ≤ b.cyc then b.clearBits (Od.REFIN_STATUS r) 1 else b
  | none => b

/-- The frequency input enters or leaves ±200 ppm of its set frequency (R512). -/
def Block.refinFreq (b : Block) (r : Nat) (present : Bool) : Block :=
  if !b.fnRuns (36 + r) || b.rdN (Od.REFIN_FREQ r) == 0 then b
  else if present then b.orBits (Od.REFIN_STATUS r) 2 else b.clearBits (Od.REFIN_STATUS r) 2

-- Setting time of day (R526)

/-- Whether MT_SET_TIME is refused with STATE: a slot is SELECTED that is not a REFIN slot with its pulse in use. (DEDUCED, log 25.) -/
def Block.setTimeBarred (b : Block) : Bool :=
  match b.selected with
  | none => false
  | some k => !((b.slotKind k == 5 || b.slotKind k == 6) && b.timeCapable k)

/-- MT_SET_TIME accepted (R167, R526): a step of R41; MT_TIME_SET becomes true. (DEDUCED, log 25 and 123.) -/
def Block.setTime (b : Block) (word : Nat) : Block :=
  let b := match b.selected with
    | some _ =>
      let d := ((word : Int) - b.mer + ticksPerSec / 2) / ticksPerSec * ticksPerSec
      (b.stepTime (((b.mer : Int) + d) % wordWrap).toNat).carryStep d
    | none =>
      let unc := b.rdN Od.MT_SET_UNC
      let b := (b.stepTime word).carryStep ((word : Int) - b.mer)
      if b.pe0 = 3 ∨ b.pe0 = 4 then
        (b.setHo fun h => { h with e0 := unc, startAt := some b.cyc, tempInt := 0, steerInt := 0 }).reportHoldover 0
      else b.setMt fun m => { m with manual := some unc }
  let b := b.wr Od.MT_TIME_SET 1
  if b.rdN Od.MT_LEAP_PENDING = 0 then b.takeManual else b

-- Domain observers (R62)

/-- DOM_AB_OFFSET and its uncertainty, 0 and unknown unless both observers are TRACKING (Table 2.9). -/
def Block.domAb (b : Block) : Block :=
  if b.rdN (Od.DOMX_STATE 0) = 2 ∧ b.rdN (Od.DOMX_STATE 1) = 2 then
    (b.wr Od.DOM_AB_OFFSET (b.rd (Od.DOMX_OFFSET 0) - b.rd (Od.DOMX_OFFSET 1))).wr Od.DOM_AB_UNCERTAINTY
      (min unknownUnc (b.rdN (Od.DOMX_UNCERTAINTY 0) + b.rdN (Od.DOMX_UNCERTAINTY 1)) : Nat)
  else (b.wr Od.DOM_AB_OFFSET 0).wr Od.DOM_AB_UNCERTAINTY unknownUnc

/-- A domain observer reads a state and, with a signal, what it measures (R62). (DEDUCED, log 27.) -/
def Block.observe (b : Block) (d st : Nat) (r : ObserverReading) : Block :=
  if !b.fnRuns (38 + d) || b.rdN (Od.DOMX_KIND d) == 0 then b
  else
    let b := (b.wr (Od.DOMX_OFFSET d) r.offset).wr (Od.DOMX_FREQ_OFFSET d) r.freq
    let b := (b.wr (Od.DOMX_UNCERTAINTY d) (min unknownUnc r.unc : Nat)).wr (Od.DOMX_UTC_OFFSET d) r.utc
    let b := b.setMt fun m => { m with obsArb := tput m.obsArb d r.arb, obsClass := tput m.obsClass d r.clockClass }
    let b := (b.observerState d st).domAb
    let b := (List.range 24).foldl (fun b k =>
      if b.slotKind k = 8 + d then b.wr (Od.SLOT_UNCERTAINTY k) (min unknownUnc r.unc : Nat) else b) b
    let b := b.rerankAll
    b.followUtc

/-- The residual of a domain switch has reached zero in CONVERGE (R64). -/
def Block.domResidualZero (b : Block) : Block :=
  let r := b.tm.mt.dom
  if r.start ≠ 0 ∧ r.rate ≠ 0 ∧ b.domResidual = 0 then (b.setMt fun m => { m with dom := {} }).raise 0x2005 else b

/-- The residual of a handover has reached zero (R146). -/
def Block.switchResidualZero (b : Block) : Block :=
  let r := b.tm.sel.residual
  if r.start ≠ 0 ∧ b.switchResidual = 0 then (b.setSel fun s => { s with residual := {} }).raise 0x2605 else b

/-- A new rate or mode applied to the residual that remains (R64, Table 2.9). -/
def Block.rebaseDom (b : Block) : Block :=
  let now := b.domResidual
  b.setMt fun m => { m with dom := if now = 0 then m.dom else b.domRamp now }

/-- A new SEL_SWITCH_SLEW applied to the residual that remains. -/
def Block.rebaseSwitch (b : Block) : Block :=
  let now := b.switchResidual
  b.setSel fun s => { s with residual := if now = 0 then s.residual else ⟨now, 0, b.rdN Od.SEL_SWITCH_SLEW, b.cyc⟩ }

/-- A new RET_SLEW_RATE applied to the residual that remains. -/
def Block.rebaseReturn (b : Block) : Block :=
  let now := b.retResidual
  if b.rdN Od.RET_STATE = 1 then b.setHo fun h => { h with ret := ⟨now, 0, b.rdN Od.RET_SLEW_RATE, b.cyc⟩ } else b

end Sys2Proof.Machine
end

