-- ==== Sys2Proof/Machine/Oscillator.lean ====
section
/-! DEFINITION. The slot monitors of each second (R135 to R138, R525), the service phase (R141), the oven oscillator's flag (R153, R154), the
holdover model (R158 to R161), the holdover timer (R164, R165) and the steps of a return (R170, R171). -/

namespace Sys2Proof.Machine

-- Slot monitors each second

/-- The mean of the first n values of a list. -/
def meanOf (n : Nat) (l : List Int) : Int := meanI (l.take n)

/-- The least-squares slope of values one second apart, oldest first, times a number of seconds. -/
def slopeTimes (l : List Int) (w : Nat) : Int :=
  let n : Int := l.length
  let pairs := l.zipIdx
  let si : Int := pairs.foldl (fun a e => a + (e.2 : Int)) 0
  let sii : Int := pairs.foldl (fun a e => a + (e.2 : Int) * e.2) 0
  let sy : Int := sumI l
  let siy : Int := pairs.foldl (fun a e => a + (e.2 : Int) * e.1) 0
  let den := n * sii - si * si
  if den = 0 then 0 else (n * siy - si * sy) * w / den

/-- A second's readings of slot k taken into its windows; `mean` is its frequency against the free oven oscillator in ppt. (DEDUCED, log 47.) -/
def Block.monitorTake (b : Block) (k : Nat) (mean : Option Int) : Block :=
  if b.slotState k = 0 then b
  else
    let b := b.setSlot k fun s =>
      { s with oven := match mean with | some m => (m :: s.oven).take 86400 | none => s.oven,
               means := (if s.secN = 0 then none else some (s.secSum / s.secN)) :: s.means.take 1, secSum := 0, secN := 0, driftTick := s.driftTick + 1 }
    let s := b.slot k
    let w := b.rdN (Od.SLOT_DRIFT_WINDOW k)
    let b := b.wr (Od.SLOT_FREQ_OFFSET k) (meanOf 10 s.oven)
    if s.driftTick % 10 = 0 then b.wr (Od.SLOT_DRIFT k) (slopeTimes (s.oven.take w).reverse w) else b

/-- A judged reading against its limit: trips above it, clears at 0.8 of it or less. (DEDUCED, log 39.) -/
def Block.judge (b : Block) (k mon : Nat) (reading limit : Nat) : Block :=
  if b.slotState k = 0 then b
  else if b.isTripped k mon then (if reading * 10 ≤ limit * 8 then b.untrip k mon else b)
  else if limit < reading then b.trip k mon else b

/-- The frequency-against-oven monitor (Table 5.3, R138). -/
def Block.monitorOven (b : Block) (k : Nat) : Block :=
  if b.on Od.OSC_WARMUP || decide ((b.slot k).oven.length < 10) then b
  else b.judge k 1 (b.rd (Od.SLOT_FREQ_OFFSET k)).natAbs (b.rdN (Od.SLOT_FREQ_LIMIT k) * 1000)

/-- The drift monitor, each 10 s once its window is full (Table 5.3, R138). -/
def Block.monitorDrift (b : Block) (k : Nat) : Block :=
  if b.on Od.OSC_WARMUP || (b.slot k).driftTick % 10 != 0 || decide ((b.slot k).oven.length < b.rdN (Od.SLOT_DRIFT_WINDOW k)) then b
  else b.judge k 5 (b.rd (Od.SLOT_DRIFT k)).natAbs (b.rdN (Od.SLOT_DRIFT_LIMIT k) * 1000)

/-- The value of smaller magnitude. -/
def nearer (x y : Int) : Int := if x.natAbs ≤ y.natAbs then x else y

/-- The cross-frequency monitor (Table 5.3, R136, R525). A witness that holds fewer readings than the window is compared by the mean of those it holds. (DESIGN CHOICE, log 149.) -/
def Block.monitorCrossFreq (b : Block) (k : Nat) : Block :=
  let w := b.rdN (Od.SLOT_XCMP_WINDOW k)
  let lim := b.rdN (Od.SLOT_XCMP_FREQ_LIMIT k) * 1000
  match b.witnesses k false with
  | none => (b.wr (Od.SLOT_XCMP_FREQ k) 0x7FFFFFFF).setSlot k fun s => { s with xfreqRun := 0 }
  | some (v, u) =>
    let m := meanOf w (b.slot k).oven
    let d1 := m - meanOf w (b.slot v).oven
    let d2 := m - meanOf w (b.slot u).oven
    let d3 := meanOf w (b.slot v).oven - meanOf w (b.slot u).oven
    let b := b.wr (Od.SLOT_XCMP_FREQ k) (nearer d1 d2)
    if (b.slot k).oven.length < w then b
    else
      let low := decide (d1.natAbs * 10 ≤ lim * 8) && decide (d2.natAbs * 10 ≤ lim * 8)
      let run := if low then (b.slot k).xfreqRun + 1 else 0
      let b := b.setSlot k fun s => { s with xfreqRun := run }
      if b.isTripped k 2 then (if w ≤ run then b.untrip k 2 else b)
      else if lim < d1.natAbs ∧ lim < d2.natAbs ∧ d3.natAbs ≤ lim then b.trip k 2 else b

/-- The mean of a slot's phase samples in the last second. -/
def Block.secMean (b : Block) (k : Nat) : Option Int := (b.slot k).means.head?.getD none

/-- The cross-phase monitor (Table 5.3, R136, R525). -/
def Block.monitorCrossPhase (b : Block) (k : Nat) : Block :=
  let lim := b.rdN (Od.SLOT_XCMP_PHASE_LIMIT k) * 65536
  let none_ := (b.wr (Od.SLOT_XCMP_PHASE k) 0x7FFFFFFF).setSlot k fun s => { s with xphaseRun := 0 }
  if !b.timeCapable k then b
  else match b.witnesses k true with
    | none => none_
    | some (v, u) =>
      match b.secMean k, b.secMean v, b.secMean u with
      | some m, some mv, some mu =>
        let d1 := m - mv
        let d2 := m - mu
        let d3 := mv - mu
        let b := b.wr (Od.SLOT_XCMP_PHASE k) (nearer d1 d2)
        if b.cyc < (b.slot k).activeAt + secs 1 then b
        else
          let low := decide (d1.natAbs * 10000 ≤ lim * 8) && decide (d2.natAbs * 10000 ≤ lim * 8)
          let run := if low then (b.slot k).xphaseRun + 1 else 0
          let b := b.setSlot k fun s => { s with xphaseRun := run }
          if b.isTripped k 3 then (if 10 ≤ run then b.untrip k 3 else b)
          else if lim < d1.natAbs * 1000 ∧ lim < d2.natAbs * 1000 ∧ d3.natAbs * 1000 ≤ lim then b.trip k 3 else b
      | _, _, _ => none_

/-- Every monitor of slot k judged for the second, and the slot's way out of DISQUALIFIED (R139). (DEDUCED, log 39.) -/
def Block.monitorJudge (b : Block) (k : Nat) : Block :=
  if b.slotState k = 0 then b
  else ((((b.monitorOven k).monitorCrossFreq k).monitorCrossPhase k).monitorDrift k).qualify k

/-- The monitors' second (R135): all slots' readings are taken, then all are judged. (DEDUCED, log 39.) -/
def Block.monitorTick (b : Block) (means : List (Fin 24 × Int)) : Block :=
  let b := (List.range 24).foldl (fun b k => b.monitorTake k ((means.find? fun e => e.1.val == k).map (·.2))) b
  (List.range 24).foldl Block.monitorJudge b

/-- SLOTk_LOCKOUT written (R139). -/
def Block.lockout (b : Block) (k : Nat) (v : Int) : Block :=
  let b := b.wr (Od.SLOT_LOCKOUT k) v
  let st := b.slotState k
  if v = 1 then
    if st = 0 then b
    else
      let b := b.orBits (Od.SLOT_TRIPS k) 128
      if st = 1 then b else b.dropSlot k 1
  else b.qualify k

/-- SLOTk_KIND, PORT or PTP_DOMAIN written (R133): an equal value has no effect, another restarts the slot in ABSENT. -/
def Block.slotConfig (b : Block) (k key : Nat) (v : Int) : Block := if b.rd key = v then b else (b.wr key v).restartSlot k

/-- Whether a slot may not be reconfigured: SELECTED or the target of a transfer (R133). -/
def Block.slotBusy (b : Block) (k : Nat) : Bool :=
  b.selected == some k || match b.tm.sel.transfer with | some t => t.target == k | none => false

/-- PE0 has been LOCKED for SEL_SETTLE_TIME, counted also from the entry into the phase (R141). -/
def Block.settleExpiry (b : Block) : Block :=
  match b.tm.sel.lockedAt with
  | some t =>
    let ph := b.rdN Od.SEL_PHASE
    if bit (b.rdN Od.SEL_AUTO) 0 ∧ (ph = 1 ∨ ph = 3) ∧ max t b.tm.sel.phaseAt + secs (b.rdN Od.SEL_SETTLE_TIME) ≤ b.cyc then
      (b.setPhase 0 true).phaseChanged
    else b
  | none => b

-- Oven oscillator

/-- PE0 leaves HOLDOVER_IN_SPEC (R141, R165). -/
def Block.outOfSpec (b : Block) : Block := ((b.orBits Od.HO_STICKY 1).setHo fun h => { h with fromSpec := false }).enterOutOfSpec

/-- The holdover model's validity (R160): events 0x2703 and 0x2704 on a change. -/
def Block.setModelValid (b : Block) (v : Bool) : Block :=
  let was := b.on Od.HO_MODEL_VALID
  let b := b.wr Od.HO_MODEL_VALID (b2n v)
  if v && !was then b.raise 0x2703 else if was && !v then (b.orBits Od.HO_STICKY 2).raise 0x2704 else b

/-- The sums of the present 100 s begun again, so that no sample of a warm-up is recorded (R154, R158). -/
def Block.restartMeans (b : Block) : Block := b.setHo fun h => { h with secY := 0, secN := 0 }

/-- The oven has held its set point for 30 s (R153): OSC_WARMUP_TIME is the time since power-on (Table 6.2). (DEDUCED, log 48.) -/
def Block.warmupClear (b : Block) : Block :=
  let o := b.tm.osc
  if b.on Od.OSC_WARMUP ∧ max o.startAt (o.outAt.getD 0) + secs 30 ≤ b.cyc then
    ((b.wr Od.OSC_WARMUP 0).wr Od.OSC_WARMUP_TIME ((b.cyc - o.powerAt) / secs 1 : Nat)).restartMeans.raise 0x2701
  else b

/-- The crystal leaves its band for more than 1 s (R154). (DEDUCED, log 48; DESIGN CHOICE, log 143.) -/
def Block.tempExcursion (b : Block) : Block :=
  let b := b.setOsc fun o => { o with outAt := some b.cyc }
  if b.on Od.OSC_WARMUP then b
  else
    let b := (((b.wr Od.OSC_WARMUP 1).orBits Od.OSC_STICKY 1).restartMeans.raise 0x2702).setModelValid false
    if b.pe0 = 3 then (b.outOfSpec).orBits Od.HO_STICKY 8 else b

/-- STEER_PPT written (R155). -/
def Block.steerWrite (b : Block) (v : Int) : Block := (b.wr Od.STEER_PPT v).retargetSteer

-- The holdover model

/-- Sums about the means of a list of pairs, times the number of pairs: n Σxy − Σx Σy. (DEDUCED, log 47.) -/
def coSum (l : List (Int × Int)) : Int :=
  (l.length : Int) * sumI (l.map fun e => e.1 * e.2) - sumI (l.map (·.1)) * sumI (l.map (·.2))

/-- The square root, rounded up, of num / den of non-negative integers, times 1000. (DEDUCED, log 47.) -/
def rootMilli (num den : Int) : Nat := if den ≤ 0 then 0 else isqrtUp (divUp (num.toNat * 1000000) den.toNat)

/-- The fit of y = y₀ + D t / 86,400 + c (T − T₀) over the records (R158, R159), y in 10⁻³ ppt, t in seconds, T in m°C. Results in
the entries: HO_AGEING, HO_TEMP_COEF and its source, and the three bounds. D and c restored after power-on stand with their bounds until their own fit is
possible (R161). (DEDUCED, log 47 and 148.) -/
def Block.fitModel (b : Block) : Block :=
  let rs := b.tm.ho.records
  let pts := rs.map fun r => (((r.1 / secs 1 : Nat) : Int), r.2.2, r.2.1)
  let n := pts.length
  let ts := pts.map (·.1)
  let temps := pts.map (·.2.1)
  let span : Int := (ts.max?.getD 0) - (ts.min?.getD 0)
  let tempSpan : Int := (temps.max?.getD 0) - (temps.min?.getD 0)
  let stt := coSum (pts.map fun p => (p.1, p.1))
  let sTT := coSum (pts.map fun p => (p.2.1, p.2.1))
  let stT := coSum (pts.map fun p => (p.1, p.2.1))
  let sty := coSum (pts.map fun p => (p.1, p.2.2))
  let sTy := coSum (pts.map fun p => (p.2.1, p.2.2))
  let fitD := decide (14400 ≤ span) && decide (0 < stt)
  let fitC := decide (2000 ≤ tempSpan) && decide (stT * stT * 100 ≤ 81 * stt * sTT)
  let det := stt * sTT - stT * stT
  -- c in 10⁻³ ppt per m°C (that is ppt/K), times 10⁶; D in 10⁻³ ppt per s, times 10⁹
  let h := b.tm.ho
  let c6 : Int :=
    if !fitC then (if h.keepC then b.rd Od.HO_TEMP_COEF else Config.tempCoef) * 1000000
    else if fitD then (if det = 0 then 0 else (sTy * stt - sty * stT) * 1000000 / det)
    else (if sTT = 0 then 0 else sTy * 1000000 / sTT)
  let d9 : Int := if fitD then (sty * 1000000000 - c6 * stT * 1000) / stt else if h.keepD then b.rd Od.HO_AGEING * 10 ^ 12 / 86400 else 0
  let y0 := meanI (pts.map fun p => p.2.2)
  let t0 := meanI ts
  let T0 := meanI temps
  let resid := pts.map fun p => p.2.2 - y0 - d9 * (p.1 - t0) / 1000000000 - c6 * (p.2.1 - T0) / 1000000
  let last := resid.take 10
  let sd := if last.isEmpty then 0 else isqrtUp (divUp (sumSquares last) last.length)
  let free : Int := (n : Int) - 1 - b2n fitD - b2n fitC
  let s2 : Int := if free ≤ 0 then 0 else (sumSquares resid : Int) / free
  let seD := if fitC then rootMilli (s2 * n * sTT) det else rootMilli (s2 * n) stt
  let seC := if fitD then rootMilli (s2 * n * stt) det else rootMilli (s2 * n) sTT
  let b := b.wr Od.HO_FREQ_UNC (if n = 0 then unknownUnc else divUp (3 * sd) 1000 + 1 : Nat)
  let b := if !fitD ∧ h.keepD then b
    else (b.wr Od.HO_AGEING (d9 * 86400 / 1000000000000)).wr Od.HO_AGEING_UNC (if fitD then divUp (3 * seD * 86400) 1000000 else 100 : Nat)
  let b := if !fitC ∧ h.keepC then b
    else ((b.wr Od.HO_TEMP_COEF (c6 / 1000000)).wr Od.HO_TEMP_COEF_SOURCE (b2n fitC)).wr Od.HO_TEMP_UNC (if fitC then divUp (3 * seC) 1000 else 2 : Nat)
  b.setHo fun h => { h with keepD := h.keepD && !fitD, keepC := h.keepC && !fitC }

/-- Every 100 s in LOCKED with the flag clear: a mean of y and of the compartment temperature recorded, the model refitted (R158). (DEDUCED, log 47.) -/
def Block.modelRecord (b : Block) (temp : Int) : Block :=
  if b.pe0 ≠ 2 ∨ b.on Od.OSC_WARMUP then b.restartMeans
  else
    let h := b.tm.ho
    let y := if h.secN = 0 then yMilli (b.pe 0).integ else h.secY / h.secN
    let keep := h.records.filter fun r => decide (b.cyc ≤ r.1 + secs (b.rdN Od.HO_LEARN_WINDOW))
    (b.setHo fun h => { h with records := (b.cyc, y, temp) :: keep, secY := 0, secN := 0 }).fitModel

/-- Once a second: HO_LOCKED_TIME and HO_MODEL_VALID (R160). -/
def Block.modelCheck (b : Block) : Block :=
  let locked := b.lockedCycles / secs 1
  let b := b.wr Od.HO_LOCKED_TIME (min locked unknownUnc : Nat)
  b.setModelValid (!b.on Od.OSC_WARMUP && (b.on Od.HO_MODEL_VALID || decide (b.rdN Od.HO_MIN_LOCK ≤ locked)))

/-- Hourly: D, c with its origin, and their bounds saved to NAND (R161), unless brace holds NAND writes. -/
def Block.modelSave (b : Block) : Block :=
  if b.rdN Od.BRACE_STATE ≠ 0 ∨ !b.mg.srv.running ∨ b.cyc < b.tm.ho.savedAt + secs 3600 then b
  else b.setHo fun h =>
    { h with saved := some (b.rd Od.HO_AGEING, b.rd Od.HO_TEMP_COEF, b.rdN Od.HO_AGEING_UNC, b.rdN Od.HO_TEMP_UNC, b.rdN Od.HO_TEMP_COEF_SOURCE), savedAt := b.cyc }

/-- Each second of a holdover, and of a return that interrupts one (R162, R164, R172). (DEDUCED, log 44.) -/
def Block.holdoverTick (b : Block) (temp : Int) : Block :=
  let b := b.wr Od.OSC_COMPARTMENT_TEMP temp
  let inHold := (b.pe0 = 3 ∨ b.pe0 = 4) ∧ b.tm.ho.startAt.isSome
  let inReturn := b.rdN Od.RET_STATE ≠ 0 ∧ b.tm.ho.fromHoldover
  if inHold ∨ inReturn then
    let b := b.setHo fun h =>
      { h with tempInt := h.tempInt + (temp - h.tempE).natAbs, steerInt := h.steerInt + b.steerNow.natAbs }
    match inHold, b.tm.ho.startAt with
    | _, some t => b.applyModel.reportHoldover ((b.cyc - t) / secs 1)
    | _, none => b
  else b

/-- H(τ) reaches HO_BUDGET (R165). -/
def Block.budgetExceeded (b : Block) : Block :=
  if b.pe0 = 3 ∧ b.rdN Od.HO_BUDGET ≤ b.rdN Od.HO_TERM then b.outOfSpec else b

-- The return

/-- At a whole second inside the step window a pending step is made (R170). (DEDUCED, log 123.) -/
def Block.returnStep (b : Block) : Block :=
  if b.rdN Od.RET_STATE = 2 ∧ b.mer % ticksPerSec < 655360 ∧ b.inWindow b.mer then
    let r := b.retResidual
    let b := ((b.stepTime (((b.mer : Int) + r) % wordWrap).toNat).carryStep r).wr Od.RET_LAST_STEP r
    b.endReturn
  else b

/-- The residual of a slewed return reaches 0 (R171). -/
def Block.returnComplete (b : Block) : Block := if b.rdN Od.RET_STATE = 1 ∧ b.retResidual = 0 then b.endReturn else b

end Sys2Proof.Machine
end

