-- ==== Sys2Proof/Machine/Jobs.lean ====
section
/-! DEFINITION. What a dictionary command answers (R401, Table 15.4), and the job objects (R421 to R423): taking one, its progress, its end. -/

namespace Sys2Proof.Machine

/-- What a command or write answers: the module after it, the status and AUX. Status 0 is OK; any other is a refusal. -/
structure Reply where
  b : Block
  status : Nat := 0
  aux : Nat := 0
  deriving DecidableEq, Repr

/-- The command is done or its action has started. -/
def Block.ok (b : Block) (aux : Nat := 0) : Reply := ⟨b, 0, aux⟩
/-- Refused as busy (AUX = 0). -/
def Block.busy (b : Block) : Reply := ⟨b, 1, 0⟩
/-- A range error. -/
def Block.rangeError (b : Block) : Reply := ⟨b, 5, 0⟩
/-- A state error. -/
def Block.stateError (b : Block) : Reply := ⟨b, 6, 0⟩
/-- A resource error. -/
def Block.resourceError (b : Block) : Reply := ⟨b, 7, 0⟩

/-- Whether brace holds NAND writes (R484). -/
def Block.nandHeld (b : Block) : Bool := b.rdN Od.BRACE_STATE != 0

-- Job objects

/-- Job object j's own state, and the module with it changed. -/
def Block.job (b : Block) (j : Nat) : Job := tat {} b.mg.job j
def Block.setJob (b : Block) (j : Nat) (f : Job → Job) : Block := { b with mg := { b.mg with job := tmod {} b.mg.job j f } }

/-- A job object's state: 0 IDLE, 1 RUNNING, 2 PAUSED, 3 DONE, 4 FAILED, 5 ABORTED, 6 ABORTED_BY_RESET. -/
def Block.jobState (b : Block) (j : Nat) : Nat := b.rdN (Od.JOB_STATE j)

/-- Whether a job object holds a job that has not ended. -/
def Block.jobLive (b : Block) (j : Nat) : Bool := b.jobState j == 1 || b.jobState j == 2

/-- The object whose job ended longest ago, from a list of objects. (DEDUCED, log 92.) -/
def Block.oldestEnded (b : Block) : List Nat → Option Nat
  | [] => none
  | j :: r => match b.oldestEnded r with
    | none => some j
    | some i => some (if (b.job i).endedAt < (b.job j).endedAt then i else j)

/-- The object a new job takes (R421): JOB15 for state export; else an IDLE one, or the one whose job ended longest ago. (DEDUCED, log 92.) -/
def Block.jobObject (b : Block) (kind : Nat) : Option Nat :=
  if kind = 6 then (if b.jobLive 15 then none else some 15)
  else match (List.range 15).find? fun j => b.jobState j == 0 with
    | some j => some j
    | none => b.oldestEnded ((List.range 15).filter fun j => !b.jobLive j)

/-- The object that a live job of a kind holds. -/
def Block.liveJob (b : Block) (kind : Nat) : Option Nat :=
  (List.range 16).find? fun j => b.jobLive j && b.rdN (Od.JOB_KIND j) == kind

/-- JOBj_PROGRESS follows its steps (R422). -/
def Block.jobProgress (b : Block) (j : Nat) : Block :=
  let n := b.rdN (Od.JOB_STEPS_TOTAL j)
  b.wr (Od.JOB_PROGRESS j) (if n = 0 then 0 else b.rdN (Od.JOB_STEPS_DONE j) * 10000 / n : Nat)

/-- A job started in an object (R421); its number of steps is fixed now, and the spec does not state it: a free value of at most 4,096
steps for every kind (log 4). (DESIGN CHOICE, log 91.) -/
def Block.openJob (b : Block) (j kind tenant : Nat) (todo : List Nat) (arg : Nat) : Block :=
  let n := b.mg.nextJob
  let (f, b) := b.draw 4096
  let b := { b with mg := { b.mg with nextJob := if n = 0xFFFE then 0 else n + 1 } }
  let b := ((((b.wr (Od.JOB_NUMBER j) n).wr (Od.JOB_KIND j) kind).wr (Od.JOB_TENANT j) tenant).wr (Od.JOB_STATE j) 1).wr (Od.JOB_RESULT j) 0
  let b := ((b.wr (Od.JOB_STEPS_DONE j) 0).wr (Od.JOB_STEPS_TOTAL j) (f + 1 : Nat)).jobProgress j
  b.setJob j fun _ => { todo := todo, arg := arg }

/-- A job started by a tenant's command (R421): its number and object, none where every object is taken. -/
def Block.startJob (b : Block) (kind tenant : Nat) (todo : List Nat) (arg : Nat) : Option (Nat × Nat × Block) :=
  match b.jobObject kind with
  | none => none
  | some j => some (b.mg.nextJob, j, b.openJob j kind tenant todo arg)

/-- A job ended in a state, with event 0x1203 (R423). One that is DONE has made every step; why one FAILED, the spec gives no codes: a free value
(log 4). (DESIGN CHOICE, log 91.) -/
def Block.endJob (b : Block) (j st : Nat) : Block :=
  let b := if st = 3 then b.wr (Od.JOB_STEPS_DONE j) (b.rd (Od.JOB_STEPS_TOTAL j)) else b
  let b := (b.jobProgress j).wr (Od.JOB_STATE j) st
  let b := if st = 4 then (let (f, b) := b.draw 65536; b.wr (Od.JOB_RESULT j) f) else b.wr (Od.JOB_RESULT j) 0
  let b := b.setJob j fun _ => { endedAt := b.cyc }
  b.raise 0x1203 (b.rdN (Od.JOB_NUMBER j)) st

end Sys2Proof.Machine
end

