-- ==== Sys2Proof/Machine/Fdb.lean ====
section
/-! DEFINITION. The MAC table (R235 to R239): buckets and ways, learning, ageing, the commands of FDB_OP; packet-memory bank keys (R255 to
R258). -/

namespace Sys2Proof.Machine

/-- The number an entry of the MAC table is held under: VID and MAC address. -/
def macKey (vid mac : Nat) : Nat := vid * 2 ^ 48 + mac

/-- The bucket of an entry under the key in force (R235). (DESIGN CHOICE, log 67.) -/
def Block.bucketOf (b : Block) (k : Nat) : Nat := Config.macBucket (Config.freeValue b.fab.macKey) (k % 2 ^ 48) (k / 2 ^ 48) % 16384

/-- The entries of a bucket. -/
def Block.bucket (b : Block) (n : Nat) : Table Mac := b.fab.mac.filter fun e => b.bucketOf e.1 == n

/-- SW_MAC_ENTRIES follows the table. -/
def Block.setMac (b : Block) (t : Table Mac) : Block := (b.setFab fun x => { x with mac := t }).wr Od.SW_MAC_ENTRIES t.length

/-- The lowest free way of a bucket. -/
def freeWay (l : Table Mac) : Option Nat := (List.range 4).find? fun w => !(l.any fun e => e.2.way == w)

/-- The running group that port p is a member of (R259). -/
def Block.lagOf (b : Block) (p : Nat) : Option Nat := (List.range 16).find? fun g => b.fnRuns (53 + g) && bit (b.rdN (Od.LAG_MEMBERS g)) p

/-- Learning of a source (R237): 0 port or 1 LAG, and its number. -/
def Block.learn (b : Block) (p vid sa : Nat) : Block :=
  let k := macKey vid sa
  let (ty, d) := match b.lagOf p with | some g => (1, g) | none => (0, p)
  match tget b.fab.mac k with
  | some e =>
    if e.static then b
    else b.setMac (tput b.fab.mac k { e with dtype := ty, dest := d, age := 0 })
  | none =>
    match freeWay (b.bucket (b.bucketOf k)) with
    | some w => b.setMac (tput b.fab.mac k ⟨w, false, 0, ty, d⟩)
    | none => ((b.bump Od.SW_LEARN_FAIL 1).orBits Od.SW_STICKY 16).raiseLim 0x3005 0

/-- A lookup of a destination; a hit sets AGE to 0 (R238). -/
def Block.lookup (b : Block) (vid da : Nat) : Option Mac × Block :=
  let k := macKey vid da
  match tget b.fab.mac k with
  | some e => (some e, if e.static then b else b.setMac (tput b.fab.mac k { e with age := 0 }))
  | none => (none, b)

/-- An age pass (R238), due every half of SW_MAC_AGE_TIME. -/
def Block.agePass (b : Block) : Block :=
  let t := b.rdN Od.SW_MAC_AGE_TIME
  if t = 0 ∨ b.cyc < b.fab.agedAt + secs t / 2 then b
  else
    let aged := b.fab.mac.filterMap fun e =>
      if e.2.static then some e else if e.2.age + 1 = 3 then none else some (e.1, { e.2 with age := e.2.age + 1 })
    (b.setMac aged).setFab fun x => { x with agedAt := b.cyc }

/-- Dynamic entries on a port removed (R226). -/
def Block.dropPortMacs (b : Block) (p : Nat) : Block :=
  b.setMac (b.fab.mac.filter fun e => e.2.static || e.2.dtype != 0 || e.2.dest != p)

/-- The layout of FDB_ENTRY (Table 9.5). -/
def Mac.word (e : Mac) : Nat := 2 ^ 63 + b2n e.static * 2 ^ 62 + e.age * 2 ^ 60 + e.dtype * 2 ^ 12 + e.dest

/-- The table key that FDB_KEY spells (R236). -/
def fdbKey (k : Bytes) : Nat := macKey (ofLE (slice k 6 2)) (ofBE (slice k 0 6))

/-- FDB_KEY of an entry of the table. -/
def fdbBytes (k : Nat) : Bytes := toBE 6 (k % 2 ^ 48) ++ toLE 2 (k / 2 ^ 48)

/-- Whether the destination of an FDB_ENTRY is one of Table 9.5. -/
def fdbDestOk (v : Nat) : Bool :=
  let d := bits v 0 12
  match bits v 12 3 with
  | 0 => decide (d < 32)
  | 1 => decide (d < 16)
  | 2 => true
  | 3 => decide (d < 64)
  | 4 => d == 0
  | _ => false

/-- FDB_OP = 1 (R239). -/
def Block.fdbRead (b : Block) (t : Nat) : Reply :=
  match tget b.fab.mac (fdbKey (b.blob (Od.FDB_KEY t))) with
  | some e => (b.wr (Od.FDB_ENTRY t) e.word).ok
  | none => (b.wr (Od.FDB_ENTRY t) 0).ok

/-- The dynamic entry that a static one evicts: the highest AGE, then the lowest way (R239). (DESIGN CHOICE, log 67.) -/
def victim : Table Mac → Option (Nat × Mac)
  | [] => none
  | e :: r =>
    let best := victim r
    if e.2.static then best
    else match best with
      | none => some e
      | some x => if x.2.age < e.2.age ∨ (x.2.age = e.2.age ∧ e.2.way < x.2.way) then some e else some x

/-- FDB_OP = 2 (R239). -/
def Block.fdbWrite (b : Block) (t : Nat) : Reply :=
  let k := fdbKey (b.blob (Od.FDB_KEY t))
  let v := b.rdN (Od.FDB_ENTRY t)
  let put (b : Block) (w : Nat) : Reply := (b.setMac (tput b.fab.mac k ⟨w, true, 0, bits v 12 3, bits v 0 12⟩)).ok
  if 4096 ≤ k / 2 ^ 48 ∨ !fdbDestOk v then b.rangeError
  else match tget b.fab.mac k with
    | some e => put b e.way
    | none =>
      let l := b.bucket (b.bucketOf k)
      match freeWay l with
      | some w => put b w
      | none => match victim l with
        | none => b.resourceError
        | some x => put (b.setMac (tdel b.fab.mac x.1)) x.2.way

/-- FDB_OP = 3 (R239). -/
def Block.fdbDelete (b : Block) (t : Nat) : Reply := (b.setMac (tdel b.fab.mac (fdbKey (b.blob (Od.FDB_KEY t))))).ok

/-- FDB_OP = 4 (R239): a flush job; `arg` of the job holds the two filters. -/
def Block.fdbFlush (b : Block) (t : Nat) : Reply :=
  match b.startJob 3 t [] (b.rdN (Od.FDB_FLUSH_PORT t) * 65536 + b.rdN (Od.FDB_FLUSH_VID t)) with
  | none => b.resourceError
  | some (n, _, b) => b.ok n

/-- The flush job ends with event 0x3501 (R239). -/
def Block.fdbFlushed (b : Block) : Block :=
  match b.liveJob 3 with
  | none => b
  | some j =>
    let port := (b.job j).arg / 65536
    let vid := (b.job j).arg % 65536
    let n := b.rdN (Od.JOB_NUMBER j)
    let hit (e : Nat × Mac) : Bool :=
      !e.2.static && (port == 0xFF || (e.2.dtype == 0 && e.2.dest == port)) && (vid == 0xFFFF || e.1 / 2 ^ 48 == vid)
    ((b.setMac (b.fab.mac.filter fun e => !hit e)).endJob j 3).report 0x3501 n

/-- FDB_DUMP (R239). -/
def Block.fdbDump (b : Block) : Bytes := b.fab.mac.flatMap fun e => fdbBytes e.1 ++ toLE 8 e.2.word

-- Bank keys (R255 to R258)

/-- A new bank key drawn (R256, R258). (DESIGN CHOICE, log 4 and 67.) -/
def Block.drawBankKey (b : Block) : Block :=
  let b := (b.setFab fun x => { x with bankKey := b.free, draws := b.cyc :: x.draws.takeWhile fun c => decide (b.cyc < c + secs 1) }).draw 1 |>.2
  let b := ((b.bump Od.SW_RESEEDS 1).orBits Od.SW_STICKY 1 |>.raiseLim 0x3001 0).tally 4 16 0
  if 16 < b.fab.draws.length then (b.orBits Od.SW_STICKY 2).report 0x3002 else b

/-- The oldest window of 1,024 cell writes that has ended is judged (R256). -/
def Block.bankWindow (b : Block) : Block :=
  match b.fab.banks.ended with
  | [] => b
  | largest :: rest =>
    let b := (b.setFab fun x => { x with banks := { x.banks with ended := rest } }).wr Od.SW_BANK_SKEW largest
    if 192 < largest then
      if b.fab.skew then (b.setFab fun x => { x with skew := false }).drawBankKey else b.setFab fun x => { x with skew := true }
    else b.setFab fun x => { x with skew := false }

/-- BANK_WINDOW: so many of the windows that have ended, oldest first (R256). -/
def Block.bankWindows (b : Block) : Nat → Block
  | 0 => b
  | n + 1 => b.bankWindow.bankWindows n

/-- SW_RESEED (R256). -/
def Block.swReseed (b : Block) : Reply := b.drawBankKey.ok

end Sys2Proof.Machine
end

