-- ==== Sys2Proof/Machine/Egress.lean ====
section
/-! DEFINITION. Mirroring (R287 to R289), stomps (R246 to R250, R464), the next frame of a port and the end of its transmission (R252), and the
commands of the injectors (R475, R476). -/

namespace Sys2Proof.Machine

/-- Whether a port can send: RUN, link up, awake, not sending, nothing delayed, its fabric clock running, a credit of its crossing left. -/
def Block.canSend (b : Block) (p : Nat) : Bool :=
  b.fnRuns p && b.on (Od.P_LINK p) && (b.pf p).sending.isNone && (b.pf p).fip.delayed.isNone && b.clockRuns .fabric && !b.on (Od.P_IDLE p)
    && b.mayCross (.egress (Fin.ofNat 32 p))

-- Mirroring (R287 to R289)

/-- Whether port q's link is down after its hold (R223). -/
def Block.gone (b : Block) (q : Nat) : Bool := !b.on (Od.P_LINK q) && (b.pf q).holdEnd.isNone

/-- The sessions of which a frame is a candidate, of those that run. -/
def Block.sessions (b : Block) (hit : Nat → Bool) : List Nat := (List.range 4).filter fun s => b.fnRuns (49 + s) && hit s

/-- Whether port p is in a source set of session s, and the session asks for bad frames (R287). -/
def Block.asksBad (b : Block) (p s : Nat) : Bool := b.on (Od.MIR_BAD s) && (bit (b.rdN (Od.MIR_SRC_RX s)) p || bit (b.rdN (Od.MIR_SRC_TX s)) p)

/-- A candidate of session s counted; whether it is copied: the first after the start, then every MIRs_SAMPLE-th. -/
def Block.candidate (b : Block) (s : Nat) : Bool × Block :=
  let n := tat 0 b.fab.mirSeen s
  (n % max 1 (b.rdN (Od.MIR_SAMPLE s)) == 0,
    (b.bump (Od.MIR_CANDIDATES s) 1).setFab fun x => { x with mirSeen := tput x.mirSeen s (n + 1) })

/-- A mirror copy dropped. -/
def Block.mirrorDrop (b : Block) (s : Nat) : Block :=
  ((b.bump (Od.MIR_DROPS s) 1).orBits (Od.MIR_STICKY s) 1).raiseLim 0x3401 s

/-- The queue that takes the copies of session s. -/
def Block.mirrorQueue (b : Block) (s : Nat) : Nat :=
  if b.rdN (Od.MIR_DEST_TYPE s) = 1 then 512 + b.rdN (Od.MIR_DEST s) else b.rdN (Od.MIR_DEST s) * 16 + b.rdN (Od.MIR_QUEUE s)

/-- A mirror copy of a stored frame, admitted to a session's queue or dropped (R289); the first component says whether it was admitted. -/
def Block.mirrorPut (b : Block) (s : Nat) (d : Desc) : Bool × Block :=
  let k := b.mirrorQueue s
  if k < 512 ∧ !b.fnRuns (k / 16) then (false, (b.dropOn (k / 16) (Od.P_DROP_STOPPED (k / 16))).mirrorDrop s)
  else if k < 512 ∧ b.gone (k / 16) then (false, (b.dropOn (k / 16) (Od.P_DROP_LINKDOWN (k / 16))).mirrorDrop s)
  else match b.enqueue k d with
    | (true, b) => (true, (if k < 512 then b.wakePort (k / 16) else b).bump (Od.MIR_COPIES s) 1)
    | (false, b) => (false, b.mirrorDrop s)

/-- A stored frame as a candidate of session s, which has not had it yet; `put` makes the copy (R287). -/
def Block.mirrorOnce (chain : Nat) (put : Nat → Block → Block) (b : Block) (s : Nat) : Block :=
  match b.chain chain with
  | some x =>
    if x.seen.contains s then b
    else
      let r := b.candidate s
      let b := r.2.setChain chain fun y => { y with seen := y.seen ++ [s] }
      if r.1 then put s b else b
  | none => b

/-- The copy of a bad frame for session s: whole, its FCS stomped (R288, R250). -/
def Block.putBad (d : Desc) (bytes : Bytes) (s : Nat) (b : Block) : Block := (b.mirrorPut s { d with content := some bytes }).2

-- Stomps on the way out (R246 to R250, R254, R464)

/-- A copy of a stored frame is stomped toward port p: counted once on its ingress port, and taken by the sessions that ask for bad frames
(R248, R250). (DEDUCED, log 153.) -/
def Block.stompNote (b : Block) (p : Nat) (d : Desc) (bytes : Bytes) : Block :=
  match b.chain d.chain with
  | some x =>
    let b := if x.told ∨ 32 ≤ d.inPort then b else (b.setChain d.chain fun y => { y with told := true }).bump (Od.P_CT_STOMPED_IN d.inPort) 1
    if d.content.isSome then b else (b.sessions (b.asksBad p)).foldl (Block.mirrorOnce d.chain (Block.putBad d bytes)) b
  | none => b

/-- An error of the frame path on port p (R464): 1 parity, 2 a disagreement of the FCS. -/
def Block.pathError (b : Block) (p fault : Nat) : Block :=
  if fault = 1 then (b.bump Od.DPC_PARITY_ERRORS 1).dpError 1 p else if fault = 2 then (b.bump Od.DPC_FCS_MISMATCH 1).dpError 2 p else b

/-- The head of Qq of port p leaves its queue: its cells are read (R254), shapers pay for it (R278), the injector acts on it. `cut` says that it
is cut through: an uncorrectable cell then stomps it and counts on its ingress port (R248), where it drops one that has not started. -/
def Block.takeHead (b : Block) (p q : Nat) (cut : Bool) : Block :=
  match (b.queue (p * 16 + q)).frames with
  | [] => b
  | d :: _ =>
    let bytes := b.txBytes p d
    match (b.readCells d.chain).readEcc d.chain with
    | (2, b) =>
      if cut then
        let bytes := withStomp (body bytes)
        let b := ((b.fillShapers p).popHead (p * 16 + q)).payShapers p q bytes.length
        let b := (if d.inPort < 32 then b.dropOn d.inPort (Od.P_DROP_ECC d.inPort) else b).stompNote p d bytes
        b.leave p { desc := d, queue := q, bytes := bytes, stomped := true, cut := true }
      else b.dropHead (p * 16 + q) p (Od.P_DROP_ECC p)
    | (_, b) => (((b.fillShapers p).popHead (p * 16 + q)).payShapers p q bytes.length).leave p { desc := d, queue := q, bytes := bytes, stomped := false, cut := cut }

/-- The head of Qq of port p meets a parity error before it has started: dropped, and counted in DPC_PARITY_ERRORS alone (R464). (DEDUCED, log 153.) -/
def Block.parityDrop (b : Block) (p q : Nat) : Block :=
  match (b.queue (p * 16 + q)).frames with
  | [] => b
  | d :: _ => ((b.pathError p 1).popHead (p * 16 + q)).release d.chain

/-- Whether an own frame that waits on port p is the next to leave: no strict queue above its own is eligible. (DEDUCED, log 61.) -/
def Block.ownFirst (b : Block) (p : Nat) : Bool :=
  match (b.pf p).own with
  | (_, n) :: _ =>
    let own := b.rdN (Od.EQ_OWN_QUEUE p)
    b.ownClear p n && (List.range 16).all fun q => decide (q ≤ own) || b.rdN (Od.EQ_MODE p q) != 0 || !b.eligible p q
  | [] => false

/-- The next frame of port p (R276 to R280); `parity` says that the copy picked meets a parity error as it is read (R464). -/
def Block.egressSchedule (b : Block) (p : Nat) (parity : Bool) : Block :=
  if !b.canSend p then b
  else match (b.pf p).fip.ready with
    | t :: rest => (b.setFip p fun f => { f with ready := rest }).sendTx p t
    | [] =>
      let b := (b.dropAged p).fillShapers p
      -- own frames go before what stands in the same queue
      if b.ownFirst p then b.ownNext p
      else match b.pick p with
        | (none, b) => b
        | (some q, b) => if parity then b.parityDrop p q else b.takeHead p q false

/-- Whether a cell of a copy that is being sent has been found uncorrectable since it started (R254, R466). -/
def Block.lostCell (b : Block) (t : Tx) : Bool := match b.chain t.desc.chain with | some x => x.ecc == 3 && !t.stomped | none => false

/-- What a copy that has started ends as (R246, R464): stomped where its path met an error, or a cell of it was lost, on the way. -/
def Block.endTx (b : Block) (p fault : Nat) (t : Tx) : Tx × Block :=
  let lost := b.lostCell t
  if fault = 0 ∧ !lost then (t, b)
  else
    let t : Tx := { t with bytes := withStomp (body t.bytes), stomped := true }
    let b := b.pathError p fault
    let b := if lost ∧ t.desc.inPort < 32 then b.dropOn t.desc.inPort (Od.P_DROP_ECC t.desc.inPort) else b
    (t, b.stompNote p t.desc t.bytes)

/-- A copy's last byte sent (R252): counted, and its reference released; `fault` is the path error it met (R464). -/
def Block.txDone (b : Block) (p fault : Nat) : Block :=
  match (b.pf p).sending with
  | none => b
  | some t =>
    let (t, b) := b.endTx p fault t
    let b := ((b.setPf p fun x => { x with sending := none, busyAt := b.cyc }).refundTx p t).emit (.frame p t.bytes)
    let b := (((b.bump (Od.P_TX_FRAMES p) 1).bump (Od.P_TX_OCTETS p) t.bytes.length).bump (Od.EQ_TX_FRAMES p t.queue) 1).bump Od.CNT_FIXED_TX_FRAMES 1
    let b := (b.tally 1 p 1).tally 1 p (if t.cut then 3 else 4)
    let b := if t.stomped then (((b.bump (Od.P_TX_STOMPED p) 1).orBits (Od.P_STICKY p) 8).raiseLim 0x3104 p).tally 1 p 5 else b
    b.release t.desc.chain

/-- A frame that DELAY holds is sent once its hold ends and its gate is open (R476). (DEDUCED, log 68.) -/
def Block.fipDelayExpiry (b : Block) (p : Nat) : Block :=
  match (b.pf p).fip.delayed with
  | some (t, until_) =>
    if until_ ≤ b.cyc ∧ (b.pf p).sending.isNone ∧ b.mayCross (.egress (Fin.ofNat 32 p)) ∧ b.gateOpen p t.queue t.bytes.length then
      (b.setFip p fun f => { f with delayed := none }).sendTx p t
    else b
  | none => b

/-- FIPn_ARM = 1 (R475). -/
def Block.fipStart (b : Block) (p : Nat) : Block :=
  if (b.pf p).fip.armed ∧ !(b.pf p).fip.acting then
    (((b.setFip p fun f => { f with acting := true }).wr (Od.FIP_STATUS p) 2).disarm (.injector (Fin.ofNat 32 p))).raise 0x7201 p (b.pf p).fip.kind
  else b
def Block.fipArm (b : Block) (p : Nat) : Reply :=
  if !b.on Od.FI_ENABLE ∨ !b.fnRuns p then b.stateError
  else
    let at_ := b.rdN (Od.FIP_ARM_AT p)
    if at_ ≠ 0 ∧ !b.armable at_ then b.rangeError
    else
      let b := b.setFip p fun f =>
        { kind := b.rdN (Od.FIP_KIND p), match_ := b.rdN (Od.FIP_MATCH p), n := b.rdN (Od.FIP_N p), pattern := b.rdN (Od.FIP_PATTERN p),
          byte := b.rdN (Od.FIP_BYTE p), bit := b.rdN (Od.FIP_BIT p), fixup := b.on (Od.FIP_FCS_FIXUP p), hold := b.rdN (Od.FIP_HOLD p),
          release := b.rdN (Od.FIP_RELEASE_AFTER p), delay := b.rdN (Od.FIP_DELAY p), count := b.rdN (Od.FIP_COUNT p), armed := true,
          ready := f.ready ++ f.held, delayed := f.delayed, through := f.through }
      let b := (b.wr (Od.FIP_STATUS p) 1).orBits Od.FI_ARMED (2 ^ p)
      if at_ = 0 then (b.fipStart p).ok else (b.armWord (.injector (Fin.ofNat 32 p)) at_).ok

/-- FIPn_ARM = 2. -/
def Block.fipDisarm (b : Block) (p : Nat) : Reply := (b.fipEnd p 2).ok

/-- FI_ECC_TEST (R476): the next cell written carries one or two flipped bits. (DEDUCED, log 69.) -/
def Block.eccTest (b : Block) (n : Nat) : Reply := (b.setFab fun x => { x with eccNext := n }).ok

end Sys2Proof.Machine
end

