-- ==== Sys2Proof/Machine/Records.lean ====
section
/-! DEFINITION. Qualified times (R60) and the record rings that tenants read from their own index (R211, R215, R329, R474). -/

namespace Sys2Proof.Machine

/-- The status word of a qualified time (Table 2.3). -/
def Block.statusWord (b : Block) : Nat :=
  let d := b.rdN Od.MT_STEER_DOMAIN
  let code := if d = 0xFF then 3 else d % 4
  b2n (b.on Od.MT_TIME_VALID) * 2 ^ 31 + b2n (b.on Od.MT_TIME_SET) * 2 ^ 30 + code * 2 ^ 28 + min (b.rdN Od.MT_UNCERTAINTY) 0x0FFFFFFF

/-- A qualified time: the time word, then the status word of the instant (R60). -/
def Block.qualified (b : Block) (word : Nat) : Bytes := timeBytes (word % wordWrap) ++ toLE 4 b.statusWord

/-- A ring of records, newest first, with one more record; it holds at most `size`. -/
def ringPush (size : Nat) (ring : List Bytes) (r : Bytes) : List Bytes := (r :: ring).take size

/-- The records from index `rd` on, oldest first, at most n of them; `wr` is the index after the newest (modulo 2³²). (DEDUCED, log 99.) -/
def ringFrom (ring : List Bytes) (wr rd n : Nat) : List Bytes :=
  let behind := (wr + 2 ^ 32 - rd) % 2 ^ 32
  ((ring.take behind).reverse).take n

/-- The leading records that fit, whole, in `room` bytes. -/
def fitting : List Bytes → Nat → List Bytes
  | [], _ => []
  | r :: rest, room => if r.length ≤ room then r :: fitting rest (room - r.length) else []

/-- A tenant's read of a ring of `size` records, at most `room` bytes: whether records were lost to it, the records, its index after. A
read further behind than the ring begins at the oldest record held. (DEDUCED, log 99.) -/
def ringRead (ring : List Bytes) (size wr rd room : Nat) : Bool × List Bytes × Nat :=
  let behind := (wr + 2 ^ 32 - rd) % 2 ^ 32
  let held := min behind ring.length
  let out := fitting (ring.take held).reverse room
  (decide (size < behind), out, (wr + 2 ^ 32 - held + out.length) % 2 ^ 32)

-- Counter dump records (R474)

/-- The key of CNT_ACCESS for tenant t. -/
def cntAccessKey (t : Nat) : Nat := key 0x7103 (1 + t)
/-- Whether tenant t may read CNTn, and the fixed counters, under the CNT_ACCESS_ record. -/
def Block.cntVisible (b : Block) (t n : Nat) : Bool := bit (b.rdN (cntAccessKey t)) n
def Block.fixedVisible (b : Block) (t : Nat) : Bool := bit (b.rdN Od.CNT_ACCESS_FIXED) t

/-- A dump record as tenant t reads it: MASK and FLAGS bit [2] written, each hidden counter and its generation 0. -/
def Block.maskDump (b : Block) (t : Nat) (r : Bytes) : Bytes :=
  let m := b.rdN (cntAccessKey t)
  let f := b.fixedVisible t
  let progs := ((List.range 64).map fun n => if bit m n then (r.drop (240 + 8 * n)).take 8 else List.replicate 8 0).flatten
  let gens := (List.range 64).map fun n => if bit m n then r.getD (48 + n) 0 else 0
  let zeroUnless (o n : Nat) : Bytes := if f then (r.drop o).take n else List.replicate n 0
  r.take 20 ++ [r.getD 20 0 ||| BitVec.ofNat 8 (4 * b2n f)] ++ (r.drop 21).take 3 ++ toLE 8 m ++ zeroUnless 32 16 ++ gens ++ zeroUnless 112 128 ++ progs

end Sys2Proof.Machine
end

