-- ==== Sys2Proof/Machine/Pools.lean ====
section
/-! DEFINITION. Buffer pools (R371 to R377) and the completion of a DMA descriptor (R382, R383), which a buffer granted to a waiting ALLOC brings
about. -/

namespace Sys2Proof.Machine

/-- The compute subsystem changed. -/
def Block.setCp (b : Block) (f : Compute → Compute) : Block := { b with cp := f b.cp }

/-- The bytes of a buffer of pool p, and the pool's count (R371). -/
def poolSize (p : Nat) : Nat := if p = 0 then 256 else if p = 1 then 2048 else if p = 2 then 16384 else 262144
def Block.poolCount (b : Block) (p : Nat) : Nat :=
  b.rdN (if p = 0 then Od.POOL_COUNT_256 else if p = 1 then Od.POOL_COUNT_2K else if p = 2 then Od.POOL_COUNT_16K else Od.POOL_COUNT_256K)

/-- The start of pool p in the region. -/
def Block.poolBase (b : Block) (p : Nat) : Nat := ((List.range p).map fun q => b.poolCount q * poolSize q).sum

/-- The pool and index that a handle names (Table 14.1). -/
def handlePool (h : Nat) : Nat := h / 2 ^ 30 % 4
def handleIndex (h : Nat) : Nat := h % 2 ^ 30

/-- Whether a handle is within its pool's count. -/
def Block.handleOk (b : Block) (h : Nat) : Bool := decide (h < 2 ^ 32) && decide (handleIndex h < b.poolCount (handlePool h))

/-- The address of a buffer (R372). -/
def Block.handleAddr (b : Block) (h : Nat) : Nat := b.poolBase (handlePool h) + handleIndex h * poolSize (handlePool h)

/-- An allocated buffer. -/
def Block.buf (b : Block) (h : Nat) : Option Buf := tget b.cp.buf h

/-- A DMA channel's state, and the module with it changed. -/
def Block.dma (b : Block) (c : Nat) : DmaCh := tat {} b.cp.dma c
def Block.setDma (b : Block) (c : Nat) (f : DmaCh → DmaCh) : Block := b.setCp fun x => { x with dma := tmod {} x.dma c f }

-- Writing where a descriptor says

/-- An address of POOL space as an address of the region. -/
def Block.poolAddr (b : Block) (a : Nat) : Nat := b.handleAddr (a / 2 ^ 32) + a % 2 ^ 32

/-- Bytes written by channel c at an address of a space: 0 PCIe, 1 POOL. (DEDUCED, log 86 and 87.) -/
def Block.put (b : Block) (c space addr : Nat) (l : Bytes) : Block :=
  if l.isEmpty then b
  else if space = 0 then b.emit (.pcieWrite (b.rdN (Od.DMA_FUNCTION c)) addr l)
  else { (b.lpWrite (blocks (b.poolAddr addr) l.length)) with pokes := b.pokes ++ [(b.poolAddr addr, l)] }

/-- The address of the descriptor at HEAD of channel c. -/
def Block.headSlot (b : Block) (c : Nat) : Nat := b.rdN (Od.DMA_RING_BASE c) + b.rdN (Od.DMA_HEAD c) % b.rdN (Od.DMA_RING_SIZE c) * 32

/-- DMAc_STATUS follows what the channel can do: 0 IDLE, 1 ACTIVE, 2 WAITING, 3 HALTED. -/
def Block.dmaStatus (b : Block) (c : Nat) : Block :=
  if b.rdN (Od.DMA_STATUS c) = 3 then b
  else
    let more := b.rdN (Od.DMA_HEAD c) != b.rdN (Od.DMA_TAIL c)
    let st : Nat :=
      match b.rdN (Od.DMA_MODE c) with
      | 0 => if !more then 0 else if (b.dma c).wait.isSome then 2 else 1
      | 1 => if !more then 2 else if (b.dma c).frames.isEmpty then 0 else 1
      | _ => 1
    b.wr (Od.DMA_STATUS c) (if b.fnRuns (104 + c) then st else 0 : Nat)

/-- An IRQ completion (R383): event 0x5201 to the channel's tenant, at most once per DMAc_IRQ_HOLDOFF. (DEDUCED, log 89.) -/
def Block.dmaIrq (b : Block) (c : Nat) : Block :=
  let hold := us (b.rdN (Od.DMA_IRQ_HOLDOFF c))
  let free := match (b.dma c).irqAt with | some t => decide (t + hold ≤ b.cyc) | none => true
  if free then (b.setDma c fun x => { x with irqAt := some b.cyc, irqWait := none }).reportTo (b.rdN (Od.DMA_TENANT c)) 0x5201 c 0
  else b.setDma c fun x => { x with irqWait := some c }

/-- HEAD of channel c moved past n, and written to DMAc_WB_ADDR. -/
def Block.moveHead (b : Block) (c n : Nat) : Block :=
  let b := b.wr (Od.DMA_HEAD c) ((b.rdN (Od.DMA_HEAD c) + n) % 2 ^ 32 : Nat)
  let wb := b.rdN (Od.DMA_WB_ADDR c)
  if wb = 0 then b else b.put c (b.rdN (Od.DMA_RING_SPACE c)) wb (toLE 4 (b.rdN (Od.DMA_HEAD c)))

/-- The STATUS word (Table 14.4). -/
def statusBits (result bytes : Nat) : Nat := 2 ^ 31 + result % 8 * 2 ^ 28 + bytes % 2 ^ 25

/-- The descriptor at HEAD completed (R383): STATUS, then HEAD; counters; the interrupt it asks for. (DEDUCED, log 87.) -/
def Block.complete (b : Block) (c result bytes : Nat) (irq : Bool) : Block :=
  let b := b.put c (b.rdN (Od.DMA_RING_SPACE c)) (b.headSlot c + 28) (toLE 4 (statusBits result bytes))
  let b := ((b.moveHead c 1).bump (Od.DMA_DESCRIPTORS c) 1).bump (Od.DMA_BYTES c) bytes
  let b := b.setDma c fun x => { x with job := none, tries := 0, retryAt := none, reissued := false, wait := none, errBytes := 0 }
  let b := if result = 3 then b.orBits (Od.DMA_STICKY c) 64 else b
  let b := (b.tally 6 c 1).lpRead (b.rdN (Od.DMA_RING_SPACE c))
  let b := if irq then b.dmaIrq c else b
  b.dmaStatus c

/-- An ALLOC descriptor at HEAD of channel c gets its buffer: DST written back with the handle. -/
def Block.allocDone (b : Block) (c h : Nat) (irq : Bool) : Block :=
  (b.put c (b.rdN (Od.DMA_RING_SPACE c)) (b.headSlot c + 8) (toLE 8 h)).complete c 0 0 irq

-- Allocation and release

/-- The first index of a pool at or after i, around its end, that is not allocated; n is how many are tried. (DEDUCED, log 85.) -/
def Block.freeIndex (b : Block) (p count : Nat) : Nat → Nat → Nat
  | 0, i => i
  | n + 1, i => if (b.buf (p * 2 ^ 30 + i)).isSome then b.freeIndex p count n ((i + 1) % count) else i

/-- A buffer of pool p given to an owner (R376); which of its free buffers is a free value (log 4). (DEDUCED, log 85.) -/
def Block.takeBuf (b : Block) (p owner : Nat) : Nat × Block :=
  let count := b.poolCount p
  let (f, b) := b.draw (max 1 count)
  let h := p * 2 ^ 30 + b.freeIndex p (max 1 count) b.cp.buf.length f
  let b := b.setCp fun x => { x with buf := tput x.buf h ⟨1, owner⟩ }
  let free := b.rdN (Od.POOLP_FREE p) - 1
  let b := (b.wr (Od.POOLP_FREE p) free).wr (Od.POOLP_MIN_FREE p) (min (b.rdN (Od.POOLP_MIN_FREE p)) free : Nat)
  (h, b.bump (Od.POOLP_ALLOCS p) 1)

/-- The smallest pool whose buffers hold n bytes (R373). -/
def poolFor (n : Nat) : Nat := if n ≤ 256 then 0 else if n ≤ 2048 then 1 else if n ≤ 16384 then 2 else 3

/-- The outcome of a request for a buffer. -/
inductive Grant where
  | buffer (h : Nat)
  | waits
  | refused
  deriving DecidableEq, Repr

/-- A request for n bytes (R373, R374). (DEDUCED, log 85.) -/
def Block.request (b : Block) (who n tenant : Nat) : Grant × Block :=
  let p := poolFor n
  let from_ := ((List.range 4).filter fun q => p ≤ q && (q == p || b.on Od.POOL_SPILL)).find? fun q => b.rdN (Od.POOLP_FREE q) != 0
  -- a request never overtakes an earlier one for the same pool
  match (if (tat [] b.cp.waits p).isEmpty then from_ else none) with
  | some q =>
    let b := if q = p then b else b.bump (Od.POOLP_SPILLS p) 1
    let r := b.takeBuf q tenant
    (.buffer r.1, r.2)
  | none =>
    let l := tat [] b.cp.waits p
    if 256 ≤ l.length then (.refused, b.orBits Od.POOL_STICKY 4)
    else
      let b := b.setCp fun x => { x with waits := tput x.waits p (l ++ [⟨who, n, tenant⟩]) }
      let b := ((b.wr (Od.POOLP_WAITERS p) (l.length + 1 : Nat)).bump (Od.POOLP_WAITS p) 1).orBits Od.POOL_STICKY 1
      (.waits, b.raiseLim 0x5101 p)

/-- The waiter that a buffer freed in pool p goes to (R374): the pool and the request. (DEDUCED, log 85.) -/
def Block.nextWaiter (b : Block) (p : Nat) : Option (Nat × PoolWait) :=
  let order := if b.on Od.POOL_SPILL then (List.range (p + 1)).reverse else [p]
  match order.find? fun q => !(tat [] b.cp.waits q).isEmpty with
  | some q => (tat [] b.cp.waits q).head?.map fun w => (q, w)
  | none => none

/-- The first request of a pool's list removed. -/
def Block.popWaiter (b : Block) (q : Nat) : Block :=
  let l := (tat [] b.cp.waits q).tail
  (b.setCp fun x => { x with waits := tput x.waits q l }).wr (Od.POOLP_WAITERS q) l.length

/-- A channel's request taken from every wait list. (DEDUCED, log 88.) -/
def Block.dropWaiter (b : Block) (who : Nat) : Block :=
  (List.range 4).foldl (fun b q =>
    let l := (tat [] b.cp.waits q).filter (·.who != who)
    (b.setCp fun x => { x with waits := tput x.waits q l }).wr (Od.POOLP_WAITERS q) l.length) b

/-- A freed buffer of pool p given to the waiter it goes to, if any. (DEDUCED, log 85.) -/
def Block.grantFreed (b : Block) (p : Nat) : Block :=
  match b.nextWaiter p with
  | none => b
  | some (q, w) =>
    let b := b.popWaiter q
    let b := if q = p then b else b.bump (Od.POOLP_SPILLS q) 1
    let (h, b) := b.takeBuf p w.tenant
    if w.who < 64 then
      let irq := match (b.dma w.who).wait with | some d => bit (ofLE (slice d 24 4)) 25 | none => false
      b.allocDone w.who h irq
    else b.setCp fun x => { x with grant := tput x.grant (w.who - 64) h }

/-- A release (R376): false where the count is already 0 or the handle beyond its pool, which is a double release. -/
def Block.releaseBuf (b : Block) (h : Nat) : Bool × Block :=
  let p := handlePool h
  match b.buf h with
  | none => (false, ((b.bump (Od.POOLP_DOUBLE_RELEASES p) 1).orBits Od.POOL_STICKY 2).report 0x5102 p)
  | some x =>
    if x.refs ≤ 1 then
      let b := (b.setCp fun y => { y with buf := tdel y.buf h }).wr (Od.POOLP_FREE p) (b.rdN (Od.POOLP_FREE p) + 1 : Nat)
      (true, b.grantFreed p)
    else (true, b.setCp fun y => { y with buf := tput y.buf h { x with refs := x.refs - 1 } })

-- POOLS

/-- A start of POOLS (R371): refused where the pools exceed the region. (DEDUCED, log 120.) -/
def Block.poolsFit (b : Block) : Bool := decide (b.poolBase 4 ≤ b.rdN Od.POOL_REGION_MIB * 2 ^ 20)

/-- POOLS becomes RUN: every buffer free. (DEDUCED, log 120.) -/
def Block.poolsRun (b : Block) : Block :=
  (List.range 4).foldl (fun b p => (b.wr (Od.POOLP_FREE p) (b.poolCount p)).wr (Od.POOLP_MIN_FREE p) (b.poolCount p)) b

/-- Whether POOLS may stop (R377). -/
def Block.poolsIdle (b : Block) : Bool := b.cp.buf.isEmpty

-- Compute queues to LPDDR5 (R286, R389, R390)

/-- Whether a stream names compute queue q (R343). -/
def Block.streamOn (b : Block) (q : Nat) : Bool := (List.range 256).any fun i => b.rdN (Od.STR_KIND i) != 0 && b.rdN (Od.STR_CQ i) == q

/-- The DMA channel that takes compute queue q's frames. -/
def Block.cqChannel (b : Block) (q : Nat) : Option Nat :=
  (List.range 64).find? fun c => b.fnRuns (104 + c) && b.rdN (Od.DMA_MODE c) == 1 && b.rdN (Od.DMA_CQ c) == q

/-- Whether the copy engine may take from compute queue q: a consumer, no request of the queue waiting, its crossing open. (DEDUCED, log 90.) -/
def Block.cqTakes (b : Block) (q : Nat) : Bool :=
  !(b.queue (512 + q)).frames.isEmpty && b.mayCross (.compute (Fin.ofNat 64 q))
    && !((List.range 4).any fun p => (tat [] b.cp.waits p).any (·.who == 64 + q))
    && (b.streamOn q || match b.cqChannel q with
        | some c => decide ((b.dma c).frames.length < b.rdN (Od.DMA_CQ_BACKLOG c))
        | none => false)

/-- The frame at the head of compute queue q as it is copied. -/
def Block.cqBytes (b : Block) (d : Desc) : Bytes :=
  match d.content, b.chain d.chain with
  | some c, _ => c
  | none, some x => x.bytes
  | none, none => []

/-- The header of Table 14.5. -/
def Block.cqHeader (b : Block) (q : Nat) (d : Desc) (f : Bytes) : Bytes :=
  let bad := fcsField f != fcsOf (body f)
  toLE 16 d.stamp ++ toLE 2 f.length ++ toLE 1 d.inPort ++ toLE 1 q ++ toLE 1 d.colour ++ toLE 1 (b2n d.content.isSome + b2n bad * 2) ++ toLE 2 0
    ++ toLE 8 (tat 0 b.cp.cqSeq q)

/-- The queue that the copy engine serves next, by deficit round robin with CQ_WEIGHT × 512 bytes a visit; n visits at most. (DEDUCED, log 90.) -/
def Block.cqPick : Nat → Block → List Nat → Option Nat × Block
  | 0, b, _ => (none, b)
  | n + 1, b, qs =>
    let q := b.fab.cqNext
    let next (b : Block) := b.setFab fun x => { x with cqNext := (q + 1) % 64, cqOn := false }
    if qs.contains q then
      let b := if b.fab.cqOn then b
        else (b.setQueue (512 + q) fun x => { x with deficit := x.deficit + b.rdN (Od.CQ_WEIGHT q) * 512 }).setFab fun x => { x with cqOn := true }
      let len := match (b.queue (512 + q)).frames with | d :: _ => (b.cqBytes d).length | [] => 0
      if len ≤ (b.queue (512 + q)).deficit then (some q, b.setQueue (512 + q) fun x => { x with deficit := x.deficit - len })
      else Block.cqPick n (next b) qs
    else Block.cqPick n (next b) qs

/-- The head frame of compute queue q copied into a buffer (R286, R389). (DEDUCED, log 87 and 90.) -/
def Block.cqStore (b : Block) (q h : Nat) : Block :=
  match (b.queue (512 + q)).frames with
  | [] => b
  | d :: _ =>
    let f := b.cqBytes d
    let l := b.cqHeader q d f ++ f
    let b := (b.readCells d.chain).lpWrite (blocks (b.handleAddr h) l.length)
    let b := { b with pokes := b.pokes ++ [(b.handleAddr h, l)] }
    let b := b.setCp fun x => { x with cqSeq := tput x.cqSeq q (tat 0 x.cqSeq q + 1), grant := tdel x.grant q }
    let b := ((b.popHead (512 + q)).release d.chain).bump (Od.CQ_FRAMES q) 1
    let b := (b.bump Od.CNT_FIXED_CQ_FRAMES 1).tally 5 q 2
    if b.streamOn q then b.setCp fun x => { x with inbox := x.inbox ++ [(q, ⟨h, l.length⟩)] }
    else match b.cqChannel q with
      | some c => (b.setDma c fun x => { x with frames := x.frames ++ [⟨h, l.length⟩] }).dmaStatus c
      | none => (b.releaseBuf h).2

/-- The head frame of compute queue q dropped for an uncorrectable cell (R254); it has no egress port and is counted on its ingress port. (DESIGN CHOICE, log 156.) -/
def Block.cqLost (b : Block) (q : Nat) (d : Desc) : Block :=
  let b := b.setQueue (512 + q) fun x => { x with deficit := x.deficit + (b.cqBytes d).length }
  let b := (b.popHead (512 + q)).release d.chain
  if d.inPort < 32 then b.dropOn d.inPort (Od.P_DROP_ECC d.inPort) else b

/-- CQ_COPY. (DEDUCED, log 90.) -/
def Block.cqCopy (b : Block) : Block :=
  if !b.fnRuns 102 ∨ !b.clockRuns .lpddr ∨ !b.clockRuns .fabric then b
  else
    let qs := (List.range 64).filter b.cqTakes
    if qs.isEmpty then b
    else match b.cqPick 4096 qs with
      | (none, b) => b
      | (some q, b) =>
        match (b.queue (512 + q)).frames with
        | [] => b
        | d :: _ =>
          match b.readEcc d.chain with
          | (2, b) => b.cqLost q d
          | (_, b) =>
            let len := (b.cqBytes d).length
            -- a buffer granted for a frame that has since left the queue may be too small for the next
            let small := match tget b.cp.grant q with | some h => decide (poolSize (handlePool h) < 32 + len) | none => false
            let b := match small, tget b.cp.grant q with
              | true, some h => ((b.setCp fun x => { x with grant := tdel x.grant q }).releaseBuf h).2
              | _, _ => b
            match tget b.cp.grant q with
            | some h => b.cqStore q h
            | none =>
              let tenant := if b.streamOn q then 0 else match b.cqChannel q with | some c => b.rdN (Od.DMA_TENANT c) | none => 0
              match b.request (64 + q) (32 + len) tenant with
              | (.buffer h, b) => b.cqStore q h
              | (_, b) => b.setQueue (512 + q) fun x => { x with deficit := x.deficit + len }

end Sys2Proof.Machine
end

