-- ==== Sys2Proof/Machine/Archive.lean ====
section
/-! DEFINITION. The archive (R364 to R368): records, staging, the flash ring, the NVMe ring, reading and seeking. -/

namespace Sys2Proof.Machine

/-- The archive changed. -/
def Block.arc (b : Block) : Arc := b.cp.arc
def Block.setArc (b : Block) (f : Arc → Arc) : Block := b.setCp fun x => { x with arc := f x.arc }

/-- The bytes of a record, padding included. -/
def ArcRec.length (r : ArcRec) : Nat := divUp (48 + r.payload.length) 8 * 8

/-- The CRC-32 of the Ethernet FCS. -/
def crcOf (l : Bytes) : Nat := crc32 0xEDB88320 0xFFFFFFFF l

/-- A record as it is written to a target (Table 13.7). -/
def ArcRec.bytes (r : ArcRec) (seq : Nat) : Bytes :=
  let head := [(0x57 : Byte), 0x41, 0x52, 0x43] ++ toLE 1 r.type ++ toLE 1 r.graph ++ toLE 2 r.channel ++ padTo 16 r.when_ ++ toLE 4 r.rate
    ++ toLE 2 r.samples ++ toLE 2 r.flags ++ toLE 4 r.length ++ toLE 4 seq ++ toLE 4 (crcOf r.payload)
  padTo r.length (head ++ toLE 4 (crcOf head) ++ r.payload)

-- Staging (R366)

/-- The bytes in staging. -/
def Block.stagedBytes (b : Block) : Nat := (b.arc.staged.map fun s => s.item.length).sum

/-- ARC_STAGING_USED and the end of a full staging follow what is staged. -/
def Block.stagingUsed (b : Block) : Block :=
  (b.wr Od.ARC_STAGING_USED (b.stagedBytes / 2 ^ 20 : Nat)).setArc fun a =>
    { a with full := a.full && decide (b.rdN Od.ARC_STAGING * 2 ^ 20 ≤ b.stagedBytes) }

/-- Whether a record of n bytes finds room; the first that does not sets bit [0] of ARC_STICKY and raises 0x5005. -/
def Block.stagingRoom (b : Block) (n : Nat) : Bool × Block :=
  if b.stagedBytes + n ≤ b.rdN Od.ARC_STAGING * 2 ^ 20 then (true, b)
  else if b.arc.full then (false, b)
  else (false, ((b.setArc fun a => { a with full := true }).orBits Od.ARC_STICKY 1).report 0x5005)

/-- A record put into staging for its targets: 0 flash, 1 NVMe, 2 both. -/
def Block.stage (b : Block) (r : ArcRec) (target : Nat) : Block :=
  ((b.setArc fun a => { a with staged := a.staged ++ [⟨r, target != 1, target != 0⟩] }).lpWrite (divUp r.length 64)).stagingUsed

/-- Records that every target has taken leave; one target that is FAILED does not hold a record of both (R366). -/
def Block.unstage (b : Block) : Block :=
  let failed := b.rdN Od.ARC_NVME_STATE == 2
  (b.setArc fun a => { a with staged := a.staged.filter fun s => s.flash || (s.nvme && !(failed && !s.flash)) }).stagingUsed

-- Flash (R365)

/-- The bytes of the flash ring, and its endurance in bytes. -/
def flashRing : Nat := 62 * 2 ^ 30
def flashLife : Nat := 30000 * flashRing

/-- The oldest erase block of the ring erased: the records it held are counted. (DEDUCED, log 83.) -/
def Block.eraseOldest (b : Block) : Block :=
  let size := max 16384 Config.eraseBlock
  let rec cut : List (Nat × Bytes) → Nat → List (Nat × Bytes)
    | [], _ => []
    | r :: rest, n => if n = 0 then r :: rest else cut rest (n - r.2.length)
  let kept := (cut b.arc.flash.reverse size).reverse
  let gone := b.arc.flash.length - kept.length
  let bytes := (kept.map fun r => r.2.length).sum
  ((b.setArc fun a => { a with flash := kept }).bump Od.ARC_OVERWRITTEN gone).wr Od.ARC_FLASH_USED bytes

/-- The first record in staging that a target has not taken. -/
def firstFor (p : Staged → Bool) : List Staged → Option ArcRec
  | [] => none
  | s :: r => if p s then some s.item else firstFor p r

/-- That record taken by its target. -/
def takeFirst (p : Staged → Bool) (f : Staged → Staged) : List Staged → List Staged
  | [] => []
  | s :: r => if p s then f s :: r else s :: takeFirst p f r

/-- The bytes of staging that wait for a target. -/
def waitingFor (p : Staged → Bool) (l : List Staged) : Nat := ((l.filter p).map fun s => s.item.length).sum

/-- n bytes written to flash from staging, at most k records: a record whose last byte is written is in the ring. (DEDUCED, log 83.) -/
def Block.flashBytes : Nat → Block → Nat → Block
  | 0, b, _ => b
  | k + 1, b, n =>
    match firstFor (·.flash) b.arc.staged with
    | none => b
    | some r =>
      let left := r.length - b.arc.flashPart
      if n < left then b.setArc fun a => { a with flashPart := a.flashPart + n }
      else
        let seq := b.arc.flashSeq
        let b := b.setArc fun a =>
          { a with flash := (seq, r.bytes seq) :: a.flash, flashSeq := (seq + 1) % 2 ^ 32, flashPart := 0,
                   staged := takeFirst (·.flash) (fun s => { s with flash := false }) a.staged }
        Block.flashBytes k (b.wr Od.ARC_WR_SEQ b.arc.flashSeq) (n - left)

/-- ARCHIVE_FLASH_WRITE: one 16 KiB page, unless brace holds NAND writes. (DEDUCED, log 83.) -/
def Block.flashWrite (b : Block) : Block :=
  let page := 16384
  if !b.fnRuns 103 ∨ !b.mg.srv.running ∨ b.nandHeld ∨ waitingFor (·.flash) b.arc.staged < page + b.arc.flashPart then b
  else
    let used := (b.arc.flash.map fun r => r.2.length).sum
    let b := if flashRing < used + page then b.eraseOldest else b
    let b := (Block.flashBytes (b.arc.staged.length + 1) b page).setArc fun a => { a with written := a.written + page }
    let b := b.wr Od.ARC_FLASH_USED ((b.arc.flash.map fun r => r.2.length).sum : Nat)
    let wear := b.arc.written * 10000 / flashLife
    let b := b.wr Od.ARC_FLASH_WEAR (min wear 65535 : Nat)
    let b := if 8000 ≤ wear ∧ !b.arc.wearRaised then
        ((b.setArc fun a => { a with wearRaised := true }).orBits Od.ARC_STICKY 4).report 0x5009
      else b
    b.unstage

-- NVMe (R367, R388)

/-- ARC_NVME_STATE changed, with event 0x5006. -/
def Block.nvmeState (b : Block) (st : Nat) : Block := if b.rdN Od.ARC_NVME_STATE = st then b else (b.wr Od.ARC_NVME_STATE st).report 0x5006

/-- A command to the drive that failed: retried up to DMA63_RETRIES times, then FAILED. -/
def Block.nvmeFailed (b : Block) : Block :=
  let n := b.arc.nvmeTries + 1
  if b.rdN (Od.DMA_RETRIES 63) < n then ((b.setArc fun a => { a with nvmeTries := 0 }).nvmeState 2).unstage
  else b.setArc fun a => { a with nvmeTries := n }

/-- n bytes written to the drive from staging, at most k records. -/
def Block.nvmeBytes : Nat → Block → Nat → Block
  | 0, b, _ => b
  | k + 1, b, n =>
    match firstFor (·.nvme) b.arc.staged with
    | none => b
    | some r =>
      let left := r.length - b.arc.nvmePart
      if n < left then b.setArc fun a => { a with nvmePart := a.nvmePart + n }
      else
        let seq := b.arc.nvmeSeq
        let b := b.setArc fun a =>
          { a with nvme := (seq, r.bytes seq) :: a.nvme, nvmeSeq := (seq + 1) % 2 ^ 32, nvmePart := 0,
                   staged := takeFirst (·.nvme) (fun s => { s with nvme := false }) a.staged }
        Block.nvmeBytes k b (n - left)

/-- The oldest records of the drive's ring that a write of n bytes overwrites leave it. (DEDUCED, log 83.) -/
def keepWithin (cap : Nat) : List (Nat × Bytes) → Nat → List (Nat × Bytes)
  | [], _ => []
  | r :: rest, used => if used + r.2.length ≤ cap then r :: keepWithin cap rest (used + r.2.length) else []

/-- The bytes that wait for the drive, as they are written: each record with its SEQ there. -/
def streamFrom : List Staged → Nat → Bytes
  | [], _ => []
  | s :: r, seq => if s.nvme then s.item.bytes seq ++ streamFrom r ((seq + 1) % 2 ^ 32) else streamFrom r seq

/-- ARCHIVE_NVME_WRITE: one aligned write of 128 KiB; `ok` says the drive completed it. (DEDUCED, log 83.) -/
def Block.nvmeWrite (b : Block) (ok : Bool) : Block :=
  let size := 131072
  if !b.fnRuns 103 ∨ !b.mg.srv.running ∨ b.rdN Od.ARC_NVME_STATE ≠ 1 ∨ waitingFor (·.nvme) b.arc.staged < size + b.arc.nvmePart then b
  else if !ok then b.nvmeFailed
  else
    let lb := if Config.logicalBlock = 4096 then 4096 else 512
    let from_ := b.rdN Od.ARC_NVME_LBA_START * lb
    let start := divUp from_ size * size
    let cap := (from_ + b.rdN Od.ARC_NVME_LBA_COUNT * lb - start) / size * size
    if cap = 0 then b
    else
      let lba := (start + b.arc.nvmeUsed % cap) / lb
      let data := slice (streamFrom b.arc.staged b.arc.nvmeSeq) b.arc.nvmePart size
      let b := Block.nvmeBytes (b.arc.staged.length + 1) b size
      let b := b.setArc fun a =>
        { a with nvmeUsed := a.nvmeUsed + size, nvmeTries := 0, nvme := keepWithin cap a.nvme 0 }
      (b.emit (.nvme 1 lba data)).unstage

/-- ARCHIVE_NVME_FLUSH: after each second of writes. -/
def Block.nvmeFlush (b : Block) (ok : Bool) : Block :=
  if !b.fnRuns 103 ∨ !b.mg.srv.running ∨ b.rdN Od.ARC_NVME_STATE ≠ 1 ∨ b.cyc < b.arc.flushAt + secs 1 ∨ b.arc.nvmeUsed = b.arc.flushed then b
  else if !ok then b.nvmeFailed
  else (b.emit (.nvme 0 0 [])).setArc fun a => { a with flushAt := b.cyc, flushed := a.nvmeUsed, nvmeTries := 0 }

/-- ARC becomes RUN: the drive's state. (DEDUCED, log 83.) -/
def Block.arcRun (b : Block) (root : Bool) : Block :=
  let b := b.setArc fun a => { a with flushAt := b.cyc, nvmeTries := 0 }
  b.nvmeState (if !root then 3 else if b.rdN Od.CAP_PCIE_LINK = 0 then 0 else 1)

-- Reading (R368)

/-- The ring of a target, newest first, and its next SEQ. -/
def Block.arcRing (b : Block) (target : Nat) : List (Nat × Bytes) × Nat := if target = 0 then (b.arc.flash, b.arc.flashSeq) else (b.arc.nvme, b.arc.nvmeSeq)

/-- A read of ARC_DATA by tenant t, of at most n bytes: whole records from the tenant's ARC_RD. -/
def Block.arcRead (b : Block) (t n : Nat) : List Bytes × Block :=
  let (ring, next) := b.arcRing (b.rdN (Od.ARC_RD_TARGET t))
  let rd := b.rdN (Od.ARC_RD t)
  let behind := (next + 2 ^ 32 - rd) % 2 ^ 32
  let lost := decide (ring.length < behind)
  let b := if lost then b.orBits Od.ARC_STICKY 2 else b
  let recs := (ring.take behind).reverse
  let rd := if lost then (next + 2 ^ 32 - ring.length) % 2 ^ 32 else rd
  let out := fitting (recs.map (·.2)) n
  (out, b.wr (Od.ARC_RD t) ((rd + out.length) % 2 ^ 32 : Nat))

/-- ARC_SEEK: a job of tenant t. (DEDUCED, log 84.) -/
def Block.arcSeek (b : Block) (t : Nat) : Reply :=
  match b.startJob 4 t [] t with
  | none => b.resourceError
  | some (n, _, b) => b.ok n

/-- The time word of a record's WHEN. (DEDUCED, log 84.) -/
def whenOf (r : Bytes) : Nat := ofLE (slice r 8 2) + ofLE (slice r 10 4) * 65536 + ofLE (slice r 14 6) * ticksPerSec

/-- ARC_SEEK_COMPLETE: ARC_RD of the tenant at the first record at or after ARC_SEEK_TIME; past the newest where there is none. (DEDUCED, log 84.) -/
def Block.arcSeekDone (b : Block) : Block :=
  match b.liveJob 4 with
  | none => b
  | some j =>
    let t := (b.job j).arg
    let (ring, next) := b.arcRing (b.rdN (Od.ARC_RD_TARGET t))
    let at_ := b.rdN (Od.ARC_SEEK_TIME t)
    let rd := match ring.reverse.find? fun r => decide (at_ ≤ whenOf r.2) with | some r => r.1 | none => next
    ((b.wr (Od.ARC_RD t) rd).endJob j 3).report 0x5007 t

end Sys2Proof.Machine
end

