-- ==== Sys2Proof/Machine/Memory.lean ====
section
/-! DEFINITION. The buffer-pool region of the LPDDR5 (R363, R371): a sparse list of bytes by offset from the region's start. A byte that
nothing has written reads as 0 (log 5). -/

namespace Sys2Proof.Machine

/-- The pool memory: addresses strictly rising, no listed byte 0. (DESIGN CHOICE, log 5.) -/
abbrev Memory := List Host.Cell

/-- What an unlisted address reads as (log 5). -/
def ramFill : Byte := 0

/-- The byte at an address. -/
def ramRead : Memory → Nat → Byte
  | [], _ => ramFill
  | (k, v) :: r, a => if k = a then v else ramRead r a

/-- The memory with a byte written; a byte equal to what an unlisted address reads as is not listed. -/
def ramWrite : Memory → Nat → Byte → Memory
  | [], a, v => if v = ramFill then [] else [(a, v)]
  | (k, w) :: r, a, v =>
    if k = a then (if v = ramFill then r else (a, v) :: r)
    else if a < k then (if v = ramFill then (k, w) :: r else (a, v) :: (k, w) :: r)
    else (k, w) :: ramWrite r a v

/-- n bytes from an address. (DESIGN CHOICE, log 5.) -/
def ramBytes (m : Memory) : Nat → Nat → Bytes
  | _, 0 => []
  | a, n + 1 => ramRead m a :: ramBytes m (a + 1) n

/-- Bytes written from an address on. (DESIGN CHOICE, log 5.) -/
def ramStore : Memory → Nat → Bytes → Memory
  | m, _, [] => m
  | m, a, v :: r => ramStore (ramWrite m a v) (a + 1) r

/-- Whether every address of the memory lies above a bound, addresses rise and no listed byte is the unlisted one. -/
def ramRises : Option Nat → Memory → Bool
  | _, [] => true
  | lo, (k, v) :: r => (match lo with | some a => decide (a < k) | none => true) && v != ramFill && ramRises (some k) r

/-- The canonical form. -/
def Memory.wf (m : Memory) : Bool := ramRises none m

end Sys2Proof.Machine
end

