-- ==== Sys2Proof/Machine/Calibration.lean ====
section
/-! DEFINITION. Calibration (chapter 7): code-density runs and campaigns (R174 to R180), temperature sets (R181 to R183), link calibration
(R184 to R186), corrections in force (R187) and the dual-colour solver (R189 to R192). -/

namespace Sys2Proof.Machine

-- Runs (R177 to R179)

/-- The counts of a run laid out over B bins: what is not listed counts 0. -/
def counts (bins : Nat) (l : List Nat) : List Nat := (l ++ List.replicate bins 0).take bins

/-- What a run of a converter counts (R177, R174): its two halves bin by bin; of an edge-placer line those of its second pass too, over steps 5,000 to
12,799. -/
structure RunCounts where
  h1 : List Nat
  h2 : List Nat
  g1 : List Nat
  g2 : List Nat
  deriving DecidableEq, Repr

/-- A run's counts over the converter's bins: an edge-placer line has 10,000 in its first pass. -/
def Block.runCounts (b : Block) (c : Nat) (h1 h2 g1 g2 : List Nat) : RunCounts :=
  if 44 ≤ c then ⟨counts 10000 h1, counts 10000 h2, counts 7800 g1, counts 7800 g2⟩
  else ⟨counts (b.convBins c) h1, counts (b.convBins c) h2, [], []⟩

/-- n_i of a pass, and the sum of counts. -/
def both (h1 h2 : List Nat) : List Nat := List.zipWith (· + ·) h1 h2
def total (l : List Nat) : Nat := l.foldl (· + ·) 0

/-- Whether a run has had its N edges: each falls in a bin of a first pass; a second pass of an edge-placer line has taken some and at most N. -/
def RunCounts.complete (r : RunCounts) (n : Nat) : Bool := total (both r.h1 r.h2) == n && decide (total (both r.g1 r.g2) ≤ n)

/-- The verdict on a pass (R179): 1 OK, 2 MISSING_CODE, 3 CORRELATED; and on a run, the first of its passes' that is not OK. (DEDUCED, log 49.) -/
def passVerdict (h1 h2 : List Nat) : Nat :=
  if (both h1 h2).any (· == 0) then 2
  else if (List.zip h1 h2).any fun e =>
      let d := ((e.1 : Int) - e.2).natAbs
      decide (25 * (e.1 + e.2) < d * d) then 3
  else 1
def RunCounts.verdict (r : RunCounts) : Nat := if passVerdict r.h1 r.h2 = 1 then passVerdict r.g1 r.g2 else passVerdict r.h1 r.h2

/-- The bin widths of a run (R178): S × n_i / N, exactly. The second pass of an edge-placer line is scaled so that both passes agree over the steps they
share, 5,000 to 9,999 (R174). (DEDUCED, log 49.) -/
def RunCounts.table (r : RunCounts) (span : Nat) : Bins :=
  let n := both r.h1 r.h2
  let g := both r.g1 r.g2
  if g.isEmpty then ⟨n, total n, span⟩
  else
    let c1 := total (n.drop 5000)
    let c2 := total (g.take 5000)
    ⟨n.map (· * c2) ++ (g.drop 5000).map (· * c1), total n * c2, span⟩

/-- w̄ of a table in fs; its largest |DNL|, in fs, and largest |INL_k| (R178), each rounded once. -/
def Bins.mean (t : Bins) : Int := roundDiv (t.span * total t.bins : Nat) (t.den * t.bins.length)
def Bins.dnlMax (t : Bins) : Int :=
  let far := (t.bins.map fun x => ((t.bins.length * x : Nat) - (total t.bins : Int)).natAbs).foldl max 0
  roundDiv (t.span * far : Nat) (t.den * t.bins.length)
/-- The largest |INL_k| × 2B over the bins from code k on, in the table's units; `acc` is the sum of the bins before. -/
def inlFar (bins all : Nat) : List Nat → Nat → Nat → Nat
  | [], _, _ => 0
  | w :: r, k, acc => max ((bins * (2 * acc + w) : Nat) - ((2 * k + 1) * all : Int)).natAbs (inlFar bins all r (k + 1) (acc + w))
def Bins.inlMax (t : Bins) : Int := roundDiv (t.span * inlFar t.bins.length (total t.bins) t.bins 0 0 : Nat) (2 * t.den * t.bins.length)

/-- A table put into force (Table 7.7). (DEDUCED, log 49.) -/
def Block.takeTable (b : Block) (c : Nat) : Block :=
  let w := (b.conv c).pend
  let b := ((b.wr (Od.CONV_BINS c) w.bins.length).wr (Od.CONV_MEAN_BIN c) w.mean).wr (Od.CONV_DNL_MAX c) w.dnlMax
  let b := (b.wr (Od.CONV_INL_MAX c) w.inlMax).wr (Od.CONV_LAST_TIME c) b.mer
  b.setConv c fun v => { v with table := v.pend, pend := {}, waits := false, temp := v.pendTemp, gen := v.gen + 1 }

/-- The edges a run of converter c takes (R177): 1 RING, 2 DATA. DATA is for lane phase meters only; AUTO takes it while the lane's received frequency is
1 ppm or more from the Meridian clock. (DEDUCED, log 137.) -/
def Block.runSource (b : Block) (c : Nat) : Nat :=
  let away := b.on (Od.LANE_CDR_LOCK c) && decide (1000 ≤ (tat 0 b.tm.cal.rxFreq c).natAbs)
  if 32 ≤ c then 1
  else match b.rdN Od.CAL_CD_SOURCE with
    | 1 => 1
    | 2 => 2
    | _ => if away then 2 else 1

/-- A run of converter c begins (R176, R180): 1 automatic, 2 of a campaign. -/
def Block.runStart (b : Block) (c why : Nat) : Block :=
  b.setConv c fun v => { v with run := why, source := b.runSource c, need := b.rdN Od.CAL_CD_EVENTS, rejected := if why = 2 then false else v.rejected }

-- Campaigns (R180)

/-- Whether a calibration job runs (R180). -/
def Block.calBusy (b : Block) : Bool := (b.liveJob 1).isSome || (b.liveJob 2).isSome

/-- CAL_CD_START (R180, R212). -/
def Block.codeDensityStart (b : Block) (tenant : Nat) : Reply :=
  let mask := b.rdN Od.CAL_CD_MASK
  let todo := maskBits 52 mask
  if todo.any fun c => decide (36 ≤ c) && decide (c < 44) && b.fnState (40 + (c - 36)) != 0 then b.stateError
  else match b.startJob 1 tenant todo 0 with
    | none => b.resourceError
    | some (n, _, b') =>
      if b.calBusy then b.busy
      else
        let b := todo.foldl (fun b c => b.runStart c 2) b'
        (b.wr Od.CAL_JOB n).ok n

/-- A campaign ends: event 0x2801, one event 0x2802 for each converter rejected (R180). -/
def Block.campaignDone (b : Block) (j : Nat) : Block :=
  let bad := (List.range 52).filter fun c => (b.conv c).rejected
  let b := (b.endJob j 3).raise 0x2801
  let b := bad.foldl (fun b c => b.raise 0x2802 c) b
  (List.range 52).foldl (fun b c => if (b.conv c).rejected then b.setConv c fun v => { v with rejected := false } else b) b

/-- A converter that a campaign has finished with; the campaign ends with its last. -/
def Block.campaignTake (b : Block) (c : Nat) : Block :=
  match b.liveJob 1 with
  | none => b
  | some j =>
    let b := b.setJob j fun x => { x with todo := x.todo.filter (· != c) }
    if (b.job j).todo.isEmpty then b.campaignDone j else b

/-- A run ends (R178, R179) once it has its N edges: rejected, or accepted and, for a converter with a twin, into its 1 s of overlap. (DEDUCED, log 49.) -/
def Block.runComplete (b : Block) (c : Nat) (h1 h2 g1 g2 : List Nat) : Block :=
  let v := b.conv c
  let r := b.runCounts c h1 h2 g1 g2
  if v.run = 0 ∨ v.waits ∨ !r.complete v.need then b
  else
    let b := b.wr (Od.CONV_RESULT c) r.verdict
    if r.verdict ≠ 1 then
      let b := (b.orBits Od.CAL_STICKY 1).setConv c fun x => { x with run := 0, rejected := v.run == 2 }
      if v.run = 2 then b.campaignTake c else b.raise 0x2802 c
    else
      let b := b.setConv c fun x =>
        { x with pend := r.table (b.convSpan c), pendTemp := b.rd Od.CAL_DIE_TEMP, acceptedAt := b.cyc, waits := hasTwin c }
      if hasTwin c then b
      else
        -- a vernier's table comes into force when its channel next starts (R212)
        (b.setConv c fun x => { x with run := 0 }).campaignTake c

/-- Whether the function that converter c serves is RUN (R187): its port, its engine, or the engine of its output. (DEDUCED, log 138.) -/
def Block.convRuns (b : Block) (c : Nat) : Bool :=
  if c < 32 then b.fnRuns (b.portOfLane c) else if c < 36 then b.fnRuns c
  else if c < 44 then b.fnRuns (40 + (c - 36)) else b.fnRuns (32 + (b.out (c - 44)).cfg.source)

/-- The second of overlap ends (R175): the calibrated copy goes into service and the offset d, in ticks, is ramped out (R187). (DEDUCED, log 49.) -/
def Block.twinSwap (b : Block) (c : Nat) (d : Int) : Block :=
  let v := b.conv c
  if v.waits ∧ v.acceptedAt + secs 1 ≤ b.cyc then
    let b := (b.takeTable c).setConv c fun x => { x with run := 0 }
    -- d adds to what is left of an earlier swap's offset, and the sum goes to 0
    let left := b.corr (twinItem c) + d
    let b := if b.convRuns c then (b.setCorr (twinItem c) left false).setCorr (twinItem c) 0 true else b.setCorr (twinItem c) 0 false
    if v.run = 2 then b.campaignTake c else b
  else b

/-- Automatic recalibration of every twinned converter whose period or temperature move is reached (R176). (DEDUCED, log 49.) -/
def Block.autoTrigger (b : Block) : Block :=
  let period := b.rdN Od.CAL_AUTO_PERIOD
  if period = 0 then b
  else (List.range 52).foldl (fun b c =>
    let v := b.conv c
    if hasTwin c && v.run == 0 && (decide (v.acceptedAt + secs period ≤ b.cyc)
        || decide (b.rdN Od.CAL_AUTO_DELTA_T < (b.rd Od.CAL_DIE_TEMP - v.temp).natAbs)) then
      b.runStart c 1
    else b) b

/-- What an aborted or reset campaign leaves (R180, Table 15.11): converters not finished keep their tables. -/
def Block.campaignAbort (b : Block) (j : Nat) : Block :=
  (b.job j).todo.foldl (fun b c => (b.wr (Od.CONV_RESULT c) 4).setConv c fun v => { v with run := 0, waits := false, pend := {} }) b

-- Temperature sets (R181 to R183)

/-- CAL_SETn_INFO (Table 7.2): CAPTURED and TEMP of the factory, VALID as CAL_SETS_VALID has it. -/
def Block.setInfo (b : Block) (n : Nat) : Nat := b.rdN (key 0x2802 (1 + n)) % 2 ^ 64 / 2 ^ 16 * 2 ^ 16 + b2n (bit (b.rdN Od.CAL_SETS_VALID) n)

/-- The valid sets as (temperature in m°C, number). -/
def Block.sets (b : Block) : List (Int × Nat) :=
  ((List.range 8).filter fun i => bit (b.rdN Od.CAL_SETS_VALID) i).map fun i =>
    (signed 16 (bits (b.rdN (key 0x2802 (1 + i))) 16 16) * 10, i)

/-- The nearest valid set at or below a temperature, and at or above it. -/
def setBelow (t : Int) : List (Int × Nat) → Option (Int × Nat)
  | [] => none
  | s :: r => let best := setBelow t r
    if s.1 ≤ t then match best with
      | none => some s
      | some x => if x.1 < s.1 then some s else some x
    else best
def setAbove (t : Int) : List (Int × Nat) → Option (Int × Nat)
  | [] => none
  | s :: r => let best := setAbove t r
    if t ≤ s.1 then match best with
      | none => some s
      | some x => if s.1 < x.1 then some s else some x
    else best

/-- An interpolated set value in fs (R183); 0 with fewer than two valid sets (R181). -/
def Block.setNow (b : Block) (item : Nat) : Int :=
  let t := b.rd Od.CAL_DIE_TEMP
  if b.sets.length < 2 then 0
  else match setBelow t b.sets, setAbove t b.sets with
    | some l, some h =>
      let vl := Config.setValue l.2 item
      if h.1 = l.1 then vl else vl + (Config.setValue h.2 item - vl) * (t - l.1) / (h.1 - l.1)
    | some l, none => Config.setValue l.2 item
    | none, some h => Config.setValue h.2 item
    | none, none => 0

/-- The number of a lane's residual in a set: by lane, mode, FEC and direction; of its loopback path, of the paths to an OUT land and from a TIC and a
REFIN land (R181). -/
def Block.residItem (b : Block) (p lane dir : Nat) : Nat := ((lane * 8 + b.pMode p) * 4 + b.pFec p) * 2 + dir
def loopItem (lane : Nat) : Nat := 8192 + lane
def ticPath (c : Nat) : Nat := 4096 + c
def outPath (n : Nat) : Nat := 4104 + n
def refinPath (r : Nat) : Nat := 4112 + r

/-- A lane's residual with its port's link calibration on top (R184), in ticks. -/
def Block.laneResid (b : Block) (p lane dir : Nat) : Int :=
  fsToTicks (b.setNow (b.residItem p lane dir) + b.rd (if dir = 0 then Od.LC_TX_OFFSET p else Od.LC_RX_OFFSET p) * 1000)

/-- The corrections of a port's lanes brought to their targets: by ramps, or at once (R187). -/
def Block.takePortCorr (b : Block) (p : Nat) (ramps : Bool) : Block :=
  (lanesOf (b.pMode p) p).foldl (fun b l =>
    (b.setCorr (txItem l) (b.laneResid p l 0) ramps).setCorr (rxItem l) (b.laneResid p l 1) ramps) b

/-- The path from an edge placer to its OUT land, and from a REFIN land to its converter, brought to their targets (R181, R183, R187). -/
def Block.takeOutCorr (b : Block) (n : Nat) (ramps : Bool) : Block := b.setCorr (outItem n) (fsToTicks (b.setNow (outPath n))) ramps
def Block.takeRefinCorr (b : Block) (r : Nat) (ramps : Bool) : Block := b.setCorr (refinItem r) (fsToTicks (b.setNow (refinPath r))) ramps

/-- The delay of a measurement input from its reference point in fs, and in ticks brought to its target (R197, R212). -/
def Block.ticDelayFs (b : Block) (c : Nat) : Int := b.rd (Od.TIC_BOARD_DELAY c) * 1000 + b.setNow (ticPath c)
def Block.ticDelay (b : Block) (c : Nat) : Int := fsToTicks (b.ticDelayFs c)
def Block.takeTicCorr (b : Block) (c : Nat) : Block := b.setCorr (ticItem c) (b.ticDelay c) (b.fnRuns (40 + c))

/-- Everything interpolated from the die temperature brought to its target (R183): by ramps where its function is RUN, else at once. -/
def Block.takeAllCorr (b : Block) : Block :=
  let b := (List.range 32).foldl (fun b p => if b.laneOwner p = p then b.takePortCorr p (b.fnRuns p) else b) b
  let b := (List.range 8).foldl Block.takeTicCorr b
  let b := (List.range 8).foldl (fun b n => b.takeOutCorr n (b.convRuns (44 + n))) b
  (List.range 2).foldl (fun b r => b.takeRefinCorr r (b.fnRuns (36 + r))) b

/-- The die temperature of the second, and everything interpolated from it (R183). A link calibration that runs sees it move (R185). -/
def Block.tempUpdate (b : Block) (t : Int) : Block :=
  let b := b.wr Od.CAL_DIE_TEMP t
  let far : Bool := match b.liveJob 2 with
    | some j => decide (500 < (t - (b.job j).temp).natAbs)
    | none => false
  let out := decide (2 ≤ b.sets.length) && ((setBelow t b.sets).isNone || (setAbove t b.sets).isNone)
  let b := if out && !b.tm.cal.outside then (b.orBits Od.CAL_STICKY 2).raise 0x2806 else b
  (b.setCal fun x => { x with outside := out, moved := x.moved || far }).takeAllCorr

/-- Every port UNCALIBRATED where fewer than two sets are valid (R181). -/
def Block.needSets (b : Block) : Block :=
  if b.sets.length < 2 then (List.range 32).foldl (fun b p => b.wr (Od.LT_CAL_STATE p) 0) b else b

/-- The sets loaded at power-on (R181): one whose two copies both fail their CRC-32 is invalid. Event 0x2805 for each, every port UNCALIBRATED with fewer
than two. -/
def Block.loadSets (b : Block) : Block :=
  let bad := (List.range 8).filter fun i => bit b.tm.cal.badCopies (2 * i) && bit b.tm.cal.badCopies (2 * i + 1)
  let b := b.wr Od.CAL_SETS_VALID (0xFF - (bad.map fun i => 2 ^ i).sum : Nat)
  let b := if bad.isEmpty then b else b.orBits Od.CAL_STICKY 4
  (bad.foldl (fun b i => b.raise 0x2805 i) b).needSets

/-- The largest amount still to be ramped, in ticks (CAL_RAMP_LEFT). -/
def Block.rampLeft (b : Block) : Nat := (b.tm.cal.corr.map fun e => (e.2.goal - e.2.at_ b.cyc).natAbs).foldl max 0

/-- CAL_RAMP_RATE written: ramps in progress go on at the new rate. -/
def Block.setRampRate (b : Block) (v : Int) : Block :=
  let b := b.wr Od.CAL_RAMP_RATE v
  b.setCal fun x => { x with corr := x.corr.map fun e => (e.1, ⟨e.2.at_ b.cyc, e.2.goal, v.toNat, b.cyc⟩) }

-- Link calibration (R184 to R186)

/-- LCn_START: refused while the port is not STOPPED (R184) or a lane of it has a test selected (R306). (DEDUCED, log 36 and 50.) -/
def Block.linkCalStart (b : Block) (p tenant : Nat) : Reply :=
  if b.fnState p ≠ 0 ∨ (lanesOf (b.pMode p) p).any fun l => b.rdN (Od.LANE_TEST l) != 0 then b.stateError
  else match b.startJob 2 tenant [] p with
    | none => b.resourceError
    | some (n, j, b') =>
      if b.calBusy then b.busy
      else (((b'.wr Od.CAL_JOB n).setJob j fun x => { x with temp := b.rd Od.CAL_DIE_TEMP }).setCal fun x => { x with moved := false }).ok n

/-- A lane's offsets in fs from its mean loop interval and its transmit path (R184 steps 4 and 5): tx and rx less Table 3.1 and the set residual. -/
def Block.laneOffsets (b : Block) (p lane : Nat) (loop tx : Int) : Int × Int :=
  let rx := loop + b.setNow (loopItem lane) - tx
  let table := b.portCorrections p
  (tx - table.2.2.1 * 1000 - b.setNow (b.residItem p lane 0), rx - table.2.2.2 * 1000 - b.setNow (b.residItem p lane 1))

/-- The offsets of a port in ps: the mean of its lanes' offsets. (DESIGN CHOICE, log 139.) -/
def Block.portOffsets (b : Block) (p : Nat) (loops : List (Int × Int)) : Int × Int :=
  let lanes := lanesOf (b.pMode p) p
  let offs := (List.range lanes.length).map fun i =>
    let l := loops.getD i (0, 0)
    b.laneOffsets p (lanes.getD i p) l.1 l.2
  (roundDiv (sumI (offs.map (·.1))) (1000 * offs.length), roundDiv (sumI (offs.map (·.2))) (1000 * offs.length))

/-- A link calibration ends (R184, R185): `loops` holds, for each lane of the port, its mean loop interval and its transmit path, in fs. (DEDUCED, log 36 and 50.) -/
def Block.linkCalComplete (b : Block) (loops : List (Int × Int)) : Block :=
  match b.liveJob 2 with
  | none => b
  | some j =>
    let p := (b.job j).arg
    let off := b.portOffsets p loops
    if b.tm.cal.moved ∨ 500 < (b.rd Od.CAL_DIE_TEMP - (b.job j).temp).natAbs ∨ 300 < off.1.natAbs ∨ 300 < off.2.natAbs then
      (b.endJob j 4).raise 0x2804 p
    else
      let b := (b.wr (Od.LC_TX_OFFSET p) off.1).wr (Od.LC_RX_OFFSET p) off.2
      let b := ((b.wr (Od.LC_SUM_UNC p) 2).wr (Od.LC_FEC p) (b.pFec p)).wr (Od.LC_TEMP p) (b.rd Od.CAL_DIE_TEMP)
      let b := ((b.wr (Od.LC_TIME p) b.mer).wr (Od.LT_CAL_STATE p) 1).takePortCorr p false
      let b := b.setCal fun x => { x with dirty := x.dirty ++ [p] }
      ((b.needSets).endJob j 3).raise 0x2803 p

/-- The firmware writes the calibrations not yet saved to NAND, unless brace holds NAND writes (R186). -/
def Block.linkCalSave (b : Block) : Block :=
  if b.nandHeld ∨ !b.mg.srv.running then b
  else b.setCal fun x =>
    { x with dirty := [],
             saved := x.dirty.foldl (fun t p => tput t p
               { tx := b.rd (Od.LC_TX_OFFSET p), rx := b.rd (Od.LC_RX_OFFSET p), sum := b.rdN (Od.LC_SUM_UNC p), fec := b.rdN (Od.LC_FEC p),
                 temp := b.rd (Od.LC_TEMP p), time := b.rdN (Od.LC_TIME p) }) x.saved }

/-- The saved calibrations restored after a reset that cleared the Vesper domain, each from a copy that passes its CRC-32 (R186). -/
def Block.linkCalRestore (b : Block) : Block :=
  b.tm.cal.saved.foldl (fun b e =>
    let p := e.1
    let s := e.2
    if !s.copies.1 ∧ !s.copies.2 then b.wr (Od.LT_CAL_STATE p) 0
    else
    let b := ((b.wr (Od.LC_TX_OFFSET p) s.tx).wr (Od.LC_RX_OFFSET p) s.rx).wr (Od.LC_SUM_UNC p) s.sum
    let b := ((b.wr (Od.LC_FEC p) s.fec).wr (Od.LC_TEMP p) s.temp).wr (Od.LC_TIME p) s.time
    (b.wr (Od.LT_CAL_STATE p) 1).takePortCorr p false) b

/-- A port that starts in another FEC mode than the one calibrated (R75, R185): the calibration is invalidated, its offsets discarded. -/
def Block.checkCalFec (b : Block) (p : Nat) : Block :=
  if b.rdN (Od.LT_CAL_STATE p) = 1 ∧ b.rdN (Od.LC_FEC p) ≠ b.pFec p then
    ((b.wr (Od.LC_TX_OFFSET p) 0).wr (Od.LC_RX_OFFSET p) 0).invalidateCal p
  else b

-- The dual-colour solver (R189 to R192)

/-- Pair i's state, and the module with it changed. -/
def Block.asy (b : Block) (i : Nat) : Asy := tat {} b.tm.cal.asy i
def Block.setAsy (b : Block) (i : Nat) (f : Asy → Asy) : Block := b.setCal fun x => { x with asy := tmod {} x.asy i f }

/-- The dispersion term (λ − λ₀² / λ)² of R190, in 10⁻²⁴ pm². -/
def dispersion (l l0 : Int) : Int := if l = 0 then 0 else (l * l - l0 * l0) * (l * l - l0 * l0) * 10 ^ 24 / (l * l)

/-- κ of the port with colours a and b, the other port having c and d, times 10¹⁸ (R190); none where it has no value. -/
def kappa (a b c d l0 : Int) : Option Int :=
  let den := dispersion a l0 + dispersion b l0 - dispersion c l0 - dispersion d l0
  if den = 0 then none else some ((dispersion a l0 - dispersion b l0) * 10 ^ 18 / den)

/-- The first-order change of κ for a move of 1 pm of one argument, times 10¹⁸: half the central difference. -/
def kappaSlope (f : Int → Option Int) : Int :=
  match f 1, f (-1) with
  | some u, some v => ((u - v).natAbs : Int) / 2
  | _, _ => 0

/-- δκ of R191, times 10¹⁸. The example of Table 7.5 takes the changes to first order (log 14). -/
def deltaKappa (a b c d l0 l0unc wlunc : Int) : Int :=
  kappaSlope (fun h => kappa a b c d (l0 + h)) * l0unc
    + (kappaSlope (fun h => kappa (a + h) b c d l0) + kappaSlope (fun h => kappa a (b + h) c d l0)
      + kappaSlope (fun h => kappa a b (c + h) d l0) + kappaSlope (fun h => kappa a b c (d + h) l0)) * wlunc

/-- κ of port P and of port Q of pair i. -/
def Block.kappas (b : Block) (i : Nat) : Option (Int × Int) :=
  let a := b.rd (Od.ASY_WL_P_TX i)
  let r := b.rd (Od.ASY_WL_P_RX i)
  let c := b.rd (Od.ASY_WL_Q_TX i)
  let d := b.rd (Od.ASY_WL_Q_RX i)
  let l := b.rd (Od.ASY_LAMBDA0 i)
  match kappa a r c d l with
  | none => none
  | some kp =>
    let den := dispersion a l + dispersion r l - dispersion c l - dispersion d l
    some (kp, (dispersion c l - dispersion d l) * 10 ^ 18 / den)

/-- Whether the peers of a pair's two ports are known and differ. (DEDUCED, log 51.) -/
def Block.peersDiffer (b : Block) (i : Nat) : Bool :=
  let p := b.rdN (Od.LT_PEER_ID (b.rdN (Od.ASY_PORT_P i)))
  let q := b.rdN (Od.LT_PEER_ID (b.rdN (Od.ASY_PORT_Q i)))
  p != 0 && q != 0 && p != q

/-- Peers that differ, or |κ| > 1 (Table 7.4, any state): 1, 2, else 0. (DEDUCED, log 51.) -/
def Block.asyWrong (b : Block) (i : Nat) : Nat :=
  if b.peersDiffer i then 1
  else match b.kappas i with
    | none => 2
    | some k => if 10 ^ 18 < k.1.natAbs ∨ 10 ^ 18 < k.2.natAbs then 2 else 0

/-- Why a pair may not start (ASYi_FAULT): 0 nothing, 1 peers differ, 2 |κ| > 1, 3 port not REEL, 4 wavelengths. (DEDUCED, log 51.) -/
def Block.asyFaultNow (b : Block) (i : Nat) : Nat :=
  let p := b.rdN (Od.ASY_PORT_P i)
  let q := b.rdN (Od.ASY_PORT_Q i)
  let wl := [b.rd (Od.ASY_WL_P_TX i), b.rd (Od.ASY_WL_P_RX i), b.rd (Od.ASY_WL_Q_TX i), b.rd (Od.ASY_WL_Q_RX i)]
  if 32 ≤ p ∨ 32 ≤ q ∨ p = q ∨ b.rdN (Od.LT_MODE p) ≠ 1 ∨ b.rdN (Od.LT_MODE q) ≠ 1 then 3
  else if !wl.Nodup ∨ wl.any fun x => decide (x < 1260000) || decide (1625000 < x) then 4
  else b.asyWrong i

/-- The asymmetries of a pair's two ports brought to their targets. -/
def Block.takeAlphas (b : Block) (i : Nat) : Block := (b.takeAlpha (b.rdN (Od.ASY_PORT_P i))).takeAlpha (b.rdN (Od.ASY_PORT_Q i))

/-- A pair in FAULT (R192): both ports back to α = 0 with LTn_ASYM_UNC. -/
def Block.asyFault (b : Block) (i why : Nat) : Block :=
  let b := (((b.wr (Od.ASY_STATE i) 5).wr (Od.ASY_FAULT i) why).orBits (Od.ASY_STICKY i) 1).raise 0x2808 i
  (b.setAsy i fun x => { x with ever := false, conv := false, alphaP := 0, alphaQ := 0 }).takeAlphas i

/-- A pair's function becomes RUN (Table 7.4, IDLE). (DEDUCED, log 51.) -/
def Block.asyRun (b : Block) (i : Nat) : Block :=
  let b := (b.setAsy i fun _ => {}).wr (Od.ASY_FAULT i) 0
  let why := b.asyFaultNow i
  if why ≠ 0 then b.asyFault i why
  else
    let b := match b.kappas i with
      | some k => (b.wr (Od.ASY_KAPPA_P i) (k.1 / 10 ^ 9)).wr (Od.ASY_KAPPA_Q i) (k.2 / 10 ^ 9)
      | none => b
    b.wr (Od.ASY_STATE i) 1

/-- A pair's function stopped: its ports use α = 0 (R192, Table 15.10). -/
def Block.asyStop (b : Block) (i : Nat) : Block := ((b.wr (Od.ASY_STATE i) 0).setAsy i fun _ => {}).takeAlphas i

/-- Whether both ports of a pair are VALID and CALIBRATED. -/
def Block.asyReady (b : Block) (i : Nat) : Bool :=
  let good (p : Nat) : Bool := b.rdN (Od.LT_STATE p) == 4 && b.rdN (Od.LT_CAL_STATE p) == 1
  good (b.rdN (Od.ASY_PORT_P i)) && good (b.rdN (Od.ASY_PORT_Q i))

/-- A port's exchanges used since a cycle, newest first. -/
def Block.tripsSince (b : Block) (p since : Nat) : List Exchange := (b.reel p).trips.filter fun e => decide (since < e.cyc)

/-- The differences of round trips of exchanges whose T markers leave in the same period of `period` ticks (R190). -/
def pairTrips (period : Nat) (ps qs : List Exchange) : List Int :=
  ps.filterMap fun e => (qs.find? fun f => f.sent / period == e.sent / period).map fun f => e.rtt - f.rtt

/-- Number, mean and mean-square deviation (ticks²) of the samples held. -/
def asyStats (l : List (Nat × Int × Nat)) : Nat × Int × Nat :=
  let n := (l.map (·.1)).foldl (· + ·) 0
  let s := sumI (l.map (·.2.1))
  let q : Nat := (l.map (·.2.2)).foldl (· + ·) 0
  if n = 0 then (0, 0, 0) else (n, s / n, ((q : Int) - s * s / n).toNat / n)

/-- U_α in ps (R191), `k` and `dk` being |κ| and δκ times 10¹⁸. -/
def alphaBound (k dk : Nat) (n : Nat) (var : Nat) (fixed : Nat) (drtt : Int) : Nat :=
  -- 3 s / √N in 10⁻³ ps
  let noise := if n = 0 then 0 else isqrtUp (divUp (9 * var * 1000000 * 1000000) (65536 * 65536 * n))
  min unknownUnc (divUp (k * (noise + fixed * 1000) * 65536 + dk * drtt.natAbs * 1000000) (2 * 1000 * 65536 * 10 ^ 18))

/-- ΔRTT, α and its bounds of a pair reported from the samples held. -/
def Block.asyReport (b : Block) (i : Nat) : Block :=
  let st := asyStats (b.asy i).secs
  match b.kappas i with
  | none => b
  | some k =>
    let fixed := 8 + b.rdN (Od.ASY_FIXED_UNC i)
    let dk (a r c d : Nat) := (deltaKappa (b.rd a) (b.rd r) (b.rd c) (b.rd d) (b.rd (Od.ASY_LAMBDA0 i)) (b.rd (Od.ASY_LAMBDA0_UNC i))
      (b.rd (Od.ASY_WL_UNC i))).toNat
    let dkP := dk (Od.ASY_WL_P_TX i) (Od.ASY_WL_P_RX i) (Od.ASY_WL_Q_TX i) (Od.ASY_WL_Q_RX i)
    let dkQ := dk (Od.ASY_WL_Q_TX i) (Od.ASY_WL_Q_RX i) (Od.ASY_WL_P_TX i) (Od.ASY_WL_P_RX i)
    let aP := k.1 * st.2.1 / (2 * 10 ^ 18)
    let aQ := k.2 * st.2.1 / (2 * 10 ^ 18)
    let b := b.setAsy i fun x => { x with alphaP := aP, alphaQ := aQ }
    let b := (b.wr (Od.ASY_ALPHA_P i) ((aP * 1000 + 32768) / 65536)).wr (Od.ASY_ALPHA_Q i) ((aQ * 1000 + 32768) / 65536)
    (b.wr (Od.ASY_UNC_P i) (alphaBound k.1.natAbs dkP st.1 st.2.2 fixed st.2.1)).wr (Od.ASY_UNC_Q i)
      (alphaBound k.2.natAbs dkQ st.1 st.2.2 fixed st.2.1)

/-- Whether (3 |κ| / 2) s / √N is within the target for both ports (Table 7.4). -/
def Block.asyOnTarget (b : Block) (i : Nat) : Bool :=
  let st := asyStats (b.asy i).secs
  match b.kappas i with
  | none => false
  | some k =>
    let t := b.rdN (Od.ASY_TARGET i)
    let within (k : Nat) : Bool := decide (9 * k * k * st.2.2 * 1000000 ≤ t * t * 4 * st.1 * 65536 * 65536 * 10 ^ 36)
    decide (0 < st.1) && within k.1.natAbs && within k.2.natAbs

/-- The second's exchanges taken into a pair's average. A step of either round trip by more than 1,000 ps answers true. (DEDUCED, log 51.) -/
def Block.asyTake (b : Block) (i : Nat) : Bool × Block :=
  let x := b.asy i
  let p := b.rdN (Od.ASY_PORT_P i)
  let q := b.rdN (Od.ASY_PORT_Q i)
  let tp := b.tripsSince p x.takenAt
  let tq := b.tripsSince q x.takenAt
  let rp := tp.map (·.rtt)
  let rq := tq.map (·.rtt)
  let d := pairTrips (ticksPerSec / min (b.ltRate p) (b.ltRate q)) tp tq
  let mean := if rp.isEmpty ∨ rq.isEmpty then x.means else some (meanI rp, meanI rq)
  let stepped := match x.means, mean with
    | some o, some n => decide (65536000 < (n.1 - o.1).natAbs * 1000) || decide (65536000 < (n.2 - o.2).natAbs * 1000)
    | _, _ => false
  let seconds := if d.isEmpty ∨ b.rdN (Od.ASY_STATE i) = 4 then x.secs else (d.length, sumI d, sumSquares d) :: x.secs
  let b := b.setAsy i fun x => { x with means := mean, takenAt := b.cyc, secs := if b.rdN (Od.ASY_STATE i) = 3 then seconds.take 600 else seconds }
  (stepped, b.wr (Od.ASY_DRTT i) (asyStats (b.asy i).secs).2.1)

/-- The pair's second (Table 7.4). (DEDUCED, log 51.) -/
def Block.asyTick (b : Block) (i : Nat) : Block :=
  let st := b.rdN (Od.ASY_STATE i)
  if !b.fnRuns (69 + i) ∨ st = 0 ∨ st = 5 then b
  else if b.asyWrong i ≠ 0 then b.asyFault i (b.asyWrong i)
  else
    let ready := b.asyReady i
    if st = 1 then
      if ready then (b.setAsy i fun x => { x with secs := [], means := none, conv := false, since := b.cyc, takenAt := b.cyc }).wr (Od.ASY_STATE i) 2 else b
    else
      let (stepped, b) := b.asyTake i
      if stepped then
        ((b.setAsy i fun x => { x with secs := [], since := b.cyc, conv := false }).wr (Od.ASY_STATE i) 2 |>.orBits (Od.ASY_STICKY i) 2).raise 0x2809 i
      else if st = 4 then
        if ready then b.wr (Od.ASY_STATE i) (if (b.asy i).conv then 3 else 2) else b
      else if !ready then (b.wr (Od.ASY_STATE i) 4).orBits (Od.ASY_STICKY i) 4
      else if st = 3 then (b.asyReport i).takeAlphas i
      else if (b.asy i).since + secs (b.rdN (Od.ASY_MIN_TIME i)) ≤ b.cyc ∧ b.asyOnTarget i then
        let b := (b.asyReport i).setAsy i fun x => { x with ever := true, conv := true }
        ((b.wr (Od.ASY_STATE i) 3).raise 0x2807 i).takeAlphas i
      else b

end Sys2Proof.Machine
end

