-- ==== Sys2Proof/Machine/Tic.lean ====
section
/-! DEFINITION. Time-interval and frequency measurement inputs (chapter 8): accepting an edge, encoding it, results and their statistics, records,
arming. -/

namespace Sys2Proof.Machine

/-- Channel c, and the module with it changed. -/
def Block.tic (b : Block) (c : Nat) : Tic := tat {} b.tm.tic c
def Block.setTic (b : Block) (c : Nat) (f : Tic → Tic) : Block := { b with tm := { b.tm with tic := tmod {} b.tm.tic c f } }

/-- Whether channel c runs and is armed in a mode. -/
def Block.ticMeasures (b : Block) (c : Nat) : Bool := b.fnRuns (40 + c) && (b.tic c).armed && b.rdN (Od.TIC_MODE c) != 0

/-- The armed INTERVAL channels, other than c, whose stop channel is c (R200). -/
def Block.ticStopFor (b : Block) (c : Nat) : List Nat :=
  (List.range 8).filter fun d => d != c && b.ticMeasures d && b.rdN (Od.TIC_MODE d) == 1 && b.rdN (Od.TIC_STOP_CH d) == c

/-- Whether channel c takes the opposite slope too: its own stop channel (R200). -/
def Block.ticSelfStop (b : Block) (c : Nat) : Bool := b.rdN (Od.TIC_MODE c) == 1 && b.rdN (Od.TIC_STOP_CH c) == c

/-- TICn_STATUS as the channel stands. -/
def Block.ticStatus (b : Block) (c : Nat) : Block :=
  let t := b.tic c
  b.wr (Od.TIC_STATUS c) (if !t.armed then 0 else if t.start.isSome || t.stop.isSome || t.prev.isSome || t.first.isSome then 2 else 1)

/-- A lost edge counted for the next result (Table 8.4 LOST). -/
def Block.ticLost (b : Block) (c : Nat) : Block := b.setTic c fun t => { t with lost := min (t.lost + 1) (2 ^ 32 - 1) }

/-- The bound of one edge in fs (R212). -/
def Block.edgeBound (b : Block) (c code : Nat) : Nat :=
  let dT := (b.rd Od.CAL_DIE_TEMP - (b.conv (36 + c)).temp).natAbs
  b.codeBin (36 + c) code + 9000 + divUp ((dT - 5000) * 200) 1000

/-- φ − TICn_BOARD_DELAY − p(T) of an edge in ticks, rounded once (R197); what a ramp still lacks of those delays is added (R187). (DEDUCED, log 52.) -/
def Block.ticFine (b : Block) (c code : Nat) : Int :=
  b.codeTicks (36 + c) code (-b.ticDelayFs c) + (b.ticDelay c - b.corr (ticItem c))

/-- An edge at the land of channel c with its vernier code (R197, R204, R205). (DEDUCED, log 52.) -/
def Block.ticEdge (b : Block) (c : Nat) (rising : Bool) (code : Nat) : Block :=
  let active := rising == (b.rdN (Od.TIC_SLOPE c) == 0)
  let wanted := b.fnRuns (40 + c) && (if active then b.ticMeasures c || !(b.ticStopFor c).isEmpty else b.ticMeasures c && b.ticSelfStop c)
  if !wanted then b
  else
    let fs := (b.codeFs (36 + c) code 0).toNat
    let dead : Bool := match (b.tic c).lastAt with
      | some (n, f) => decide (b.cyc * 10000000 + fs < n * 10000000 + f + 4000000)
      | none => false
    if dead then ((((b.bump (Od.TIC_DEADTIME_LOST c) 1).orBits (Od.TIC_STICKY c) 1).raiseLim 0x2904 c).tally 8 c 1).ticLost c
    else
      let b := (b.tally 8 c 0).setTic c fun t => { t with lastAt := some (b.cyc, fs), accepted := (t.accepted + 1) % 2 ^ 40 }
      if 16 ≤ (b.tic c).queue.length then
        ((((b.bump (Od.TIC_OVERRUN_LOST c) 1).orBits (Od.TIC_STICKY c) 2).raiseLim 0x2905 c).tally 8 c 1).ticLost c
      else
        let fine := b.ticFine c code
        let word : Int := (b.mer : Int) + fine
        b.setTic c fun t =>
          { t with queue := t.queue ++ [⟨b.cyc, fine, word, b.qualified word.toNat, b.edgeBound c code, b.tm.mt.steps, b.on Od.OSC_WARMUP,
              b.pe0, active, []⟩] }

/-- The duration between two edges in ticks (R198). -/
def edgeDiff (a z : TicEdge) : Int := ((z.cyc : Int) - a.cyc) * 655360 + z.fine - a.fine

-- Results

/-- The four figures of a completed block (R208): mean and standard deviation, rounded. (DEDUCED, log 54.) -/
def blockMean (x1 sum : Int) (n : Nat) : Int := roundDiv (x1 * n + sum) n
def blockSdev (sum : Int) (sumSq n : Nat) : Nat :=
  let num := n * sumSq - (sum * sum).toNat
  let den := n * (n - 1)
  if den = 0 then 0 else (isqrt (4 * num / den) + 1) / 2

/-- A value enters the statistics of channel c; a block that reaches STAT_N replaces the reported values (R208, R209). (DEDUCED, log 54.) -/
def Block.ticStat (b : Block) (c : Nat) (x : Int) : Block :=
  let b := b.setTic c fun t =>
    if t.n = 0 then { t with n := 1, x1 := x, sum := 0, sumSq := 0, lo := x, hi := x }
    else { t with n := t.n + 1, sum := t.sum + (x - t.x1), sumSq := t.sumSq + (x - t.x1).natAbs ^ 2, lo := min t.lo x, hi := max t.hi x }
  let t := b.tic c
  if b.rdN (Od.TIC_STAT_N c) ≤ t.n then
    let b := ((b.wr (Od.TIC_STAT_MEAN c) (blockMean t.x1 t.sum t.n)).wr (Od.TIC_STAT_SDEV c) (blockSdev t.sum t.sumSq t.n : Nat)).wr
      (Od.TIC_STAT_MIN c) t.lo
    let b := ((b.wr (Od.TIC_STAT_MAX c) t.hi).bump (Od.TIC_STAT_BLOCKS c) 1).setTic c fun t => { t with n := 0 }
    (b.wr (Od.TIC_STAT_COUNT c) 0).raise 0x2901 c
  else b.wr (Od.TIC_STAT_COUNT c) t.n

/-- Armed or disarmed, with what was half formed discarded; edges accepted until now and not yet encoded are ignored (R202). -/
def Block.ticClear (b : Block) (c : Nat) (armed : Bool) : Block :=
  let b := b.setTm fun m => { m with tic := m.tic.map fun e => (e.1, { e.2 with queue := e.2.queue.map fun x => { x with deaf := c :: x.deaf.filter (· != c) } }) }
  (b.setTic c fun t =>
    { t with armed := armed, start := none, stop := none, after := none, prev := none, first := none, last := none, count := 0, later := [],
             gate := b.mer / (max 1 (b.rdN (Od.TIC_GATE c)) * 1000000 * 65536) }).ticStatus c

/-- The value that a result gives the statistics (R208), with the module, since a FREQUENCY result over no time has no stated value. (DESIGN CHOICE, log 4 and 53.) -/
def Block.ticX (b : Block) (c : Nat) (value : Int) (count : Nat) (t : Int) : Int × Block :=
  match b.rdN (Od.TIC_MODE c) with
  | 3 =>
    if 0 < value then (roundDiv (count * 65536 * 10 ^ 15 : Nat) value.toNat, b)
    else
      let (f, b) := b.draw (2 ^ 63)
      (f, b)
  | 4 =>
    let g : Int := b.rdN (Od.TIC_GRID_PERIOD c) * 65536
    let r := if g = 0 then 0 else (t - psToTicks (b.rd (Od.TIC_GRID_OFFSET c))) % g
    (if g ≤ 2 * r then r - g else r, b)
  | _ => (value, b)

/-- A result of channel c (R199, R206, R210): reference edge, closing edge, VALUE, COUNT, whether it is an overflow or an empty gate. (DESIGN CHOICE, log 53.) -/
def Block.ticResult (b : Block) (c : Nat) (ref close : Option TicEdge) (value : Int) (count : Nat) (overflow empty : Bool) : Block :=
  let mode := b.rdN (Od.TIC_MODE c)
  let t := b.tic c
  -- a gate without an edge has no reference edge, and the spec states no WHEN for it (log 4)
  let (when_, b) := match ref with
    | some e => (e.when_, b)
    | none =>
      let (f, b) := b.draw (2 ^ 128)
      (toLE 16 f, b)
  let steps := match close with | some e => e.steps | none => b.tm.mt.steps
  let stepped : Bool := if mode = 4 then t.had && t.steps != steps else match ref with | some e => e.steps != steps | none => false
  let warm := match ref with | some e => e.warm | none => b.on Od.OSC_WARMUP
  let pe0 := match ref with | some e => e.pe0 | none => b.pe0
  let bound (o : Option TicEdge) : Nat := match o with | some e => e.bound | none => 0
  let unc := min 255 (divUp (if mode = 4 then bound ref else bound ref + bound close) 1000)
  let ctrl := c * 2 ^ 61 + mode * 2 ^ 58 + b2n overflow * 2 ^ 57 + b2n empty * 2 ^ 56 + b2n stepped * 2 ^ 55 + b2n warm * 2 ^ 54 + pe0 * 2 ^ 51
    + (b.conv (36 + c)).gen % 8 * 2 ^ 48 + unc * 2 ^ 40 + count % 2 ^ 40
  let seq := (t.seq + 1) % 2 ^ 32
  let record := when_ ++ toLE 8 (unsigned 64 value) ++ toLE 4 seq ++ toLE 4 t.lost ++ toLE 8 ctrl
  let b := b.setTic c fun t => { t with seq := seq, had := true, lost := 0, steps := steps }
  let b := ((b.wr (Od.TIC_LAST_VALUE c) value).wrBlob (Od.TIC_LAST_WHEN c) when_).wr (Od.TIC_LAST_CTRL c) ctrl
  let b := b.orBits (Od.TIC_STICKY c) (b2n stepped * 16 + b2n warm * 32)
  let b := if overflow || empty then b.bump (Od.TIC_EXCLUDED c) 1
    else
      let (x, b) := b.ticX c value count (match ref with | some e => e.word | none => 0)
      b.ticStat c x
  let b := if b.on (Od.TIC_RECORD c) then
      if (b.tic c).records.length < 4096 then b.setTic c fun t => { t with records := t.records ++ [record] }
      else ((b.bump (Od.TIC_RECORD_LOST c) 1).orBits (Od.TIC_STICKY c) 4).raiseLim 0x2905 c
    else b
  if b.rdN (Od.TIC_ARM_MODE c) = 1 then (b.raise 0x2902 c).ticClear c false else b.ticStatus c

-- Encoding (R199 to R201)

/-- An edge that finds its kind taken (R200). -/
def Block.ticUnpaired (b : Block) (c : Nat) : Block := (b.bump (Od.TIC_UNPAIRED c) 1).orBits (Od.TIC_STICKY c) 64

/-- A start or stop edge into the pairing of channel c (R200). (DEDUCED, log 52.) -/
def Block.ticPair (b : Block) (c : Nat) (e : TicEdge) (isStop : Bool) : Block :=
  let t := b.tic c
  let early : Bool := match t.after with
    | some (n, f) => decide ((e.cyc : Int) * 655360 + e.fine ≤ (n : Int) * 655360 + f)
    | none => false
  let taken : Bool := if isStop then t.stop.isSome else t.start.isSome
  if early ∨ taken then b.ticUnpaired c
  else
    let t := if isStop then { t with stop := some e } else { t with start := some e }
    match t.start, t.stop with
    | some s, some z =>
      let d := edgeDiff s z
      let later := if 0 ≤ d then (z.cyc, z.fine) else (s.cyc, s.fine)
      let b := b.setTic c fun _ => { t with start := none, stop := none, after := some later }
      b.ticResult c (some s) (some z) d t.accepted false false
    | _, _ => (b.setTic c fun _ => t).ticStatus c

/-- An edge into the gate of channel c (R201): one of a later gate waits for the gate to end, one of an earlier gate, which has ended, is in none. (DEDUCED, log 52.) -/
def ticGateTake (gateTicks : Int) (t : Tic) (e : TicEdge) : Tic :=
  if (t.gate + 1 : Nat) * gateTicks ≤ e.word then { t with later := t.later ++ [e] }
  else if e.word < t.gate * gateTicks then t
  else match t.first with
    | none => { t with first := some e, last := some e, count := 0 }
    | some _ => { t with last := some e, count := t.count + 1 }

/-- The length of a gate in ticks. -/
def Block.gateTicks (b : Block) (c : Nat) : Nat := max 1 (b.rdN (Od.TIC_GATE c)) * 1000000 * 65536

/-- An edge of channel c measured in the channel's own mode. -/
def Block.ticOwn (b : Block) (c : Nat) (e : TicEdge) : Block :=
  if !b.ticMeasures c ∨ e.deaf.contains c then b
  else match b.rdN (Od.TIC_MODE c) with
    | 1 =>
      if e.active then b.ticPair c e false
      else if (b.tic c).start.isSome then b.ticPair c e true
      else b
    | 2 => match (b.tic c).prev with
      | none => (b.setTic c fun t => { t with prev := some e }).ticStatus c
      | some p =>
        let b := b.setTic c fun t => { t with prev := some e }
        b.ticResult c (some p) (some e) (edgeDiff p e) (b.tic c).accepted false false
    | 3 => (b.setTic c fun t => ticGateTake (b.gateTicks c) t e).ticStatus c
    | 4 => b.ticResult c (some e) none 0 (b.tic c).accepted false false
    | _ => b

/-- The encoder takes the oldest edge of a channel's capture queue (R205). -/
def Block.ticEncode (b : Block) (c : Nat) : Block :=
  match (b.tic c).queue with
  | [] => b
  | e :: rest =>
    let b := b.setTic c fun t => { t with queue := rest }
    let b := b.ticOwn c e
    if e.active then (b.ticStopFor c).foldl (fun b d => if e.deaf.contains d then b else b.ticPair d e true) b else b

/-- The gate after the one that closes: the next, or the gate of the instant to which a step of Meridian time has since gone forward over the ones between. (DEDUCED, log 52.) -/
def Block.ticNextGate (b : Block) (c : Nat) : Nat := max ((b.tic c).gate + 1) (b.tm.mt.landed / b.gateTicks c)

/-- A gate of channel c closes once the edges it has captured are encoded (R201): its result, and its own last edge carried into the next gate. (DEDUCED, log 52.) -/
def Block.ticGateEnd (b : Block) (c : Nat) : Block :=
  if !b.ticMeasures c ∨ b.rdN (Od.TIC_MODE c) ≠ 3 ∨ b.mer < ((b.tic c).gate + 1) * b.gateTicks c then b
  else
    let b := (b.tic c).queue.foldl (fun b _ => b.ticEncode c) b
    let t := b.tic c
    let own (e : TicEdge) : Bool := decide ((t.gate * b.gateTicks c : Nat) ≤ e.word)
    let gate := b.ticNextGate c
    let next := { t with gate := gate, first := if gate = t.gate + 1 then t.last.filter own else none, last := none, count := 0, later := [] }
    let next := if next.first.isSome then { next with last := next.first } else next
    let b := b.setTic c fun _ => t.later.foldl (ticGateTake (b.gateTicks c)) next
    match t.first, t.last with
    | some f, some l =>
      if t.count = 0 then b.ticResult c (some f) none 0 0 false true
      else b.ticResult c (some f) (some l) (edgeDiff f l) t.count false false
    | _, _ => b.ticResult c none none 0 0 false true

/-- A measurement in progress reaches 2⁴⁰ cycles (R207). -/
def Block.ticOverflow (b : Block) (c : Nat) : Block :=
  let t := b.tic c
  let open_ := match b.rdN (Od.TIC_MODE c) with
    | 1 => if t.start.isSome then t.start else t.stop
    | 2 => t.prev
    | _ => none
  match open_ with
  | some e =>
    if b.ticMeasures c ∧ e.cyc + 2 ^ 40 ≤ b.cyc then
      let b := ((b.bump (Od.TIC_OVERFLOWS c) 1).orBits (Od.TIC_STICKY c) 8).raise 0x2903 c
      let b := b.setTic c fun t => { t with start := none, stop := none, prev := none }
      b.ticResult c (some e) none 0 (b.tic c).accepted true false
    else b
  | none => b

/-- The record writer moves the next record, serving the channels in turn (R206, R210), once the LPDDR5 clock runs. -/
def Block.ticRecordWrite (b : Block) : Block :=
  if !b.clockRuns .lpddr then b
  else
    let order := (List.range 8).map fun i => (b.tm.ticNext + i) % 8
    match order.find? fun c => !(b.tic c).records.isEmpty with
    | none => b
    | some c => match (b.tic c).records with
      | [] => b
      | r :: rest =>
        let b := b.setTic c fun t => { t with records := rest }
        let b := { b with tm := { b.tm with ticRing := ringPush 65536 b.tm.ticRing r, ticNext := (c + 1) % 8 } }
        ((b.tally 8 c 2).lpWrite (divUp r.length 64)).wr Od.TIC_RING_WR ((b.rdN Od.TIC_RING_WR + 1) % 2 ^ 32 : Nat)

-- Arming (R202)

/-- Channel c armed now, whatever was half formed discarded. -/
def Block.ticArmNow (b : Block) (c : Nat) : Block := if b.fnRuns (40 + c) ∧ b.rdN (Od.TIC_MODE c) ≠ 0 then b.ticClear c true else b

/-- TICn_ARM = 1. (DEDUCED, log 52.) -/
def Block.ticArm (b : Block) (c : Nat) : Reply :=
  if !b.fnRuns (40 + c) then b.stateError
  else
    let at_ := b.rdN (Od.TIC_ARM_AT c)
    if at_ = 0 then ((b.disarm (.tic (Fin.ofNat 8 c))).ticArmNow c).ok
    else if b.armable at_ then ((b.ticClear c false).armWord (.tic (Fin.ofNat 8 c)) at_).ok
    else b.rangeError

/-- TICn_ARM = 2. -/
def Block.ticDisarm (b : Block) (c : Nat) : Reply :=
  if !b.fnRuns (40 + c) then b.stateError else ((b.disarm (.tic (Fin.ofNat 8 c))).ticClear c false).ok

/-- The channel becomes RUN (R202, R213): a new block, the table that waits, arming in CONTINUOUS. -/
def Block.ticRun (b : Block) (c : Nat) : Block :=
  let b := if (b.conv (36 + c)).pend.bins.isEmpty then b else b.takeTable (36 + c)
  let b := b.setTic c fun t =>
    { records := t.records, seq := t.seq, had := t.had, lost := t.lost, steps := t.steps }
  let b := (b.setCorr (ticItem c) (b.ticDelay c) false).wr (Od.TIC_STAT_COUNT c) 0
  b.ticClear c (b.rdN (Od.TIC_ARM_MODE c) == 0 && b.rdN (Od.TIC_MODE c) != 0)

/-- The channel STOPPED (R213): half-formed results and the block in progress are discarded. -/
def Block.ticStop (b : Block) (c : Nat) : Block :=
  ((b.setTic c fun t => { t with queue := [], n := 0 }).wr (Od.TIC_STAT_COUNT c) 0 |>.disarm (.tic (Fin.ofNat 8 c))).ticClear c false

end Sys2Proof.Machine
end

