-- ==== Sys2Proof/Machine/Dma.lean ====
section
/-! DEFINITION. DMA channels (R378 to R394): descriptors, gather, bus errors, frames to a host, record rings, doorbells, stops. `m` is the pool
memory as the command finds it; `desc` and `data` are what reads in PCIe space return. -/

namespace Sys2Proof.Machine

-- Descriptors (Table 14.2)

/-- The fields of a descriptor. -/
structure Descriptor where
  src : Nat
  dst : Nat
  len : Nat
  count : Nat
  op : Nat
  srcSpace : Nat
  dstSpace : Nat
  free : Bool
  irq : Bool
  deriving DecidableEq, Repr

/-- A descriptor read from its 32 bytes. -/
def readDescriptor (d : Bytes) : Descriptor :=
  let ctrl := ofLE (slice d 24 4)
  ⟨ofLE (slice d 0 8), ofLE (slice d 8 8), ofLE (slice d 16 4), ofLE (slice d 20 4), bits ctrl 29 3, bits ctrl 28 1, bits ctrl 27 1, bit ctrl 26,
    bit ctrl 25⟩

/-- Whether channel c can take up work: RUN in a mode, not HALTED, no work in hand, no retry or buffer awaited, LPDDR5 clock and crossing usable. -/
def Block.dmaFree (b : Block) (c mode : Nat) : Bool :=
  b.fnRuns (104 + c) && b.rdN (Od.DMA_MODE c) == mode && b.rdN (Od.DMA_STATUS c) != 3 && (b.dma c).job.isNone && (b.dma c).retryAt.isNone
    && (b.dma c).wait.isNone
    && b.clockRuns .lpddr && b.agreed Boundary.dmaLpddr.no

/-- The descriptor at HEAD of channel c, from its ring: in POOL space from memory, in PCIe space as read there. (DEDUCED, log 86.) -/
def Block.headDesc (b : Block) (m : Memory) (c : Nat) (desc : Bytes) : Option Bytes :=
  if b.rdN (Od.DMA_HEAD c) = b.rdN (Od.DMA_TAIL c) then none
  else if b.rdN (Od.DMA_RING_SPACE c) = 1 then some (ramBytes m (b.poolAddr (b.headSlot c)) 32)
  else if desc.length = 32 then some desc
  else none

/-- What is wrong with naming n bytes at an address of POOL space (R375, R382): 0 nothing, 3 PERMISSION, 5 RANGE. (DEDUCED, log 86.) -/
def Block.poolFault (b : Block) (c a n : Nat) : Nat :=
  let h := a / 2 ^ 32
  if !b.handleOk h then 5
  else match b.buf h with
    | none => 3
    | some x =>
      if x.owner ≠ b.rdN (Od.DMA_TENANT c) then 3
      else if poolSize (handlePool h) < a % 2 ^ 32 + n then 5
      else 0

/-- The same for an address of either space. -/
def Block.spaceFault (b : Block) (c space a n : Nat) : Nat := if space = 0 then 0 else b.poolFault c a n

/-- A read of PCIe space sent out: to whole doublewords (R384). (DEDUCED, log 86 and 87.) -/
def Block.pcieRead (b : Block) (c a n : Nat) : Block :=
  if n = 0 then b else b.emit (.pcieRead (b.rdN (Od.DMA_FUNCTION c)) (a / 4 * 4) ((a + n + 3) / 4 * 4 - a / 4 * 4))

/-- A retry that succeeded is counted (R386). -/
def Block.retried (b : Block) (c : Nat) : Block :=
  if (b.dma c).reissued then (b.bump (Od.DMA_RETRIED c) 1).setDma c fun x => { x with reissued := false, tries := 0 } else b

/-- The pool memory after a command: lost where the compute subsystem was reset, then written. (DESIGN CHOICE, log 11.) -/
def Block.ramAfter (b : Block) (ram : Memory) : Memory :=
  b.pokes.foldl (fun (m : Memory) (e : Nat × Bytes) => ramStore m e.1 e.2) (if b.ramLost then [] else ram)

-- Beats (R380, R381)

/-- The bytes of one read beat, to the end of a 64-byte beat of the pool region (R384), and what is left to read. (DESIGN CHOICE, log 157.) -/
def Piece.beat (m : Memory) : Piece → Bytes × List Piece
  | .bytes l => (l.take 64, if l.length ≤ 64 then [] else [.bytes (l.drop 64)])
  | .pool a n => let k := min n (64 - a % 64); (ramBytes m a k, if n ≤ k then [] else [.pool (a + k) (n - k)])

/-- The bytes of a part, read whole. -/
def Piece.all (m : Memory) : Piece → Bytes
  | .bytes l => l
  | .pool a n => ramBytes m a n

/-- The read beats that a part takes, and the requests of the LPDDR5 among them. -/
def Piece.beats : Piece → Nat
  | .bytes l => divUp l.length 64
  | .pool a n => blocks a n
def Piece.requests : Piece → Nat
  | .bytes _ => 0
  | .pool a n => blocks a n

/-- n beats granted to channel c. (DEDUCED, log 87.) -/
def Block.granted (b : Block) (c n : Nat) : Block := (b.tally 6 c 0 n).bump Od.CNT_FIXED_DMA_BEATS n

/-- Whether work is at its end, and whether it has a read to issue with room in its 2 KiB channel buffer. -/
def DmaJob.ended (j : DmaJob) : Bool := j.todo.isEmpty && j.buffered.isEmpty
def DmaJob.reads (j : DmaJob) : Bool := !j.todo.isEmpty && decide (j.buffered.length + 64 ≤ 2048)

/-- One beat of a channel's work: a read into its channel buffer while it has one to issue, else a write from it, which ends at a 64-byte
boundary of the destination. The second component is what is written. (DESIGN CHOICE, log 157.) -/
def DmaJob.beat (m : Memory) (j : DmaJob) : DmaJob × Bytes :=
  match j.reads, j.todo with
  | true, p :: rest => let r := p.beat m; ({ j with buffered := j.buffered ++ r.1, todo := r.2 ++ rest }, [])
  | _, _ =>
    let l := j.buffered.take (64 - (j.to_ + j.written) % 64)
    ({ j with buffered := j.buffered.drop l.length, written := j.written + l.length }, l)

/-- Whether channel c can issue a beat (R380): it has work, is not halted and awaits no retry, and LPDDR5 and a credit are there. -/
def Block.canBeat (b : Block) (c : Nat) : Bool :=
  (b.dma c).job.isSome && b.fnRuns (104 + c) && b.rdN (Od.DMA_STATUS c) != 3 && (b.dma c).retryAt.isNone && b.clockRuns .lpddr
    && b.mayCross .dmaLpddr && decide ((b.crossing Boundary.dmaLpddr.no).usedWrites < writeCredits)

/-- The channel that the next beat is granted to (R380): the highest priority, then channel order after the last winner. -/
def Block.beatWinner (b : Block) : Option Nat :=
  let l := (b.cp.dma.map (·.1)).filter b.canBeat
  let top := (l.map fun c => b.rdN (Od.DMA_PRIORITY c)).foldl max 0
  let l := l.filter fun c => b.rdN (Od.DMA_PRIORITY c) == top
  match l.find? fun c => decide (b.cp.lastWin < c) with
  | some c => some c
  | none => l.head?

/-- FREE_SRC of a descriptor that completed OK from POOL space. -/
def Block.freeSrc (b : Block) (d : Descriptor) : Block := if d.free && d.srcSpace == 1 then (b.releaseBuf (d.src / 2 ^ 32)).2 else b

/-- A frame delivered to its host buffer (R389): its pool buffer released, the descriptor completed, a cut counted. -/
def Block.frameDone (b : Block) (c n result : Nat) (irq : Bool) : Block :=
  let h := match (b.dma c).frames with | f :: _ => some f.handle | [] => none
  let b := b.setDma c fun x => { x with frames := x.frames.tail }
  let b := match h with | some h => (b.releaseBuf h).2 | none => b
  let b := b.complete c result n irq
  if result = 6 then ((b.bump (Od.DMA_TRUNCATED c) 1).orBits (Od.DMA_STICKY c) 4).raiseLim 0x5204 c else b

/-- A record delivered to its host ring (R391): HEAD moved and written back, the source index moved on. -/
def Block.recordDone (b : Block) (c n head : Nat) : Block :=
  let b := ((b.moveHead c head).bump (Od.DMA_DESCRIPTORS c) 1).bump (Od.DMA_BYTES c) n
  let b := (b.setDma c fun x => { x with job := none, src := (x.src + 1) % 2 ^ 32 }).wr (Od.DMA_STATUS c) 1
  b.tally 6 c 1

/-- Work of channel c whose last byte is written. -/
def Block.jobDone (b : Block) (c : Nat) (j : DmaJob) : Block :=
  let d := readDescriptor j.raw
  match j.work with
  | .desc => (if j.result = 0 then b.freeSrc d else b).complete c j.result j.written d.irq
  | .frame => b.frameDone c j.written j.result d.irq
  | .record head => b.recordDone c j.written head

/-- The next beat (R380): the winner reads or writes; one whose beat another takes is pre-empted and keeps its place (R381). -/
def Block.dmaBeat (m : Memory) (b : Block) : Block :=
  match b.beatWinner with
  | none => b
  | some c =>
    match (b.dma c).job with
    | none => b
    | some j =>
      let last := b.cp.lastWin
      let b := if last ≠ c ∧ b.canBeat last then b.tally 6 last 2 else b
      let r := j.beat (b.ramAfter m)
      let b := (((b.retried c).granted c 1).setDma c fun x => { x with job := some r.1 }).setCp fun x => { x with lastWin := c }
      let b := match j.reads, j.todo with | true, .pool _ _ :: _ => b.lpRead 1 | _, _ => b
      let b := b.put c j.space (j.to_ + j.written) r.2
      if r.1.ended then b.jobDone c r.1 else b

/-- n beats. -/
def Block.dmaBeats (m : Memory) : Nat → Block → Block
  | 0, b => b
  | n + 1, b => Block.dmaBeats m n (b.dmaBeat m)

/-- The beats of a Vesper cycle: eight cycles of the LPDDR5 controller's 800 MHz (R380, Table 1.4). -/
def Block.dmaCycle (b : Block) (m : Memory) : Block := if b.cp.dma.any (fun e => e.2.job.isSome) then Block.dmaBeats m 8 b else b

/-- Channel c takes up work, and the engine goes on for as many beats as pass before the next command. Where that is not stated (`none`) and no other
channel has work, the work is done whole. (DESIGN CHOICE, log 157.) -/
def Block.takeUp (b : Block) (m : Memory) (c : Nat) (j : DmaJob) (beats : Option Nat) : Block :=
  let b := b.retried c
  if j.ended then b.jobDone c j
  else if beats = none ∧ b.cp.dma.all (fun e => e.2.job.isNone) then
    let l := (j.todo.map (Piece.all m)).flatten
    let b := (b.granted c ((j.todo.map Piece.beats).sum + blocks j.to_ l.length)).lpRead (j.todo.map Piece.requests).sum
    (b.put c j.space j.to_ l).jobDone c { j with todo := [], written := l.length }
  else Block.dmaBeats m (beats.getD 0) (b.setDma c fun x => { x with job := some j })

/-- DMA_COPY: a COPY descriptor, or one whose OP is reserved (R382). (DEDUCED, log 86.) -/
def Block.dmaCopy (b : Block) (m : Memory) (c : Nat) (desc data : Bytes) (beats : Option Nat) : Block :=
  match b.dmaFree c 0, b.headDesc m c desc with
  | true, some raw =>
    let d := readDescriptor raw
    if 5 ≤ d.op then b.complete c 5 0 d.irq
    else if d.op ≠ 0 then b
    else
      let f := b.spaceFault c d.srcSpace d.src d.len
      let g := b.spaceFault c d.dstSpace d.dst d.len
      if f = 3 ∨ g = 3 then b.complete c 3 0 d.irq
      else if f = 5 ∨ g = 5 ∨ d.len = 0 ∨ 16777216 < d.len then b.complete c 5 0 d.irq
      else if d.srcSpace = 0 ∧ data.length ≠ d.len then b
      else
        let b := if d.srcSpace = 0 then b.pcieRead c d.src d.len else b
        let from_ : Piece := if d.srcSpace = 0 then .bytes data else .pool (b.poolAddr d.src) d.len
        b.takeUp m c { work := .desc, raw := raw, todo := [from_], space := d.dstSpace, to_ := d.dst } beats
  | _, _ => b

/-- The offsets of an index table. -/
def offsets : Nat → Bytes → List Nat
  | 0, _ => []
  | n + 1, l => ofLE (l.take 4) :: offsets n (l.drop 4)

/-- The elements of a GATHER in table order (`data` is what PCIe reads return of them), and whether one fell outside its buffer. (DEDUCED, log 86.) -/
def Block.gather (b : Block) (c len : Nat) : List Nat → Bytes → List Piece × Bool
  | [], _ => ([], false)
  | o :: rest, data =>
    let next (e : Piece) (data : Bytes) : List Piece × Bool := let r := b.gather c len rest data; (e :: r.1, r.2)
    let base := b.rdN (Od.DMA_GATHER_BASE c)
    if o = 0xFFFFFFFF then next (.bytes (List.replicate len 0)) data
    else if b.rdN (Od.DMA_GATHER_SPACE c) = 0 then next (.bytes (data.take len)) (data.drop len)
    else if b.poolFault c base (o + len) = 5 then ([], true)
    else next (.pool (b.poolAddr base + o) len) data

/-- DMA_GATHER (R385). In PCIe space `data` holds the index table, then the elements. (DEDUCED, log 86.) -/
def Block.dmaGather (b : Block) (m : Memory) (c : Nat) (desc data : Bytes) (beats : Option Nat) : Block :=
  match b.dmaFree c 0, b.headDesc m c desc with
  | true, some raw =>
    let d := readDescriptor raw
    if d.op ≠ 1 then b
    else
      let total := d.len * d.count
      let f := b.spaceFault c d.srcSpace d.src (4 * d.count)
      let g := b.spaceFault c d.dstSpace d.dst total
      let e := if b.rdN (Od.DMA_GATHER_SPACE c) = 0 then 0 else b.poolFault c (b.rdN (Od.DMA_GATHER_BASE c)) 0
      if f = 3 ∨ g = 3 ∨ e = 3 then b.complete c 3 0 d.irq
      else if f = 5 ∨ g = 5 ∨ d.len = 0 ∨ d.count = 0 ∨ 16777216 < total then b.complete c 5 0 d.irq
      else
        let tab := if d.srcSpace = 0 then data.take (4 * d.count) else ramBytes m (b.poolAddr d.src) (4 * d.count)
        let os := offsets d.count tab
        let host := if d.srcSpace = 0 then data.drop (4 * d.count) else data
        let wanted := (if d.srcSpace = 0 then 4 * d.count else 0)
          + if b.rdN (Od.DMA_GATHER_SPACE c) = 0 then d.len * (os.filter (· != 0xFFFFFFFF)).length else 0
        if data.length ≠ wanted then b
        else
          let b := if d.srcSpace = 0 then b.pcieRead c d.src (4 * d.count) else b
          let b := if b.rdN (Od.DMA_GATHER_SPACE c) = 0 then
              (os.filter (· != 0xFFFFFFFF)).foldl (fun b o => b.pcieRead c (b.rdN (Od.DMA_GATHER_BASE c) + o) d.len) b
            else b
          let (l, out) := b.gather c d.len os host
          b.takeUp m c { work := .desc, raw := raw, todo := l, space := d.dstSpace, to_ := d.dst, result := if out then 5 else 0 } beats
  | _, _ => b

/-- DMA_ALLOC (R373, R374, R383). -/
def Block.dmaAlloc (b : Block) (m : Memory) (c : Nat) (desc : Bytes) : Block :=
  match b.dmaFree c 0, b.headDesc m c desc with
  | true, some raw =>
    let d := readDescriptor raw
    if d.op ≠ 2 then b
    else
      let b := b.retried c
      if d.len = 0 ∨ 262144 < d.len then b.complete c 5 0 d.irq
      else if !b.fnRuns 102 then b.complete c 4 0 d.irq
      else match b.request c d.len (b.rdN (Od.DMA_TENANT c)) with
        | (.buffer h, b) => b.allocDone c h d.irq
        | (.waits, b) => (b.setDma c fun x => { x with wait := some raw }).dmaStatus c
        | (.refused, b) => b.complete c 4 0 d.irq
  | _, _ => b

/-- DMA_REF (R376). -/
def Block.dmaRef (b : Block) (m : Memory) (c : Nat) (desc : Bytes) : Block :=
  match b.dmaFree c 0, b.headDesc m c desc with
  | true, some raw =>
    let d := readDescriptor raw
    if d.op ≠ 3 then b
    else
      let b := b.retried c
      let h := d.src % 2 ^ 32
      match b.handleOk h, b.buf h with
      | true, some x =>
        if x.owner ≠ b.rdN (Od.DMA_TENANT c) then b.complete c 3 0 d.irq
        else if x.refs = 65535 then b.complete c 5 0 d.irq
        else (b.setCp fun y => { y with buf := tput y.buf h { x with refs := x.refs + 1 } }).complete c 0 0 d.irq
      | true, none => b.complete c 3 0 d.irq
      | false, _ => b.complete c 5 0 d.irq
  | _, _ => b

/-- DMA_RELEASE (R376). -/
def Block.dmaRelease (b : Block) (m : Memory) (c : Nat) (desc : Bytes) : Block :=
  match b.dmaFree c 0, b.headDesc m c desc with
  | true, some raw =>
    let d := readDescriptor raw
    if d.op ≠ 4 then b
    else
      let b := b.retried c
      let h := d.src % 2 ^ 32
      let foreign := match b.buf h with | some x => x.owner != b.rdN (Od.DMA_TENANT c) | none => false
      if foreign then b.complete c 3 0 d.irq
      else match b.releaseBuf h with
        | (true, b) => b.complete c 0 0 d.irq
        | (false, b) => b.complete c 5 0 d.irq
  | _, _ => b

-- Bus errors (R386, R387)

/-- DMA_BUS_ERROR: a request of channel c fails for a cause of DMAc_ERR_INFO, `done` bytes of the descriptor written so
far where it is not work in hand. -/
def Block.dmaBusError (b : Block) (c cause : Nat) (write pool : Bool) (addr done : Nat) : Block :=
  let x := b.dma c
  let works := b.fnRuns (104 + c) && b.rdN (Od.DMA_STATUS c) != 3 && x.retryAt.isNone
    && (b.rdN (Od.DMA_HEAD c) != b.rdN (Od.DMA_TAIL c) || b.rdN (Od.DMA_MODE c) == 2)
  if !works ∨ cause = 0 ∨ 7 < cause then b
  else
    let b := if cause = 5 then (b.bump Od.DPC_LPDDR_UNCORRECTED 1).dpError 4 (Config.lpddrBank addr) else b
    -- a request that is not the one retried: that retry succeeded
    let b := if x.reissued && x.errAddr != addr then b.retried c else b
    let tries := (b.dma c).tries
    if tries < b.rdN (Od.DMA_RETRIES c) then
      b.setDma c fun x => { x with tries := tries + 1, errAddr := addr, retryAt := some (b.cyc + us 1), reissued := false }
    else
      let info : Nat := b2n write * 2 ^ 15 + b2n pool * 2 ^ 14 + cause * 2 ^ 10 + (tries + 1) * 2 ^ 6
      let done := match x.job with | some j => j.written | none => done
      let b := b.setDma c fun x => { x with job := none, tries := 0, reissued := false, retryAt := none, errBytes := done, errFetch := cause == 6 }
      let b := ((b.wr (Od.DMA_ERR_ADDR c) addr).wr (Od.DMA_ERR_INFO c) info).wr (Od.DMA_ERR_DESC c) (b.rd (Od.DMA_HEAD c))
      ((b.wr (Od.DMA_STATUS c) 3).orBits (Od.DMA_STICKY c) 1).report 0x5202 c

/-- DMA_RETRY: the failing request is reissued 1 µs after the error. -/
def Block.dmaRetry (b : Block) (c : Nat) : Block :=
  match (b.dma c).retryAt with
  | some t => if t ≤ b.cyc then (b.setDma c fun x => { x with retryAt := none, reissued := true }).tally 6 c 3 else b
  | none => b

/-- DMAc_RESUME = 1. -/
def Block.dmaResumeRetry (b : Block) (c : Nat) : Reply :=
  if b.rdN (Od.DMA_STATUS c) ≠ 3 then b.stateError
  else (((b.wr (Od.DMA_STATUS c) 0).setDma c fun x => { x with errFetch := false, errBytes := 0 }).dmaStatus c).ok

/-- The failed descriptor written back with a result, HEAD past it; nothing is written back where reading it failed. (DEDUCED, log 88.) -/
def Block.dmaSkip (b : Block) (c result : Nat) : Block :=
  let x := b.dma c
  let b := b.wr (Od.DMA_STATUS c) 0
  let b := b.setDma c fun x => { x with errFetch := false }
  if b.rdN (Od.DMA_MODE c) = 2 then b.dmaStatus c
  else if x.errFetch then (b.moveHead c 1).dmaStatus c
  else b.complete c result x.errBytes false

/-- DMAc_RESUME = 2. -/
def Block.dmaResumeSkip (b : Block) (c : Nat) : Reply :=
  if b.rdN (Od.DMA_STATUS c) ≠ 3 then b.stateError else ((b.dmaSkip c 1).orBits (Od.DMA_STICKY c) 2).ok

-- Doorbells (R382, R393)

/-- DMAc_TAIL set to v; `mine` says that the function may ring for the channel. (DEDUCED, log 88.) -/
def Block.dmaTail (b : Block) (c v : Nat) (mine : Bool) : Block :=
  if !mine ∨ !b.fnRuns (104 + c) then (b.bump (Od.DMA_DOORBELL_DROPS c) 1).orBits (Od.DMA_STICKY c) 32
  else if b.rdN (Od.DMA_MODE c) ≠ 2 ∧ b.rdN (Od.DMA_RING_SIZE c) < (v + 2 ^ 32 - b.rdN (Od.DMA_HEAD c)) % 2 ^ 32 then
    b.orBits (Od.DMA_STICKY c) 16
  else (b.wr (Od.DMA_TAIL c) v).dmaStatus c

-- Frames to a host (R389)

/-- DMA_CQ_RX_FRAME: the oldest frame of channel c written to the buffer of its next descriptor. -/
def Block.dmaRxFrame (b : Block) (m : Memory) (c : Nat) (desc : Bytes) (beats : Option Nat) : Block :=
  match b.dmaFree c 1, b.headDesc m c desc, (b.dma c).frames with
  | true, some raw, f :: _ =>
    let d := readDescriptor raw
    let fault := b.spaceFault c d.dstSpace d.dst (min d.len f.len)
    if fault ≠ 0 then b.complete c fault 0 d.irq
    else if d.len = 0 then b.complete c 5 0 d.irq
    else
      let l := ramBytes m (b.handleAddr f.handle) f.len
      let cut := decide (d.len < f.len)
      let l := if cut then l.take 21 ++ ((slice l 21 1).map fun x => x ||| 4) ++ l.drop 22 else l
      b.takeUp m c { work := .frame, raw := raw, todo := [.bytes (l.take d.len)], space := d.dstSpace, to_ := d.dst, result := if cut then 6 else 0 } beats
  | _, _, _ => b

-- Following a ring (R391, R392)

/-- The ring that channel c follows: its records newest first, its capacity, its write index. (DEDUCED, log 89.) -/
def Block.sourceRing (b : Block) (c : Nat) : List Bytes × Nat × Nat :=
  match b.rdN (Od.DMA_SOURCE_RING c) with
  | 0 => (b.tm.ticRing, 65536, b.rdN Od.TIC_RING_WR)
  | 1 => (b.gn.ring, 4096, b.rdN Od.GNSS_RING_WR)
  | _ => (b.mg.safe.dumpRing, 8192, b.rdN Od.CNT_RING_WR)

/-- DMA_RING_FOLLOW_RECORD. (DEDUCED, log 89.) -/
def Block.dmaFollow (b : Block) (m : Memory) (c : Nat) (beats : Option Nat) : Block :=
  if !b.dmaFree c 2 then b
  else
    let (ring, cap, wr) := b.sourceRing c
    let behind := (wr + 2 ^ 32 - (b.dma c).src) % 2 ^ 32
    let b := if cap < behind then
        let b := (b.bump (Od.DMA_SKIPPED c) (behind - cap)).setDma c fun x => { x with src := (wr + 2 ^ 32 - cap) % 2 ^ 32 }
        (b.orBits (Od.DMA_STICKY c) 8).raiseLim 0x5203 c
      else b
    let src := (b.dma c).src
    match ringFrom ring wr src 1 with
    | [] => b.dmaStatus c
    | r :: _ =>
      let r := if 2 ≤ b.rdN (Od.DMA_SOURCE_RING c) then b.maskDump (b.rdN (Od.DMA_TENANT c)) r else r
      let size := b.rdN (Od.DMA_RING_SIZE c)
      let rec_ := toLE 4 r.length ++ toLE 4 src ++ r
      let rec_ := padTo (divUp rec_.length 8 * 8) rec_
      let head := b.rdN (Od.DMA_HEAD c)
      let at_ := head % size
      let wrap := decide (size - at_ < rec_.length)
      let need := rec_.length + if wrap then size - at_ else 0
      let room := size - (head + 2 ^ 32 - b.rdN (Od.DMA_TAIL c)) % 2 ^ 32
      if room < need then b.wr (Od.DMA_STATUS c) 2
      else
        let base := b.rdN (Od.DMA_RING_BASE c)
        let b := if wrap then b.put c 0 (base + at_) (toLE 4 0 ++ toLE 4 src) else b
        b.takeUp m c { work := .record need, raw := [], todo := [.bytes rec_], space := 0, to_ := base + if wrap then 0 else at_ } beats

-- Interrupts

/-- DMA_IRQ_HOLDOFF_EXPIRY: a completion event that the hold-off kept back. (DEDUCED, log 89.) -/
def Block.dmaIrqExpiry (b : Block) (c : Nat) : Block :=
  let hold := us (b.rdN (Od.DMA_IRQ_HOLDOFF c))
  match (b.dma c).irqWait, (b.dma c).irqAt with
  | some _, some t => if t + hold ≤ b.cyc then b.dmaIrq c else b
  | some _, none => b.dmaIrq c
  | none, _ => b

-- Starts and stops (R379, R394)

/-- Whether PCIe is strapped as a root port (R437). -/
def Block.rootPort (b : Block) : Bool := b.rdN Od.CAP_PCIE_STRAP == 1

/-- Whether a start of channel c is refused with a state error (R379); `has` says that its tenant has an arrival point on its function. -/
def Block.dmaStartBarred (b : Block) (c : Nat) (has : Bool) : Bool :=
  let mode := b.rdN (Od.DMA_MODE c)
  let q := b.rdN (Od.DMA_CQ c)
  (b.rootPort && (b.rdN (Od.DMA_RING_SPACE c) == 0 || mode == 2)) || decide (b.rdN Od.CAP_PCIE_FUNCTIONS ≤ b.rdN (Od.DMA_FUNCTION c)) || !has
    || (mode == 1 && (b.streamOn q
      || (List.range 64).any fun e => e != c && b.fnState (104 + e) != 0 && b.rdN (Od.DMA_MODE e) == 1 && b.rdN (Od.DMA_CQ e) == q))

/-- Channel c becomes RUN: a ring follower begins at its source's write index. -/
def Block.dmaRun (b : Block) (c : Nat) : Block :=
  let b := if b.rdN (Od.DMA_MODE c) = 2 then b.setDma c fun x => { x with src := if x.aborted then x.src else (b.sourceRing c).2.2, aborted := false } else b
  b.dmaStatus c

/-- Channel c stops (R394): what was in progress is written back ABORTED; a halted channel ends as by DMAc_RESUME = 2. (DEDUCED, log 88.) -/
def Block.dmaStop (b : Block) (c : Nat) : Block :=
  let x := b.dma c
  let b :=
    if b.rdN (Od.DMA_STATUS c) = 3 then (b.dmaSkip c 1).orBits (Od.DMA_STICKY c) 2
    else if x.wait.isSome then (b.dropWaiter c).complete c 2 0 false
    else if (x.job.isSome || x.retryAt.isSome || x.reissued) && b.rdN (Od.DMA_MODE c) != 2 then
      b.complete c 2 (match x.job with | some j => j.written | none => x.errBytes) false
    else b
  let b := b.setDma c fun y =>
    { y with job := none, retryAt := none, reissued := false, tries := 0,
             aborted := b.rdN (Od.DMA_MODE c) == 2 && (x.retryAt.isSome || x.job.isSome) }
  b.wr (Od.DMA_STATUS c) 0

end Sys2Proof.Machine
end

