-- ==== Sys2Proof/Machine/GnssRx.lean ====
section
/-! DEFINITION. The GNSS receiver (chapter 12): starting and sleeping, search and tracking, the measurement latch and its records, the solution,
antenna and jamming, keep data. -/

namespace Sys2Proof.Machine

/-- The receiver's state changed. -/
def Block.setGn (b : Block) (f : Gnss → Gnss) : Block := { b with gn := f b.gn }
def Block.setKeep (b : Block) (f : Keep → Keep) : Block := b.setGn fun x => { x with keep := f x.keep }
/-- A tracking channel, and the module with it changed. -/
def Block.gnssCh (b : Block) (c : Nat) : GnssCh := tat {} b.gn.ch c
def Block.setGnssCh (b : Block) (c : Nat) (f : GnssCh → GnssCh) : Block := b.setGn fun x => { x with ch := tmod {} x.ch c f }

-- Signals (Table 12.1)

/-- The system of a signal code: 0 GPS, 1 Galileo, 2 BeiDou. -/
def sigSystem (code : Nat) : Nat := (code + 2) % 3
/-- The greatest SVID of a system. -/
def maxSvid (sys : Nat) : Nat := if sys = 0 then 32 else if sys = 1 then 36 else 63
/-- The primary code period of a signal in ticks. -/
def codePeriod (code : Nat) : Nat := (if code = 2 then 4 else if code = 3 then 10 else 1) * 65536000000
/-- Seconds that TAI is ahead of a signal's system timescale (R327). -/
def taiAhead (sys : Nat) : Nat := if sys = 2 then 33 else 19
/-- Whether a signal of a satellite is one the receiver tracks (R318). -/
def Block.sigOn (b : Block) (code svid : Nat) : Bool :=
  decide (1 ≤ code) && decide (code ≤ 6) && decide (1 ≤ svid) && decide (svid ≤ maxSvid (sigSystem code)) &&
    bit (b.rdN Od.GNSS_SYSTEMS) (sigSystem code) && bit (b.rdN Od.GNSS_SIGNALS) (code - 1)

/-- A satellite's number. -/
def satOf (code svid : Nat) : Nat := sigSystem code * 64 + svid
/-- The satellite of a channel. -/
def Block.chSat (b : Block) (c : Nat) : Nat := satOf (b.rdN (Od.GNSS_CH_SIGNAL c)) (b.rdN (Od.GNSS_CH_SVID c))
def Block.chState (b : Block) (c : Nat) : Nat := b.rdN (Od.GNSS_CH_STATE c)
/-- The channels with code lock. -/
def Block.codeLocked (b : Block) : List Nat := (List.range 80).filter fun c => decide (2 ≤ b.chState c)

/-- The receiver's status and tracked satellites as its channels make them. -/
def Block.showGnss (b : Block) : Block :=
  let l := b.codeLocked
  let n := (l.map b.chSat).dedup.length
  let st : Nat := match b.fnState 85 with
    | 0 => 0
    | 1 => 1
    | _ => if !b.gn.awake then 4 else if l.isEmpty then 2 else 3
  (b.wr Od.GNSS_SV_TRACKED n).wr Od.GNSS_STATUS st

-- Keep data (R337)

/-- The ephemerides younger than 4 h. -/
def Block.freshEph (b : Block) : Nat := (b.gn.keep.eph.filter fun e => decide (b.mer < e.2 + 4 * 3600 * ticksPerSec)).length

/-- GNSS_KEEP. -/
def Block.keepBits (b : Block) : Nat :=
  let k := b.gn.keep
  b2n k.almanac.isSome + 2 * b2n (decide (4 ≤ b.freshEph)) + 4 * b2n k.pos.isSome + 8 * b2n k.survey.isSome + 16 * b2n k.link.isSome

/-- Something entered in the keep data, which are then valid under their CRC. (DEDUCED, log 76.) -/
def Block.keepPut (b : Block) (f : Keep → Keep) : Block := b.setKeep fun k => { f k with good := true }

/-- A change of GNSS_POS_MODE, or GNSS_KEEP_CLEAR, forgets the survey (R333). -/
def Block.surveyForget (b : Block) : Block :=
  ((b.setKeep fun k => { k with survey := none }).setGn fun x => { x with surveyAt := none, surveyN := 0, surveySum := (0, 0, 0) }).wr
    Od.GNSS_SURVEY_STATE 0

/-- GNSS_KEEP_CLEAR: only while the function is STOPPED. -/
def Block.keepClear (b : Block) : Reply :=
  if b.fnState 85 ≠ 0 then b.stateError
  else ((b.setGn fun x => { x with keep := {}, nand := {} }).surveyForget).ok

/-- GNSS_KEEP_SAVE, hourly, by firmware that runs, while NAND is not held. (DEDUCED, log 76.) -/
def Block.keepSave (b : Block) : Block :=
  if b.gn.savedAt + secs 3600 ≤ b.cyc ∧ b.mg.srv.running ∧ !b.nandHeld then
    b.setGn fun x => { x with savedAt := b.cyc, nand := { almanac := x.keep.almanac, pos := x.keep.pos, survey := x.keep.survey } }
  else b

/-- After power-on the firmware restores the keep data of NAND. -/
def Block.keepRestore (b : Block) : Block :=
  let n := b.gn.nand
  if n.almanac.isSome || n.pos.isSome || n.survey.isSome then
    b.keepPut fun k => { k with almanac := n.almanac, pos := n.pos, survey := n.survey }
  else b

-- Starting and sleeping (R322, R338, R339)

/-- Whether Meridian time lies in an awake interval. -/
def Block.dutyOn (b : Block) : Bool :=
  let p := b.rdN Od.GNSS_DUTY_PERIOD
  p == 0 || decide (((secondsOf b.mer : Int) - b.rdN Od.GNSS_DUTY_PHASE) % p < b.rdN Od.GNSS_DUTY_ON)

/-- The start kind of Table 12.2. Whether the satellites of the fresh ephemerides stand above the mask is the receiver's prediction, which the
spec gives no formula for: a free value (log 4). (DESIGN CHOICE, log 74.) -/
def Block.startKind (b : Block) : Nat × Block :=
  let k := b.gn.keep
  let unc := b.rdN Od.MT_UNCERTAINTY
  let within (mm : Nat) : Bool := match k.pos with | some p => decide (p.2 ≤ mm) | none => false
  let almanac : Bool := match k.almanac with | some t => decide (b.mer < t + 30 * 86400 * ticksPerSec) | none => false
  let warm : Nat := if almanac && within 100000000 && decide (unc < unknownUnc) then 1 else 0
  if 4 ≤ b.freshEph ∧ within 300000 ∧ b.on Od.MT_TIME_SET ∧ unc ≤ 1000000 then
    let (f, b) := b.draw 2
    (if f = 1 then 2 else warm, b)
  else (warm, b)

/-- The receiver starts, at a start of the function or a wake: keep data checked, start kind chosen. -/
def Block.gnssWake (b : Block) (at_ : Nat) : Block :=
  let b := if b.gn.keep.good then b
    else ((b.setKeep fun _ => {}).orBits Od.GNSS_STICKY 16).report 0x4007
  let (k, b) := b.startKind
  let b := (b.wr Od.GNSS_START_KIND k).setGn fun x =>
    { x with awake := true, startAt := at_, fixed := false, lastClass := 0, lastUsed := 0 }
  b.showGnss

/-- The fix class takes a value, with event 0x4001; a fall to 0 while awake sets bit [0]. -/
def Block.setFix (b : Block) (c : Nat) : Block :=
  let was := b.rdN Od.GNSS_FIX_CLASS
  if c = was then b
  else
    let b := b.wr Od.GNSS_FIX_CLASS c
    let b := if c = 0 ∧ b.gn.awake then b.orBits Od.GNSS_STICKY 1 else b
    (b.report 0x4001 0 c).rerankAll

/-- A channel given back. -/
def Block.gnssFree (b : Block) (c : Nat) : Block :=
  ((((((b.wr (Od.GNSS_CH_STATE c) 0).wr (Od.GNSS_CH_SIGNAL c) 0).wr (Od.GNSS_CH_SVID c) 0).wr (Od.GNSS_CH_CN0 c) 0).wr (Od.GNSS_CH_ELEV c) 0).wr
    (Od.GNSS_CH_AZIM c) 0).setGn fun x => { x with ch := tdel x.ch c }

/-- RF, synthesiser and baseband off: channels released, no fix. -/
def Block.gnssOff (b : Block) : Block :=
  let b := (List.range 80).foldl Block.gnssFree b
  let b := b.setGn fun x => { x with awake := false, engine := [], lastAt := none, jamAt := none, jamRaised := false }
  ((b.setFix 0).wr Od.GNSS_SV_USED 0).showGnss

/-- The function becomes RUN (R319, R333, R339): it wakes at once, or at its next interval. -/
def Block.gnssRun (b : Block) : Block :=
  let b := b.setGn fun x => { x with epoch := 0, surveyAt := none, surveyN := 0, surveySum := (0, 0, 0) }
  let b := b.wr Od.GNSS_SURVEY_STATE (if b.rdN Od.GNSS_POS_MODE ≠ 1 then 0 else if b.gn.keep.survey.isSome then 2 else 1 : Nat)
  let b := if b.rdN Od.GNSS_POS_MODE = 1 ∧ b.gn.keep.survey.isNone then b.setGn fun x => { x with surveyAt := some b.cyc } else b
  if b.dutyOn then b.gnssWake b.gn.startAt else b.showGnss

/-- The function STOPPED. -/
def Block.gnssStop (b : Block) : Block := b.gnssOff

/-- GNSS_DUTY_SLEEP and GNSS_DUTY_WAKE. -/
def Block.dutySleep (b : Block) : Block :=
  if b.fnRuns 85 ∧ b.gn.awake ∧ !b.dutyOn then ((b.setGn fun x => { x with awake := false }).gnssOff).report 0x4009 else b
def Block.dutyWake (b : Block) : Block :=
  if b.fnRuns 85 ∧ !b.gn.awake ∧ b.dutyOn then (b.gnssWake b.cyc).report 0x400A else b

-- Search and tracking (R321, R323, R325)

/-- Whether the receiver is awake in RUN and its sample clock runs, 2 ms after the start or wake request (R319). -/
def Block.gnssAwake (b : Block) : Bool := b.fnRuns 85 && b.gn.awake && decide (b.gn.startAt + ms 2 ≤ b.cyc)

/-- The channel that tracks a signal of a satellite. -/
def Block.tracks (b : Block) (code svid : Nat) : Option Nat :=
  (List.range 80).find? fun c => b.chState c != 0 && b.rdN (Od.GNSS_CH_SIGNAL c) == code && b.rdN (Od.GNSS_CH_SVID c) == svid

/-- The channel in use whose satellite stands lowest. (DEDUCED, log 75.) -/
def Block.lowestCh (b : Block) : List Nat → Option Nat
  | [] => none
  | c :: r => match b.lowestCh r with
    | none => some c
    | some d => some (if b.rd (Od.GNSS_CH_ELEV d) < b.rd (Od.GNSS_CH_ELEV c) then d else c)

/-- A channel given to a signal of a satellite above the mask, highest elevation first (R323): a free one, else that of the lowest satellite if
it stands lower. (DEDUCED, log 75.) -/
def Block.assign (b : Block) (code svid : Nat) (elev : Int) (azim : Nat) : Block :=
  if !b.sigOn code svid ∨ elev ≤ b.rd Od.GNSS_ELEV_MASK ∨ (b.tracks code svid).isSome then b
  else
    let take (c : Nat) : Block :=
      (((((b.gnssFree c).wr (Od.GNSS_CH_STATE c) 1).wr (Od.GNSS_CH_SIGNAL c) code).wr (Od.GNSS_CH_SVID c) svid).wr (Od.GNSS_CH_ELEV c) elev).wr
        (Od.GNSS_CH_AZIM c) azim
    match (List.range 80).find? fun c => b.chState c == 0 with
    | some c => take c
    | none => match b.lowestCh (List.range 80) with
      | some c => if b.rd (Od.GNSS_CH_ELEV c) < elev then take c else b
      | none => b

/-- GNSS_DWELL: engine e has tested a bin for an L1-band signal; a detection is confirmed by a second dwell. (DEDUCED, log 75.) -/
def Block.gnssDwell (b : Block) (e code svid : Nat) (elev : Int) (azim : Nat) (hit : Bool) : Block :=
  if !b.gnssAwake ∨ 3 < code ∨ !b.sigOn code svid ∨ (b.tracks code svid).isSome then b
  else
    let b := b.tally 12 0 2
    if !hit then b.setGn fun x => { x with engine := tdel x.engine e }
    else if tget b.gn.engine e = some (code, svid) then
      ((b.setGn fun x => { x with engine := tdel x.engine e }).assign code svid elev azim).showGnss
    else b.setGn fun x => { x with engine := tput x.engine e (code, svid) }

/-- Navigation data of a channel into the keep data. (DESIGN CHOICE, log 74.) -/
def Block.navTake (b : Block) (code svid : Nat) (n : NavData) : Block :=
  let b := if n.almanac then b.keepPut fun k => { k with almanac := some b.mer } else b
  let b := if n.ephemeris then b.keepPut fun k => { k with eph := tput k.eph (satOf code svid) b.mer } else b
  let sys := sigSystem code
  let b := match n.iono with
    | some i => b.keepPut fun k => { k with iono := tput k.iono sys i }
    | none => b
  match n.utc with
  | some u => b.keepPut fun k => { k with utc := tput k.utc sys (u.1, u.2.1, u.2.2, b.mer) }
  | none => b

/-- Code offsets from prompt of the nine correlators in 1/128 of the signal's chip, in the order VE, E, P, L, VL, M0 to M3 (R324). -/
def Block.gnssTaps (b : Block) : List Int :=
  let e : Int := b.rd Od.GNSS_EL_SPACING
  let v : Int := b.rd Od.GNSS_VEL_SPACING
  let m := b.rdN Od.GNSS_MP_OFFSETS
  [-v, -e, 0, e, v] ++ (List.range 4).map fun i => 2 * signed 8 (bits m (8 * i) 8)

/-- A magnitude in 1/256 of a correlator's I and Q. -/
def magnitude (x : Int × Int) : Nat := isqrt ((x.1.natAbs * x.1.natAbs + x.2.natAbs * x.2.natAbs) * 65536)

/-- The code discriminator of a coherent period in 2⁻¹⁶ (R324): EARLY_LATE or DOUBLE_DELTA; none where the divisor is 0. -/
def codeDisc (doubleDelta : Bool) (corr : List (Int × Int)) : Option Int :=
  let g (i : Nat) : Int := magnitude (corr.getD i (0, 0))
  let (n, d) := if doubleDelta then (2 * (g 1 - g 3) - (g 0 - g 4), g 2) else (g 1 - g 3, g 1 + g 3)
  if d = 0 then none else some (n * 65536 / d)

/-- The correlators of a coherent period, with the prompt magnitudes of the last second; the record's values are scaled so that the mean prompt
magnitude reads 16,384 (Table 12.4). A mean of 0 scales nothing. (DEDUCED, log 75.) -/
def GnssCh.correlate (x : GnssCh) (cyc : Nat) (doubleDelta : Bool) (corr : List (Int × Int)) : GnssCh :=
  let ps := (cyc, magnitude (corr.getD 2 (0, 0))) :: x.prompts.filter fun p => decide (cyc < p.1 + secs 1)
  let sum := (ps.map (·.2)).sum
  let scale (v : Int) : Int := if sum = 0 then v else max (-32768) (min 32767 (v * 16384 * 256 * ps.length / sum))
  { x with prompts := ps, disc := codeDisc doubleDelta corr, corr := corr.map fun v => (scale v.1, scale v.2) }

/-- A slip of a channel (R325): SLIPS counts, LOCK_TIME restarts. -/
def Block.gnssSlip (b : Block) (c : Nat) : Block :=
  ((b.setGnssCh c fun x => { x with slips := (x.slips + 1) % 256, lockAt := some b.cyc }).bump Od.GNSS_SLIPS 1).tally 12 0 1

/-- GNSS_COHERENT_INTEGRATION: a channel ends a coherent period. (DESIGN CHOICE, log 74; DEDUCED, log 75.) -/
def Block.coherent (b : Block) (c : Nat) (m : Coherent) : Block :=
  if !b.gnssAwake ∨ b.chState c = 0 then b
  else
    let code := b.rdN (Od.GNSS_CH_SIGNAL c)
    let svid := b.rdN (Od.GNSS_CH_SVID c)
    if m.elev + 2 ≤ b.rd Od.GNSS_ELEV_MASK then (b.gnssFree c).showGnss
    else
      let b := ((b.wr (Od.GNSS_CH_CN0 c) m.cn0).wr (Od.GNSS_CH_ELEV c) m.elev).wr (Od.GNSS_CH_AZIM c) m.azim
      if !m.codeLock then
        ((b.wr (Od.GNSS_CH_STATE c) 1).setGnssCh c fun x => { x with lockAt := none, highAt := none, below := false, half := false }).showGnss
      else
        let falls := decide (m.pli < 500) && !(b.gnssCh c).below
        let b := b.setGnssCh c fun x =>
          { x.correlate b.cyc (b.on Od.GNSS_DLL_DISC) m.corr with
              below := decide (m.pli < 500),
              highAt := if m.pli ≤ 800 then none else match x.highAt with | some t => some t | none => some b.cyc }
        let x := b.gnssCh c
        let b :=
          if x.lockAt.isSome then (if falls ∨ 250 < m.step.natAbs then b.gnssSlip c else b)
          else match x.highAt with
            | some t => if t + ms 200 ≤ b.cyc then b.setGnssCh c fun x => { x with lockAt := some b.cyc, half := x.half || code != 1 } else b
            | none => b
        let b := if m.nav.preamble ∧ code = 1 then b.setGnssCh c fun x => { x with half := true } else b
        let b := b.wr (Od.GNSS_CH_STATE c) (if (b.gnssCh c).lockAt.isSome then 3 else 2 : Nat)
        let b := b.navTake code svid m.nav
        -- the L5-band signal of the same satellite, by handover (R321)
        let b := if code ≤ 3 then b.assign (code + 3) svid m.elev m.azim else b
        b.showGnss

-- The measurement latch (R326 to R330)

/-- The last epoch instant at or before a time. -/
def epochInstant (rate t : Nat) : Nat := t * rate / ticksPerSec * ticksPerSec / rate

/-- Whether a position within 10 km is known (R327). -/
def Block.posKnown (b : Block) : Bool := match b.gn.keep.pos with | some p => decide (p.2 ≤ 10000000) | none => false

/-- Whether a channel's transmit time is resolved. -/
def Block.prValid (b : Block) (e : ChannelEpoch) : Bool :=
  e.resolved || (b.on Od.MT_TIME_SET && decide (b.rdN Od.MT_UNCERTAINTY ≤ 100000000) && b.posKnown)

/-- PR_TIME of a channel at t_m. -/
def Block.prTime (b : Block) (tm : Nat) (e : ChannelEpoch) : Int :=
  let code := b.rdN (Od.GNSS_CH_SIGNAL e.channel)
  let sys := sigSystem code
  let ant := psToTicks (b.rd (if code ≤ 3 then Od.GNSS_ANT_DELAY_L1 else Od.GNSS_ANT_DELAY_L5))
  let v : Int := (tm : Int) - (taiAhead sys * ticksPerSec : Nat) - e.tx - Config.frontEnd code (b.rd Od.CAL_DIE_TEMP) - ant
  if b.prValid e then v else v % codePeriod code

/-- Whether a channel's measurement serves the solution (R333). -/
def Block.prUsed (b : Block) (e : ChannelEpoch) : Bool :=
  let c := e.channel.val
  b.prValid e && (tget b.gn.keep.eph (b.chSat c)).isSome && decide (b.rdN Od.GNSS_CN0_MASK ≤ b.rdN (Od.GNSS_CH_CN0 c)) &&
    decide (b.rd Od.GNSS_ELEV_MASK ≤ b.rd (Od.GNSS_CH_ELEV c))

/-- A channel's 72 bytes (Table 12.4). -/
def Block.epochEntry (b : Block) (tm : Nat) (e : ChannelEpoch) : Bytes :=
  let c := e.channel.val
  let x := b.gnssCh c
  let carrier := decide (3 ≤ b.chState c)
  let cn0 := b.rdN (Od.GNSS_CH_CN0 c)
  let lock := match x.lockAt with | some t => min ((b.cyc - t) / ms 1) (2 ^ 32 - 1) | none => 0
  let flags := 2 ^ 15 + b2n carrier * 2 ^ 14 + b2n (b.prValid e) * 2 ^ 13 + b2n x.half * 2 ^ 12 + b2n (b.prUsed e) * 2 ^ 11
    + b2n (tget b.gn.keep.eph (b.chSat c)).isSome * 2 ^ 10 + b2n (decide (cn0 < b.rdN Od.GNSS_CN0_MASK)) * 2 ^ 9
  toLE 8 (unsigned 64 (b.prTime tm e)) ++ toLE 8 (if carrier then unsigned 64 e.carrier else 0) ++ toLE 4 (unsigned 32 e.doppler) ++ toLE 2 cn0
    ++ toLE 1 (b.rdN (Od.GNSS_CH_SIGNAL c)) ++ toLE 1 (b.rdN (Od.GNSS_CH_SVID c)) ++ toLE 1 c ++ toLE 1 x.slips ++ toLE 2 flags ++ toLE 4 lock
    ++ toLE 2 (min e.prNoise 65535) ++ toLE 2 (min e.phaseNoise 65535)
    ++ padTo 36 (x.corr.flatMap fun v => toLE 2 (unsigned 16 v.1) ++ toLE 2 (unsigned 16 v.2))

/-- The ECEF position as 24 bytes. -/
def posBytes (p : Int × Int × Int) : Bytes := toLE 8 (unsigned 64 p.1) ++ toLE 8 (unsigned 64 p.2.1) ++ toLE 8 (unsigned 64 p.2.2)

/-- Whether the position is fixed or surveyed (R333). -/
def Block.posFixed (b : Block) : Bool := b.rdN Od.GNSS_POS_MODE == 2 || (b.rdN Od.GNSS_POS_MODE == 1 && b.gn.keep.survey.isSome)

/-- A 3-D fix into a running survey (R333). (DEDUCED, log 76.) -/
def Block.surveyTake (b : Block) (s : Solution) : Block :=
  match b.gn.surveyAt with
  | none => b
  | some t =>
    let b := b.setGn fun x =>
      { x with surveyN := x.surveyN + 1, surveySum := (x.surveySum.1 + s.pos.1, x.surveySum.2.1 + s.pos.2.1, x.surveySum.2.2 + s.pos.2.2) }
    if t + secs (b.rdN Od.GNSS_SURVEY_TIME) ≤ b.cyc ∧ s.posUnc ≤ b.rdN Od.GNSS_SURVEY_LIMIT then
      let n : Int := b.gn.surveyN
      let q := b.gn.surveySum
      let mean := posBytes (q.1 / n, q.2.1 / n, q.2.2 / n)
      let b := (b.keepPut fun k => { k with survey := some mean }).setGn fun x => { x with surveyAt := none }
      ((b.wr Od.GNSS_SURVEY_STATE 2).orBits Od.GNSS_STICKY 32).report 0x4006
    else b

/-- The fix class of R333. -/
def Block.fixClass (b : Block) (used : Nat) (threeD : Bool) : Nat :=
  let least := b.rdN Od.GNSS_TIME_MIN_SV
  if b.posFixed then (if least ≤ used then 3 else if 1 ≤ used then 1 else 0)
  else if 4 ≤ used ∧ threeD then 2
  else 0

/-- Solution time as TAI less Meridian time (R334). -/
def Block.timeOffset (b : Block) (tm : Nat) (s : Solution) : Int :=
  let sys := b.rdN Od.GNSS_TIME_SYSTEM
  let t := if sys = 0 then s.times.1 else if sys = 1 then s.times.2.1 else if sys = 2 then s.times.2.2.1 else s.times.2.2.2
  t + (taiAhead sys * ticksPerSec : Nat) - tm

/-- A whole-second epoch gives the slots of the receiver a phase sample with their declared uncertainty (R334), and the selected one its leap
second (R335). (DEDUCED, log 77.) -/
def Block.gnssTime (b : Block) (tm : Nat) (s : Solution) : Block :=
  let off := b.timeOffset tm s
  let unc := 3 * s.std + b.rdN Od.GNSS_ANT_DELAY_UNC + 2000 + b.rdN Od.GNSS_SYSTEM_UNC
  let b := ((b.wr Od.GNSS_TIME_OFFSET off).wr Od.GNSS_TIME_UNC (min unknownUnc unc : Nat)).keepPut fun k => { k with link := some (off, tm) }
  let b := (List.range 24).foldl (fun b k => if b.slotKind k = 4 then b.wr (Od.SLOT_UNCERTAINTY k) (min unknownUnc unc : Nat) else b) b
  let b := b.kindSample 4 off
  match b.selected, b.gnssUtc with
  | some k, some (u, true) =>
    if b.slotKind k = 4 ∧ b.rdN Od.MT_UTC_SOURCE = 0 then (b.learnLeap u.2.1 u.2.2).followUtc else b
  | _, _ => b

/-- The solution of an epoch (R333), made by firmware that runs (R491). (DESIGN CHOICE, log 74.) -/
def Block.solve (b : Block) (tm : Nat) (used : Nat) (sol : Option Solution) : Block :=
  if !b.mg.srv.running then b
  else
    let b := match sol with | some s => if s.threeD ∧ 4 ≤ used then b.surveyTake s else b | none => b
    let c := match sol with | some s => b.fixClass used s.threeD | none => 0
    let b := (b.setFix c).wr Od.GNSS_SV_USED (if c = 0 then 0 else used : Nat)
    let b := b.setGn fun x => { x with lastClass := c, lastUsed := if c = 0 then 0 else used }
    match sol with
    | none => b
    | some s =>
      if c = 0 then b
      else
        let b := b.setGn fun x => { x with solvedAt := b.cyc }
        let pos := if b.rdN Od.GNSS_POS_MODE = 2 then b.blob Od.GNSS_POS_FIXED
          else if b.rdN Od.GNSS_POS_MODE = 1 then b.gn.keep.survey.getD (posBytes s.pos) else posBytes s.pos
        let b := ((b.wrBlob Od.GNSS_POSITION pos).wr Od.GNSS_POS_UNC (min unknownUnc s.posUnc : Nat)).keepPut fun k => { k with pos := some (pos, s.posUnc) }
        let b := if b.gn.fixed then b
          else ((b.setGn fun x => { x with fixed := true }).wr Od.GNSS_TTFF (min unknownUnc ((b.cyc - b.gn.startAt) / ms 1) : Nat)).report 0x4002
        if tm % ticksPerSec = 0 then b.gnssTime tm s else b

/-- The record writer: every record that waits goes to the ring once LPDDR5 runs and the boundary is agreed (Table 1.5). -/
def Block.gnssDrain (b : Block) : Block :=
  if !b.clockRuns .lpddr ∨ !b.agreed Boundary.gnssRing.no then b
  else b.gn.queue.foldl (fun b r =>
    ((b.setGn fun x => { x with ring := ringPush 4096 x.ring r }).lpWrite (divUp r.length 64)).wr Od.GNSS_RING_WR ((b.rdN Od.GNSS_RING_WR + 1) % 2 ^ 32 : Nat))
    b |>.setGn fun x => { x with queue := [] }

/-- A record's SKIPPED count made one more than that of the record it replaces (Table 12.3). (DEDUCED, log 76.) -/
def mergeSkip (old new : Bytes) : Bytes :=
  new.take 20 ++ toLE 2 (min 65535 (ofLE (slice old 20 2) + 1)) ++ new.drop 22
where slice (f : Bytes) (o n : Nat) : Bytes := (f.drop o).take n

/-- A record into the credit loop; without a credit it replaces the newest undelivered one (R329). (DEDUCED, log 76.) -/
def Block.gnssQueue (b : Block) (r : Bytes) : Block :=
  let b := if b.gn.queue.length < b.credits .gnssRing then b.setGn fun x => { x with queue := x.queue ++ [r] }
    else
      let b := b.setGn fun x => { x with queue := x.queue.dropLast ++ [match x.queue.getLast? with | some o => mergeSkip o r | none => r] }
      ((b.bump Od.GNSS_SKIPPED 1).orBits Od.GNSS_STICKY 8).raiseLim 0x4005 0
  b.gnssDrain

/-- GNSS_EPOCH_LATCH: the channels at the present epoch instant, and the solution made of them. (DESIGN CHOICE, log 74; DEDUCED, log 76.) -/
def Block.epochLatch (b : Block) (seen : List ChannelEpoch) (sol : Option Solution) : Block :=
  let rate := max 1 (b.rdN Od.GNSS_MEAS_RATE)
  let tm := epochInstant rate b.mer
  let fresh : Bool := match b.gn.lastAt with | some t => decide (t < tm) | none => true
  if !b.gnssAwake ∨ !fresh ∨ tm < b.tm.mt.landed then b
  else
    let seen := (List.range 80).filterMap fun c => if 2 ≤ b.chState c then seen.find? fun e => e.channel.val == c else none
    let used := ((seen.filter b.prUsed).map fun e => b.chSat e.channel).dedup.length
    let b := b.solve tm used sol
    let entries := seen.map fun e => (e.channel.val, b.epochEntry tm e)
    let b := entries.foldl (fun (b : Block) (e : Nat × Bytes) => b.wrBlob (Od.GNSS_CH_LAST e.1) e.2) b
    let b := b.setGn fun x => { x with epoch := (x.epoch + 1) % 2 ^ 32, lastAt := some tm }
    let stepped := b.gn.steps != b.tm.mt.steps
    let b := b.setGn fun x => { x with steps := b.tm.mt.steps }
    let flags := b2n stepped * 2 ^ 31 + b2n (b.on Od.OSC_WARMUP) * 2 ^ 30 + b.pe0 * 2 ^ 27 + b.gn.lastClass * 2 ^ 24 + rate * 2 ^ 16
      + min 255 b.gn.lastUsed * 2 ^ 8
    let body := entries.flatMap fun e => e.2
    let r := b.qualified tm ++ toLE 4 b.gn.epoch ++ toLE 2 0 ++ toLE 1 entries.length ++ toLE 1 0 ++ toLE 4 flags ++ toLE 4 (32 + 72 * entries.length)
      ++ body
    ((b.bump Od.GNSS_EPOCHS 1).tally 12 0 0).gnssQueue r

-- Antenna and jamming (R320, R336)

/-- The antenna state takes a value, with event 0x4003. -/
def Block.antState (b : Block) (st : Nat) : Block :=
  if b.rdN Od.GNSS_ANT_STATE = st then b else ((b.wr Od.GNSS_ANT_STATE st).orBits Od.GNSS_STICKY 2).report 0x4003 0 st

/-- Whether the module feeds the antenna. -/
def Block.antFed (b : Block) : Bool := b.rdN Od.GNSS_ANT_POWER != 0 && b.on Od.CAP_GNSS_RF

/-- GNSS_ANT_CHANGE: the antenna current in 0.1 mA, and whether the limit holds. -/
def Block.antChange (b : Block) (current : Nat) (limited : Bool) : Block :=
  if !b.antFed then (b.setGn fun x => { x with shortAt := none, cut := false }).antState 0
  else if b.gn.cut then b
  else if limited then
    let b := b.setGn fun x => { x with shortAt := match x.shortAt with | some t => some t | none => some b.cyc }
    match b.gn.shortAt with
    | some t => if t + ms 10 ≤ b.cyc then (b.setGn fun x => { x with cut := true, shortAt := none, retryAt := b.cyc + secs 10 }).antState 3 else b
    | none => b
  else (b.setGn fun x => { x with shortAt := none }).antState (if current < 30 then 2 else 1)

/-- GNSS_ANT_RETRY: 10 s after a short the supply is on again. -/
def Block.antRetry (b : Block) : Block :=
  if b.antFed ∧ b.gn.cut ∧ b.gn.retryAt ≤ b.cyc then b.setGn fun x => { x with cut := false, shortAt := none } else b

/-- A write of GNSS_ANT_POWER in force at once. -/
def Block.antPower (b : Block) : Block := if b.antFed then b else (b.setGn fun x => { x with shortAt := none, cut := false }).antState 0

/-- How far in dB the gain of a band has fallen below its mean over the last 24 h, the greater of the two bands (R336). (DESIGN CHOICE, log 159.) -/
def gainFall (gains : List (Nat × Nat × Nat)) (l1 l5 : Nat) : Nat :=
  let fall (sum now : Nat) : Nat := (sum - now * gains.length) / (100 * gains.length)
  max (fall (gains.map (·.2.1)).sum l1) (fall (gains.map (·.2.2)).sum l5)

/-- GNSS_JAM_DETECT: the gains of the two bands in 0.01 dB. (DESIGN CHOICE, log 159.) -/
def Block.jamDetect (b : Block) (l1 l5 : Nat) : Block :=
  if !b.gnssAwake then b
  else
    let b := b.setGn fun x => { x with gains := (b.cyc, l1, l5) :: x.gains.takeWhile fun g => decide (b.cyc < g.1 + secs 86400) }
    let fall := gainFall b.gn.gains l1 l5
    let b := (b.wr Od.GNSS_AGC (l5 * 65536 + l1 : Nat)).wr Od.GNSS_JAM_IND (min 255 fall : Nat)
    if fall < 10 then b.setGn fun x => { x with jamAt := none, jamRaised := false }
    else
      let b := b.setGn fun x => { x with jamAt := match x.jamAt with | some t => some t | none => some b.cyc }
      match b.gn.jamAt with
      | some t =>
        if t + secs 1 ≤ b.cyc ∧ !b.gn.jamRaised then
          ((b.setGn fun x => { x with jamRaised := true }).orBits Od.GNSS_STICKY 4).report 0x4004 0 (min 255 fall)
        else b
      | none => b

end Sys2Proof.Machine
end

