-- ==== Sys2Proof/Machine/Operators.lean ====
section
/-! DEFINITION. The arithmetic of the operator catalogue (R353 to R359) on one channel's samples: plain functions of an operator's state. -/

namespace Sys2Proof.Machine

/-- An accumulator divided by d, rounded to the nearest value with halves away from zero (R353). -/
def divRound (acc : Int) (d : Nat) : Int :=
  if d = 0 then 0
  else
    let q : Int := ((2 * acc.natAbs + d) / (2 * d) : Nat)
    if acc < 0 then -q else q

/-- A value saturated to I32, and whether it was. -/
def satI32 (v : Int) : Int × Nat :=
  if v < -2147483648 then (-2147483648, 1) else if 2147483647 < v then (2147483647, 1) else (v, 0)

/-- An I32 parameter, and n of them, from an offset. -/
def i32At (l : Bytes) (o : Nat) : Int := signed 32 (ofLE (slice l o 4))
def i32s (l : Bytes) (o : Nat) : Nat → List Int
  | 0 => []
  | n + 1 => i32At l o :: i32s l (o + 4) n

-- FIR and DECIMATE (R355)

/-- Σ h[k] × x[n − k] over the samples held, newest first; missing history is 0. -/
def dot : List Int → List Smp → Int
  | h :: hs, x :: xs => h * x.v + dot hs xs
  | _, _ => 0

/-- One input sample of a FIR: the output and its saturations. (DEDUCED, log 80.) -/
def firStep (h : List Int) (c : OpCh) (x : Smp) : OpCh × Smp × Nat :=
  let hist := (x :: c.hist).take h.length
  let ok := hist.all (·.ok)
  let (y, n) := satI32 (divRound (dot h hist) (2 ^ 30))
  ({ c with hist := hist }, { x with v := if ok then y else 0, ok := ok }, if ok then n else 0)

/-- Whether an input sample is the one nearest to S₀ + m × D × 1,000 / rate for some m; a tie goes to the later sample. -/
def decimated (d rate t : Nat) : Bool :=
  let u := 1000 * ticksPerSec
  let r := t * rate % (d * u)
  decide (2 * r ≤ u) || decide (2 * d * u - u < 2 * r)

/-- The samples of a block through a FIR, keeping those for which `keep` holds. (DEDUCED, log 80.) -/
def firRun (h : List Int) (keep : Smp → Bool) : OpCh → List Smp → OpCh × List Smp × Nat
  | c, [] => (c, [], 0)
  | c, x :: r =>
    let (c, y, n) := firStep h c x
    let (c, ys, m) := firRun h keep c r
    if keep x then (c, y :: ys, n + m) else (c, ys, m)

-- IIR (R356)

/-- One section on one value: b0, b1, b2, a1, a2 with 29 fraction bits. (DEDUCED, log 80.) -/
def biquad (k : List Int) (s : Biquad) (x : Int) : Biquad × Int × Nat :=
  let g (i : Nat) : Int := k.getD i 0
  let (y, n) := satI32 (divRound (g 0 * x + g 1 * s.x1 + g 2 * s.x2 - g 3 * s.y1 - g 4 * s.y2) (2 ^ 29))
  (⟨x, s.x1, y, s.y1⟩, y, n)

/-- The sections in order. -/
def sections : List (List Int) → List Biquad → Int → List Biquad × Int × Nat
  | [], _, x => ([], x, 0)
  | k :: ks, ss, x =>
    let (s, y, n) := biquad k (ss.headD {}) x
    let (rest, z, m) := sections ks ss.tail y
    (s :: rest, z, n + m)

/-- One input sample of an IIR: an invalid one clears the history, and the first 64 outputs after it are invalid. (DEDUCED, log 80.) -/
def iirStep (ks : List (List Int)) (c : OpCh) (x : Smp) : OpCh × Smp × Nat :=
  if !x.ok then ({ c with sect := [], bad := 64 }, { x with v := 0 }, 0)
  else
    let (ss, y, n) := sections ks c.sect x.v
    let hide := decide (0 < c.bad)
    ({ c with sect := ss, bad := c.bad - 1 }, { x with v := if hide then 0 else y, ok := !hide }, n)

/-- The samples of a block through an IIR. (DEDUCED, log 80.) -/
def iirRun (ks : List (List Int)) : OpCh → List Smp → OpCh × List Smp × Nat
  | c, [] => (c, [], 0)
  | c, x :: r =>
    let (c, y, n) := iirStep ks c x
    let (c, ys, m) := iirRun ks c r
    (c, y :: ys, n + m)

/-- The coefficients of S sections. -/
def iirCoefs (params : Bytes) : List (List Int) := (List.range (ofLE (slice params 0 1))).map fun i => i32s params (4 + 20 * i) 5

-- STALTA (R357)

/-- One sample of one channel: averages with 16 fraction bits, arming, turning on and off. `on` and `off` are the thresholds × 1,000. -/
def staltaStep (nSta nLta on off : Nat) (c : OpCh) (x : Smp) : OpCh :=
  if !x.ok then { c with seen := 0 }
  else
    let e : Int := x.v * x.v * 65536
    let sta := c.sta + divRound (e - c.sta) nSta
    let lta := if c.onAt.isSome then c.lta else c.lta + divRound (e - c.lta) nLta
    let seen := c.seen + 1
    let armed := decide (nLta ≤ seen)
    let onAt := match c.onAt with
      | none => if armed && decide ((on : Int) * lta ≤ sta * 1000) then some x.t else none
      | some t => if sta * 1000 ≤ (off : Int) * lta then none else some t
    { c with sta := sta, lta := lta, seen := seen, onAt := onAt }

/-- STA / LTA × 1,000 of a channel, as a U32. -/
def ratioOf (c : OpCh) : Nat := if c.lta ≤ 0 then 4294967295 else min 4294967295 (c.sta * 1000 / c.lta).toNat

/-- Whether COINC channels are on within a window (ticks) of the first of them. -/
def coincides (coinc win : Nat) (chs : List OpCh) : Bool :=
  let ons := chs.filterMap (·.onAt)
  ons.any fun t => decide (coinc ≤ (ons.filter fun u => decide (t ≤ u) && decide (u ≤ t + win)).length)

/-- The samples of a block, one list for each instant; n instants at most. -/
def rowsOf : Nat → List (List Smp) → List (List Smp)
  | 0, _ => []
  | n + 1, cols => if cols.all (·.isEmpty) then [] else cols.filterMap (·.head?) :: rowsOf n (cols.map (·.tail))

/-- What a trigger does at one instant: nothing, on, or off. -/
structure TrigStep where
  chs : List OpCh
  on : Option Nat
  peak : Nat
  deriving DecidableEq, Repr

-- PEAKRMS (R358)

/-- The rounded root of Σx² / n (R353). -/
def rootMean (sq n : Nat) : Nat := if n = 0 then 0 else (isqrt (4 * sq / n) + 1) / 2

/-- The payload of a window's summary: minimum, maximum and RMS, then n; n alone where no sample was valid. -/
def Win.payload (w : Win) : Bytes :=
  if w.n = 0 then toLE 4 0
  else toLE 4 (unsigned 32 w.lo) ++ toLE 4 (unsigned 32 w.hi) ++ toLE 4 (rootMean w.sq w.n) ++ toLE 4 w.n

/-- A window with one more sample. -/
def Win.add (w : Win) (x : Smp) : Win :=
  let w := { w with all := w.all + 1, first := match w.first with | some f => some f | none => some x, last := some x }
  if !x.ok then w
  else { w with n := w.n + 1, lo := if w.n = 0 then x.v else min w.lo x.v, hi := if w.n = 0 then x.v else max w.hi x.v,
                sq := w.sq + x.v.natAbs * x.v.natAbs }

/-- Whether a sample is a W-th one counted from S₀. -/
def closesWindow (w rate t : Nat) : Bool :=
  let u := 1000 * ticksPerSec
  ((2 * t * rate + u) / (2 * u) + 1) % (max 1 w) == 0

/-- The samples of a block through PEAKRMS. -/
def peakRun (w rate : Nat) : OpCh → List Smp → OpCh
  | c, [] => c
  | c, x :: r =>
    let win := c.win.add x
    if closesWindow w rate x.t then
      peakRun w rate { c with win := {}, sums := c.sums ++ [(win.payload, win.first.getD x, x)] } r
    else peakRun w rate { c with win := win } r

-- COMPRESS (R359)

/-- The values of a block with every invalid one a repeat of the value before it. -/
def repeated : Int → List Smp → List Int
  | _, [] => []
  | p, x :: r => let v := if x.ok then x.v else p; v :: repeated v r

/-- Whether an integer fits in w bits of two's complement. -/
def fits (w : Nat) (d : Int) : Bool := if w = 0 then d == 0 else decide (-(2 ^ (w - 1) : Int) ≤ d) && decide (d < 2 ^ (w - 1))

/-- The least width, 0 to 33, in which every difference of a group fits. -/
def widthOf (ds : List Int) : Nat := ((List.range 34).find? fun w => ds.all (fits w)).getD 33

/-- A group at w bits a value, least-significant bit first, as a number. -/
def packGroup (w : Nat) : List Int → Nat
  | [] => 0
  | d :: r => unsigned w d + 2 ^ w * packGroup w r

/-- The differences in groups of 16; n groups at most. -/
def packGroups : Nat → List Int → Bytes
  | 0, _ => []
  | n + 1, ds =>
    if ds.isEmpty then []
    else
      let g := ds.take 16
      let w := widthOf g
      toLE 1 w ++ toLE (divUp (w * g.length) 8) (packGroup w g) ++ packGroups n (ds.drop 16)

/-- The differences of successive values. -/
def diffs : List Int → List Int
  | x :: y :: r => (y - x) :: diffs (y :: r)
  | _ => []

/-- The bitmap of valid samples. -/
def validMap (l : List Smp) : Bytes := toLE (divUp l.length 8) (packGroup 1 (l.map fun x => if x.ok then -1 else 0))

/-- A block of one channel coded. -/
def compress (l : List Smp) : Bytes :=
  let vs := repeated 0 l
  toLE 4 (unsigned 32 (vs.headD 0)) ++ packGroups (l.length / 16 + 1) (diffs vs) ++ (if l.all (·.ok) then [] else validMap l)

/-- A block of one channel raw. -/
def rawData (l : List Smp) : Bytes := (l.flatMap fun x => toLE 4 (unsigned 32 x.v)) ++ (if l.all (·.ok) then [] else validMap l)

-- ALIGN (R354)

/-- Grid instant n of a rate in mHz: S₀ + n × 1,000 / RATE s, to the nearest tick. (DEDUCED, log 82.) -/
def gridTick (rate n : Nat) : Nat := if rate = 0 then 0 else (2 * n * 1000 * ticksPerSec + rate) / (2 * rate)

/-- The first grid instant at or after a time. (DEDUCED, log 82.) -/
def gridFrom (rate t : Nat) : Nat := let n := t * rate / (1000 * ticksPerSec); if gridTick rate n < t then n + 1 else n

/-- The sample that SNAP takes for an instant: within TOL of it (ticks). (DEDUCED, log 82.) -/
def snapAt (tol t : Nat) (l : List Smp) : Option Smp := l.find? fun x => decide (x.t ≤ t + tol) && decide (t ≤ x.t + tol)

/-- The value INTERPOLATE gives an instant: linear between the samples around it. -/
def between (t : Nat) : List Smp → Option Smp
  | x :: y :: r =>
    if x.t = t then some { x with t := t }
    else if x.t < t ∧ t < y.t then
      if x.ok ∧ y.ok then some { x with v := x.v + divRound ((y.v - x.v) * ((t : Int) - x.t)) (y.t - x.t), t := t }
      else some { x with v := 0, ok := false, t := t }
    else between t (y :: r)
  | [x] => if x.t = t then some { x with t := t } else none
  | [] => none

end Sys2Proof.Machine
end

