-- ==== Sys2Proof/Machine/Graphs.lean ====
section
/-! DEFINITION. Streams and graphs (R342 to R362): descriptors and their checks, capacity, ingest of sensor frames, operators moving blocks, steps
of time, stops. -/

namespace Sys2Proof.Machine

-- Descriptors (Tables 13.2, 13.3)

/-- An operator head with its parameters, from the bytes that begin with it. -/
def readOp (l : Bytes) : OpDesc :=
  ⟨ofLE (slice l 0 1), ofLE (slice l 1 1), ofLE (slice l 2 1), ofLE (slice l 3 1), ofLE (slice l 4 2), ofLE (slice l 6 2),
    slice l 16 (ofLE (slice l 8 2))⟩

/-- The operators of a descriptor after its header, n at most; `none` where the bytes end early. -/
def readOps : Nat → Bytes → Option (List OpDesc × Bytes)
  | 0, l => some ([], l)
  | n + 1, l =>
    let size := 16 + divUp (ofLE (slice l 8 2)) 4 * 4
    if l.length < size then none
    else (readOps n (l.drop size)).map fun r => (readOp l :: r.1, r.2)

/-- The byte at which a graph header offends, if it does. -/
def headerFault (d : Bytes) : Option Nat :=
  let b := ofLE (slice d 4 2)
  if d.length < 16 ∨ ofLE (slice d 0 2) ≠ 1 then some 0
  else if ofLE (slice d 2 2) = 0 ∨ 32 < ofLE (slice d 2 2) then some 2
  else if !([64, 128, 256, 512, 1024, 2048, 4096].contains b) then some 4
  else if ofLE (slice d 6 2) ≠ 0 then some 6
  else if ofLE (slice d 8 4) ≠ d.length then some 8
  else if ofLE (slice d 12 4) ≠ crcOf (d.drop 16) then some 12
  else none

/-- The byte at which an operator's parameters offend Table 13.4, if they do. -/
def paramFault (ops : List OpDesc) (o : OpDesc) : Option Nat :=
  let p := o.params
  let u (i n : Nat) := ofLE (slice p i n)
  let len (n : Nat) : Option Nat := if p.length = n then none else some 8
  match o.op with
  | 1 => if p.length ≠ 16 then some 8 else if 1 < u 0 1 then some 16 else if u 4 4 = 0 then some 20 else none
  | 2 =>
    if p.length < 4 then some 8
    else if u 0 2 < 2 ∨ 64 < u 0 2 then some 16 else if u 2 2 = 0 ∨ 1024 < u 2 2 then some 18 else len (4 + 4 * u 2 2)
  | 3 => if p.length < 4 then some 8 else if u 2 2 = 0 ∨ 1024 < u 2 2 then some 18 else len (4 + 4 * u 2 2)
  | 4 => if p.length < 4 then some 8 else if u 0 1 = 0 ∨ 8 < u 0 1 then some 16 else len (4 + 20 * u 0 1)
  | 5 =>
    if p.length ≠ 24 then some 8
    else if u 0 4 = 0 then some 16 else if u 4 4 ≤ u 0 4 then some 20 else if u 8 4 ≤ u 12 4 then some 28
    else if u 16 2 = 0 ∨ o.count < u 16 2 then some 32 else none
  | 6 => if p.length ≠ 4 then some 8 else if u 0 4 < 16 ∨ 1048576 < u 0 4 then some 16 else none
  | 7 => len 0
  | 8 =>
    if p.length ≠ 12 then some 8
    else if 2 < u 0 1 then some 16
    else if u 1 1 ≠ 0xFF ∧ (ops[u 1 1]?.map (·.op)) ≠ some 5 then some 17
    else none
  | _ => some 0

/-- The byte at which operator i offends, if it does; `bound` says whether a global channel is bound to the graph. -/
def opFault (ops : List OpDesc) (raw : Bytes) (bound : Nat → Bool) (i : Nat) (o : OpDesc) : Option Nat :=
  let src := ops[o.input]?
  let srcBad : Bool := match src with
    | some s => decide (s.op = 8 ∨ ((s.op = 7 ∨ s.op = 6) ∧ o.op ≠ 8))
    | none => true
  if o.op = 0 ∨ 8 < o.op then some 0
  else if o.id ≠ i then some 1
  else if 1 < o.inKind then some 2
  else if o.inKind = 0 ∧ o.input ≠ 0 then some 3
  else if o.inKind = 1 ∧ i ≤ o.input then some 3
  else if o.inKind = 1 ∧ srcBad = true then some 3
  else if o.inKind = 1 ∧ o.first ≠ 0 then some 4
  else if o.inKind = 0 ∧ !((List.range o.count).all fun j => bound (o.first + j)) then some 4
  else if o.count = 0 ∨ 4096 < o.count then some 6
  else if o.inKind = 1 ∧ (src.map (·.count)) ≠ some o.count then some 6
  else if (slice raw 10 6).any (· != 0) then some 10
  else paramFault ops o

/-- The raw bytes of each operator. -/
def rawOps : Nat → Bytes → List Bytes
  | 0, _ => []
  | n + 1, l => l :: rawOps n (l.drop (16 + divUp (ofLE (slice l 8 2)) 4 * 4))

/-- The first fault of a list of operators: operator and byte. -/
def firstFault (ops : List OpDesc) (bound : Nat → Bool) : Nat → List OpDesc → List Bytes → Option (Nat × Nat)
  | i, o :: os, r :: rs => match opFault ops r bound i o with
    | some e => some (i, min e 254)
    | none => firstFault ops bound (i + 1) os rs
  | _, _, _ => none

-- Streams of a graph (R342)

/-- The streams bound to graph g. -/
def Block.streamsOf (b : Block) (g : Nat) : List Nat := (List.range 256).filter fun i => b.rdN (Od.STR_KIND i) != 0 && b.rdN (Od.STR_GRAPH i) == g

/-- Whether a stream carries a global channel. -/
def Block.carries (b : Block) (i ch : Nat) : Bool :=
  decide (b.rdN (Od.STR_CH_BASE i) ≤ ch) && decide (ch < b.rdN (Od.STR_CH_BASE i) + b.rdN (Od.STR_CHANNELS i))

/-- The stream of graph g that carries a global channel. -/
def Block.streamOfCh (b : Block) (g ch : Nat) : Option Nat := (b.streamsOf g).find? fun i => b.carries i ch

/-- Whether a stream of the graph shares a channel with another stream, ends past channel 4,095, or is in GRID at another rate than its
output's (R342, R347). -/
def Block.streamBad (b : Block) (i : Nat) : Bool :=
  let lo := b.rdN (Od.STR_CH_BASE i)
  let hi := lo + b.rdN (Od.STR_CHANNELS i)
  let overlap := (List.range 256).any fun j => j != i && b.rdN (Od.STR_KIND j) != 0
    && decide (b.rdN (Od.STR_CH_BASE j) < hi) && decide (lo < b.rdN (Od.STR_CH_BASE j) + b.rdN (Od.STR_CHANNELS j))
  let grid := b.rdN (Od.STR_TIMING i) == 1 && match outRate b b.outCfgs (b.out (b.rdN (Od.STR_GRID_OUT i))).cfg with
    | some (p, q) => b.rdN (Od.STR_RATE i) * q != p * 1000
    | none => true
  overlap || decide (4096 < hi) || grid

-- Rates and capacity (R351, Table 13.5)

/-- The rate in mHz of the output of operator id, for its column j; n operators deep at most. -/
def Block.rateOf (b : Block) (g : Nat) (ops : List OpDesc) : Nat → Nat → Nat → Nat
  | 0, _, _ => 0
  | n + 1, id, j =>
    match ops[id]? with
    | none => 0
    | some o =>
      let input := if o.inKind = 1 then b.rateOf g ops n o.input j
        else match b.streamOfCh g (o.first + j) with | some i => b.rdN (Od.STR_RATE i) | none => 0
      if o.op = 1 then ofLE (slice o.params 4 4) else if o.op = 2 then input / max 1 (ofLE (slice o.params 0 2)) else input

/-- The input rate of operator o for its column j. -/
def Block.inRate (b : Block) (g : Nat) (ops : List OpDesc) (o : OpDesc) (j : Nat) : Nat :=
  if o.inKind = 1 then b.rateOf g ops 32 o.input j
  else match b.streamOfCh g (o.first + j) with | some i => b.rdN (Od.STR_RATE i) | none => 0

/-- The cost of an operator for each input sample (Table 13.4). (DEDUCED, log 79.) -/
def opCost (o : OpDesc) : Nat :=
  match o.op with
  | 1 => if ofLE (slice o.params 0 1) = 1 then 2 else 0
  | 2 => divUp (ofLE (slice o.params 2 2)) (max 1 (ofLE (slice o.params 0 2)))
  | 3 => ofLE (slice o.params 2 2)
  | 4 => 5 * ofLE (slice o.params 0 1)
  | 5 => 4
  | 6 => 2
  | 7 => 1
  | _ => 0

/-- A graph's MAC load in 10⁻³ MAC/s. (DEDUCED, log 79.) -/
def Block.macMilli (b : Block) (g : Nat) (ops : List OpDesc) : Nat :=
  (ops.map fun o => ((List.range o.count).map fun j => b.inRate g ops o j).sum * opCost o).sum

/-- A graph's edge buffers in bytes: the edges between operators. -/
def edgeBytes (block : Nat) (ops : List OpDesc) : Nat := ((ops.filter (·.inKind == 1)).map fun o => 8 * block * o.count * 4).sum

/-- The graphs that are not STOPPED. -/
def Block.liveGraphs (b : Block) : List Nat := (List.range 16).filter fun g => b.fnState (86 + g) != 0

/-- The operators and block size of graph g's descriptor entry. -/
def Block.graphOps (b : Block) (g : Nat) : List OpDesc × Nat :=
  let d := b.blob (Od.G_GRAPH g)
  (((readOps (ofLE (slice d 2 2)) (d.drop 16)).map (·.1)).getD [], ofLE (slice d 4 2))

/-- What a set of graphs uses of Table 13.5: channels, channels above 2,000 S/s, ingest in mS/s, MAC load in 10⁻³ MAC/s, edge bytes. (DEDUCED, log 79.) -/
def Block.graphLoad (b : Block) (gs : List Nat) : Nat × Nat × Nat × Nat × Nat :=
  let streams := gs.flatMap b.streamsOf
  let ch (i : Nat) := b.rdN (Od.STR_CHANNELS i)
  let rate (i : Nat) := b.rdN (Od.STR_RATE i)
  ((streams.map ch).sum, ((streams.filter fun i => decide (2000000 < rate i)).map ch).sum, (streams.map fun i => ch i * rate i).sum,
    (gs.map fun g => b.macMilli g (b.graphOps g).1).sum, (gs.map fun g => edgeBytes (b.graphOps g).2 (b.graphOps g).1).sum)

/-- SE_MAC_LOAD, SE_SAMPLE_LOAD, SE_CHANNELS and SE_FAST_CHANNELS of the graphs that run. (DEDUCED, log 79.) -/
def Block.showLoad (b : Block) : Block :=
  let (ch, fast, ingest, mac, _) := b.graphLoad b.liveGraphs
  (((b.wr Od.SE_MAC_LOAD (mac / 10 ^ 9 : Nat)).wr Od.SE_SAMPLE_LOAD (ingest / 1000 : Nat)).wr Od.SE_CHANNELS ch).wr Od.SE_FAST_CHANNELS fast

/-- Whether RECORD's PRE fits what 8 blocks hold (R360). -/
def Block.preFits (b : Block) (g block : Nat) (ops : List OpDesc) : Bool :=
  ops.all fun o => o.op != 8 || ofLE (slice o.params 1 1) == 0xFF
    || (List.range o.count).all fun j => decide (ofLE (slice o.params 4 4) * b.inRate g ops o j ≤ 8 * block * 1000000)

/-- The checks of a start of graph g (R351): OK with Gg_MAC_COST, a range error with Gg_ERROR, or a resource error. -/
def Block.graphCheck (b : Block) (g : Nat) : Reply :=
  let d := b.blob (Od.G_GRAPH g)
  let bad (o i : Nat) : Reply := (b.wr (Od.G_ERROR g) (o * 256 + i : Nat)).rangeError
  match headerFault d with
  | some i => bad 0xFF i
  | none =>
    match readOps (ofLE (slice d 2 2)) (d.drop 16) with
    | none => bad 0xFF 8
    | some (ops, rest) =>
      if !rest.isEmpty then bad 0xFF 8
      else match firstFault ops (fun ch => (b.streamOfCh g ch).isSome) 0 ops (rawOps ops.length (d.drop 16)) with
        | some (o, i) => bad o i
        | none =>
          if (b.streamsOf g).any b.streamBad then bad 0xFF 0xFE
          else
            let (ch, fast, ingest, mac, edges) := b.graphLoad (g :: b.liveGraphs.filter (· != g))
            let slow := ops.all fun o => (List.range o.count).all fun j => decide (b.rateOf g ops 32 o.id j ≤ 200000000)
            if 4096 < ch ∨ 64 < fast ∨ 12800000000 < ingest ∨ 82080000000000 < mac ∨ 448 * 2 ^ 20 < edges ∨ !slow
                ∨ !b.preFits g (ofLE (slice d 4 2)) ops then b.resourceError
            else ((b.wr (Od.G_ERROR g) 0xFFFF).wr (Od.G_MAC_COST g) (b.macMilli g ops / 10 ^ 9 : Nat)).ok

-- State of a graph

/-- Graph g in force, and the module with it changed. -/
def Block.graph (b : Block) (g : Nat) : Graph := tat {} b.cp.graph g
def Block.setGraph (b : Block) (g : Nat) (f : Graph → Graph) : Block := b.setCp fun x => { x with graph := tmod {} x.graph g f }

/-- An operator's state, and the module with it changed. -/
def Block.opSt (b : Block) (g id : Nat) : OpSt := tat {} (b.graph g).st id
def Block.setOp (b : Block) (g id : Nat) (f : OpSt → OpSt) : Block := b.setGraph g fun x => { x with st := tmod {} x.st id f }

/-- A stream's state, and the module with it changed. -/
def Block.stream (b : Block) (i : Nat) : Stream := tat {} b.cp.stream i
def Block.setStream (b : Block) (i : Nat) (f : Stream → Stream) : Block := b.setCp fun x => { x with stream := tmod {} x.stream i f }

/-- Graph g becomes RUN (R362): histories from zero, every stream's first frame to come. -/
def Block.graphRun (b : Block) (g : Nat) : Block :=
  let (ops, block) := b.graphOps g
  let b := b.setGraph g fun x => { block := block, ops := ops, st := [], stoppedAt := x.stoppedAt }
  ((b.streamsOf g).foldl (fun b i => b.setStream i fun _ => {}) b).showLoad

/-- The global channel of column j of operator id. -/
def chanOf (ops : List OpDesc) : Nat → Nat → Nat → Nat
  | 0, _, j => j
  | n + 1, id, j => match ops[id]? with
    | some o => if o.inKind = 1 then chanOf ops n o.input j else o.first + j
    | none => j

/-- The operators that take the output of operator id. -/
def consumers (ops : List OpDesc) (id : Nat) : List Nat := (ops.filter fun o => o.inKind == 1 && o.input == id).map (·.id)

/-- Whether the edge to operator id of graph g has a credit (Table 1.5, R352) and carries (R34). -/
def Block.edgeRoom (b : Block) (g id : Nat) : Bool :=
  b.agreed (Boundary.edge (Fin.ofNat 16 g)).no && decide ((b.opSt g id).edge.length < b.credits (.edge (Fin.ofNat 16 g)))

/-- Whether every edge from operator id has a credit. -/
def Block.edgesFree (b : Block) (g id : Nat) : Bool := (consumers (b.graph g).ops id).all (b.edgeRoom g)

/-- A block put on every edge from operator id. -/
def Block.emitBlk (b : Block) (g id : Nat) (x : Blk) : Block :=
  (consumers (b.graph g).ops id).foldl (fun b k => b.setOp g k fun s => { s with edge := s.edge ++ [x] }) b

/-- Saturations of graph g (R353). -/
def Block.saturated (b : Block) (g n : Nat) : Block :=
  if n = 0 then b
  else (((((b.bump (Od.G_SATURATIONS g) n).bump Od.SE_SATURATIONS n).orBits (Od.G_STICKY g) 2).tally 7 g 2 n).raiseLim 0x5008 g)

-- Records

/-- The qualified time of a sample. -/
def Smp.when_ (x : Smp) : Bytes := timeBytes (x.t % wordWrap) ++ toLE 4 x.st

/-- A sample that stands for none. -/
def noSmp : Smp := ⟨0, false, 0, 0, 0⟩

/-- The records a block makes, one for each channel (R360, Table 13.7). -/
def Block.recordsOf (b : Block) (g : Nat) (o : OpDesc) (x : Blk) : List ArcRec :=
  let ops := (b.graph g).ops
  (x.cols.zipIdx).map fun e =>
    let l := e.1
    let first := l.headD noSmp
    let last := l.getLastD noSmp
    let payload := if x.kind = 0 then rawData l else x.data.getD e.2 []
    let bitmap := x.kind != 2 && !(l.all (·.ok))
    let stepped := first.ep != last.ep
    ⟨x.kind, g, chanOf ops 32 o.id e.2, first.when_, b.inRate g ops o e.2, l.length % 65536, b2n bitmap + b2n stepped * 2, payload⟩

/-- The bytes of a list of records. -/
def recBytes (l : List ArcRec) : Nat := (l.map ArcRec.length).sum

/-- The targets that graph g's events go to: those of its RECORD operators, flash where it has none. -/
def Block.eventTarget (b : Block) (g : Nat) : Nat :=
  let ts := ((b.graph g).ops.filter (·.op == 8)).map fun o => ofLE (slice o.params 0 1)
  if ts.isEmpty then 0 else if ts.all (· == 0) then 0 else if ts.all (· == 1) then 1 else 2

/-- A GAP record of stream i (R360): from a time to the time at which the gap ends. -/
def Block.gapRecord (b : Block) (g i from_ until_ st : Nat) : Block :=
  if ((b.graph g).ops.filter (·.op == 8)).isEmpty then b
  else b.stage ⟨4, g, b.rdN (Od.STR_CH_BASE i), timeBytes (from_ % wordWrap) ++ toLE 4 st, b.rdN (Od.STR_RATE i), 0, 0, timeBytes (until_ % wordWrap)⟩
    (b.eventTarget g)

/-- A TRIGGER record (R357). -/
def Block.triggerRecord (b : Block) (g : Nat) (x : Smp) (rate on off peak : Nat) : Block :=
  b.stage ⟨3, g, 0xFFFF, x.when_, rate, 0, 0, toLE 8 (tickOf on) ++ toLE 8 (tickOf off) ++ toLE 4 peak⟩ (b.eventTarget g)

-- Operators on blocks

/-- The columns of a block through a step of each channel's state. -/
def Block.mapCols (b : Block) (g id : Nat) (x : Blk) (f : Nat → OpCh → List Smp → OpCh × List Smp × Nat) : Blk × Block :=
  (x.cols.zipIdx).foldl (fun acc e =>
    let r := f e.2 (tat {} (acc.2.opSt g id).ch e.2) e.1
    let b := acc.2.setOp g id fun s => { s with ch := tput s.ch e.2 r.1 }
    ({ acc.1 with cols := acc.1.cols ++ [r.2.1] }, b.saturated g r.2.2)) (({ cols := [] } : Blk), b)

/-- The sample of a row whose channel turned on (`on`) or off: the one that met the condition (R357). -/
def turned (on : Bool) (before after : List OpCh) (row : List Smp) : Option Smp :=
  ((before.zip after).zip row).findSome? fun e =>
    if e.1.1.onAt.isSome != on && e.1.2.onAt.isSome == on then some e.2 else none

/-- The graph trigger of a STALTA operator after one instant (R357). -/
def Block.trigStep (b : Block) (g : Nat) (o : OpDesc) (row : List Smp) : Block :=
  let u (i n : Nat) := ofLE (slice o.params i n)
  let s := b.opSt g o.id
  let old := (List.range row.length).map fun j => tat {} s.ch j
  let chs := (old.zip row).map fun e => staltaStep (u 0 4) (u 4 4) (u 8 4) (u 12 4) e.1 e.2
  let x := (turned s.on.isNone old chs row).getD (row.headD noSmp)
  let b := b.setOp g o.id fun s => { s with ch := (chs.zipIdx).foldl (fun t e => tput t e.2 e.1) s.ch, reached := (row.headD noSmp).t }
  let ons := chs.filter (·.onAt.isSome)
  let peak := (ons.map ratioOf).foldl max 0
  let win := u 20 4 * 65536000000
  match s.on with
  | none =>
    if coincides (u 16 2) win chs then
      let b := b.setOp g o.id fun s => { s with on := some x.t, peak := peak, trig := ((x.t, none) :: s.trig).take 64 }
      let b := ((b.bump (Od.G_TRIGGERS g) 1).orBits (Od.G_STICKY g) 1).tally 7 g 1
      (b.triggerRecord g x (b.inRate g (b.graph g).ops o 0) x.t 0 peak).report 0x5003 g
    else b
  | some on =>
    let peak := max s.peak peak
    if ons.length < u 16 2 then
      let b := b.setOp g o.id fun s =>
        { s with on := none, peak := 0, trig := match s.trig with | t :: r => (t.1, some x.t) :: r | [] => [] }
      (b.triggerRecord g x (b.inRate g (b.graph g).ops o 0) on x.t peak).report 0x5004 g
    else b.setOp g o.id fun s => { s with peak := peak }

/-- The time span of a block. -/
def blkSpan (x : Blk) : Nat × Nat :=
  let l := x.cols.headD []
  ((l.headD noSmp).t, (l.getLastD noSmp).t)

/-- Whether RECORD keeps a block: it holds an instant from PRE before a trigger's on to POST after its off. -/
def wanted (pre post : Nat) (trig : List (Nat × Option Nat)) (x : Blk) : Bool :=
  let (a, z) := blkSpan x
  trig.any fun t => decide (t.1 ≤ z + pre) && match t.2 with | none => true | some off => decide (a ≤ off + post)

/-- RECORD writes what it may of the blocks it holds (R360): all with TRIG 0xFF or `all`; else those that a trigger covers, discarding those
that none can cover any more. A block that staging has no room for is held. (DEDUCED, log 81.) -/
def Block.recordHeld (b : Block) (g : Nat) (o : OpDesc) (all_ : Bool) : Nat → Block
  | 0 => b
  | n + 1 =>
    let u (i k : Nat) := ofLE (slice o.params i k)
    match (b.opSt g o.id).held with
    | [] => b
    | x :: rest =>
      let every := u 1 1 == 0xFF || all_
      let t := b.opSt g (u 1 1)
      let pre := u 4 4 * 65536000000
      let post := u 8 4 * 65536000000
      if every || wanted pre post t.trig x then
        let recs := b.recordsOf g o x
        match b.stagingRoom (recBytes recs) with
        | (false, b) => b
        | (true, b) =>
          let b := b.setOp g o.id fun s => { s with held := rest }
          (recs.foldl (fun b r => b.stage r (u 0 1)) b).recordHeld g o all_ n
      else if (blkSpan x).2 + pre < t.reached then (b.setOp g o.id fun s => { s with held := rest }).recordHeld g o all_ n
      else b

/-- Output samples gathered until every channel has a block of them (R352). -/
def Block.gatherOut (b : Block) (g : Nat) (o : OpDesc) (y : Blk) : Block :=
  let b := b.setOp g o.id fun s => { s with out := (y.cols.zipIdx).foldl (fun t e => tmod [] t e.2 (· ++ e.1)) s.out }
  let n := (b.graph g).block
  let s := b.opSt g o.id
  let cols := (List.range o.count).map fun j => tat [] s.out j
  if cols.all fun l => decide (n ≤ l.length) then
    (b.setOp g o.id fun s => { s with out := s.out.map fun e => (e.1, e.2.drop n) }).emitBlk g o.id { cols := cols.map (·.take n) }
  else b

/-- PEAKRMS emits the oldest window of every channel as a block of summaries (R358), where every channel has one. -/
def Block.emitSummary (b : Block) (g : Nat) (o : OpDesc) : Block :=
  let s := b.opSt g o.id
  let chs := (List.range o.count).map fun j => tat {} s.ch j
  if chs.all fun c => !c.sums.isEmpty then
    let w := min (ofLE (slice o.params 0 4)) 65535
    let heads := chs.map fun c => c.sums.headD ([], noSmp, noSmp)
    let b := b.setOp g o.id fun s => { s with ch := s.ch.map fun e => (e.1, { e.2 with sums := e.2.sums.tail }) }
    b.emitBlk g o.id { kind := 2, cols := heads.map fun e => List.replicate (w - 1) e.2.1 ++ [e.2.2], data := heads.map (·.1) }
  else b

/-- Whether PEAKRMS has windows that no edge has taken yet. -/
def Block.sumsWait (b : Block) (g : Nat) (o : OpDesc) : Bool :=
  o.op == 6 && (List.range o.count).all fun j => !(tat {} (b.opSt g o.id).ch j).sums.isEmpty

/-- A block through operator o (R352 to R360), its outputs emitted. (DEDUCED, log 80.) -/
def Block.runBlock (b : Block) (g : Nat) (o : OpDesc) (x : Blk) : Block :=
  let ops := (b.graph g).ops
  let u (i n : Nat) := ofLE (slice o.params i n)
  match o.op with
  | 2 =>
    let h := i32s o.params 4 (u 2 2)
    let (y, b) := b.mapCols g o.id x fun j c l => firRun h (fun s => decimated (u 0 2) (b.inRate g ops o j) s.t) c l
    b.gatherOut g o y
  | 3 =>
    let h := i32s o.params 4 (u 2 2)
    let (y, b) := b.mapCols g o.id x fun _ c l => firRun h (fun _ => true) c l
    b.emitBlk g o.id y
  | 4 =>
    let (y, b) := b.mapCols g o.id x fun _ c l => iirRun (iirCoefs o.params) c l
    b.emitBlk g o.id y
  | 5 => ((rowsOf (b.graph g).block x.cols).foldl (fun b row => b.trigStep g o row) b).emitBlk g o.id x
  | 6 =>
    let w := u 0 4
    let (_, b) := b.mapCols g o.id x fun j c l => (peakRun w (b.inRate g ops o j) c l, [], 0)
    b.emitSummary g o
  | 7 => b.emitBlk g o.id { x with kind := 1, data := x.cols.map compress }
  | 8 => (b.setOp g o.id fun s => { s with held := s.held ++ [x] }).recordHeld g o false 9
  | _ => b

-- ALIGN (R354)

/-- A time in ps as ticks, and ALIGN's TOL. -/
def alignTol (o : OpDesc) : Nat := ofLE (slice o.params 8 4) * 65536 / 1000

/-- How far from a grid instant ALIGN takes a sample: TOL with SNAP. -/
def OpDesc.reach (o : OpDesc) : Nat := if ofLE (slice o.params 0 1) = 0 then alignTol o else 0

/-- The first grid instant of ALIGN's open block: set by the earliest sample it holds. (DEDUCED, log 82.) -/
def Block.alignGrid (b : Block) (g : Nat) (o : OpDesc) : Option Nat :=
  let s := b.opSt g o.id
  match s.grid with
  | some n => some n
  | none =>
    let firsts := (s.ch.map fun e => e.2.held).filterMap (·.head?)
    match firsts with
    | [] => none
    | x :: r => some (gridFrom (ofLE (slice o.params 4 4)) (r.foldl (fun m y => min m y.t) x.t - o.reach))

/-- Whether every channel of ALIGN has reached the end of its open block. -/
def Block.alignReached (b : Block) (g : Nat) (o : OpDesc) (n0 : Nat) : Bool :=
  let rate := ofLE (slice o.params 4 4)
  let last := gridTick rate (n0 + (b.graph g).block - 1)
  let tol := o.reach
  (List.range o.count).all fun j => (tat {} (b.opSt g o.id).ch j).held.any fun x => decide (last ≤ x.t + tol)

/-- One channel of ALIGN's open block: its grid samples, what it still holds, and the samples it dropped. -/
def alignCol (mode rate tol n0 block st ep : Nat) (held : List Smp) : List Smp × List Smp × Nat :=
  let ts := (List.range block).map fun i => gridTick rate (n0 + i)
  let last := gridTick rate (n0 + block - 1)
  if mode = 0 then
    let out := ts.map fun t => match snapAt tol t held with | some x => { x with t := t } | none => ⟨0, false, t, st, ep⟩
    let used := held.filter fun x => decide (x.t ≤ last + tol)
    let hit := (ts.filter fun t => (snapAt tol t held).isSome).length
    (out, held.filter (fun x => decide (last + tol < x.t)), used.length - hit)
  else
    let out := ts.map fun t => match between t held with | some x => x | none => ⟨0, false, t, st, ep⟩
    -- the last sample at or before the end stays, to stand before the next instant
    let before := held.filter fun x => decide (x.t ≤ last)
    (out, (before.getLast?).toList ++ held.filter (fun x => decide (last < x.t)), 0)

/-- ALIGN's open block emitted, what is missing of it invalid. -/
def Block.alignEmit (b : Block) (g : Nat) (o : OpDesc) (n0 : Nat) : Block :=
  let s := b.opSt g o.id
  let rate := ofLE (slice o.params 4 4)
  let block := (b.graph g).block
  let mode := ofLE (slice o.params 0 1)
  let st := b.statusWord
  let cols := (List.range o.count).map fun j => alignCol mode rate (alignTol o) n0 block st s.ep (tat {} s.ch j).held
  let b := ((cols.map (·.2.2)).zipIdx).foldl (fun b e =>
    match b.streamOfCh g (chanOf (b.graph g).ops 32 o.id e.2) with
    | some i => if e.1 = 0 then b else b.bump (Od.STR_TIME_MISMATCH i) e.1
    | none => b) b
  let b := b.setOp g o.id fun s =>
    { s with ch := ((cols.map (·.2.1)).zipIdx).foldl (fun t e => tmod {} t e.2 fun c => { c with held := e.1 }) s.ch,
             grid := some (n0 + block), reached := gridTick rate (n0 + block - 1) }
  b.emitBlk g o.id { cols := cols.map (·.1) }

/-- A sample given to channel j of ALIGN: one that its emitted blocks have passed is dropped and counted. -/
def Block.alignTake (b : Block) (g : Nat) (o : OpDesc) (j : Nat) (x : Smp) : Block :=
  let s := b.opSt g o.id
  let tol := o.reach
  if s.reached ≠ 0 ∧ x.t ≤ s.reached + tol then
    match b.streamOfCh g (chanOf (b.graph g).ops 32 o.id j) with
    | some i => b.bump (Od.STR_DROPS i) 1
    | none => b
  else b.setOp g o.id fun s => { s with ch := tmod {} s.ch j fun c => { c with held := c.held ++ [x] } }

/-- ALIGN's open block closed, and the blocks after it that its samples reach, while edges have credit, n at most. -/
def Block.alignClose (b : Block) (g : Nat) (o : OpDesc) : Nat → Block
  | 0 => b
  | n + 1 =>
    match b.alignGrid g o with
    | some k =>
      if ((b.opSt g o.id).ch.any fun e => e.2.held.any fun x => decide (gridTick (ofLE (slice o.params 4 4)) k ≤ x.t + o.reach)) && b.edgesFree g o.id then
        (b.alignEmit g o k).alignClose g o n
      else b
    | none => b

/-- Samples that ALIGN still holds dropped and counted. -/
def Block.alignDrop (b : Block) (g : Nat) (o : OpDesc) : Block :=
  (List.range o.count).foldl (fun b j =>
    let n := (tat {} (b.opSt g o.id).ch j).held.length
    match b.streamOfCh g (chanOf (b.graph g).ops 32 o.id j) with
    | some i => if n = 0 ∨ ofLE (slice o.params 0 1) = 1 then b else b.bump (Od.STR_DROPS i) n
    | none => b) b

/-- ALIGN at a step of time (R361): its open block closes and a new grid begins. (DEDUCED, log 82.) -/
def Block.alignStep (b : Block) (g : Nat) (o : OpDesc) (ep : Nat) : Block :=
  let s := b.opSt g o.id
  if s.ep = ep then b
  else
    let b := (b.alignClose g o 9).alignDrop g o
    b.setOp g o.id fun s => { s with ep := ep, grid := none, reached := 0, ch := s.ch.map fun e => (e.1, { e.2 with held := [] }) }

/-- ALIGN takes a block from its edge, and emits its open block when every channel has reached the end. -/
def Block.alignRun (b : Block) (g : Nat) (o : OpDesc) : Block :=
  let b := match (if b.edgesFree g o.id then (b.opSt g o.id).edge else []) with
    | x :: rest =>
      let b := b.alignStep g o ((x.cols.headD []).headD noSmp).ep
      let b := (b.setOp g o.id fun s => { s with edge := rest }).bump Od.CNT_FIXED_MACS (opCost o * (x.cols.map List.length).sum)
      (x.cols.zipIdx).foldl (fun (b : Block) (e : List Smp × Nat) => e.1.foldl (fun b y => b.alignTake g o e.2 y) b) b
    | [] => b
  match b.alignGrid g o with
  | some n => if b.alignReached g o n && b.edgesFree g o.id then b.alignEmit g o n else b
  | none => b

/-- ALIGN_WAIT_EXPIRY: WAIT after the open block's last instant. -/
def Block.alignExpiry (b : Block) (g id : Nat) : Block :=
  match (b.graph g).ops[id]? with
  | none => b
  | some o =>
    if o.op ≠ 1 ∨ b.fnState (86 + g) = 0 then b
    else match b.alignGrid g o with
      | none => b
      | some n =>
        let last := gridTick (ofLE (slice o.params 4 4)) (n + (b.graph g).block - 1)
        if upTo (last + ofLE (slice o.params 12 4) * 65536000000) b.mer ∧ b.edgesFree g id then b.alignEmit g o n else b

-- Ingest (R343 to R348)

/-- The operators that take a global channel from streams, with the column it is. -/
def takers (ops : List OpDesc) (ch : Nat) : List (OpDesc × Nat) :=
  (ops.filter fun o => o.inKind == 0 && decide (o.first ≤ ch) && decide (ch < o.first + o.count)).map fun o => (o, ch - o.first)

/-- A block moved from an operator's ingest to its edge when every channel has one and the edge a credit. -/
def Block.pushIngest (b : Block) (g : Nat) (o : OpDesc) : Block :=
  let n := (b.graph g).block
  let s := b.opSt g o.id
  let cols := (List.range o.count).map fun j => (tat {} s.ch j).held
  if o.op != 1 && b.edgeRoom g o.id && cols.all fun l => decide (n ≤ l.length) then
    (b.setOp g o.id fun s =>
      { s with edge := s.edge ++ [{ cols := cols.map (·.take n) }],
               ch := s.ch.map fun e => (e.1, { e.2 with held := e.2.held.drop n }) }).tally 7 g 0
  else b

/-- Whether a frame of stream i finds credit on every edge it feeds (Table 1.5, R352). -/
def Block.ingestCredit (b : Block) (g i : Nat) : Bool :=
  let n := (b.graph g).block
  (b.graph g).ops.all fun o =>
    let mine := o.inKind == 0 && (List.range o.count).any fun j => b.carries i (o.first + j)
    !mine || (
      let s := b.opSt g o.id
      if o.op = 1 then
        ((List.range o.count).all fun j => !b.carries i (o.first + j) || decide ((tat {} s.ch j).held.length < 8 * n))
          && (s.ep == b.tm.mt.steps || b.edgesFree g o.id)
      else b.edgeRoom g o.id || !((List.range o.count).all fun j => decide (n ≤ (tat {} s.ch j).held.length)))

/-- Samples of one channel given to the operators that take it. -/
def Block.giveSamples (b : Block) (g ch : Nat) (l : List Smp) : Block :=
  (takers (b.graph g).ops ch).foldl (fun b e =>
    if e.1.op = 1 then
      let b := b.alignStep g e.1 ((l.headD noSmp).ep)
      (l.foldl (fun b x => b.alignTake g e.1 e.2 x) b).bump Od.CNT_FIXED_MACS (opCost e.1 * l.length)
    else b.setOp g e.1.id fun s => { s with ch := tmod {} s.ch e.2 fun c => { c with held := c.held ++ l } }) b

/-- Full blocks at ingest moved to their edges, at most n rounds. -/
def Block.pushAll (b : Block) (g : Nat) : Nat → Block
  | 0 => b
  | n + 1 => ((b.graph g).ops.foldl (fun b o => if o.inKind = 0 then b.pushIngest g o else b) b).pushAll g n

/-- Sample i of a frame: its time after the first (R347). (DEDUCED, log 82.) -/
def sampleTime (rate i : Nat) : Nat := if rate = 0 then 0 else (2 * i * 1000 * ticksPerSec + rate) / (2 * rate)

/-- What a sensor frame says: stream kind and key, first-sample time where it names one (status word with it), AAF nanoseconds, channels, rate in
mHz where it gives one, bytes and order of a value, its data, whether it declares its time valid. -/
structure Sensor where
  kind : Nat
  key : Nat
  time : Option (Nat × Nat)
  ns : Nat
  channels : Nat
  rate : Option Nat
  width : Nat
  big : Bool
  data : Bytes
  valid : Bool
  deriving DecidableEq, Repr

/-- What a frame of a compute queue is. -/
inductive SensorFrame where
  | sensor (s : Sensor)
  | malformed
  | unknown
  deriving DecidableEq, Repr

/-- An AAF frame (R344), its header at `o`. (PRESUMED, log 78.) -/
def readAaf (f : Bytes) (o : Nat) : SensorFrame :=
  let u (i n : Nat) := ofBE (slice f (o + i) n)
  let len := u 20 2
  let ch := u 17 2 % 1024
  let want := max 64 (o + 24 + len + 4)
  if u 0 1 ≠ 2 ∨ bits (u 1 1) 4 3 ≠ 0 ∨ !bit (u 1 1) 0 ∨ bit (u 22 1) 4 ∨ u 16 1 ≠ 2 ∨ ch = 0 ∨ len % (4 * ch) ≠ 0 ∨ f.length ≠ want then .malformed
  else .sensor ⟨1, u 4 8, none, u 12 4, ch, none, 4, true, slice f (o + 24) len, true⟩

/-- A UDP sensor record (R345) at `o`, `n` bytes long. (PRESUMED, log 78.) -/
def readUdp (f : Bytes) (o n : Nat) : SensorFrame :=
  let u (i k : Nat) := ofLE (slice f (o + i) k)
  let ch := u 40 1
  let width := if u 41 1 = 0 then 4 else if u 41 1 = 1 then 3 else 2
  let samples := u 42 2
  if slice f o 4 ≠ [0x57, 0x53, 0x52, 0x31] ∨ u 4 2 ≠ 1 ∨ u 6 2 ≠ 48 ∨ ch = 0 ∨ 64 < ch ∨ 2 < u 41 1 ∨ samples = 0 ∨ 4096 < samples
      ∨ 8 ≤ u 44 4 ∨ n ≠ 48 + samples * ch * width then .malformed
  else
    let word := u 16 2 + u 18 4 * 65536 + u 22 6 * ticksPerSec
    .sensor ⟨2, u 8 8, some (word, u 28 4), 0, ch, some (u 36 4), width, false, slice f (o + 48) (samples * ch * width), bit (u 44 4) 0⟩

/-- What a frame is (R343 to R346). (PRESUMED, log 78.) -/
def Block.readSensor (b : Block) (f : Bytes) : SensorFrame :=
  let h := header f
  if h.etype = 0x22F0 then readAaf f h.off
  else match h.ip, h.l4 with
    | some (_, _, 17, _, _), some (_, dst) =>
      if dst = b.rdN Od.SE_UDP_PORT then
        let ihl := 4 * (ofBE (slice f h.off 1) % 16)
        let total := ofBE (slice f (h.off + 2) 2)
        let udp := ofBE (slice f (h.off + ihl + 4) 2)
        if total ≠ ihl + udp ∨ udp < 8 ∨ f.length ≠ max 64 (h.off + total + 4) then .malformed
        else readUdp f (h.off + ihl + 8) (udp - 8)
      else .unknown
    | _, _ => .unknown

/-- The values of a record: one list for each channel; n values a channel. -/
def columns (s : Sensor) (n : Nat) : List (List Int) :=
  (List.range s.channels).map fun c => (List.range n).map fun i =>
    let raw := slice s.data ((i * s.channels + c) * s.width) s.width
    signed (8 * s.width) (if s.big then ofBE raw else ofLE raw)

/-- A malformed frame counted (R346). -/
def Block.seMalformed (b : Block) : Block := ((b.bump Od.SE_MALFORMED 1).orBits Od.SE_STICKY 1).raiseLim 0x5002 0

/-- The first-sample time of a frame before GRID (R347): `stamp` is the frame's ingress stamp. -/
def firstTime (s : Sensor) (stamp : Nat) : Nat :=
  match s.time with
  | some (w, _) => w
  | none =>
    let n := stamp / 65536
    (((n : Int) + signed 32 (unsigned 32 ((s.ns : Int) - n))) * 65536).toNat

/-- The nearest edge of an output to a time, where it is within a quarter of a period (R347). (DEDUCED, log 82.) -/
def Block.gridTime (b : Block) (out t : Nat) : Option Nat :=
  match outRate b b.outCfgs (b.out out).cfg with
  | none => none
  | some (p, q) =>
    if p = 0 then none
    else
      let period := q * ticksPerSec / p
      match b.outEdge out ((t : Int) - (period / 2 : Nat)) with
      | none => none
      | some e => if 4 * (e - t).natAbs ≤ period then some e.toNat else none

/-- A frame of stream i taken into graph g at time t (R348). (DEDUCED, log 79.) -/
def Block.ingest (b : Block) (g i : Nat) (s : Sensor) (t st : Nat) : Block :=
  let rate := b.rdN (Od.STR_RATE i)
  let unit := 1000 * ticksPerSec
  let n := s.data.length / (s.width * s.channels)
  let x := b.stream i
  let d : Int := match x.exp with | some e => (t : Int) - e | none => 0
  if x.exp.isSome && decide (2 * d * rate < -(unit : Int)) then b.bump (Od.STR_DROPS i) 1
  else if !b.ingestCredit g i then b.bump (Od.STR_DROPS i) 1
  else
    let ep := b.tm.mt.steps
    let exp := x.exp.getD t
    let gap := if x.exp.isSome && decide ((unit : Int) < 2 * d * rate) then (2 * d.toNat * rate + unit) / (2 * unit) else 0
    let fill := (List.range gap).map fun k => (⟨0, false, exp + sampleTime rate k, st, ep⟩ : Smp)
    let cols := (columns s n).map fun l => (l.zipIdx).map fun e => (⟨e.1, true, t + sampleTime rate e.2, st, ep⟩ : Smp)
    let b := (cols.zipIdx).foldl (fun b e => b.giveSamples g (b.rdN (Od.STR_CH_BASE i) + e.2) (fill ++ e.1)) b
    let b := if gap = 0 then b
      else (((b.bump (Od.STR_GAP_SAMPLES i) gap).orBits (Od.STR_STICKY i) 1).raiseLim 0x5001 i).gapRecord g i exp t st
    -- the first frame after a restart covers the interval since the stop (R362)
    let b := match x.fresh, (b.graph g).stoppedAt with
      | true, some z => b.gapRecord g i z t st
      | _, _ => b
    let b := (b.setStream i fun _ => ⟨some (t + sampleTime rate n), false⟩).bump (Od.STR_FRAMES i) 1
    let b := b.bump Od.CNT_FIXED_SE_SAMPLES (n * s.channels)
    b.pushAll g (gap / max 1 (b.graph g).block + 8)

/-- SENSOR_FRAME_INGEST: the oldest frame that waits for the stream engine. -/
def Block.sensorIngest (b : Block) (m : Memory) : Block :=
  if !b.clockRuns .evorvo ∨ !b.clockRuns .lpddr then b
  else match b.cp.inbox with
  | [] => b
  | (q, x) :: rest =>
    let raw := ramBytes m (b.handleAddr x.handle) x.len
    let b := (((b.setCp fun y => { y with inbox := rest }).lpRead (blocks (b.handleAddr x.handle) x.len)).releaseBuf x.handle).2
    let f := raw.drop 32
    let stamp := ofLE (slice raw 0 2) + ofLE (slice raw 2 4) * 65536 + ofLE (slice raw 6 6) * ticksPerSec
    match b.readSensor f with
    | .unknown => b.bump Od.SE_UNKNOWN 1
    | .malformed => b.seMalformed
    | .sensor s =>
      match (List.range 256).find? fun i => b.rdN (Od.STR_KIND i) == s.kind && b.rdN (Od.STR_KEY i) == s.key && b.rdN (Od.STR_CQ i) == q with
      | none => b.bump Od.SE_UNKNOWN 1
      | some i =>
        let g := b.rdN (Od.STR_GRAPH i)
        let rateBad : Bool := match s.rate with | some r => r != b.rdN (Od.STR_RATE i) | none => false
        if s.channels ≠ b.rdN (Od.STR_CHANNELS i) ∨ rateBad then b.seMalformed
        else if 16 ≤ g ∨ !b.fnRuns (86 + g) then b.bump (Od.STR_DROPS i) 1
        else
          let st := match s.time with | some (_, w) => w | none => ofLE (slice raw 12 4)
          let st := if s.valid then st else st % 2 ^ 31
          let t := firstTime s stamp
          if b.rdN (Od.STR_TIMING i) = 0 then b.ingest g i s t st
          else match b.gridTime (b.rdN (Od.STR_GRID_OUT i)) t with
            | some e => b.ingest g i s e st
            | none => b.bump (Od.STR_TIME_MISMATCH i) 1

-- Moving blocks

/-- OPERATOR_BLOCK: operator id of graph g consumes a block from its edge when every edge it feeds has a credit. (DEDUCED, log 79.) -/
def Block.operatorBlock (b : Block) (g id : Nat) : Block :=
  match (b.graph g).ops[id]? with
  | none => b
  | some o =>
    if b.fnState (86 + g) = 0 ∨ !b.clockRuns .evorvo ∨ !b.clockRuns .lpddr ∨ !b.agreed (Boundary.edge (Fin.ofNat 16 g)).no then b
    else
      let b :=
        if o.op = 1 then b.alignRun g o
        else if !b.edgesFree g id then b
        else if b.sumsWait g o then b.emitSummary g o
        else if o.op = 8 ∧ 8 ≤ (b.recordHeld g o false 9 |>.opSt g id).held.length then b.recordHeld g o false 9
        else match (b.opSt g id).edge with
          | [] => b
          | x :: rest =>
            ((b.setOp g id fun s => { s with edge := rest }).bump Od.CNT_FIXED_MACS (opCost o * (x.cols.map (·.length)).sum)).runBlock g o x
      b.pushAll g 8

/-- Whether graph g has a block on an edge, or windows no edge has taken yet. (DEDUCED, log 81.) -/
def Block.graphBusy (b : Block) (g : Nat) : Bool :=
  ((b.graph g).st.any fun e => !e.2.edge.isEmpty) || (b.graph g).ops.any fun o => b.sumsWait g o

/-- Every block on graph g's edges processed, at most n rounds. (DEDUCED, log 81.) -/
def Block.graphDrain (b : Block) (g : Nat) : Nat → Block
  | 0 => b
  | n + 1 => if b.graphBusy g then ((b.graph g).ops.foldl (fun b o => b.operatorBlock g o.id) b).graphDrain g n else b

/-- What a stop of graph g processes (R362): its edges, and what RECORD holds with its PRE history, again as staging takes it. (DEDUCED, log 81.) -/
def Block.graphFlush (b : Block) (g : Nat) : Nat → Block
  | 0 => b
  | n + 1 =>
    let b := b.graphDrain g 64
    ((b.graph g).ops.foldl (fun b o => if o.op = 8 then b.recordHeld g o true 16 else b) b).graphFlush g n

/-- Whether a stop of graph g finds every block processed and written. (DEDUCED, log 81.) -/
def Block.graphEmpty (b : Block) (g : Nat) : Bool := !b.graphBusy g && (b.graph g).st.all fun e => e.2.held.isEmpty

/-- Graph g stops (R362). (DEDUCED, log 81.) -/
def Block.graphStop (b : Block) (g : Nat) : Block :=
  let b := b.graphFlush g 8
  b.setGraph g fun x => { x with st := [], stoppedAt := some b.mer }

end Sys2Proof.Machine
end

