-- ==== Sys2Proof/Machine/Lanes.lean ====
section
/-! DEFINITION. Serial lanes (chapter 11): transmitter taps and training, FEC counters, PRBS checker, error injector, sideband chain, I2C
masters. -/

namespace Sys2Proof.Machine

/-- A lane's state, and the module with it changed. -/
def Block.setLn (b : Block) (f : Lanes → Lanes) : Block := { b with ln := f b.ln }
def Block.lane (b : Block) (l : Nat) : Lane := tat {} b.ln.lane l
def Block.setLane (b : Block) (l : Nat) (f : Lane → Lane) : Block := b.setLn fun x => { x with lane := tmod {} x.lane l f }

/-- Whether a lane is disabled (R295): its port is in mode DISABLED and no other port uses it. -/
def Block.laneOff (b : Block) (l : Nat) : Bool := b.modeNow (b.laneOwner l) == 0

-- Taps and training (R298 to R300)

/-- LANEn_TAPS_IN_USE of three taps. -/
def tapWord (pre main post : Int) : Nat := unsigned 8 pre * 65536 + unsigned 8 main * 256 + unsigned 8 post

/-- The taps in force on a lane: c(−1), c(0), c(+1). -/
def Block.taps (b : Block) (l : Nat) : Int × Int × Int :=
  let w := b.rdN (Od.LANE_TAPS_IN_USE l)
  (signed 8 (bits w 16 8), (bits w 8 8 : Nat), signed 8 (bits w 0 8))

/-- Whether a setting is within the ranges of Table 11.1 and both constraints of R298. -/
def tapsOk (t : Int × Int × Int) : Bool :=
  let (a, m, c) := t
  decide (-16 ≤ a) && decide (a ≤ 0) && decide (32 ≤ m) && decide (m ≤ 64) && decide (-24 ≤ c) && decide (c ≤ 0)
    && decide (a.natAbs + m.natAbs + c.natAbs ≤ 64) && decide (16 ≤ m - a.natAbs - c.natAbs)

/-- Taps put in force on a lane. -/
def Block.setTaps (b : Block) (l : Nat) (t : Int × Int × Int) : Block := b.wr (Od.LANE_TAPS_IN_USE l) (tapWord t.1 t.2.1 t.2.2)

/-- INITIALIZE and PRESET (Table 11.1). -/
def tapsInit : Int × Int × Int := (-3, 42, -17)
def tapsPreset : Int × Int × Int := (0, 64, 0)

/-- A tap moved by one request: 0 hold, 1 increment, 2 decrement. -/
def tapStep (r : Nat) (v : Int) : Int := if r = 1 then v + 1 else if r = 2 then v - 1 else v

/-- The fixed taps of a lane (R299). -/
def Block.fixedTaps (b : Block) (l : Nat) : Int × Int × Int := (b.rd (Od.LANE_TX_PRE l), b.rd (Od.LANE_TX_MAIN l), b.rd (Od.LANE_TX_POST l))

/-- Whether a lane runs training (R299): LANEn_TRAIN in 10GBASE-R, 25GBASE-R or 100G mode. -/
def Block.trains (b : Block) (l : Nat) : Bool := b.on (Od.LANE_TRAIN l) && decide (2 ≤ b.modeNow (b.laneOwner l))

/-- Training of a lane begins (R299): the transmitter at INITIALIZE, both ends not ready. (DEDUCED, log 65 and 70.) -/
def Block.trainStart (b : Block) (l : Nat) : Block :=
  let b := b.setLane l fun x => { x with trainAt := b.cyc, localReady := false, peerReady := false, asked := 0 }
  ((b.setTaps l tapsInit).wr (Od.LANE_TRAIN_STATE l) 1).wr (Od.LANE_TRAIN_UPDATES l) 0

/-- A lane as its port starts or its link is lost: powered down where no port uses it (R295), training, or its fixed taps. -/
def Block.laneStart (b : Block) (l : Nat) : Block :=
  if b.laneOff l then ((b.wr (Od.LANE_TRAIN_STATE l) 0).wr (Od.LANE_SIGNAL l) 0).wr (Od.LANE_CDR_LOCK l) 0
  else if b.trains l then b.trainStart l else (b.setTaps l (b.fixedTaps l)).wr (Od.LANE_TRAIN_STATE l) 4

/-- LANEn_TRAIN_TIME: the length of the training in ms. -/
def Block.trainTime (b : Block) (l : Nat) : Block := b.wr (Od.LANE_TRAIN_TIME l) (min ((b.cyc - (b.lane l).trainAt) / ms 1) 65535 : Nat)

/-- The answer to one tap's request: 0 NOT_UPDATED, 1 UPDATED, 2 MINIMUM, 3 MAXIMUM; and the taps after it. (DEDUCED, log 70.) -/
def tapAnswer (r : Nat) (now next : Int × Int × Int) : Nat × (Int × Int × Int) :=
  if r = 0 then (0, now) else if tapsOk next then (1, next) else (if r = 1 then 3 else 2, now)

/-- The peer's request carried out (R299). (DEDUCED, log 70.) -/
def Block.tapRequest (b : Block) (l : Nat) (t : Training) : List Nat × Block :=
  if t.preset then ([1, 1, 1], (b.setTaps l tapsPreset).bump (Od.LANE_TRAIN_UPDATES l) 1)
  else if t.initialize_ then ([1, 1, 1], (b.setTaps l tapsInit).bump (Od.LANE_TRAIN_UPDATES l) 1)
  else
    let now := b.taps l
    let a := tapAnswer t.request.1 now (tapStep t.request.1 now.1, now.2.1, now.2.2)
    let m := tapAnswer t.request.2.1 a.2 (a.2.1, tapStep t.request.2.1 a.2.2.1, a.2.2.2)
    let c := tapAnswer t.request.2.2 m.2 (m.2.1, m.2.2.1, tapStep t.request.2.2 m.2.2.2)
    let n := b2n (a.1 == 1) + b2n (m.1 == 1) + b2n (c.1 == 1)
    ([a.1, m.1, c.1], if n = 0 then b else (b.setTaps l c.2).bump (Od.LANE_TRAIN_UPDATES l) n)

/-- The module's own request as a receiver (R299): INITIALIZE first (coded 3), then its equaliser's, at most 256. (DEDUCED, log 70.) -/
def Block.trainAsk (b : Block) (l : Nat) (t : Training) : List Nat × Block :=
  let x := b.lane l
  if t.converged ∨ x.localReady then ([0, 0, 0], b.setLane l fun x => { x with localReady := true })
  else if x.asked = 0 then ([3, 3, 3], b.setLane l fun x => { x with asked := 1 })
  else if x.asked ≤ 256 ∧ (t.wish.1 ≠ 0 ∨ t.wish.2.1 ≠ 0 ∨ t.wish.2.2 ≠ 0) then
    ([t.wish.1, t.wish.2.1, t.wish.2.2], b.setLane l fun x => { x with asked := x.asked + 1 })
  else ([0, 0, 0], b)

/-- A training frame received (R299, R300). (DEDUCED, log 70.) -/
def Block.trainFrame (b : Block) (l : Nat) (t : Training) : Block :=
  let b := (b.wr (Od.LANE_SIGNAL l) 1).wr (Od.LANE_CDR_LOCK l) 1
  if b.rdN (Od.LANE_TRAIN_STATE l) ≠ 1 then b
  else
    let (status, b) := b.tapRequest l t
    let b := b.setLane l fun x => { x with peerReady := t.ready }
    let (ask, b) := b.trainAsk l t
    let b := b.emit (.training l status ask (b.lane l).localReady)
    if (b.lane l).localReady && (b.lane l).peerReady then
      (((b.trainTime l).wr (Od.LANE_TRAIN_STATE l) 2).setLane l fun x => { x with failed := false }).report 0x3801 l
    else b

/-- max_wait_timer of 500 ms expires first (R300). -/
def Block.trainTimeout (b : Block) (l : Nat) : Block :=
  if b.rdN (Od.LANE_TRAIN_STATE l) = 1 ∧ (b.lane l).trainAt + ms 500 ≤ b.cyc then
    let first := !(b.lane l).failed
    let b := ((b.trainTime l).wr (Od.LANE_TRAIN_STATE l) 3).orBits (Od.LANE_STICKY l) 1
    let b := b.setLane l fun x => { x with failed := true, failAt := b.cyc }
    if first then b.report 0x3802 l else b
  else b

/-- 100 ms after a failure the lane trains again while it receives a signal (R300). -/
def Block.trainRetry (b : Block) (l : Nat) : Block :=
  if b.rdN (Od.LANE_TRAIN_STATE l) = 3 ∧ (b.lane l).failAt + ms 100 ≤ b.cyc ∧ b.on (Od.LANE_SIGNAL l) then b.trainStart l else b

-- FEC (R303)

/-- Codewords of a port's decoder counted; one that cannot be corrected sets bit [3] and raises 0x3803. -/
def Block.fecSeen (b : Block) (p : Nat) (f : FecSeen) : Block :=
  if (tat {} b.fab.port p).fecInForce = 0 then b
  else
    let b := (b.bump (Od.LANE_FEC_CORRECTED p) f.corrected).bump (Od.LANE_FEC_UNCORRECTED p) f.uncorrected
    let b := ((lanesOf (b.modeNow p) p).zip f.symbols).foldl (fun b e => b.bump (Od.LANE_FEC_SYMBOLS e.1) e.2) b
    if f.uncorrected = 0 then b else (b.orBits (Od.LANE_STICKY p) 8).raiseLim 0x3803 p

-- PRBS (R307 to R309)

/-- A lane's line rate in 1/16 bit per cycle. -/
def Block.laneRate (b : Block) (l : Nat) : Nat :=
  match b.modeNow (b.laneOwner l) with
  | 1 => 200
  | 2 => 1650
  | _ => 4125

/-- The bits a lane carries in a number of cycles. -/
def Block.laneBits (b : Block) (l cycles : Nat) : Nat := cycles * b.laneRate l / 16

/-- LANEn_PRBS_BITS at this cycle (R308): every bit compared while locked. -/
def Block.prbsBits (b : Block) (l : Nat) : Nat :=
  let x := b.lane l
  x.base + match x.lockAt with | some t => b.laneBits l (b.cyc - t) | none => 0

/-- Whether the checker of a lane runs: its port RUN with LANEn_PRBS_CHK not 0 and a test in force (Table 11.2). -/
def Block.checks (b : Block) (l : Nat) : Bool := let p := b.laneOwner l; b.fnRuns p && b.inTest p && b.rdN (Od.LANE_PRBS_CHK l) != 0

/-- The checker locks. (DEDUCED, log 71.) -/
def Block.prbsLock (b : Block) (l : Nat) : Block :=
  if b.checks l && !b.on (Od.LANE_PRBS_LOCK l) then (b.wr (Od.LANE_PRBS_LOCK l) 1).setLane l fun x => { x with lockAt := some b.cyc } else b

/-- A mismatch of the checker, n times. -/
def Block.prbsErrors (b : Block) (l n : Nat) : Block := if n = 0 then b else (b.bump (Od.LANE_PRBS_ERRORS l) n).orBits (Od.LANE_STICKY l) 4

/-- The checker loses lock: `errs` of the last 1,024 bits, 256 or more, were in error. (DEDUCED, log 71.) -/
def Block.prbsLoss (b : Block) (l errs : Nat) : Block :=
  if b.on (Od.LANE_PRBS_LOCK l) ∧ 256 ≤ errs ∧ errs ≤ 1024 then
    let b := (b.prbsErrors l errs).setLane l fun x => { x with base := b.prbsBits l, lockAt := none }
    ((b.wr (Od.LANE_PRBS_LOCK l) 0).orBits (Od.LANE_STICKY l) 2).report 0x3804 l
  else b

/-- LANEn_PRBS_CLEAR, and what a start of the port does to both counts. -/
def Block.prbsClear (b : Block) (l : Nat) : Block :=
  let b := b.unlatch fun k => k == Od.LANE_PRBS_BITS l || k == Od.LANE_PRBS_ERRORS l
  (b.setLane l fun x => { x with base := 0, lockAt := x.lockAt.map fun _ => b.cyc }).wr (Od.LANE_PRBS_ERRORS l) 0

-- Error injector (R310)

/-- The injector begins to act. -/
def Block.injStart (b : Block) (l : Nat) : Block :=
  if (b.lane l).injArmed then
    (b.setLane l fun x => { x with injArmed := false, injActing := true, injSince := b.cyc, injActs := 0 }).disarm (.lane (Fin.ofNat 32 l))
  else b

/-- LANEn_INJ_ARM = 1. (DEDUCED, log 71.) -/
def Block.injArm (b : Block) (l : Nat) : Reply :=
  let p := b.laneOwner l
  let at_ := b.rdN (Od.LANE_INJ_AT l)
  if !b.fnRuns p ∨ b.rdN (Od.LANE_PRBS_GEN l) = 0 then b.stateError
  else if at_ ≠ 0 ∧ !b.armable at_ then b.rangeError
  else
    let b := b.setLane l fun x =>
      { x with injArmed := true, injActing := false, injMode := b.rdN (Od.LANE_INJ_MODE l), injPeriod := b.rdN (Od.LANE_INJ_PERIOD l) }
    if at_ = 0 then (b.injStart l).ok else (b.armWord (.lane (Fin.ofNat 32 l)) at_).ok

/-- LANEn_INJ_ARM = 2, and a stop of the port. -/
def Block.injStop (b : Block) (l : Nat) : Block :=
  (b.setLane l fun x => { x with injArmed := false, injActing := false }).disarm (.lane (Fin.ofNat 32 l))
def Block.injDisarm (b : Block) (l : Nat) : Reply := (b.injStop l).ok

/-- Whether the generator's bits come back to the lane's own checker: a near-end loop (Table 11.2). -/
def Block.looped (b : Block) (l : Nat) : Bool := b.rdN (Od.LANE_TEST l) == 2 && b.inTest (b.laneOwner l)

/-- The injector inverts a generator bit: the one bit of SINGLE, or the bit of each period in PERIODIC. (DEDUCED, log 71.) -/
def Block.injAct (b : Block) (l : Nat) : Block :=
  let x := b.lane l
  let due := x.injActing && (x.injMode == 1 || (x.injMode == 2 && decide (x.injActs * x.injPeriod ≤ b.laneBits l (b.cyc - x.injSince))))
  if !due then b
  else
    let b := (b.bump (Od.LANE_INJ_COUNT l) 1).setLane l fun x => { x with injActs := x.injActs + 1, injActing := x.injMode != 1 }
    if b.looped l && b.on (Od.LANE_PRBS_LOCK l) then b.prbsErrors l 1 else b

-- Sideband chain (R311, R312)

/-- The output bits of slot l as its next shift takes them: LANEn_SB_OUT, with I2C_SEL and the TX_DISABLE of a disabled lane. (DEDUCED, log 73.) -/
def Block.sbOut (b : Block) (l : Nat) : Nat :=
  let v := b.rdN (Od.LANE_SB_OUT l)
  let v := v - v / 4 % 2 * 4
  let sel := (tat [] b.ln.i2c (l / 8)).any fun t => t.sel && t.lane == l
  (v + b2n sel * 4) ||| b2n (b.laneOff l) * 128

/-- An input change of a slot accepted, its bits as two scans gave them (R312). (DEDUCED, log 73.) -/
def Block.sbChange (b : Block) (l v : Nat) : Block :=
  let was := b.rdN (Od.LANE_SB_IN l)
  let b := b.wr (Od.LANE_SB_IN l) v
  let b := if bit was 7 && !bit v 7 then (b.orBits (Od.LANE_STICKY l) 32).report 0x3805 l
    else if !bit was 7 && bit v 7 then (b.orBits (Od.LANE_STICKY l) 16).report 0x3806 l
    else b
  let fault := !bit was 5 && bit v 5
  let los := !bit was 6 && bit v 6
  let b := if fault then b.orBits (Od.LANE_STICKY l) 64 else b
  let b := if los then b.orBits (Od.LANE_STICKY l) 128 else b
  if fault || los then b.report 0x3807 l else b

/-- A scan completes: outputs that were being shifted reach the registers, a new shift takes the present outputs, inputs that two scans agree
on are accepted. (DEDUCED, log 72 and 73.) -/
def Block.sbScan (b : Block) (inputs : List Nat) : Block :=
  let b := (inputs.zipIdx.take 32).foldl (fun b e =>
    let v := e.1 % 256
    let l := e.2
    let same := (b.lane l).sbLast == some v
    let b := b.setLane l fun x => { x with sbLast := some v }
    if same && b.rdN (Od.LANE_SB_IN l) != v then b.sbChange l v else b) b
  let b := b.setLn fun x => { x with lines := x.shift, shift := (List.range 32).map fun l => (l, b.sbOut l) }
  let b := b.emit (.sideband b.ln.lines)
  -- a transaction whose I2C_SEL is now at its cage runs (R313)
  (List.range 4).foldl (fun b m =>
    match tat [] b.ln.i2c m with
    | t :: rest =>
      if t.sel && !t.busy && bit (tat 0 b.ln.lines t.lane) 2 then
        (b.setLn fun x => { x with i2c := tput x.i2c m ({ t with busy := true } :: rest) }).wr (Od.LANE_I2C_STATUS t.lane t.tenant) 2
      else b
    | [] => b) b

-- I2C (R313, R314)

/-- The master's first transaction takes its cage's I2C_SEL. (DEDUCED, log 72.) -/
def Block.i2cNext (b : Block) (m : Nat) : Block :=
  match tat [] b.ln.i2c m with
  | t :: rest => b.setLn fun x => { x with i2c := tput x.i2c m ({ t with sel := true } :: rest) }
  | [] => b

/-- LANEn_I2C_OP: a transaction of a tenant, 1 read or 2 write, with the tenant's settings. (DEDUCED, log 72.) -/
def Block.i2cStart (b : Block) (l op t : Nat) : Reply :=
  let m := l / 8
  let q := tat [] b.ln.i2c m
  let st := b.rdN (Od.LANE_I2C_STATUS l t)
  let len := b.rdN (Od.LANE_I2C_LEN l t)
  if op = 2 ∧ 8 < len then b.rangeError
  else if st = 1 ∨ st = 2 then b.busy
  else if 16 ≤ q.length then b.busy
  else
    let x : I2cTx := ⟨t, l, op, b.rdN (Od.LANE_I2C_DEV l t), b.rdN (Od.LANE_I2C_OFFSET l t), b.rdN (Od.LANE_I2C_PAGE l t), len,
      (b.blob (Od.LANE_I2C_DATA l t)).take len, false, false⟩
    let b := b.setLn fun y => { y with i2c := tput y.i2c m (q ++ [x]) }
    let b := b.wr (Od.LANE_I2C_STATUS l t) 1
    (if q.isEmpty then b.i2cNext m else b).ok

/-- The first transaction of a master ends (R314): `ack` says the device acknowledged its address, `timeout` that SCL was held low or the write
poll ended unacknowledged; `data` is what a read returned. An empty cage ends it ABSENT with no bus activity. (DEDUCED, log 72.) -/
def Block.i2cDone (b : Block) (m : Nat) (ack timeout : Bool) (data : Bytes) : Block :=
  match tat [] b.ln.i2c m with
  | [] => b
  | t :: rest =>
    let absent := bit (b.rdN (Od.LANE_SB_IN t.lane)) 7
    if !absent && !t.busy then b
    else
      let st : Nat := if absent then 5 else if timeout then 6 else if !ack then 4 else 3
      let n : Nat := if st = 3 then t.len else 0
      let b := if absent then b else b.emit (.i2c t.lane t.op (b.rdN (Od.LANE_I2C_RATE t.lane)) t.dev t.page t.offset (if t.op = 2 then t.data else []))
      let b := (b.setLn fun x => { x with i2c := tput x.i2c m rest }).i2cNext m
      let b := b.wr (Od.LANE_I2C_STATUS t.lane t.tenant) st
      let b := if st = 3 ∧ t.op = 1 then b.wrBlob (Od.LANE_I2C_DATA t.lane t.tenant) (data.take t.len ++ (b.blob (Od.LANE_I2C_DATA t.lane t.tenant)).drop (data.take t.len).length) else b
      let b := if st = 4 ∨ st = 6 then b.orBits (Od.LANE_STICKY t.lane) 256 else b
      b.raiseTo t.tenant 0x3808 t.lane (st + n * 256)

end Sys2Proof.Machine
end

