-- ==== Sys2Proof/Machine/Ports.lean ====
section
/-! DEFINITION. Ports (R217 to R229): link up and down, the link-down hold, phase-keeping idle; aggregation groups (R259, R261); gate list
changes (R284); starts and stops of the fabric's functions (Tables 9.2 and 10.5). -/

namespace Sys2Proof.Machine

-- Aggregation groups (R261)

/-- A group's map, and the module with it changed. -/
def Block.lag (b : Block) (g : Nat) : Lag := tat {} b.fab.lag g
def Block.setLag (b : Block) (g : Nat) (f : Lag → Lag) : Block := b.setFab fun x => { x with lag := tmod {} x.lag g f }

/-- The active set changed: event 0x3502, LAGg_REBALANCES, sticky bits. -/
def Block.lagChanged (b : Block) (g active : Nat) : Block :=
  let b := ((b.wr (Od.LAG_ACTIVE g) active).bump (Od.LAG_REBALANCES g) 1).orBits (Od.LAG_STICKY g) (if active = 0 then 3 else 1)
  b.report 0x3502 g

/-- Buckets dealt round-robin over a list of members: `hit` says which buckets are dealt. -/
def deal (members : List Nat) (hit : Nat → Bool) : Nat → List Nat → List Nat
  | _, [] => []
  | i, x :: r => if hit x then members.getD (i % members.length) x :: deal members hit (i + 1) r else x :: deal members hit i r

/-- A group starts: its buckets dealt in port order over the members whose links are up; over all of them where none is. -/
def Block.lagStart (b : Block) (g : Nat) : Block :=
  let members := maskBits 32 (b.rdN (Od.LAG_MEMBERS g))
  let up := members.filter fun p => b.on (Od.P_LINK p)
  let over_ := if up.isEmpty then members else up
  let map := deal over_ (fun _ => true) 0 (List.replicate 256 0)
  let b := b.setLag g fun _ => ⟨map, map⟩
  let active := up.foldl (fun a p => a + 2 ^ p) 0
  let b := b.wr (Od.LAG_ACTIVE g) active
  if up.isEmpty then b.orBits (Od.LAG_STICKY g) 2 else b

/-- A member leaves the active set: its buckets dealt over the remaining members, no other bucket moves. (DEDUCED, log 20.) -/
def Block.lagLeave (b : Block) (p : Nat) : Block :=
  match b.lagOf p with
  | none => b
  | some g =>
    let a := b.rdN (Od.LAG_ACTIVE g)
    if !bit a p then b
    else
      let rest := maskBits 32 (a - 2 ^ p)
      let b := if rest.isEmpty then b else b.setLag g fun x => { x with map := deal rest (· == p) 0 x.map }
      b.lagChanged g (a - 2 ^ p)

/-- A member rejoins: its home buckets return to it, and with them those that an inactive member holds (log 20). -/
def Block.lagJoin (b : Block) (p : Nat) : Block :=
  match b.lagOf p with
  | none => b
  | some g =>
    let a := b.rdN (Od.LAG_ACTIVE g)
    if bit a p then b
    else
      let b := b.setLag g fun x =>
        { x with map := (x.map.zip x.home).map fun e => if e.2 = p ∨ !bit a e.1 then p else e.1 }
      b.lagChanged g (a + 2 ^ p)

/-- A group that is not RUN has no active member (Table 15.10). -/
def Block.lagStop (b : Block) (g : Nat) : Block := b.wr (Od.LAG_ACTIVE g) 0

/-- LAGg_BUCKET_MAP; of a group that has not started since a reset, port 0 for every bucket. (DESIGN CHOICE, log 154.) -/
def Block.lagMap (b : Block) (g : Nat) : Bytes := (List.range 256).map fun i => BitVec.ofNat 8 ((b.lag g).map.getD i 0)

-- Link up and down (R220, R223 to R227)

/-- Whether the test in force lets port p's link come up (Table 11.2). -/
def Block.testAllowsLink (b : Block) (p : Nat) : Bool := let t := (b.pf p).testInForce; t == 0 || t == 2 || t == 4

/-- Whether every lane of port p that trains is TRAINED (R300). -/
def Block.lanesTrained (b : Block) (p : Nat) : Bool :=
  (lanesOf (b.modeNow p) p).all fun l => !b.trains l || b.rdN (Od.LANE_TRAIN_STATE l) == 2

/-- A port's queues flushed at the end of a hold (R223, R226). -/
def Block.holdFlush (b : Block) (p : Nat) : Block :=
  let b := (b.flushPort p (Od.P_DROP_LINKDOWN p)).setPf p fun x => { x with holdEnd := none }
  let b := (b.report 0x3103 p).orBits (Od.P_STICKY p) 2
  (b.dropPortMacs p).lagLeave p

/-- The link of port p comes up: 1 ms of lock free of faults has passed; `deskew` is Δdsk of a 100G port in ticks (R71), `freq` the
frequency of the received clock against the Meridian clock in ppb (R177). (DEDUCED, log 34, 65 and 137.) -/
def Block.linkUp (b : Block) (p : Nat) (deskew : Nat) (freq : Int) : Block :=
  if b.modeNow p = 0 ∨ b.on (Od.P_LINK p) ∨ !b.testAllowsLink p ∨ !b.lanesTrained p then b
  else
    let b := (lanesOf (b.modeNow p) p).foldl (fun b l =>
      ((b.wr (Od.LANE_SIGNAL l) 1).wr (Od.LANE_CDR_LOCK l) 1).setCal fun x => { x with rxFreq := tput x.rxFreq l freq }) b
    let b := ((b.wr (Od.P_LINK p) 1).wr (Od.LT_DESKEW p) (if b.modeNow p = 4 then deskew else 0 : Nat)).setPf p fun x =>
      { x with holdEnd := none, busyAt := b.cyc }
    let b := if b.inTest p then b.wr (Od.LT_STATE p) 0 else b.reelLinkUp p
    let b := if b.rdN (Od.LT_MODE p) = 2 ∧ b.fnRuns p then b.setPortState p (b.portState p 4) else b
    let b := (b.lagJoin p).report 0x3101 p
    if b.partner p then b.raise 0x6001 0 (b.rdN Od.PAIR_PARTNER_STATE) else b

/-- A frame whose transmission the loss of the link cuts (R225). -/
def Block.loseSending (b : Block) (p : Nat) : Block :=
  match (b.pf p).sending with
  | none => b
  | some t => (((b.setPf p fun x => { x with sending := none }).refundTx p t).dropOn p (Od.P_DROP_LINKDOWN p)).release t.desc.chain

/-- The link of port p goes down; `cause` is 0 loss of signal, 1 loss of lock, 2 a fault. (DEDUCED, log 65.) -/
def Block.linkDown (b : Block) (p cause : Nat) : Block :=
  if !b.on (Od.P_LINK p) then b
  else
    let lanes := lanesOf (b.modeNow p) p
    let b := lanes.foldl (fun b l =>
      let b := if cause = 0 then b.wr (Od.LANE_SIGNAL l) 0 else b
      let b := if cause ≤ 1 then b.wr (Od.LANE_CDR_LOCK l) 0 else b
      b.laneStart l) b
    let b := ((b.wr (Od.P_LINK p) 0).orBits (Od.P_STICKY p) 1).loseSending p
    let b := ((b.reelLinkDown p).ptpLinkDown p).report 0x3102 p
    let b := if b.partner p then (b.orBits Od.PAIR_STICKY 4).raise 0x6002 0 1 else b
    let hold := b.rdN (Od.P_LINKDOWN_HOLD p)
    if hold = 0 then b.holdFlush p else b.setPf p fun x => { x with holdEnd := some (b.cyc + ms hold) }

/-- The link-down hold expires (R223). -/
def Block.holdExpiry (b : Block) (p : Nat) : Block :=
  match (b.pf p).holdEnd with
  | some t => if t ≤ b.cyc ∧ !b.on (Od.P_LINK p) then b.holdFlush p else b
  | none => b

-- Phase-keeping idle (R228, R229)

/-- Whether port p has no frame received, sent or queued for P_IDLE_TIME. (DEDUCED, log 66.) -/
def Block.idleDue (b : Block) (p : Nat) : Bool :=
  let t := b.rdN (Od.P_IDLE_TIME p)
  let x := b.pf p
  t != 0 && b.fnRuns p && !b.on (Od.P_IDLE p) && x.sending.isNone && x.own.isEmpty && x.ingress.isEmpty && x.fip.ready.isEmpty
    && (List.range 16).all (fun q => (b.queue (p * 16 + q)).frames.isEmpty) && decide (x.busyAt + us t ≤ b.cyc)

/-- A port enters phase-keeping idle. (DEDUCED, log 66.) -/
def Block.idleEntry (b : Block) (p : Nat) : Block :=
  if b.idleDue p then ((b.wr (Od.P_IDLE p) 1).bump (Od.P_IDLE_ENTRIES p) 1).setPf p fun x => { x with wakeAt := none } else b

-- Gate list changes (R284)

/-- The change time: base + N × cycle for the smallest N that is at least 10 ms ahead. (DEDUCED, log 64.) -/
def changeTime (base cycle now : Nat) : Nat := nextBoundary base cycle (now + ticksPerSec / 100)

/-- A change armed while a cycle runs: a cycle that would pass the change time is cut or extended (R284). -/
def Gate.arm (g : Gate) (c : GatePend) : Gate :=
  let g := { g with pend := some c }
  if g.on && !upTo g.cend c.at_ then { g with cend := c.at_, until_ := g.until_.map fun u => earlier u c.at_ }
  else if !g.on then { g with until_ := some c.at_ }
  else g

/-- GCLn_CHANGE = 1. (DEDUCED, log 64.) -/
def Block.gclChange (b : Block) (p : Nat) : Reply :=
    let on_ := b.on (Od.GCL_ENABLE p)
    let cycle := b.rdN (Od.GCL_CYCLE_TIME p)
    let list := gclEntries 256 (b.blob (Od.GCL_LIST p))
    let ok := match list with | some l => !on_ || !l.isEmpty | none => false
    if !ok ∨ cycle < 1000 ∨ 1000000000 < cycle then b.rangeError
    else
      let base := b.rdN (Od.GCL_BASE_TIME p)
      let t := changeTime base (cycle * 65536) b.mer
      if !b.armable t then b.rangeError
      else if b.rdN (Od.GCL_CHANGE_STATUS p) = 1 then b.busy
      else
        let c : GatePend := ⟨on_, list.getD [], cycle * 65536, base, b.rdN (Od.GCL_CYCLE_EXT p) * 65536, t⟩
        let b := b.setGate p fun g => g.arm c
        let b := (b.wr (Od.GCL_CHANGE_STATUS p) 1).wr (Od.GCL_CHANGE_TIME p) t
        let b := if b.pairCommits then b.emit (.carried (.gate p c)) else b
        (b.armWord (.gcl (Fin.ofNat 32 p)) t).ok

/-- GCLn_CHANGE = 2: an armed change cancelled, and the running cycle whole again. (DEDUCED, log 64.) -/
def Block.gclCancel (b : Block) (p : Nat) : Reply :=
  if b.rdN (Od.GCL_CHANGE_STATUS p) = 1 then
    let b := b.setGate p fun g =>
      if g.on then
        let whole := g.start + g.cycle
        if !upTo whole g.cend ∧ !upTo whole b.mer then
          let g := { g with pend := none, cend := whole }
          -- the entry that was cut gets its end back
          match g.list[g.idx]? with
          | some _ =>
            let from_ := g.start + ((g.list.take g.idx).map (·.1)).sum
            { g with until_ := some (earlier (from_ + (g.list.getD g.idx (0, 0)).1) whole) }
          | none => { g with until_ := some whole }
        else { g with pend := none }
      else { g with pend := none, until_ := none }
    ((b.disarm (.gcl (Fin.ofNat 32 p))).wr (Od.GCL_CHANGE_STATUS p) 0).ok
  else b.ok

/-- The change time reached (R284): the new list starts at entry 0. -/
def Block.gclApply (b : Block) (p : Nat) : Block :=
  match (b.pf p).gate.pend with
  | some c => if upTo c.at_ b.mer then (b.gclApplied p c).setGate p fun g => g.apply c c.at_ else b
  | none => b

/-- An interval ends and the next states take effect (R281). A change that is due then is applied by its own event. -/
def Block.gateEntry (b : Block) (p : Nat) : Block :=
  let g := (b.pf p).gate
  match g.until_ with
  | some u =>
    let barred := match g.pend with | some c => upTo c.at_ u | none => false
    if upTo u b.mer ∧ !barred then b.setGate p (·.next) else b
  | none => b

-- Starts and stops

/-- The lane test that a port's lanes select (Table 11.2): 0 none, 1 PRBS, 2 near-end loop, 3 far-end loop, 4 PCS loop, 5 near-end loop with
PRBS; none where the combination is refused. -/
def testOf (test gen chk : Nat) : Option Nat :=
  match test with
  | 0 => some (if gen = 0 ∧ chk = 0 then 0 else 1)
  | 2 => some (if gen = 0 ∧ chk = 0 then 2 else 5)
  | 3 => if gen = 0 then some 3 else none
  | 4 => if gen = 0 ∧ chk = 0 then some 4 else none
  | _ => none

/-- The test a port selects: that of its lowest lane, or of any of its lanes where that one has none. -/
def Block.portTest (b : Block) (p mode : Nat) : Nat :=
  let ts := (lanesOf mode p).map fun l => (testOf (b.rdN (Od.LANE_TEST l)) (b.rdN (Od.LANE_PRBS_GEN l)) (b.rdN (Od.LANE_PRBS_CHK l))).getD 0
  (ts.find? (· != 0)).getD 0

/-- Port p becomes RUN (R222, R290): RWS entries in force, shaper buckets full, lanes retrained where mode, FEC or test changed. (DEDUCED, log 65.) -/
def Block.portRun (b : Block) (p : Nat) : Block :=
  let mode := b.rdN (Od.P_MODE p)
  let fec := b.rdN (Od.P_FEC p)
  let test := b.portTest p mode
  let x := b.pf p
  let same := x.modeInForce == mode && x.fecInForce == fec && x.testInForce == test
  let b := if same then b else b.linkDown p 1
  -- the upper ports of a 100G port give it their lanes (R218)
  let b := if mode = 4 then [p + 1, p + 2, p + 3].foldl (fun b n => (b.linkDown n 1).setPf n fun x => { x with modeInForce := 0, holdEnd := none }) b
    else b
  let b := b.setPf p fun x =>
    { x with modeInForce := mode, fecInForce := fec, testInForce := test, tokens := (b.rdN (Od.EQ_PORT_BURST p) * 800000 : Nat), tokensAt := b.cyc,
             busyAt := b.cyc }
  let b := (List.range 16).foldl (fun b q =>
    b.setQueue (p * 16 + q) fun k => { k with tokens := (b.rdN (Od.EQ_SHAPE_BURST p q) * 800000 : Nat), tokensAt := b.cyc }) b
  let b := (lanesOf mode p).foldl (fun b l =>
    let b := (b.setLane l fun y => { y with lockAt := none }).wr (Od.LANE_PRBS_LOCK l) 0
    let b := b.prbsClear l
    let b := b.setLane l fun y => { y with failed := false }
    if same then b else b.laneStart l) b
  -- the lanes that a 100G port gives up (R295)
  let b := if x.modeInForce = 4 ∧ mode ≠ 4 then [p + 1, p + 2, p + 3].foldl (fun b l => b.laneStart l) b else b
  let b := (b.checkCalFec p).takePortCorr p false
  let b := if test ≠ 0 then b.wr (Od.LT_STATE p) 0 else if b.on (Od.P_LINK p) then b.reelLinkUp p
    else b.wr (Od.LT_STATE p) (if b.rdN (Od.LT_MODE p) = 1 then 1 else 0 : Nat)
  let b := if b.rdN (Od.LT_MODE p) = 2 then b.setPortState p (b.portState p 4) else b
  b.takeAlpha p

/-- Port p stops (Table 9.2): what is queued for it is flushed, its injectors end. -/
def Block.portStop (b : Block) (p : Nat) : Block :=
  let b := b.fipEnd p 3
  let fip := (b.pf p).fip
  let b := (fip.ready ++ (fip.delayed.map (·.1)).toList).foldl (fun b t => (b.dropOn p (Od.P_DROP_STOPPED p)).releaseTx t) b
  let b := b.setFip p fun f => { f with ready := [], delayed := none, through := 0 }
  let b := b.flushPort p (Od.P_DROP_STOPPED p)
  let b := (List.range (b.pf p).ingress.length).foldl (fun b _ => b.dropOn p (Od.P_DROP_STOPPED p)) b
  let b := b.setPf p fun x => { x with ingress := [] }
  let b := (lanesOf (b.modeNow p) p).foldl (fun b l => b.injStop l) b
  b.takeAlpha p

/-- CLS starts (R271): every bucket is full. -/
def Block.clsRun (b : Block) : Block := b.setFab fun x => { x with pol := [] }

/-- A mirror session starts: its sampling restarts. -/
def Block.mirRun (b : Block) (s : Nat) : Block := b.setFab fun x => { x with mirSeen := tdel x.mirSeen s }

end Sys2Proof.Machine
end

