-- ==== Sys2Proof/Machine/Functions.lean ====
section
/-! DEFINITION. Functions (R418 to R420): the checks of a start, what running and stopping one brings, the holder. -/

namespace Sys2Proof.Machine

-- The arrival-point table (Table 15.7)

/-- Entry n of the arrival-point table. -/
def Block.apEntry (b : Block) (n : Nat) : Nat := b.rdN (key 0x1100 (n + 1))
def apValid (v : Nat) : Bool := bit v 63
def apOwner (v : Nat) : Bool := bit v 62
def apTenant (v : Nat) : Nat := bits v 59 3
def apKind (v : Nat) : Nat := bits v 56 3
def apWhere (v : Nat) : Nat := bits v 48 8
def apNode (v : Nat) : Nat := bits v 32 16

/-- Whether a tenant has an arrival point on a PCIe function (R379). -/
def Block.onFunction (b : Block) (t fn : Nat) : Bool :=
  (List.range 64).any fun n => let v := b.apEntry n; apValid v && apKind v == 2 && apWhere v == fn && apTenant v == t

-- Start checks: status 0 where the start may go ahead

/-- Whether a port mode and FEC are a pair of Table 9.1. -/
def modeFecOk (mode fec : Nat) : Bool :=
  match mode with
  | 0 | 1 => fec == 0
  | 2 => decide (fec ≤ 1)
  | 3 => decide (fec ≤ 2)
  | 4 => fec == 0 || fec == 2
  | _ => false

/-- Whether port p cannot run in a mode under R218 or R219. -/
def Block.portBarred (b : Block) (p mode : Nat) : Bool :=
  let base := p / 4 * 4
  (p == 31 && b.on Od.PAIR_ENABLED) || (p == 28 && mode == 4 && b.on Od.PAIR_ENABLED)
    || (base != p && b.fnState base != 0 && b.rdN (Od.P_MODE base) == 4)
    || (mode == 4 && (base != p || [1, 2, 3].any fun i => b.fnState (p + i) != 0 || b.rdN (Od.P_MODE (p + i)) != 0))

/-- The lane tests of a port's lanes (R304): refused combinations, loopbacks that differ, any test on the partner link. -/
def Block.testsBad (b : Block) (p mode : Nat) : Bool :=
  let ls := lanesOf mode p
  let sel (l : Nat) := testOf (b.rdN (Od.LANE_TEST l)) (b.rdN (Od.LANE_PRBS_GEN l)) (b.rdN (Od.LANE_PRBS_CHK l))
  (ls.any fun l => (sel l).isNone) || (ls.any fun l => b.rdN (Od.LANE_TEST l) != b.rdN (Od.LANE_TEST p))
    || (b.on Od.PAIR_ENABLED && ls.any fun l => l == 31 && sel l != some 0)

/-- Whether a lane of port p would send with fixed taps that break a constraint of R298. (DESIGN CHOICE, log 158.) -/
def Block.tapsBad (b : Block) (p mode : Nat) : Bool :=
  mode != 0 && (lanesOf mode p).any fun l => !(b.on (Od.LANE_TRAIN l) && decide (2 ≤ mode)) && !tapsOk (b.fixedTaps l)

/-- The status with which a start of port p is refused: STATE first (R527). (DEDUCED, log 95.) -/
def Block.portCheck (b : Block) (p : Nat) : Nat :=
  let mode := b.rdN (Od.P_MODE p)
  if b.portBarred p mode then (if mode = 4 ∧ p % 4 ≠ 0 then 5 else 6)
  else if !modeFecOk mode (b.rdN (Od.P_FEC p)) ∨ b.testsBad p mode ∨ b.tapsBad p mode then 5
  else 0

/-- The frequency bounds of PE2 and PE3 (R122). -/
def Block.engineCheck (b : Block) (e : Nat) : Nat :=
  let n := b.rdN (Od.PE_FREQ_NUM e)
  let d := b.rdN (Od.PE_FREQ_DEN e)
  if n < 1000 * d ∨ (if e = 2 then 125000000 else 250000000) * d < n then 5 else 0

/-- An aggregation group's members (R259). -/
def Block.lagCheck (b : Block) (g : Nat) : Nat :=
  let m := b.rdN (Od.LAG_MEMBERS g)
  let ps := maskBits 32 m
  let differ := ps.any fun p => b.rdN (Od.P_MODE p) != b.rdN (Od.P_MODE (ps.headD 0))
  let shared := (List.range 16).any fun h => h != g && b.fnState (53 + h) != 0 && (b.rdN (Od.LAG_MEMBERS h) &&& m) != 0
  if differ || shared then 5 else 0

/-- A solver pair's ports belong to no other pair that is running (R189). -/
def Block.asyCheck (b : Block) (i : Nat) : Nat :=
  let mine := [b.rdN (Od.ASY_PORT_P i), b.rdN (Od.ASY_PORT_Q i)].filter (· != 0xFF)
  let taken := (List.range 16).any fun j => j != i && b.fnState (69 + j) != 0 &&
    (mine.contains (b.rdN (Od.ASY_PORT_P j)) || mine.contains (b.rdN (Od.ASY_PORT_Q j)))
  if taken then 6 else 0

/-- A mirror session's analysis port (R289). -/
def Block.mirCheck (b : Block) (s : Nat) : Nat :=
  let p := b.rdN (Od.MIR_DEST s)
  if b.rdN (Od.MIR_DEST_TYPE s) = 0 then
    if p < 32 ∧ (bit (b.rdN (Od.MIR_SRC_RX s) ||| b.rdN (Od.MIR_SRC_TX s)) p ∨ b.portBarred p (b.rdN (Od.P_MODE p))) then 5 else 0
  else 0

/-- The GNSS function (R4, R324, R339). -/
def Block.gnssCheck (b : Block) : Nat :=
  if !b.on Od.CAP_GNSS_RF then 6
  else if b.rdN Od.GNSS_VEL_SPACING ≤ b.rdN Od.GNSS_EL_SPACING then 5
  else if b.rdN Od.GNSS_DUTY_PERIOD ≠ 0 ∧ b.rdN Od.GNSS_DUTY_PERIOD ≤ b.rdN Od.GNSS_DUTY_ON then 5
  else 0

/-- The checks of the owning chapter for a start of function f. (DEDUCED, log 95.) -/
def Block.startCheck (b : Block) (f : Nat) : Reply :=
  let plain (st : Nat) : Reply := ⟨b, st, 0⟩
  if f < 32 then plain (b.portCheck f)
  else if f = 34 ∨ f = 35 then plain (b.engineCheck (f - 32))
  else if 40 ≤ f ∧ f < 48 then
    plain (if b.rdN (Od.TIC_MODE (f - 40)) = 1 ∧ b.rdN (Od.TIC_STOP_CH (f - 40)) = 0xFF then 5
      else if (b.conv (36 + (f - 40))).run ≠ 0 then 6 else 0)
  else if 49 ≤ f ∧ f < 53 then plain (b.mirCheck (f - 49))
  else if 53 ≤ f ∧ f < 69 then plain (b.lagCheck (f - 53))
  else if 69 ≤ f ∧ f < 85 then plain (b.asyCheck (f - 69))
  else if f = 85 then plain b.gnssCheck
  else if 86 ≤ f ∧ f < 102 then b.graphCheck (f - 86)
  else if f = 102 then plain (if b.poolsFit then 0 else 5)
  else if 104 ≤ f ∧ f < 168 then
    let c := f - 104
    plain (if (b.rootPort && c == 63) || b.dmaStartBarred c (b.onFunction (b.rdN (Od.DMA_TENANT c)) (b.rdN (Od.DMA_FUNCTION c))) then 6 else 0)
  else plain 0

-- What a function does as it becomes RUN and STOPPED

/-- PE2 or PE3 starts (R122): it acquires; an output whose settings break a rule at the new frequency is held. -/
def Block.engineRun (b : Block) (e : Nat) : Block :=
  let b := ((b.setPe e fun p => { p with errs := [], within := none, overs := 0, acq := p.acq + 1 }).holdEngine e b.mer).wr (Od.PE_LOCK_STATUS e) 1
  let b := (b.outsOf e).foldl (fun b n =>
    if (checkOut b b.outCfgs (b.out n).cfg).isSome then (b.setOut n fun o => { o with invalid := true }).orBits (Od.OUT_STICKY n) 16
    else b.setOut n fun o => { o with invalid := false }) b
  b.refreshOuts
/-- PE2 or PE3 STOPPED: every output it drives is held. -/
def Block.engineStop (b : Block) (e : Nat) : Block :=
  (((b.holdEngine e b.mer).setPe e fun p => { acq := p.acq }).wr (Od.PE_LOCK_STATUS e) 0).refreshOuts

/-- A reference input STOPPED (Table 15.10): its inputs are ignored. -/
def Block.refinStop (b : Block) (r : Nat) : Block :=
  (b.wr (Od.REFIN_STATUS r) 0).setTm fun t => { t with refin := tdel t.refin r }

/-- A domain observer STOPPED: NO_SIGNAL. -/
def Block.domStop (b : Block) (d : Nat) : Block := (b.observerState d 0).domAb

/-- A domain observer becomes RUN: it has observed nothing of the domain it now follows, and its entries are in force (R57, R62). -/
def Block.domRun (b : Block) (d : Nat) : Block :=
  (b.setMt fun m => { m with obsArb := tdel m.obsArb d, obsClass := tdel m.obsClass d }).rerankAll

/-- Function f becomes RUN. -/
def Block.runEffect (b : Block) (f : Nat) : Block :=
  if f < 32 then b.portRun f
  else if f = 34 ∨ f = 35 then b.engineRun (f - 32)
  else if f = 36 ∨ f = 37 then b.refinStop (f - 36)
  else if f = 38 ∨ f = 39 then b.domRun (f - 38)
  else if 40 ≤ f ∧ f < 48 then b.ticRun (f - 40)
  else if f = 48 then b.clsRun
  else if 49 ≤ f ∧ f < 53 then b.mirRun (f - 49)
  else if 53 ≤ f ∧ f < 69 then b.lagStart (f - 53)
  else if 69 ≤ f ∧ f < 85 then b.asyRun (f - 69)
  else if 86 ≤ f ∧ f < 102 then b.graphRun (f - 86)
  else if f = 102 then b.poolsRun
  else if f = 103 then b.arcRun b.rootPort
  else if 104 ≤ f ∧ f < 168 then b.dmaRun (f - 104)
  else b

/-- Function f has completed the stop its chapter describes. -/
def Block.stopEffect (b : Block) (f : Nat) : Block :=
  if f < 32 then b.portStop f
  else if f = 34 ∨ f = 35 then b.engineStop (f - 32)
  else if f = 36 ∨ f = 37 then b.refinStop (f - 36)
  else if f = 38 ∨ f = 39 then b.domStop (f - 38)
  else if 40 ≤ f ∧ f < 48 then b.ticStop (f - 40)
  else if 53 ≤ f ∧ f < 69 then b.lagStop (f - 53)
  else if 69 ≤ f ∧ f < 85 then b.asyStop (f - 69)
  else if f = 85 then b.gnssStop
  else if 86 ≤ f ∧ f < 102 then b.graphStop (f - 86)
  else if 104 ≤ f ∧ f < 168 then b.dmaStop (f - 104)
  else b

-- The state machine of R419

/-- A function's own state, and the module with it changed. -/
def Block.fn (b : Block) (f : Nat) : FnSt := tat {} b.mg.fn f
def Block.setFnSt (b : Block) (f : Nat) (x : FnSt → FnSt) : Block := { b with mg := { b.mg with fn := tmod {} b.mg.fn f x } }

/-- Whether a tenant may write the RWS entries of function f or start it (R420). (DEDUCED, log 105.) -/
def Block.holds (b : Block) (f t : Nat) : Bool := let h := b.rdN (Od.FN_HOLDER f); h == 255 || t == 0 || h == t

/-- A refused start recorded (R419). (DEDUCED, log 105.) -/
def Block.startRefused (b : Block) (f st : Nat) : Block := (b.wr (Od.FN_LAST_ERROR f) (st * 256 : Nat)).orBits (Od.FN_STICKY f) 1

/-- A start of function f by tenant t. -/
def Block.functionStart (b : Block) (f t : Nat) : Reply :=
  match b.fnState f with
  | 0 =>
    if !b.holds f t then ⟨b.startRefused f 6, 6, 0⟩
    else
      let r := b.startCheck f
      if r.status ≠ 0 then ⟨r.b.startRefused f r.status, r.status, 0⟩
      else
        let b := (r.b.wr (Od.FN_HOLDER f) 255).setFn f 1
        (if f = 85 then (b.setGn fun x => { x with startAt := b.cyc }).showGnss else b).ok
  | 3 => b.stateError
  | _ => b.ok

/-- A stop begins; the tenant that asked for it becomes the holder at its end. (DEDUCED, log 105.) -/
def Block.beginStop (b : Block) (f t : Nat) : Block := (b.setFn f 3).setFnSt f fun _ => ⟨false, t⟩

/-- A stop of function f by tenant t. (DEDUCED, log 105.) -/
def Block.functionStop (b : Block) (f t : Nat) : Reply :=
  if f = 32 ∨ f = 33 then b.stateError
  else match b.fnState f with
  | 1 => (b.setFnSt f fun _ => ⟨true, t⟩).ok
  | 2 => if f = 102 ∧ !b.poolsIdle then b.stateError else (b.beginStop f t).ok
  | _ => b.ok

/-- Whether a STARTING function has its entries in force: the GNSS clock runs 2 ms after the start (R319). -/
def Block.startDone (b : Block) (f : Nat) : Bool := f != 85 || decide (b.gn.startAt + ms 2 ≤ b.cyc)

/-- FUNCTION_RUN: a STARTING function becomes RUN; a stop asked for meanwhile begins. (DEDUCED, log 105.) -/
def Block.functionRun (b : Block) (f : Nat) : Block :=
  if b.fnState f ≠ 1 ∨ !b.startDone f then b
  else
    let b := (b.runEffect f).setFn f 2
    let b := if f = 85 then b.gnssRun else b
    let x := b.fn f
    if x.stopPending then b.beginStop f x.stopper else b

/-- Whether a stop is complete but for what it does at its end: a port has sent the frame in progress, a graph can process and write its
blocks. (DEDUCED, log 81.) -/
def Block.stopReady (b : Block) (f : Nat) : Bool :=
  if f < 32 then (b.pf f).sending.isNone
  else if 86 ≤ f ∧ f < 102 then (b.graphFlush (f - 86) 8).graphEmpty (f - 86)
  else true

/-- FUNCTION_STOPPED: a STOPPING function becomes STOPPED. -/
def Block.functionStopped (b : Block) (f : Nat) : Block :=
  if b.fnState f ≠ 3 ∨ !b.stopReady f then b
  else
    let t := (b.fn f).stopper
    let b := (b.stopEffect f).setFnSt f fun _ => {}
    let b := (b.setFn f 0).wr (Od.FN_HOLDER f) t
    if f = 85 then b.showGnss else b

end Sys2Proof.Machine
end

