-- ==== Sys2Proof/Machine/Pair.lean ====
section
/-! DEFINITION. Redundant pair operation (chapter 17): heartbeats, roles, state export, switch-over, switch-back. -/

namespace Sys2Proof.Machine

/-- The pair's own state changed. -/
def Block.setPr (b : Block) (f : Pair → Pair) : Block := { b with pr := f b.pr }
/-- PAIR_STATE: 0 SINGLE, 1 STARTING, 2 ACTIVE, 3 STANDBY_SYNCING, 4 STANDBY_READY, 5 STANDBY_ISOLATED. -/
def Block.pairState (b : Block) : Nat := b.rdN Od.PAIR_STATE
/-- Whether this module itself pulls HANDOVER_N, and the level of the net. -/
def Block.pulls (b : Block) : Bool := match b.pr.pullUntil with | some t => decide (b.cyc < t) | none => false
def Block.handoverHigh (b : Block) : Bool := !b.pulls && decide (b.pr.netLow ≤ b.cyc)
/-- HANDOVER_N pulled low for 1 ms. -/
def Block.pull (b : Block) : Block := b.setPr fun p => { p with pullUntil := some (b.cyc + ms 1), netLow := b.cyc + ms 1 }

-- What a snapshot holds (R447, R449)

/-- Whether an entry is local (R449): each module of a pair keeps its own. (DEDUCED, log 108.) -/
def localKey (k : Nat) : Bool :=
  let index := k / 256 % 65536
  let sub := k % 256
  if index = 0x6000 then sub == 1 || sub == 3
  else if 0x2200 ≤ index ∧ index < 0x2220 then
    [Od.LT_BOARD_TX_DELAY, Od.LT_BOARD_RX_DELAY, Od.LT_OPTIC_TX_DELAY, Od.LT_OPTIC_RX_DELAY].any fun e => e 0 % 256 == sub
  else if 0x2410 ≤ index ∧ index < 0x2418 then Od.OUT_BOARD_DELAY 0 % 256 == sub
  else if 0x2418 ≤ index ∧ index < 0x241A then Od.REFIN_BOARD_DELAY 0 % 256 == sub
  else if 0x2900 ≤ index ∧ index < 0x2908 then Od.TIC_BOARD_DELAY 0 % 256 == sub
  else if index = 0x4000 then [Od.GNSS_ANT_DELAY_L1, Od.GNSS_ANT_DELAY_L5].any fun e => e % 256 == sub
  else if (0x2800 ≤ index ∧ index ≤ 0x2802) ∨ (0x2820 ≤ index ∧ index < 0x2840) then true
  else if index = 0x1101 then [Od.MP_CAN0_NODE, Od.MP_CAN1_NODE].any fun e => e % 256 == sub
  else false

/-- Whether an entry belongs to counters, rings or the archive, which are not exported. (DEDUCED, log 108.) -/
def countKey (k : Nat) : Bool :=
  let index := k / 256 % 65536
  let sub := k % 256
  (decide (0x7110 ≤ index) && decide (index < 0x7150) && sub == Od.CNTN_VALUE 0 % 256) || k % 2 ^ 24 == Od.CNT_RING_RD 0
    || k % 2 ^ 24 == Od.TIC_RING_RD 0 || k % 2 ^ 24 == Od.GNSS_RING_RD 0 || k % 2 ^ 24 == Od.ARC_RD 0

/-- Whether a snapshot carries the entry under a key: every RW and RWS entry that is not local. (DEDUCED, log 108.) -/
def exported (k : Nat) : Bool :=
  let index := k / 256 % 65536
  match entryAt ((findRecord records index).elim 0 (·.1)) (k % 256) with
  | some e => (e.acc == .rw || e.acc == .rws) && !localKey k && !countKey k
  | none => false

/-- Whether an entry configures the Vesper domain, which a standby runs. -/
def vesperKey (k : Nat) : Bool := let i := k / 256 % 65536; decide (0x2000 ≤ i) && decide (i < 0x2A00)
/-- The functions of the Vesper domain: PE, REFIN, DOM, TIC and ASY. -/
def vesperFn (f : Nat) : Bool := (decide (32 ≤ f) && decide (f < 48)) || (decide (69 ≤ f) && decide (f < 85))

/-- The value a snapshot gives an entry. -/
def Snapshot.at_ (s : Snapshot) (k : Nat) : Int := (tget s.entries k).getD (odDefault k)

/-- The snapshot of an active module (R447) under a sequence and a size. (DEDUCED, log 108.) -/
def Block.takeSnapshot (b : Block) (seq size : Nat) : Snapshot :=
  { seq := seq, time := b.mer, size := size
    entries := b.od.filter fun e => exported e.1
    blobs := b.blobs.filter fun e => exported e.1
    running := (List.range 168).filter fun f => b.fnRuns f
    mac := b.fab.mac, macKey := b.fab.macKey, lag := b.fab.lag, commit := b.tm.commit, acq := [(b.pe 2).acq, (b.pe 3).acq]
    gates := (List.range 32).filterMap fun p => (b.pf p).gate.pend.map fun c => (p, c)
    timeSet := b.on Od.MT_TIME_SET, utc := b.rd Od.MT_UTC_OFFSET, utcValid := b.tm.mt.utcGood
    leap := b.rdN Od.MT_LEAP_PENDING, leapAt := b.rdN Od.MT_LEAP_TAI, domLeft := b.domResidual, domOf := b.tm.mt.domOf
    observers := (List.range 2).map fun d => b.rdN (Od.DOMX_STATE d)
    slots := (List.range 24).map fun k =>
      ⟨b.slotState k, (b.slot k).wtrEnd.map fun t => t - b.cyc, b.rdN (Od.SLOT_TRIPS k)⟩
    selected := b.rdN Od.SEL_SELECTED, phase := b.rdN Od.SEL_PHASE, pe0 := b.pe0
    tau := match b.tm.ho.startAt with | some t => b.cyc - t | none => 0
    e0 := if b.pe0 = 3 ∨ b.pe0 = 4 then b.tm.ho.e0 else b.uncertainty
    side := (List.range 32).map fun l => (l, b.rdN (Od.LANE_SB_OUT l))
    outs := b.outCfgs }

-- Heartbeats (R450, R451)

/-- The word of a heartbeat block (Table 17.2). -/
def heartbeatWord (seq state flags reel exp : Nat) : Word64 :=
  let hi := (seq % 65536) * 2 ^ 12 + state % 16 * 2 ^ 8 + flags % 16 * 2 ^ 4 + reel % 16
  BitVec.ofNat 64 (hi * 2 ^ 36 + 0xB * 2 ^ 32 + exp % 65536 * 2 ^ 16 + crc8 44 (hi * 2 ^ 16 + exp % 65536) 0 * 2 ^ 8 + 0x4B)

/-- Whether a received block is a heartbeat with a good check. -/
def heartbeatOk (w : Word64) : Bool :=
  let v := w.toNat
  bits v 0 8 == 0x4B && bits v 32 4 == 0xB && bits v 8 8 == crc8 44 (bits v 36 28 * 2 ^ 16 + bits v 16 16) 0

/-- The port whose T marker is the newest, the partner link only when no other port sends any. (DEDUCED, log 110.) -/
def Block.newestPort (b : Block) : Nat :=
  ((List.range 31).foldl (fun (m : Nat × Nat) p => match (b.reel p).sent with
    | (_, t) :: _ => if b.lit p && decide (m.2 < t + 1) then (p, t + 1) else m
    | [] => m) (31, 0)).1

/-- The Reel SEQ that the heartbeat gives: of the newest T marker. (DEDUCED, log 110.) -/
def Block.newestReel (b : Block) : Nat := match (b.reel b.newestPort).sent with | (s, _) :: _ => s | [] => 0

/-- The heartbeat this module sends now. (DEDUCED, log 110.) -/
def Block.heartbeat (b : Block) : Word64 :=
  let flags := b2n (b.on Od.MT_TIME_VALID) * 8 + b2n b.safe * 4 + b2n b.pr.back.isSome * 2
  let exp := if b.pairState = 2 then b.rdN Od.EXPORT_SEQ
    else match b.pr.held with | some s => s.seq | none => 0
  heartbeatWord b.pr.hbSeq b.pairState flags b.newestReel exp

/-- 50 µs in ticks. -/
def hbTicks : Nat := 50000 * 65536

/-- HEARTBEAT_TX: at a whole multiple of 50 µs that has not been sent yet, unless this module gives up the role. -/
def Block.heartbeatTx (b : Block) : Block :=
  let n := b.mer / hbTicks
  if !b.on Od.PAIR_ENABLED ∨ !b.on (Od.P_LINK 31) ∨ b.pr.hbSent = some n ∨ b.pulls then b
  else (b.emit (.heartbeat b.heartbeat)).setPr fun p => { p with hbSeq := (p.hbSeq + 1) % 65536, hbSent := some n }

-- Roles

/-- ROLE driven. -/
def Block.setRole (b : Block) (v : Bool) : Block := b.wr Od.SWO_ROLE (b2n v)

/-- The slots of kind PARTNER. -/
def Block.partnerSlots (b : Block) : List Nat := (List.range 24).filter fun k => b.slotKind k == 7

/-- A frame queue discarded without a count (R452). -/
def Block.discardQueue (b : Block) (k : Nat) : Block :=
  (List.range (b.queue k).frames.length).foldl (fun b _ => match (b.queue k).frames with
    | [] => b
    | d :: _ => (b.popHead k).release d.chain) b

/-- Every frame of port p discarded without a count. -/
def Block.discardPort (b : Block) (p : Nat) : Block :=
  let x := b.pf p
  let out := x.sending.toList ++ x.fip.ready ++ x.fip.held ++ (x.fip.delayed.map (·.1)).toList
  let b := out.foldl (fun (b : Block) (t : Tx) => b.releaseTx t) b
  let b := b.setPf p fun y => { y with sending := none, ingress := [], fip := { y.fip with ready := [], held := [], delayed := none, through := 0 } }
  (List.range 16).foldl (fun b q => b.discardQueue (p * 16 + q)) b

/-- A function stopped as part of a change of role. (DEDUCED, log 110.) -/
def Block.roleStop (b : Block) (f : Nat) : Block := if b.fnState f = 0 then b else (b.stopEffect f).setFn f 0

/-- A standby's ports stop forwarding, its queues are discarded, its fabric, compute and GNSS functions stop; PMA and PCS of its RUN ports go on, and only the PARTNER slot steers
(R444, R452). (DEDUCED, log 110.) -/
def Block.standDown (b : Block) : Block :=
  let b := (List.range 32).foldl (fun b p =>
    if b.fnRuns p then ((b.discardPort p).setPf p fun x => { x with lit := true }).setFn p 0 else b) b
  let b := (List.range 64).foldl (fun b q => b.discardQueue (512 + q)) b
  let b := ((List.range 168).filter fun f => decide (32 < f) && !vesperFn f).foldl (fun b f => b.roleStop f) b
  let b := (List.range 24).foldl (fun b k => if (b.slot k).active && !b.sourceActive k then b.sourceOff k else b) b
  b.evaluate

/-- The module becomes standby (R444, R445, R452): it has left the role, holds no snapshot yet, and stands down. (DEDUCED, log 109.) -/
def Block.becomeStandby (b : Block) : Block :=
  let b := ((b.setRole false).wr Od.PAIR_STATE 3).setPr fun p =>
    { p with roleAt := none, held := none, aged := false, missed := 0, loading := false, taking := none, back := none, hbAt := some b.cyc }
  (b.wr Od.EXPORT_SEQ 0).standDown

/-- The active module gives up the role (R452). (DEDUCED, log 110.) -/
def Block.giveUp (b : Block) : Block := b.pull.becomeStandby

/-- The snapshot's Meridian state taken into force (R453, step 3). -/
def Block.takeMeridian (b : Block) (s : Snapshot) : Block :=
  let b := ((b.wr Od.MT_TIME_SET (b2n s.timeSet)).wr Od.MT_UTC_OFFSET s.utc).wr Od.MT_LEAP_PENDING s.leap
  let b := (b.wr Od.MT_LEAP_TAI s.leapAt).setMt fun m => { m with dom := b.domRamp s.domLeft, domOf := s.domOf, utcGood := s.utcValid }
  (List.range 2).foldl (fun b d => b.observerState d (s.observers.getD d 0)) b.showUtc

/-- E₀ and τ of the survivor's holdover (R453, R454): the snapshot's E₀ plus the PARTNER link term; τ goes on where the snapshot was in
holdover. -/
def Block.takeHoldover (b : Block) (s : Snapshot) (link : Nat) : Block :=
  let b := b.setHo fun h =>
    { h with e0 := min unknownUnc (s.e0 + link), startAt := h.startAt.map fun t => if s.pe0 = 3 ∨ s.pe0 = 4 then t - s.tau else t }
  match b.tm.ho.startAt with
  | some t => if b.pe0 = 3 ∨ b.pe0 = 4 then b.reportHoldover ((b.cyc - t) / secs 1) else b
  | none => b

/-- The role taken (R453, steps 1 and 2): ROLE, the pull of HANDOVER_N, the pair's entries. -/
def Block.takeRole (b : Block) (cause fault : Nat) : Block :=
  let b := (b.setRole true).pull
  let b := b.orBits Od.PAIR_STICKY (if b.on Od.SWO_PARTNER_ALIVE then 10 else 2)
  let b := ((b.wr Od.PAIR_STATE 2).wr Od.SWO_LAST_CAUSE cause).wr Od.SWO_LAST_TIME b.mer
  b.setPr fun p => { p with taking := some (cause, fault), roleAt := some b.cyc, loading := true }

/-- The survivor leaves the partner's time (R453, step 3): the PARTNER slots have no source, the snapshot's Meridian state and holdover are in force, a slot is selected afresh,
and the clocks that its functions need are started. -/
def Block.leavePartner (b : Block) (s : Snapshot) (link : Nat) : Block :=
  let b := b.partnerSlots.foldl (fun b k => b.sourceOff k) b
  let b := (b.takeMeridian s).takeHoldover s link
  ((b.evaluate.need .fabric).need .lpddr).need .prixus

/-- The active module declared failed (R451, R453, steps 1 to 3). `fault` is the cycle of the fault. (DEDUCED, log 109.) -/
def Block.declareFailed (b : Block) (cause fault : Nat) : Block :=
  if b.pr.taking.isSome then b
  else match b.pr.held with
  | none => b.raise 0x6007 0 4
  | some s =>
    let link := b.rdN (Od.LT_OFFSET_UNC 31)
    (b.takeRole cause fault).leavePartner s link

/-- A start-up as active (R455). -/
def Block.startActive (b : Block) : Block :=
  let b := ((b.setRole true).wr Od.PAIR_STATE 2).setPr fun p => { p with roleAt := some b.cyc, exportAt := b.cyc }
  (b.wr Od.SWO_LAST_CAUSE 4).wr Od.SWO_LAST_TIME b.mer

/-- A missed heartbeat on a standby (R451). (DEDUCED, log 109.) -/
def Block.miss (b : Block) : Block :=
  let n := b.pr.missed + 1
  let b := ((b.bump Od.SWO_HB_MISSED 1).orBits Od.PAIR_STICKY 1).setPr fun p => { p with missed := n }
  let b := b.raise 0x6003 0 (min n 3)
  let b := if n = 1 then ((b.need .fabric).need .lpddr).setPr fun p => { p with loading := true } else b
  if n = 3 then
    if b.on Od.SWO_PARTNER_ALIVE then ((b.wr Od.PAIR_STATE 5).orBits Od.PAIR_STICKY 4).raise 0x6002 0 2
    else b.declareFailed 1 (b.pr.hbAt.getD b.cyc)
  else b

/-- Whether this module is a standby that expects heartbeats. -/
def Block.expects (b : Block) : Bool := b.pairState == 3 || b.pairState == 4

/-- HEARTBEAT_MISS: 10 µs after its instant a heartbeat has not arrived. -/
def Block.heartbeatMiss (b : Block) : Block :=
  match b.pr.hbAt with
  | some t => if b.expects && decide (t + us 50 * (b.pr.missed + 1) + us 10 ≤ b.cyc) then b.miss else b
  | none => b

/-- EXPORT_ACKED from the 16 low bits that the standby's heartbeat carries: the newest such sequence not above the last one sent. -/
def ackOf (sent low : Nat) : Nat := let d := (sent + 65536 - low % 65536) % 65536; sent - d

/-- The SEQ of a port moved by whole periods so that its low bits at a Meridian instant are those given: the nearest such move, none if they agree
already; T markers within 1 µs of the instant count either way. (DEDUCED, log 110.) -/
def Reel.toSeq (r : Reel) (t low : Nat) : Reel :=
  let slack := 1000 * 65536
  let after (x : Nat) : Nat := (r.sent.filter fun e => decide (x < e.2)).length
  let newest (k : Nat) : Nat := (r.seq + 131071 - k) % 65536
  let few := after (t + slack)
  let many := after (t - slack)
  if (List.range (many + 1 - few)).any fun j => newest (few + j) % 16 == low then r
  else
    let d := (low + 16 - newest few % 16) % 16
    { r with seq := (r.seq + if d < 8 then d else 65520 + d) % 65536 }

/-- A standby takes the SEQ of its T markers from the heartbeats (R446): each names the newest T marker of the sender at its 50 µs instant, and
the ports that share the rate and the phase of the standby's own newest marker follow it. (DEDUCED, log 110.) -/
def Block.followSeq (b : Block) (low : Nat) : Block :=
  let n := b.newestPort
  let half := (b.rd (Od.LT_RTT 31) / 2).toNat
  let t := (b.mer - half + hbTicks / 2) / hbTicks * hbTicks
  let per (p : Nat) : Nat := 1000000000 / b.ltRate p
  let phase (p : Nat) : Nat := b.rdN (Od.LT_MARKER_PHASE p) % per p
  if n = 31 then b
  else (List.range 31).foldl (fun c p =>
    if (b.pf p).lit && b.ltRate p == b.ltRate n && phase p == phase n then c.setReel p fun r => r.toSeq t low else c) b

/-- A good heartbeat (R446, R448, R450, R451, R455, R457). (DEDUCED, log 107.) -/
def Block.heartbeatGood (b : Block) (w : Word64) : Block :=
  let v := w.toNat
  let st := bits v 44 4
  let was := b.rdN Od.PAIR_PARTNER_STATE
  let b := (b.wr Od.PAIR_PARTNER_STATE st).setPr fun p =>
    { p with hbAt := some b.cyc, missed := 0, partnerBack := bit v 41 }
  let b := if b.pairState = 1 ∧ st = 2 then b.becomeStandby else b
  let b := if b.pairState = 5 then b.wr Od.PAIR_STATE 3 else b
  if b.pairState = 2 then
    let b := if st = 4 ∧ was ≠ 4 then b.raise 0x6005 else b
    let ack := ackOf (b.rdN Od.EXPORT_SEQ) (bits v 16 16)
    let b := if st = 3 ∨ st = 4 then b.wr Od.EXPORT_ACKED ack else b
    match b.pr.back with
    | some (seq, _) => if (st = 3 ∨ st = 4) ∧ ack = seq then b.giveUp else b
    | none => b
  else if b.standby then
    let b := b.followSeq (bits v 36 4)
    if b.pr.partnerBack then
      if b.pr.loading then b else ((b.need .fabric).need .lpddr).setPr fun p => { p with loading := true }
    else if b.pr.loading then (b.bump Od.SWO_PREWAKES 1).setPr fun p => { p with loading := false }
    else b
  else b

/-- A standby takes what the active module carries to it (R454): an output commit is armed here too, a gate list change waits with the snapshot
held. (DESIGN CHOICE, log 111.) -/
def Block.takeCarry (b : Block) (x : Carry) : Block :=
  let held (b : Block) (f : Snapshot → Snapshot) : Block := b.setPr fun p => { p with held := p.held.map f }
  match x with
  | .commit c => (held b fun s => { s with commit := some c }).setTm (fun t => { t with commit := some c }) |>.armTick .outCommit c.tick
  | .gate p c => held b fun s => { s with gates := tput s.gates p c }

/-- HEARTBEAT_RX: a block from the partner, and what the partner has carried over since the last one. A heartbeat that fails its check is a missed
one. -/
def Block.heartbeatRx (b : Block) (w : Word64) (carried : List Carry) : Block :=
  let b := if b.on Od.PAIR_ENABLED && b.standby then carried.foldl Block.takeCarry b else b
  if !b.on Od.PAIR_ENABLED then b
  else if heartbeatOk w then b.heartbeatGood w
  else if b.expects then b.miss else b

/-- HANDOVER_N_FALL: a falling edge that this module is not driving (R451, R452). (DEDUCED, log 109.) -/
def Block.handoverFall (b : Block) : Block :=
  if !b.on Od.PAIR_ENABLED ∨ b.pulls then b
  else
    let b := b.setPr fun p => { p with netLow := b.cyc + ms 1 }
    if b.pairState = 2 then b.becomeStandby
    else if b.standby then b.declareFailed (if b.pr.partnerBack then 3 else 2) b.cyc
    else b

/-- PARTNER_ALIVE_FALL (R451). (DEDUCED, log 109.) -/
def Block.aliveFall (b : Block) : Block :=
  let b := (b.wr Od.SWO_PARTNER_ALIVE 0).setPr fun p => { p with aliveLowAt := some b.cyc }
  if b.pairState = 5 then b.declareFailed 1 b.cyc else b

/-- PARTNER_ALIVE_RISE (R455): position B gives way within 1 ms of driving ROLE high at start-up. -/
def Block.aliveRise (b : Block) : Block :=
  let b := (b.wr Od.SWO_PARTNER_ALIVE 1).setPr fun p => { p with aliveLowAt := none }
  match b.pr.roleAt with
  | some t => if b.pr.posB ∧ b.pairState = 2 ∧ b.rdN Od.SWO_LAST_CAUSE = 4 ∧ b.cyc ≤ t + ms 1 then b.becomeStandby else b
  | none => b

/-- PAIR_STARTUP_TIMEOUT (R455). Position B that drives ROLE high while PARTNER_ALIVE is high gives way at once. (DEDUCED, log 109.) -/
def Block.startupTimeout (b : Block) : Block :=
  if b.pairState ≠ 1 ∨ b.cyc < b.pr.since + secs 2 then b
  else if b.pr.posB then b.startActive.when (b.on Od.SWO_PARTNER_ALIVE) fun b => b.becomeStandby
  else match b.pr.aliveLowAt with
    | some t => if t + ms 10 ≤ b.cyc then b.startActive else b
    | none => b

/-- What R456 asks before a syncing standby is ready, and the identities that the partner link's slow words carry (R446). (DEDUCED, log 107.) -/
def Block.pairWatch (b : Block) : Block :=
  if !b.on Od.PAIR_ENABLED then b
  else
    let words := (b.reel 31).words
    let b := match tget words 6, tget words 7 with
      | some lo, some hi => let id : Nat := lo + hi * 2 ^ 32; (b.wr Od.PAIR_PARTNER_ID id).when b.pr.posB fun b => b.wr Od.PAIR_IDENTITY id
      | _, _ => b
    let b := if b.pr.posB then b else b.wr Od.PAIR_IDENTITY (b.rd Od.ID_MODULE_IDENTITY)
    let onPartner : Bool := match b.selected with | some k => b.slotKind k == 7 | none => false
    let fw := tget words 8 == some (b.rdN Od.ID_FW_MINOR * 2 ^ 8 + b.rdN Od.ID_FW_MAJOR)
    if b.pairState == 3 && b.pe0 == 2 && onPartner && !b.on Od.OSC_WARMUP && b.on Od.HO_MODEL_VALID && b.pr.held.isSome && fw then
      (b.wr Od.PAIR_STATE 4).raise 0x6005
    else b

/-- The give-up that the safe state asks of an active module whose partner is ready (R452). -/
def Block.safeGiveUp (b : Block) : Block :=
  if b.safe ∧ b.pairState = 2 ∧ b.rdN Od.PAIR_PARTNER_STATE = 4 ∧ b.pr.taking.isNone then b.giveUp else b

-- State export (R447, R448)

/-- One export (R447): a job on JOB15. The job's steps and the snapshot's size of at most 6 MiB are free values. One with the partner link down
fails. (DESIGN CHOICE, log 4; DEDUCED, log 108.) -/
def Block.export_ (b : Block) : Block :=
  if b.jobLive 15 then b
  else
    let seq := b.rdN Od.EXPORT_SEQ + 1
    let b := (b.openJob 15 6 255 [] 0).setPr fun p => { p with exportAt := b.cyc }
    if !b.on (Od.P_LINK 31) then ((b.endJob 15 4).bump Od.EXPORT_FAILS 1).raise 0x6007 0 1
    else
      let (size, b) := b.draw (6 * 2 ^ 20 + 1)
      let s := b.takeSnapshot seq size
      let b := (((b.wr Od.EXPORT_SEQ seq).wr Od.EXPORT_TIME s.time).wr Od.EXPORT_BYTES size).emit (.snapshot s)
      b.endJob 15 3

/-- STATE_EXPORT: every 100 ms on an active module. (DEDUCED, log 108.) -/
def Block.stateExport (b : Block) : Block :=
  if b.pairState = 2 ∧ b.pr.exportAt + ms 100 ≤ b.cyc ∧ b.mg.srv.running then b.export_ else b

/-- The entries of a snapshot taken into the dictionary where `hit` holds. (DEDUCED, log 108.) -/
def Block.loadEntries (b : Block) (s : Snapshot) (hit : Nat → Bool) : Block :=
  let mine (k : Nat) : Bool := exported k && hit k
  let b := { b with od := tdrop b.od mine, blobs := tdrop b.blobs mine }
  let b := (s.entries.filter fun e => mine e.1).foldl (fun (b : Block) (e : Nat × Int) => b.wr e.1 e.2) b
  (s.blobs.filter fun e => mine e.1).foldl (fun (b : Block) (e : Nat × Bytes) => b.wrBlob e.1 e.2) b

/-- What a standby follows of each snapshot (R444, log 40): the entries of the Vesper domain with its functions, output settings in force and an
armed output commit, and which ports' PMA and PCS run. (DESIGN CHOICE, log 111.) -/
def Block.followSnapshot (b : Block) (s : Snapshot) : Block :=
  let moved := (List.range 24).filter fun k =>
    b.rd (Od.SLOT_KIND k) != s.at_ (Od.SLOT_KIND k) || b.rd (Od.SLOT_PORT k) != s.at_ (Od.SLOT_PORT k) ||
      b.rd (Od.SLOT_PTP_DOMAIN k) != s.at_ (Od.SLOT_PTP_DOMAIN k)
  let b := b.loadEntries s vesperKey
  let b := moved.foldl (fun b k => b.restartSlot k) b
  let b := ((List.range 85).filter fun f => vesperFn f && decide (33 < f)).foldl (fun b f =>
    if s.running.contains f then (if b.fnRuns f then b else (b.runEffect f).setFn f 2) else b.roleStop f) b
  let b := b.takeCfgs s.outs b.mer
  -- an acquisition that the active module has begun since its last snapshot begins here too (R123)
  let b := [2, 3].foldl (fun b e =>
    let acq := s.acq.getD (e - 2) 0
    if (b.pe e).acq = acq then b else (b.reacquire e b.mer).setPe e fun p => { p with acq := acq }) b
  let b := match s.commit with
    | some c => if b.tm.commit = some c then b else (b.setTm fun t => { t with commit := some c }).armTick .outCommit c.tick
    | none => (b.setTm fun t => { t with commit := none }).disarm .outCommit
  let b := b.refreshOuts
  (List.range 31).foldl (fun b p =>
    if s.running.contains p then
      if (b.pf p).lit then b
      else
        let mode := (s.at_ (Od.P_MODE p)).toNat
        let b := b.setPf p fun x => { x with lit := true, modeInForce := mode, fecInForce := (s.at_ (Od.P_FEC p)).toNat }
        (lanesOf mode p).foldl (fun b l => b.laneStart l) b
    else if (b.pf p).lit then (b.linkDown p 1).setPf p fun x => { x with lit := false, modeInForce := 0 }
    else b) b

/-- SNAPSHOT_RX (R448): `whole` says it was not cut short, `crcOk` that its CRC-32 checks. (DEDUCED, log 108.) -/
def Block.snapshotRx (b : Block) (s : Snapshot) (whole crcOk : Bool) : Block :=
  if !b.standby then b
  else
    let later : Bool := match b.pr.held with | some h => decide (h.seq < s.seq) | none => true
    if whole && crcOk && later then
      let b := b.setPr fun p => { p with held := some s, heldAt := b.cyc, aged := false }
      (((b.wr Od.EXPORT_SEQ s.seq).wr Od.EXPORT_TIME s.time).wr Od.EXPORT_BYTES s.size).followSnapshot s
    else ((b.bump Od.EXPORT_DISCARDED 1).orBits Od.PAIR_STICKY 32).raise 0x6007 0 2

/-- SNAPSHOT_AGE_EXPIRY (R448). -/
def Block.snapshotAge (b : Block) : Block :=
  if b.standby && b.pr.held.isSome && !b.pr.aged && decide (b.pr.heldAt + ms (b.rdN Od.EXPORT_AGE_LIMIT) < b.cyc) then
    ((b.setPr fun p => { p with aged := true }).orBits Od.PAIR_STICKY 16).raise 0x6007 0 3
  else b

-- Switch-over and switch-back

/-- The fabric's tables loaded from a snapshot. (DEDUCED, log 108.) -/
def Block.loadTables (b : Block) (s : Snapshot) : Block :=
  let b := (b.loadEntries s fun k => !vesperKey k).setFab fun x => { x with macKey := s.macKey, lag := s.lag, pol := [] }
  let b := b.setMac s.mac
  let b := s.gates.foldl (fun (b : Block) (e : Nat × GatePend) =>
    let p := e.1
    let b := b.setGate p fun g => g.arm e.2
    let b := (b.wr (Od.GCL_CHANGE_STATUS p) 1).wr (Od.GCL_CHANGE_TIME p) e.2.at_
    b.armWord (.gcl (Fin.ofNat 32 p)) e.2.at_) b
  let b := s.side.foldl (fun (b : Block) (e : Nat × Nat) => b.wr (Od.LANE_SB_OUT e.1) e.2) b
  let cnt := (List.range 64).filterMap fun n =>
    if b.rdN (Od.CNTN_MODE n) = 0 then none else some (n, b.rdN (Od.CNTN_SELECT n), b.rdN (Od.CNTN_MODE n))
  { b with mg := { b.mg with cnt := cnt } }

/-- The snapshot's RUN functions started, ports first (R453, steps 4 and 5). -/
def Block.runSnapshot (b : Block) (s : Snapshot) : Block :=
  s.running.foldl (fun b f =>
    if b.fnState f ≠ 0 then b
    else
      let b := ((b.setFn f 1).runEffect f).setFn f 2
      let b := if f = 85 then b.gnssRun else b
      if f < 32 then b.setPf f fun x => { x with lit := false } else b) b

/-- SWITCHOVER_TABLES_LOADED (R453). (DEDUCED, log 109.) -/
def Block.tablesLoaded (b : Block) : Block :=
  match b.pr.taking, b.pr.held with
  | some (cause, fault), some s =>
    if !b.clockRuns .fabric then b
    else
      let b := (b.loadTables s).runSnapshot s
      let gap := (b.cyc - fault) / us 1
      let b := ((b.wr Od.PAIR_LAST_GAP gap).bump Od.PAIR_SWITCHOVERS 1).raise 0x6004 0 gap
      let b := if cause = 3 then b.raise 0x6006 else b
      b.setPr fun p => { p with taking := none, loading := false, held := none, exportAt := b.cyc, partnerBack := false }
  | _, _ => b

/-- PAIR_SWITCH_BACK (R457). -/
def Block.switchBack (b : Block) : Reply :=
  if b.pairState ≠ 2 ∨ b.rdN Od.PAIR_PARTNER_STATE ≠ 4 then b.stateError
  else
    let seq := b.rdN Od.EXPORT_SEQ + 1
    (b.export_.setPr fun p => { p with back := some (seq, b.cyc) }).ok

/-- SWITCH_BACK_TIMEOUT (R457). -/
def Block.switchBackTimeout (b : Block) : Block :=
  match b.pr.back with
  | some (_, t) => if t + ms 100 ≤ b.cyc then (b.setPr fun p => { p with back := none }).raise 0x6007 0 1 else b
  | none => b

/-- The pair as it starts after a reset that clears the fabric (R442, R455). -/
def Block.pairStart (b : Block) : Block :=
  let en := b.on Od.PAIR_ENABLE
  let alive := b.pr.aliveLowAt
  let b := (((b.wr Od.PAIR_ENABLED (b2n en)).wr Od.PAIR_STATE (b2n en)).setRole false).setPr fun p =>
    { posB := b.on Od.PAIR_POSITION, since := b.cyc, aliveLowAt := alive, netLow := p.netLow }
  (b.wr Od.PAIR_PARTNER_STATE 0xFF).setPf 31 fun x => if en then { x with modeInForce := 3, fecInForce := 0 } else x

end Sys2Proof.Machine
end

