-- ==== Sys2Proof/Machine/Power.lean ====
section
/-! DEFINITION. Supply inputs, brace and hold-up (R479 to R488). Voltages are mV. -/

namespace Sys2Proof.Machine

/-- The power state changed. -/
def Block.setPw (b : Block) (f : Power → Power) : Block := { b with pw := f b.pw }

/-- VIN and VBAK measured: SUP_VIN, SUP_VBAK, SUP_VIN_MIN and the transient bit (Table 19.11). (DEDUCED, log 112.) -/
def Block.measure (b : Block) (vin vbak : Nat) : Block :=
  let b := ((b.wr Od.SUP_VIN vin).wr Od.SUP_VBAK vbak).setPw fun p => { p with supply := some (vin, vbak) }
  let b := b.wr Od.SUP_VIN_MIN (min (b.rdN Od.SUP_VIN_MIN) vin : Nat)
  if 75000 < vin then b.orBits Od.SUP_STICKY 8 else b
/-- VHOLD measured. -/
def Block.measureHold (b : Block) (vhold : Nat) : Block := (b.wr Od.SUP_VHOLD vhold).setPw fun p => { p with vhold := vhold }

/-- SUP_WARN_V, and with SUP_WARN_HYST. -/
def Block.warnV (b : Block) : Nat := b.rdN Od.SUP_WARN_V
def Block.exitV (b : Block) : Nat := b.rdN Od.SUP_WARN_V + b.rdN Od.SUP_WARN_HYST

/-- The end of the last record of each graph that reached flash or NVMe. (DEDUCED, log 113.) -/
def Block.durable (b : Block) : Table Nat :=
  (List.range 16).filterMap fun g =>
    let ends := ((b.arc.flash ++ b.arc.nvme).filter fun r => (r.2.getD 5 0).toNat == g).map fun r =>
      let rate := ofLE (slice r.2 24 4)
      whenOf r.2 + if rate = 0 then 0 else sampleTime rate (ofLE (slice r.2 28 2))
    ends.max?.map fun t => (g, t)

/-- The brace record as it stands now (Table 19.4). (DEDUCED, log 113.) -/
def Block.braceRecord (b : Block) : BraceRecord :=
  { model := some (b.rd Od.HO_AGEING, b.rd Od.HO_TEMP_COEF, b.rdN Od.HO_AGEING_UNC, b.rdN Od.HO_TEMP_UNC, b.rdN Od.HO_TEMP_COEF_SOURCE)
    fw := b.rd (Od.PE_FREQ_WORD 0), arcSeq := b.arc.flashSeq, staged := b.stagedBytes, lastWhen := b.durable, wear := b.arc.written
    vinMin := b.rdN Od.SUP_VIN_MIN, cause := b.pw.rst.active.headD 0 }

/-- Brace entered (R484). -/
def Block.enterBrace (b : Block) : Block :=
  let b := (((b.wr Od.BRACE_STATE 1).bump Od.BRACE_ENTRIES 1).wr Od.BRACE_LAST_TIME b.mer).raise 0x1301 0 (b.rdN Od.SUP_VIN)
  let b := (b.orBits Od.SUP_STICKY 1).orBits Od.BRACE_STICKY 1
  (b.setPw fun p => { p with braceAt := b.cyc, sram := some b.braceRecord }).wr Od.BRACE_SNAPSHOT_TIME b.mer

/-- Brace left (R485). -/
def Block.leaveBrace (b : Block) : Block :=
  let n := (b.cyc - b.pw.braceAt) / ms 1
  ((b.wr Od.BRACE_STATE 0).wr Od.BRACE_LAST_LENGTH n).raise 0x1302 0 n

/-- The module draws from VBAK (R480). (DEDUCED, log 112.) -/
def Block.toVbak (b : Block) : Block := ((b.wr Od.SUP_SOURCE 1).orBits Od.SUP_STICKY 2).raise 0x1303 0 (b.rdN Od.SUP_VBAK)

/-- VIN_BELOW_WARNING: the input in use has fallen below SUP_WARN_V. (DEDUCED, log 112.) -/
def Block.vinBelow (b : Block) (vin vbak : Nat) : Block :=
  let b := b.measure vin vbak
  if b.rdN Od.BRACE_STATE ≠ 0 then b
  else match b.rdN Od.SUP_SOURCE with
    | 0 => if b.warnV ≤ vin then b else if b.warnV ≤ vbak then b.toVbak else b.enterBrace
    | _ => if b.warnV ≤ vbak ∨ b.warnV ≤ vin then b else b.enterBrace

/-- VIN_RETURN: VIN has stayed at or above the exit level for 200 ms (R480). (DEDUCED, log 112.) -/
def Block.vinReturn (b : Block) (vin : Nat) : Block :=
  let b := b.measure vin (b.rdN Od.SUP_VBAK)
  if vin < b.exitV ∨ b.rdN Od.SUP_SOURCE ≠ 1 then b
  else
    let b := (b.wr Od.SUP_SOURCE 0).raise 0x1304 0 vin
    if b.rdN Od.BRACE_STATE = 1 then b.leaveBrace else b

/-- BRACE_EXIT: the input in use has stayed at or above the exit level for 200 ms. (DEDUCED, log 112.) -/
def Block.braceExit (b : Block) (input : Nat) : Block :=
  let b := if b.rdN Od.SUP_SOURCE = 1 then b.measure (b.rdN Od.SUP_VIN) input else b.measure input (b.rdN Od.SUP_VBAK)
  if b.rdN Od.BRACE_STATE = 1 ∧ b.exitV ≤ input then b.leaveBrace else b

/-- VBAK_ABOVE_WARNING: during brace VBAK reaches SUP_WARN_V, and the module changes to it (R480, R485). (DEDUCED, log 112.) -/
def Block.vbakAbove (b : Block) (vbak : Nat) : Block :=
  let b := b.measure (b.rdN Od.SUP_VIN) vbak
  if b.rdN Od.BRACE_STATE = 1 ∧ b.rdN Od.SUP_SOURCE = 0 ∧ b.warnV ≤ vbak then b.toVbak.leaveBrace else b

/-- HOLDUP_READY_CHANGE (R482). -/
def Block.holdupReady (b : Block) (vhold : Nat) : Block := (b.measureHold vhold).wr Od.SUP_HOLDUP_READY (b2n (decide (50000 ≤ vhold)))

/-- HOLD_UP_ENTRY (R487): both inputs below 6.8 V. -/
def Block.holdUpEntry (b : Block) (vin vbak : Nat) : Block :=
  let b := b.measure vin vbak
  if 6800 ≤ vin ∨ 6800 ≤ vbak ∨ b.rdN Od.BRACE_STATE = 2 then b
  else
    let b := if b.rdN Od.BRACE_STATE = 0 then b.enterBrace else b
    let b := ((b.wr Od.BRACE_STATE 2).bump Od.BRACE_HOLDUPS 1).wr Od.SUP_SOURCE 2
    let b := (b.orBits Od.SUP_STICKY 4).orBits Od.BRACE_STICKY 2
    b.setPw fun p => { p with nand := p.sram, consumed := false }

/-- HOLD_UP_RECOVER (R487): an input above 7.9 V before VHOLD reaches 20 V. -/
def Block.holdUpRecover (b : Block) (vin vbak vhold : Nat) : Block :=
  let b := (b.measure vin vbak).measureHold vhold
  if b.rdN Od.BRACE_STATE = 2 ∧ 20000 < vhold ∧ (7900 < vin ∨ 7900 < vbak) then
    (b.wr Od.BRACE_STATE 1).wr Od.SUP_SOURCE (if 7900 < vin then 0 else 1)
  else b

/-- The supply judged afresh as the Vesper domain leaves a reset (R486). (DEDUCED, log 112.) -/
def Block.judgeSupply (b : Block) : Block :=
  match b.pw.supply with
  | none => b
  | some (vin, vbak) =>
    let b := b.holdupReady b.pw.vhold
    if vin < 6800 ∧ vbak < 6800 then b.holdUpEntry vin vbak else b.vinBelow vin vbak

/-- Saved D, c, their bounds and the origin of c taken, from which learning goes on (R161). (DEDUCED, log 148.) -/
def Block.takeModel (b : Block) (m : Int × Int × Nat × Nat × Nat) : Block :=
  let (d, c, du, cu, src) := m
  let b := (((b.wr Od.HO_AGEING d).wr Od.HO_TEMP_COEF c).wr Od.HO_AGEING_UNC du).wr Od.HO_TEMP_UNC cu
  (b.wr Od.HO_TEMP_COEF_SOURCE src).setHo fun h => { h with keepD := true, keepC := decide (src = 1) }

/-- What a NAND brace record restores after a supply-fail reset (R488). (DEDUCED, log 113.) -/
def Block.braceRestore (b : Block) (r : BraceRecord) : Block :=
  let b := match r.model with
    | some m => b.takeModel m
    | none => b
  let b := if b.pe0 = 0 then b.setFw r.fw else b
  let b := b.wr Od.SUP_VIN_MIN (min r.vinMin (b.rdN Od.SUP_VIN_MIN) : Nat)
  r.lastWhen.foldl (fun (b : Block) (e : Nat × Nat) => b.setGraph e.1 fun g => { g with stoppedAt := some e.2 }) b

/-- HO_MODEL_SAVE's values restored after power-on (R161). (DEDUCED, log 113 and 148.) -/
def Block.modelRestore (b : Block) : Block :=
  match b.tm.ho.saved with
  | some m => b.takeModel m
  | none => b

end Sys2Proof.Machine
end

