-- ==== Sys2Proof/Machine/Watch.lean ====
section
/-! DEFINITION. The cross-watch (R462, R463), scrubbing (R466), counter snapshots (R473) and the tests of chapter 18 (R476). -/

namespace Sys2Proof.Machine

-- Cross-watch

/-- Whether a converter's twin is under a code-density run, so that check 3 leaves the converter out (R462). -/
def Block.twinBusy (b : Block) (c : Nat) : Bool := (b.conv c).run != 0
/-- Whether output n takes part in check 4: neither OFF, HELD nor SQUELCHED (OUTn_STATUS 1 RUNNING, 4 flywheel). -/
def Block.outChecked (b : Block) (n : Nat) : Bool := let s := b.outStatus n; s == 1 || s == 4
/-- Whether PE0 is locked to REFIN r. -/
def Block.refinChecked (b : Block) (r : Nat) : Bool :=
  match b.selected with
  | some k => b.pe0 == 2 && b.slotKind k == 5 + r
  | none => false

/-- Whether a check of Table 18.2 applies to an instance. (DEDUCED, log 117.) -/
def Block.xwApplies (b : Block) (code inst : Nat) : Bool :=
  match code with
  | 1 | 2 => true
  | 3 => !b.twinBusy inst
  | 4 => decide (inst < 8) && b.outChecked inst
  | 5 => decide (inst < 2) && b.refinChecked inst
  | _ => false

/-- XW_STATUS: bit c − 1 says that check c is running. -/
def Block.xwStatus (b : Block) : Nat :=
  let twins := (List.range 44).all fun c => !hasTwin c || !b.twinBusy c
  3 + 4 * b2n twins + 8 * b2n ((List.range 8).any b.outChecked) + 16 * b2n ((List.range 2).any b.refinChecked)

/-- A check's limit in ticks: 0 for the counter, else XW_CONV_LIMIT or XW_PHASE_LIMIT. (DEDUCED, log 117.) -/
def Block.xwLimit (b : Block) (code : Nat) : Int :=
  if code = 1 then 0 else psToTicks (b.rdN (if code = 3 then Od.XW_CONV_LIMIT else Od.XW_PHASE_LIMIT))

/-- A check trips (R462). One that a test brought about enters the safe state only under FI_XW_TEST_SAFE (R476). (DEDUCED, log 117.) -/
def Block.xwTrip (b : Block) (code inst : Nat) (diff : Int) (test : Bool) : Block :=
  let b := (((b.wr Od.XW_LAST_TRIP code).wr Od.XW_LAST_INSTANCE inst).wr Od.XW_LAST_ERROR diff).bump Od.XW_TRIPS 1
  let b := b.raise 0x7002 inst (code + 256 * b2n test)
  if test then
    let b := (b.orBits Od.XW_STICKY 4).orBits Od.FI_STICKY 2
    if b.on Od.FI_XW_TEST_SAFE then b.enterSafe 0 else b
  else (b.orBits Od.XW_STICKY 1).enterSafe 0

/-- XW_CHECK: check `code` compares instance `inst` and finds a difference in ticks. A test under way moves the expected value of the
check's next comparison by twice the limit (for the counter, whose limit is 0, by one tick). (DEDUCED, log 117.) -/
def Block.xwCheck (b : Block) (code inst : Nat) (diff : Int) : Block :=
  if !b.xwApplies code inst then b
  else
    let lim := b.xwLimit code
    let test := b.mg.safe.test == code
    let d := if test then diff + max 1 (2 * lim) else diff
    let b := if test then b.setSafe fun s => { s with test := 0 } else b
    let b := if code = 2 then b.wr Od.XW_CLOCK_DIFF d else b
    if lim < d.natAbs then b.xwTrip code inst d test
    else if bit b.mg.safe.passed code then b
    else b.setSafe fun s => { s with passed := s.passed + 2 ^ code }

/-- XW_SELFTEST: every XW_SELFTEST_PERIOD each check is run with a moved expected value; `tripped` says whether all of them tripped (R463). -/
def Block.xwSelftest (b : Block) (tripped : Bool) : Block :=
  if b.cyc < b.mg.safe.selfAt + secs (b.rdN Od.XW_SELFTEST_PERIOD) then b
  else
    let b := b.setSafe fun s => { s with selfAt := b.cyc }
    if tripped then b.bump Od.XW_SELFTESTS 1
    else ((b.wr Od.XW_LAST_TRIP 6).orBits Od.XW_STICKY 2).enterSafe 0

/-- FAULT_N low (R467): in the safe state, and from a reset of the Vesper domain until each check that applies has passed once. (DEDUCED, log 117.) -/
def Block.faultLow (b : Block) : Bool :=
  b.safe || bit b.pw.rst.parts 0 ||
    (List.range 5).any fun i => bit b.xwStatus i && !bit b.mg.safe.passed (i + 1)

/-- SAFE_FORCE and SAFE_CLEAR (R468). -/
def Block.safeForce (b : Block) : Reply := (b.enterSafe 3).ok
def Block.safeClear (b : Block) : Reply := if b.safe && b.clearSafeBarred then b.stateError else b.clearSafe.ok

/-- FI_XW_TEST: a check whose expected value is moved for one comparison. (DEDUCED, log 117.) -/
def Block.fiXwTest (b : Block) (code : Nat) : Reply :=
  if 1 ≤ code ∧ code ≤ 5 then (b.setSafe fun s => { s with test := code }).ok else b.rangeError

-- Scrubbing (R466). Memories: 1 packet memory, 2 tables, 3 retained SRAM, 4 LPDDR5, 5 NAND.

/-- A correction found by scrubbing. -/
def Block.scrubFix (b : Block) (mem : Nat) : Block :=
  let b := match mem with
    | 1 => b.bump Od.SW_ECC_CORRECTED 1
    | 2 => b.bump Od.DPC_TABLE_CORRECTED 1
    | 3 => b.bump Od.DPC_SRAM_CORRECTED 1
    | 4 => (b.bump Od.DPC_LPDDR_CORRECTED 1).tally 11 0 2
    | _ => b
  let b := b.bump Od.SCRUB_CORRECTED 1
  let r := b.limit 0x7004 0
  if r.1 then r.2.raise 0x7004 0 mem else r.2

/-- An uncorrectable error found by scrubbing; `item` is the frame whose cell it is or the bank (modulo 16) of a free cell, the LPDDR5 bank, or the firmware slot (0 A, 1 B; another
value is an archive page). -/
def Block.scrubBad (b : Block) (mem item : Nat) : Block :=
  let b := ((b.bump Od.SCRUB_UNCORRECTED 1).orBits Od.SCRUB_STICKY 1).raise 0x7005 0 mem
  match mem with
  | 1 =>
    let b := (((b.bump Od.SW_ECC_UNCORRECTED 1).orBits Od.SW_STICKY 8).report 0x3004).bump Od.SW_CELLS_RETIRED 1
    if (b.chain item).isSome then b.setChain item fun x => { x with ecc := 3 }
    else
      (b.setFab fun f => { f with banks := { f.banks.retire (item % 16) with used := addAt f.banks.used (item % 16) 1 } }).setFree
        (b.rdN Od.SW_CELLS_FREE - 1)
  | 2 => (b.bump Od.DPC_TABLE_UNCORRECTED 1).dpError 3 item
  | 3 => ((b.bump Od.DPC_SRAM_UNCORRECTED 1).dpError 5 item).enterSafe 2
  | 4 => (b.bump Od.DPC_LPDDR_UNCORRECTED 1).dpError 4 item
  | _ => if item = 0 then b.wr Od.IMG_SLOT_A_STATE 2 else if item = 1 then b.wr Od.IMG_SLOT_B_STATE 2 else b

/-- SCRUB_PASS: a pass completes, with the memories it corrected, the uncorrectable errors it found and the retired cells that passed. (DEDUCED, log 119.) -/
def Block.scrubPass (b : Block) (fixed : List Nat) (bad : List (Nat × Nat)) (cells : Nat) : Block :=
  let b := fixed.foldl (fun (b : Block) (m : Nat) => b.scrubFix m) b
  let b := bad.foldl (fun (b : Block) (e : Nat × Nat) => b.scrubBad e.1 e.2) b
  let n := min cells (b.rdN Od.SW_CELLS_RETIRED - b.rdN Od.SCRUB_CELLS_RETURNED)
  let b := if n = 0 then b
    else ((b.bump Od.SCRUB_CELLS_RETURNED n).setFab fun f => { f with banks := f.banks.restore n }).setFree (b.rdN Od.SW_CELLS_FREE + n)
  let b := ((b.scrubOverrun.bump Od.SCRUB_PASSES 1).wr Od.SCRUB_LAST_PASS b.mer).setSafe fun s => { s with scrubAt := b.cyc, scrubLate := false }
  let b := b.raise 0x7006 0 (b.rdN Od.SCRUB_PASSES)
  -- the next pass reads the used NAND pages as a TABLE_SCRUB job of the module
  if b.mg.srv.running ∧ (b.liveJob 9).isNone then (match b.startJob 9 255 [] 0 with | some (_, _, b) => b | none => b) else b

-- Counter snapshots (R32, R473)

/-- The record of a snapshot (Table 18.6), every counter visible. -/
def Block.dumpRecord (b : Block) (seq : Nat) (byCmd missed : Bool) : Bytes :=
  let fixed := (List.range 16).map fun i => key 0x7101 (i + 1)
  b.qualified b.mer ++ toLE 4 seq ++ toLE 2 (b2n byCmd + 2 * b2n missed) ++ toLE 2 752 ++ toLE 8 0
    ++ fixed.map (fun k => BitVec.ofNat 8 (b.genOf k))
    ++ (List.range 64).map (fun n => BitVec.ofNat 8 (b.genOf (Od.CNTN_VALUE n)))
    ++ (fixed.map fun k => toLE 8 (b.rdN k)).flatten
    ++ ((List.range 64).map fun n => toLE 8 (b.rdN (Od.CNTN_VALUE n))).flatten

/-- The waiting snapshots written to the ring, once the LPDDR5 clock runs. (DEDUCED, log 119.) -/
def Block.dumpDrain (b : Block) : Block :=
  if !b.clockRuns .lpddr then b
  else
    let n := b.mg.safe.dumpQueue.length
    let b := b.setSafe fun s => { s with dumpRing := s.dumpQueue.foldl (fun r x => ringPush 8192 r x) s.dumpRing, dumpQueue := [] }
    if n = 0 then b
    else ((b.bump Od.CNT_DUMPS n).lpWrite (12 * n)).wr Od.CNT_RING_WR ((b.rdN Od.CNT_RING_WR + n) % 2 ^ 32 : Nat)

/-- One snapshot taken: written, queued while the LPDDR5 clock starts, or missed. (DEDUCED, log 119.) -/
def Block.dumpTake (b : Block) (byCmd : Bool) : Block :=
  let s := b.mg.safe
  let b := b.need .lpddr
  if s.dumpQueue.length < 4 then
    (b.setSafe fun x =>
      { x with dumpQueue := x.dumpQueue ++ [b.dumpRecord x.dumpSeq byCmd x.dumpMissed], dumpSeq := (x.dumpSeq + 1) % 2 ^ 32, dumpMissed := false }).dumpDrain
  else
    let b := b.setSafe fun x => { x with dumpSeq := (x.dumpSeq + 1) % 2 ^ 32, dumpMissed := true }
    let b := (b.bump Od.CNT_DUMPS_MISSED 1).orBits Od.CNT_STICKY 1
    let r := b.limit 0x7103 0
    if r.1 then r.2.raise 0x7103 0 (b.rdN Od.CNT_DUMPS_MISSED) else r.2

/-- The number of the dump instant at or before now. -/
def Block.dumpIndex (b : Block) : Nat := b.mer / (b.rdN Od.CNT_DUMP_PERIOD * 1000 * 65536)

/-- CNT_DUMP: at a Meridian instant that is a multiple of CNT_DUMP_PERIOD and lies after the last one taken. (DEDUCED, log 119.) -/
def Block.cntDump (b : Block) : Block :=
  if b.rdN Od.CNT_DUMP_PERIOD = 0 ∨ b.dumpIndex ≤ b.mg.safe.dumpAt then b
  else (b.setSafe fun s => { s with dumpAt := b.dumpIndex }).dumpTake false

/-- CNT_SNAPSHOT = 1. -/
def Block.cntSnapshot (b : Block) : Reply := (b.dumpTake true).ok

/-- CNT_OVERFLOW: an occurrence of the source of CNTn when it stands at 2⁴⁸ − 1 (R470). -/
def Block.cntOverflow (b : Block) (n : Nat) : Block :=
  if b.rdN (Od.CNTN_MODE n) ≠ 0 ∧ b.rdN (Od.CNTN_VALUE n) = 2 ^ 48 - 1 then b.cntAdd n 1 else b

end Sys2Proof.Machine
end

