-- ==== Sys2Proof/Machine/Resets.lean ====
section
/-! DEFINITION. Resets (R489 to R495, R528), the thermal trip (R519), and the start of the firmware (R424 to R427, R488, R495). -/

namespace Sys2Proof.Machine

/-- The reset controller's state changed. -/
def Block.setRst (b : Block) (f : ResetSt → ResetSt) : Block := b.setPw fun p => { p with rst := f p.rst }

/-- The parts that a source of Table 19.6 clears, by the bits 1 Vesper domain, 2 fabric, 4 compute, 8 GNSS, 16 management (Table 19.7). (DEDUCED, log 115.) -/
def reach (code : Nat) : Nat := if code ≤ 3 then 31 else if code ≤ 5 then 30 else 16

/-- The hold after the cause ends, in cycles, where it does not wait for the supply or a pin (Table 19.7). (DEDUCED, log 115.) -/
def holdOf (code : Nat) : Nat := if code = 5 then us 100 else if code = 6 ∨ code = 7 then us 10 else 0

/-- Whether the module is up: rails on and the Vesper domain out of reset. (DEDUCED, log 7.) -/
def Block.up (b : Block) : Bool := b.pw.rails && !b.partHeld 0

/-- The entries of the parts of a mask returned to their defaults, with a new reset generation for each part (R11, R36); the functions that a
reset stopped say so (R419, R430). (DEDUCED, log 105.) -/
def Block.clearEntries (b : Block) (mask : Nat) : Block :=
  let hit (k : Nat) : Bool := bit (mask % 32) (partOf k)
  let gen := (maskBits 5 mask).foldl (fun (g : Table Nat) p => tmod 0 g (genPart p) fun n => (n + 1) % 256) b.gen
  let ran := (List.range 168).filter fun f => bit mask (fnPart f) && b.fnState f != 0 && f != 32 && f != 33
  let b := { b.unlatch hit with od := tdrop b.od hit, blobs := tdrop b.blobs hit, gen := gen }
  ran.foldl (fun (b : Block) (f : Nat) =>
    let b := b.orBits (Od.FN_STICKY f) 2
    if bit mask 0 then b else b.raise 0x1201 f 0) b

/-- The crossings of the parts cleared (R34, R35). -/
def Block.resetCrossings (b : Block) (mask : Nat) : Block :=
  let v := bit mask 0
  let f := bit mask 1
  let c := bit mask 2
  let g := bit mask 3
  let m := bit mask 4
  let one (src dst : Bool) (b : Block) (x : Nat) : Block := if src || dst then b.resetCrossing x src dst else b
  let b := (List.range 32).foldl (one f v) b
  let b := ((List.range 64).map (· + 32)).foldl (one f f) b
  let b := ((List.range 64).map (· + 96)).foldl (one f c) b
  let b := one c c b 160
  let b := ((List.range 8).map (· + 161)).foldl (one v m) b
  let b := ((List.range 16).map (· + 169)).foldl (one c c) b
  let b := one g c b 185
  let b := (List.range 168).foldl (fun (b : Block) (n : Nat) => if n < 32 ∨ fnPart n = 0 then b else one (bit mask (fnPart n)) v b (186 + n)) b
  one c v (one f v b Boundary.switchEvents.no) Boundary.computeEvents.no

/-- The timing subsystem and what else the Vesper domain holds, cleared: what NAND holds stays. (DEDUCED, log 116.) -/
def Block.clearVesper (b : Block) : Block :=
  let ho : Holdover := { saved := b.tm.ho.saved, savedAt := b.cyc }
  let cal : Cal := { saved := b.tm.cal.saved, badCopies := b.tm.cal.badCopies }
  let b := { b with tm := { ho := ho, cal := cal, osc := { powerAt := b.tm.osc.powerAt, startAt := b.cyc } }, clk := [] }
  let b := { b with mg := { b.mg with ev := [], from_ := [], lim := [], job := [], nextJob := 0, fn := b.mg.fn.filter fun e => fnPart e.1 != 0, safe := { selfAt := b.cyc, scrubAt := b.cyc } } }
  (b.setGn fun g => { g with keep := {} }).setPw fun p => { p with sram := none, braceAt := 0 }

/-- The fabric cleared: lanes, ports, packet memory, tables; new random keys (R235, R256). Links are down, and with them the slots on ports
lose their sources (R491). (DEDUCED, log 116.) -/
def Block.clearFabric (b : Block) : Block :=
  let mac := b.free
  let b := (b.draw 1).2
  let b := (b.draw 1).2
  let b := (List.range 32).foldl (fun b p =>
    let b := (b.reelLinkDown p).ptpLinkDown p
    (((b.wr (Od.LT_RTT p) 0).wr (Od.LT_OFFSET p) 0).wr (Od.LT_STATE p) 0).wr (Od.LT_DESKEW p) 0) b
  let b := (List.range 32).foldl (fun b p => b.wr (Od.LT_OFFSET_UNC p) (odDefault (Od.LT_OFFSET_UNC p))) b
  let b := { b with fab := { macKey := mac, bankKey := mac + 1 }, ln := {} }
  let b := b.setMt fun m => { m with targets := m.targets.filter fun e => decide (e.1 < 32) }
  let b := { b with mg := { b.mg with fn := b.mg.fn.filter fun e => fnPart e.1 != 1 } }
  (b.setRole false).setPr fun p => { p with pullUntil := none }

/-- The compute subsystem cleared: LPDDR5 contents with every ring, staging and pool; what NAND and the NVMe drive hold stays. -/
def Block.clearCompute (b : Block) : Block :=
  let a := b.arc
  let arc : Arc :=
    { flashSeq := a.flashSeq, flash := a.flash, written := a.written, nvmeSeq := a.nvmeSeq, nvme := a.nvme, nvmeUsed := a.nvmeUsed,
      wearRaised := a.wearRaised, flushAt := b.cyc, flushed := a.flushed }
  let b := { b with cp := { arc := arc }, ramLost := true, clk := [], mg := { b.mg with srv := { b.mg.srv with box := [] } } }
  let b := b.setTm fun t => { t with ticRing := [], ticNext := 0 }
  let b := (b.setGn fun g => { g with ring := [], queue := [] }).setSafe fun s => { s with dumpRing := [], dumpQueue := [] }
  let b := ((b.wr Od.TIC_RING_WR 0).wr Od.GNSS_RING_WR 0).wr Od.CNT_RING_WR 0
  let b := { b with mg := { b.mg with fn := b.mg.fn.filter fun e => fnPart e.1 != 2 } }
  (b.setPw fun p => { p with perstHigh := false }).clearBits Od.SLP_CLOCKS 15

/-- The GNSS function cleared; keep data stay (R490). -/
def Block.clearGnss (b : Block) : Block :=
  { b with gn := { keep := b.gn.keep, nand := b.gn.nand, savedAt := b.gn.savedAt, ring := b.gn.ring }
           mg := { b.mg with fn := b.mg.fn.filter fun e => fnPart e.1 != 3 } }

/-- The management subsystem cleared: the server stops, requests and responses are lost, injectors end (R417, R475). (DEDUCED, log 116.) -/
def Block.clearManagement (b : Block) : Block :=
  let b := (List.range 32).foldl (fun b p => b.fipEnd p 3) b
  let b := { b with mg := { b.mg with srv := { box := b.mg.srv.box }, cnt := [] } }
  let b := b.setSafe fun s => { s with test := 0, dumpRing := [], dumpQueue := [], dumpSeq := 0, dumpMissed := false, dumpAt := 0 }
  let b := (b.wr Od.CNT_RING_WR 0).setClock .prixus fun x => { x with phase := .stopped }
  (b.clearBits Od.SLP_CLOCKS 4).setPw fun p => { p with phyHigh := false }

/-- Slots whose source a reset has taken away (R491). (DEDUCED, log 116.) -/
def Block.dropLostSlots (b : Block) : Block :=
  (List.range 24).foldl (fun b k => if (b.slot k).active && !b.sourceActive k then b.sourceOff k else b) b

/-- A reset of a source begins (R490, R494): the parts it clears that are not held already are cleared, and all are held. (DEDUCED, log 115.) -/
def Block.beginReset (b : Block) (code : Nat) : Block :=
  let new := (maskBits 5 (reach code)).filter fun p => !b.partHeld p
  let has (p : Nat) : Bool := new.contains p
  let mask := (new.map fun p => 2 ^ p).sum
  let b := if has 4 then b.clearManagement else b
  let b := if has 2 then b.clearCompute else b
  let b := if has 3 then b.clearGnss else b
  let b := if has 1 then b.clearFabric else b
  let b := if has 0 then b.clearVesper else b
  let b := (b.clearEntries mask).resetCrossings mask
  let b := if has 0 then b else if has 1 ∨ has 3 then b.dropLostSlots else b
  b.setRst fun r =>
    { r with active := if r.active.contains code then r.active else code :: r.active, parts := r.parts ||| reach code, cleared := r.cleared ||| reach code, since := max r.since (b.cyc + holdOf code)
             ordered := none }

/-- The reset that a command ordered (R493). -/
def Block.orderedReset (b : Block) : Block := match b.pw.rst.ordered with | some c => b.beginReset c | none => b

/-- WARM_PIN_RESET: RESET_N has been low for 1 µs. (DEDUCED, log 115.) -/
def Block.warmPin (b : Block) : Block :=
  ((b.beginReset 4).setRst fun r => { r with fellAt := some b.cyc }).wr Od.RST_RESET_N 0

/-- COLD_PIN_RESET: RESET_N is still low 10 ms after its fall. (DEDUCED, log 115.) -/
def Block.coldPin (b : Block) : Block :=
  match b.pw.rst.fellAt with
  | none => b
  | some _ => ((b.beginReset 3).setRst fun r => { r with active := r.active.filter (· != 4) }).wr Od.RST_RESET_N 0

/-- RESET_RELEASE (R490, R494): every cause has ended and the hold times have passed. The Vesper domain starts with Meridian time 0, MT_TIME_SET
false and PE0 in FREE_RUN (R42, R43); the pair starts again where the fabric was cleared. (DEDUCED, log 115.) -/
def Block.releaseReset (b : Block) : Block :=
  let r := b.pw.rst
  let b := b.setRst fun r => { r with fns := [] }
  match r.active.min? with
  | none => b
  | some code =>
    if !b.pw.rails ∨ b.cyc < r.since then b
    else
      let b := (b.setRst fun x =>
        { x with active := [], parts := 0, since := 0, fellAt := none, report := some code, watchdog := x.watchdog || r.active.contains 6 }).wr Od.RST_RESET_N 1
      let b := b.wr Od.RST_LAST_CAUSE (if code = 2 then 1 else code : Nat)
      let b := if bit r.parts 0 then (b.setOsc fun o => { o with startAt := b.cyc }).setMt fun _ => {} else b
      let b := if bit r.parts 0 then b.judgeSupply else b
      let b := if bit r.parts 1 then b.pairStart else b
      if bit r.parts 4 then (b.setPw fun p => { p with phyAt := b.cyc }).need .prixus else b

/-- PHY_RESET_RELEASE (R516): 10 ms after a reset that clears the management subsystem has ended. -/
def Block.phyRelease (b : Block) : Block :=
  if b.partHeld 4 ∨ b.cyc < b.pw.phyAt + ms 10 then b else b.setPw fun p => { p with phyHigh := true }

/-- SUPPLY_FAIL_RESET (R487): VHOLD has reached 20 V in hold-up; the rails are off until an input returns. -/
def Block.supplyFail (b : Block) (vhold : Nat) : Block :=
  if b.rdN Od.BRACE_STATE = 2 ∧ vhold ≤ 20000 then
    (b.beginReset 2).setPw fun p => { p with rails := false, vhold := vhold, supply := none }
  else b

/-- THERMAL_TRIP (R519): the rails are turned off; the start that follows is a power-on. (DEDUCED, log 115.) -/
def Block.thermalTrip (b : Block) : Block := (b.beginReset 1).setPw fun p => { p with rails := false }

/-- POWER_ON (R497): an input above 7.9 V with the Vesper domain unpowered. (DEDUCED, log 115.) -/
def Block.powerOn (b : Block) (vin vbak : Nat) : Block :=
  if b.pw.rails ∨ (vin ≤ 7900 ∧ vbak ≤ 7900) then b
  else ((b.beginReset 1).setOsc fun o => { o with powerAt := b.cyc }).setPw fun p => { p with rails := true, supply := some (vin, vbak), vhold := 0 }

/-- PCIE_LINK_CHANGE (R437): generation and width, or the link down; a root port releases PCIE_PERST_N. -/
def Block.pcieLink (b : Block) (gen width : Nat) : Block :=
  let b := b.wr Od.CAP_PCIE_LINK (gen * 16 + width : Nat)
  if b.rootPort then b.setPw fun p => { p with perstHigh := true } else b

-- RST_ commands

/-- RST_WARM and RST_FW_RESTART by a tenant (R493): the reset starts within 1 ms of the response. `none` is a refusal with ACCESS reason 2. -/
def Block.rstCommand (b : Block) (code t : Nat) : Option Reply := if t = 0 then some (b.setRst fun r => { r with ordered := some code }).ok else none

/-- The entries and live state of one function returned to their defaults (R528). (DEDUCED, log 106.) -/
def Block.functionReset (b : Block) (f : Nat) : Block :=
  let hit (k : Nat) : Bool := b.clearedBy f k
  let gen := (b.genBlocks f).foldl (fun (g : Table Nat) (x : Nat) => tmod 0 g x fun n => (n + 1) % 256) b.gen
  let b := if 48 ≤ f ∧ fnPart f ≠ 0 then b.resetCrossing (186 + f) true false else b
  let b := b.unlatch hit
  let b := { b with od := tdrop b.od hit, blobs := tdrop b.blobs hit, gen := gen, mg := { b.mg with fn := tdel b.mg.fn f } }
  let b :=
    if f < 32 then
      -- a port's reset takes its link down (R528)
      let lanes := lanesOf (b.modeNow f) f
      let was := b.on (Od.P_LINK f)
      let b := if was then (b.reelLinkDown f).ptpLinkDown f else b
      let b := (((b.wr (Od.LT_RTT f) 0).wr (Od.LT_OFFSET f) 0).wr (Od.LT_STATE f) 0).wr (Od.LT_DESKEW f) 0
      let b := lanes.foldl (fun b l => b.setLn fun n => { n with lane := tdel n.lane l }) b
      let b := b.setFab fun x => { x with port := tdel x.port f, queue := x.queue.filter fun e => e.1 / 16 != f }
      let b := ((b.resetCrossing f true false).resetCrossing (32 + f) true true).resetCrossing (64 + f) true true
      b.dropLostSlots
    else if f = 34 ∨ f = 35 then ((b.holdEngine (f - 32) b.mer).setPe (f - 32) fun p => { acq := p.acq }).refreshOuts
    else if f = 36 ∨ f = 37 then (b.setTm fun t => { t with refin := tdel t.refin (f - 36) }).dropLostSlots
    else if f = 38 ∨ f = 39 then b.domAb.dropLostSlots
    else if 40 ≤ f ∧ f < 48 then b.setTic (f - 40) fun _ => {}
    else if f = 48 then b.clsRun
    else if 49 ≤ f ∧ f < 53 then b.mirRun (f - 49)
    else if 53 ≤ f ∧ f < 69 then b.setFab fun x => { x with lag := tdel x.lag (f - 53) }
    else if 69 ≤ f ∧ f < 85 then (b.setAsy (f - 69) fun _ => {}).asyStop (f - 69)
    else if f = 85 then
      ({ b with gn := { keep := b.gn.keep, nand := b.gn.nand, savedAt := b.gn.savedAt, ring := b.gn.ring } }).resetCrossing 185 true false
    else if 86 ≤ f ∧ f < 102 then
      (b.setCp fun c => { c with graph := tdel c.graph (f - 86) }).resetCrossing (169 + (f - 86)) true true
    else if 104 ≤ f then b.setCp fun c => { c with dma := tdel c.dma (f - 104) }
    else b
  b.setRst fun r => { r with fns := f :: r.fns }

/-- RST_FUNCTION by tenant t (R493). (DEDUCED, log 106.) -/
def Block.rstFunction (b : Block) (f t : Nat) : Reply :=
  if 168 ≤ f then b.rangeError
  else if f = 32 ∨ f = 33 ∨ b.fnState f ≠ 0 ∨ !b.holds f t then b.stateError
  else (b.functionReset f).ok

-- The watchdog (R417)

/-- Whether the watchdog has run out: a request or job step waits and nothing has been completed for 500 ms, or the scheduler has not run for
500 ms. (DEDUCED, log 96.) -/
def Block.watchdogDue (b : Block) : Bool :=
  let s := b.mg.srv
  let waits := !s.queue.isEmpty || (List.range 16).any fun j => b.jobState j == 1
  s.running && ((waits && decide (s.progressAt + ms 500 ≤ b.cyc)) || decide (s.schedAt + ms 500 ≤ b.cyc))

/-- WATCHDOG_EXPIRY: a watchdog reset. (DEDUCED, log 96.) -/
def Block.watchdogExpiry (b : Block) : Block :=
  if b.watchdogDue then (b.beginReset 6).setRst fun r => { r with watchdog := true } else b

-- Booting

/-- An image slot's state entry, and its record. -/
def slotStateKey (s : Nat) : Nat := if s = 0 then Od.IMG_SLOT_A_STATE else Od.IMG_SLOT_B_STATE
def Block.image (b : Block) (s : Nat) : ImageSlot := tat {} b.pw.images s
def Block.setImage (b : Block) (s : Nat) (f : ImageSlot → ImageSlot) : Block := b.setPw fun p => { p with images := tmod {} p.images s f }

/-- The boot of an image (R426, R427): the slot that the boot record names, or the other one where that slot has been booted twice without
being confirmed and the other is VALID. The event that the fall-back raises comes once the server runs. (DEDUCED, log 102.) -/
def Block.boot (b : Block) : Bool × Block :=
  let s := b.rdN Od.IMG_BOOT_NEXT
  let other := 1 - s
  let i := b.image s
  let fallBack := !i.confirmed && decide (2 ≤ i.tries) && b.rdN (slotStateKey other) == 1
  if fallBack then
    let b := ((b.wr (slotStateKey s) 3).wr Od.IMG_RUNNING other).wr Od.IMG_BOOT_NEXT other
    (true, b.orBits Od.IMG_STICKY 1)
  else (false, (b.setImage s fun i => { i with tries := if i.confirmed then i.tries else i.tries + 1 }).wr Od.IMG_RUNNING s)

/-- Every RUNNING or PAUSED job ended by a reset (R424). A commit whose boot record is whole reports DONE (R426); an interrupted restore
leaves CFG_STATE RESTORE_FAILED. -/
def Block.abortJobs (b : Block) : Block :=
  (List.range 16).foldl (fun b j =>
    if b.jobLive j then
      let b := if b.rdN (Od.JOB_KIND j) = 8 then b.wr Od.CFG_STATE 3 else b
      let b := if b.rdN (Od.JOB_KIND j) = 1 then b.campaignAbort j else b
      b.endJob j 6
    else b) b

/-- The reset counter of a source (Table 19.13). -/
def countKeyOf (code : Nat) : Nat :=
  if code ≤ 2 then Od.RST_COUNT_SUPPLY else if code ≤ 4 then Od.RST_COUNT_PIN else if code = 6 then Od.RST_COUNT_WATCHDOG else Od.RST_COUNT_COMMAND

/-- FIRMWARE_START (R424, R427, R488, R495): the dictionary server runs after a reset that reloads firmware. (DEDUCED, log 113.) -/
def Block.firmwareStart (b : Block) : Block :=
  if b.mg.srv.running ∨ b.partHeld 4 then b
  else
    let cause := b.pw.rst.report.getD 1
    let fail := decide (cause ≤ 2) && !b.pw.consumed
    let (fell, b) := b.boot
    let b := { b with mg := { b.mg with srv := { b.mg.srv with running := true, runAt := b.cyc, progressAt := b.cyc, schedAt := b.cyc } } }
    let b := b.clockUp .prixus
    -- the boot trains LPDDR5 after a reset that has cleared it (R20, Table 19.9)
    let b := if (b.clock .lpddr).trained then b else b.clockUp .lpddr
    let code := if fail then 2 else cause
    let b := if fail then (b.wr Od.RST_LAST_CAUSE 2).orBits Od.RST_STICKY 2 else b
    let b := if b.pw.rst.watchdog then b.orBits Od.RST_STICKY 1 else b
    let b := if cause ≤ 3 then b.keepRestore.modelRestore.linkCalRestore.loadSets else b
    let b := if fail then (match b.pw.nand with | some r => b.braceRestore r | none => b) else b
    let b := if fail then b.setPw fun p => { p with consumed := true } else b
    let b := (b.bump (countKeyOf code) 1).raise 0x1305 0 code
    let b := if b.pw.rst.watchdog then b.raise 0x1205 else b
    let b := if fell then b.raise 0x1206 else b
    let b := b.abortJobs
    b.setRst fun r => { r with report := none, watchdog := false }

end Sys2Proof.Machine
end

