-- ==== Sys2Proof/Machine/Images.lean ====
section
/-! DEFINITION. What the job scheduler runs (R422, R423), firmware images (R425 to R427) and the saved configuration (R428). -/

namespace Sys2Proof.Machine

-- Saved configuration

/-- The record row of an entry. -/
def rowOf (k : Nat) : Option Entry := entryAt ((findRecord records (k / 256 % 65536)).elim 0 (·.1)) (k % 256)

/-- Whether CFG_SAVE saves the entry under a key (R428, R439, R475). (DEDUCED, log 104.) -/
def savedKey (k : Nat) : Bool :=
  match rowOf k with
  | some e => (e.acc == .rw || e.acc == .rws) && e.scope != .perTenant && k != Od.FI_ENABLE && k != Od.CFG_AUTO_RESTORE
  | none => false

/-- The newest valid copy. -/
def newest : List SavedCfg → Option SavedCfg
  | [] => none
  | c :: r => match newest r with
    | none => if c.valid then some c else none
    | some d => if c.valid && decide (d.seq < c.seq) then some c else some d

/-- CFG_SAVED_TIME and CFG_STATE follow the copies. -/
def Block.showCfg (b : Block) (st : Nat) : Block :=
  match newest b.mg.cfg with
  | some c => (b.wr Od.CFG_SAVED_TIME c.time).wr Od.CFG_STATE st
  | none => (b.wr Od.CFG_SAVED_TIME 0).wr Od.CFG_STATE 0

/-- The last step of a CONFIG_SAVE job: the older of the two copies overwritten. (DEDUCED, log 104.) -/
def Block.cfgWrite (b : Block) : Block :=
  let old := newest b.mg.cfg
  let c : SavedCfg :=
    { seq := (match old with | some o => o.seq | none => 0) + 1, time := b.mer, entries := b.od.filter fun e => savedKey e.1
      blobs := b.blobs.filter fun e => savedKey e.1, running := (List.range 168).filter fun f => b.fnRuns f }
  let b := { b with mg := { b.mg with cfg := c :: old.toList } }
  b.showCfg 1

/-- CFG_SAVE and CFG_CLEAR. (DEDUCED, log 104.) -/
def Block.cfgSave (b : Block) (t : Nat) : Reply :=
  match b.startJob 7 t [] 0 with
  | some (n, _, b) => b.ok n
  | none => b.resourceError
def Block.cfgClear (b : Block) : Reply := (({ b with mg := { b.mg with cfg := [] } } : Block).showCfg 0).ok

-- Images

/-- IMG_COMMIT (R425): the slot that is not running is marked INVALID and the job starts. (DEDUCED, log 103.) -/
def Block.imgCommit (b : Block) (t : Nat) : Reply :=
  if (b.blob Od.IMG_STAGE).isEmpty ∨ (b.liveJob 5).isSome then b.stateError
  else
    let slot := 1 - b.rdN Od.IMG_RUNNING
    match b.startJob 5 t [] slot with
    | some (n, _, b) => (b.wr (slotStateKey slot) 2).ok n
    | none => b.resourceError

/-- The boot record written: the older copy overwritten with the next sequence number (R426). (DEDUCED, log 102.) -/
def Block.bootRecord (b : Block) (slot : Nat) : Block :=
  let top := (b.mg.boot.map fun r => if r.valid then r.seq else 0).foldl max 0
  let keep := (b.mg.boot.filter fun r => r.valid && r.seq == top).take 1
  ({ b with mg := { b.mg with boot := ⟨top + 1, slot, true⟩ :: keep } } : Block).wr Od.IMG_BOOT_NEXT slot

/-- The boot record being written: the older copy's CRC fails until the write ends (R426). (DEDUCED, log 102.) -/
def Block.bootBegin (b : Block) (slot : Nat) : Block :=
  let top := (b.mg.boot.map fun r => if r.valid then r.seq else 0).foldl max 0
  let keep := (b.mg.boot.filter fun r => r.valid && r.seq == top).take 1
  { b with mg := { b.mg with boot := ⟨top + 1, slot, false⟩ :: keep } }

/-- The last steps of a commit: the slot is VALID, the boot record names it. (DEDUCED, log 103.) -/
def Block.commitDone (b : Block) (slot : Nat) : Block :=
  let img := b.blob Od.IMG_STAGE
  let b := b.setImage slot fun _ => { image := some img, confirmed := false }
  (b.wr (slotStateKey slot) 1).bootRecord slot

/-- IMG_BOOT_SELECT (R427). -/
def Block.bootSelect (b : Block) (slot : Nat) : Reply :=
  if slot ≤ 1 ∧ b.rdN (slotStateKey slot) = 1 then (b.bootRecord slot).ok else b.stateError

/-- IMG_CONFIRM (R427): the running image's server has run for 60 s. (DEDUCED, log 102.) -/
def Block.imgConfirm (b : Block) : Block :=
  if b.mg.srv.running ∧ b.mg.srv.runAt + secs 60 ≤ b.cyc then
    b.setImage (b.rdN Od.IMG_RUNNING) fun i => { i with confirmed := true, tries := 0 }
  else b

-- Jobs

/-- A job aborted (R423, Table 15.11). -/
def Block.abortJob (b : Block) (j : Nat) : Block :=
  let b := if b.rdN (Od.JOB_KIND j) = 1 then b.campaignAbort j else b
  let b := if b.rdN (Od.JOB_KIND j) = 8 then b.wr Od.CFG_STATE 3 else b
  b.endJob j 5

/-- Whether a job's steps write NAND, so that brace holds them (R484). (DESIGN CHOICE, log 91.) -/
def nandJob (kind : Nat) : Bool := kind == 5 || kind == 7 || kind == 9

/-- What a step that is not the job's own event does: `n` is its number; `good` says whether NAND took it. (DESIGN CHOICE, log 91; DEDUCED, log 103.) -/
def Block.stepEffect (b : Block) (j n : Nat) (good : Bool) : Block :=
  let kind := b.rdN (Od.JOB_KIND j)
  let last := decide (b.rdN (Od.JOB_STEPS_TOTAL j) ≤ n)
  let fail (b : Block) : Block := (if kind = 5 then b.orBits Od.IMG_STICKY 2 else b).endJob j 4
  if nandJob kind && !good then fail b
  else match kind with
    | 5 =>
      if n = 1 ∧ !Config.imageSigned (b.blob Od.IMG_STAGE) then fail b
      else if last then (b.commitDone (b.job j).arg).endJob j 3
      else if n + 1 = b.rdN (Od.JOB_STEPS_TOTAL j) then b.bootBegin (b.job j).arg else b
    | 7 => if last then b.cfgWrite.endJob j 3 else b
    | 9 => if last then b.endJob j 3 else b
    | 1 => if (b.job j).todo.isEmpty then b.campaignDone j else b
    | _ => b

/-- A pending abort or pause taken at a step boundary (R423). (DEDUCED, log 92.) -/
def Block.boundary (b : Block) (j : Nat) : Block :=
  if b.jobState j ≠ 1 then b
  else if (b.job j).abortPending then b.abortJob j
  else if (b.job j).pausePending then
    let b := (b.wr (Od.JOB_STATE j) 2).setJob j fun x => { x with pausePending := false }
    b.raise 0x1204 (b.rdN (Od.JOB_NUMBER j)) 2
  else b

/-- JOB_STEP (R422): one step of job object j. A job that another event ends never makes its last step here. (DESIGN CHOICE, log 91; DEDUCED, log 96.) -/
def Block.jobStep (b : Block) (j : Nat) (good : Bool) : Block :=
  let kind := b.rdN (Od.JOB_KIND j)
  if b.jobState j ≠ 1 ∨ !b.mg.srv.running ∨ !b.clockRuns .prixus ∨ (nandJob kind ∧ b.nandHeld) then b
  else
    let b := ((b.bump Od.CNT_FIXED_JOB_STEPS 1).tally 10 0 2)
    let b := { b with mg := { b.mg with srv := { b.mg.srv with progressAt := b.cyc, schedAt := b.cyc } } }
    let total := b.rdN (Od.JOB_STEPS_TOTAL j)
    let n : Nat := b.rdN (Od.JOB_STEPS_DONE j) + 1
    let n : Nat := if nandJob kind then n else min n (total - 1)
    let b := (b.wr (Od.JOB_STEPS_DONE j) n).jobProgress j
    (b.stepEffect j n good).boundary j

/-- JOB_PAUSE, JOB_RESUME and JOB_ABORT: JOBj_CTRL (R423). (DEDUCED, log 92.) -/
def Block.jobPause (b : Block) (j : Nat) : Reply :=
  if !b.jobLive j ∨ b.rdN (Od.JOB_KIND j) = 6 ∨ b.rdN (Od.JOB_KIND j) = 8 then b.stateError
  else if b.jobState j = 2 then b.ok
  else (b.setJob j fun x => { x with pausePending := true }).ok
def Block.jobResume (b : Block) (j : Nat) : Reply :=
  if !b.jobLive j then b.stateError
  else if b.jobState j = 2 then ((b.wr (Od.JOB_STATE j) 1).raise 0x1204 (b.rdN (Od.JOB_NUMBER j)) 1).ok
  else (b.setJob j fun x => { x with pausePending := false }).ok
def Block.jobAbort (b : Block) (j : Nat) : Reply :=
  if !b.jobLive j then b.stateError
  else if b.jobState j = 2 then (b.abortJob j).ok
  else (b.setJob j fun x => { x with abortPending := true, pausePending := false }).ok

/-- The identity of the image that runs (R436), as a boot leaves it. (DEDUCED, log 102.) -/
def Block.showImage (b : Block) : Block :=
  match (b.image (b.rdN Od.IMG_RUNNING)).image with
  | none => ((b.wr Od.ID_FW_MAJOR (odDefault Od.ID_FW_MAJOR)).wr Od.ID_FW_MINOR (odDefault Od.ID_FW_MINOR)).wr Od.ID_FW_BUILD (odDefault Od.ID_FW_BUILD)
  | some i => ((b.wr Od.ID_FW_MAJOR (Config.imageMajor i : Nat)).wr Od.ID_FW_MINOR (Config.imageMinor i : Nat)).wr Od.ID_FW_BUILD (Config.imageBuild i : Nat)

/-- FIRMWARE_START with what the image and the saved configuration show. (DEDUCED, log 102.) -/
def Block.firmwareUp (b : Block) : Block :=
  if b.mg.srv.running ∨ b.partHeld 4 then b else (b.firmwareStart.showImage).showCfg 1

end Sys2Proof.Machine
end

