-- ==== Sys2Proof/Machine/Access.lean ====
section
/-! DEFINITION. Who may do what (R10, R409 to R411, R527): arrival points, the entry a request names, tenant permission, access codes, type
codes, values as bytes (R398, R399). -/

namespace Sys2Proof.Machine

-- Values as bytes (Table 15.1)

/-- The code of a type. -/
def typeCode : EType → Nat
  | .bool => 1
  | .u8 => 2
  | .u16 => 3
  | .u32 => 4
  | .u64 => 5
  | .i8 => 6
  | .i16 => 7
  | .i32 => 8
  | .i64 => 9
  | .time96 => 0x0B
  | .octets _ => 0x0C
  | .string _ => 0x0D
  | .domain => 0x0E

/-- The bytes of a value of a type; 0 for a DOMAIN. -/
def typeLen : EType → Nat
  | .bool | .u8 | .i8 => 1
  | .u16 | .i16 => 2
  | .u32 | .i32 => 4
  | .u64 | .i64 => 8
  | .time96 => 12
  | .octets n => n
  | .string n => n
  | .domain => 0

/-- A numeric value as it travels. -/
def encodeVal (ty : EType) (v : Int) : Bytes :=
  match ty with
  | .time96 => timeBytes v.toNat
  | _ => toLE (typeLen ty) (unsigned (8 * typeLen ty) v)

/-- The numeric value that bytes give; none for a malformed time word (R39). -/
def decodeVal (ty : EType) (l : Bytes) : Option Int :=
  let n := ofLE l
  match ty with
  | .i8 | .i16 | .i32 | .i64 => some (signed (8 * typeLen ty) n)
  | .time96 =>
    let f := ofLE (slice l 0 2)
    let ns := ofLE (slice l 2 4)
    let s := ofLE (slice l 6 6)
    if 1000000000 ≤ ns then none else some ((f + ns * 65536 + s * ticksPerSec : Nat) : Int)
  | _ => some n

/-- Whether a value lies in a list of ranges; an empty list is the whole type. -/
def inRanges (l : List (Int × Int)) (v : Int) : Bool := l.isEmpty || l.any fun r => decide (r.1 ≤ v) && decide (v ≤ r.2)

-- Arrival points (R409)

/-- The kind, place and VID or node of a requester (Table 15.7). -/
def callerAt : Caller → Nat × Nat × Nat
  | .inband p vid _ => (1, p, vid)
  | .service vid _ => (4, 0, vid)
  | .can c node => (3, c, node)
  | .pcie fn => (2, fn, 0)

/-- The longest segment of a requester's path (R403). -/
def segLimit : Caller → Nat
  | .can _ _ => 256
  | .pcie _ => 4080
  | _ => 1024

/-- The arrival-point entry that a requester matches: an entry with a specific VID before one with VID 0xFFFF. -/
def Block.pointOf (b : Block) (c : Caller) : Option Nat :=
  let (kind, place, vid) := callerAt c
  let hit (node : Nat) : Option Nat := (List.range 64).find? fun n =>
    let v := b.apEntry n
    apValid v && apKind v == kind && apWhere v == place && apNode v == node
  match hit vid with
  | some n => some n
  | none => if kind = 1 ∨ kind = 4 then hit 0xFFFF else none

/-- Whether a word is a valid arrival-point entry by its own fields (Table 15.7). -/
def apForm (v : Nat) : Bool :=
  v % 2 ^ 32 == 0 && (!apValid v ||
    let place := apWhere v
    let node := apNode v
    match apKind v with
    | 1 => decide (place < 32) && (decide (node ≤ 4094) || node == 0xFFFF)
    | 2 => decide (place < 4) && node == 0
    | 3 => decide (place < 2) && decide (1 ≤ node) && decide (node ≤ 254)
    | 4 => place == 0 && (decide (node ≤ 4094) || node == 0xFFFF)
    | _ => false)

/-- Whether entry n of the table may take a word (R409, R410): no other valid entry has its kind, place and VID, and tenant 0 keeps a valid owner
path. -/
def Block.apOk (b : Block) (n v : Nat) : Bool :=
  let others := (List.range 64).filter (· != n)
  let owns (w : Nat) : Bool := apValid w && apOwner w && apTenant w == 0
  apForm v && !(apValid v && others.any fun m => let w := b.apEntry m; apValid w && w / 2 ^ 32 % 2 ^ 27 == v / 2 ^ 32 % 2 ^ 27)
    && (owns v || others.any fun m => owns (b.apEntry m))

-- The entry a request names

/-- The key under which tenant t's request finds the entry of an index and sub-index (R434, R439): an entry behind a selector is that of the object
the tenant has selected. -/
def Block.entryKey (b : Block) (t : Nat) (e : Entry) (index sub : Nat) : Nat :=
  match e.scope with
  | .shared => key index sub
  | .perTenant => keyAt t index sub
  | .bySel => keyAt (b.rdN (keyAt t index 1)) index sub

/-- An entry's access code, where its table gives it by instance (Tables 4.7, 15.15, 18.9). -/
def accessOf (e : Entry) (index sub : Nat) : Access :=
  if index = 0x1110 ∧ (sub = 1 ∨ sub = 2) then .ro
  else if index = 0x2401 ∧ sub = 3 then .ro
  else if (index = 0x2400 ∨ index = 0x2401) ∧ (sub = 7 ∨ sub = 8) then .ro
  else if index = 0x7103 ∧ sub = 1 then .ro
  else e.acc

-- Tenant permission (R411, R378, R410, R423, R474, R475, R493)

/-- Whether tenant t may read the entry of an index and sub-index. -/
def Block.mayRead (b : Block) (t index sub : Nat) : Bool :=
  let group := match groupOf index with | some g => bit (b.rdN (Od.TNT_READ_MASK t)) g | none => false
  let own := index == 0x1110 + t
  let hidden : Bool :=
    (decide (0x7110 ≤ index) && decide (index < 0x7150) && decide (1 ≤ sub) && !b.cntVisible t (index - 0x7110))
      || (index == 0x7101 && decide (1 ≤ sub) && !b.fixedVisible t)
  (group || own) && !hidden

/-- Whether tenant t may write it; `owner` says that the request arrived on an owner path. (DEDUCED, log 118.) -/
def Block.mayWrite (b : Block) (t : Nat) (owner : Bool) (e : Entry) (index sub : Nat) : Bool :=
  let group := match groupOf index with | some g => bit (b.rdN (Od.TNT_WRITE_MASK t)) g | none => false
  if index / 256 = 0x11 then t == 0 && (index != 0x1100 || owner)
  else if e.scope == .perTenant then (match groupOf index with | some g => bit (b.rdN (Od.TNT_READ_MASK t)) g | none => false)
  else
    let zeroOnly : Bool := (decide (0x5200 ≤ index) && decide (index < 0x5240) && (sub == 2 || sub == 3)) || (index == 0x7200 && sub == 1)
      || index == 0x7103 || (index == 0x1302 && (sub == 2 || sub == 3))
    let job : Bool := decide (0x12C0 ≤ index) && decide (index < 0x12D0) && sub == 8 && b.rdN (Od.JOB_TENANT (index - 0x12C0)) != t
    let hidden : Bool := decide (0x7110 ≤ index) && decide (index < 0x7150) && decide (1 ≤ sub) && !b.cntVisible t (index - 0x7110)
    group && (t == 0 || !(zeroOnly || job)) && !hidden

/-- Whether an operation writes. -/
def writes (op : Nat) : Bool := op == 2 || op == 4

/-- The reason for which an operation is refused with ACCESS (R527): 2 tenant permission, then 3 channel tenant, then 1 access code. (DEDUCED, log 95.) -/
def Block.refusal (b : Block) (t : Nat) (owner : Bool) (e : Entry) (op index sub : Nat) : Option Nat :=
  let w := writes op
  if !(if w then b.mayWrite t owner e index sub else b.mayRead t index sub) then some 2
  else if w ∧ 0x5200 ≤ index ∧ index < 0x5240 ∧ t ≠ 0 ∧ b.rdN (Od.DMA_TENANT (index - 0x5200)) ≠ t then some 3
  else match accessOf e index sub with
    | .ro => if w then some 1 else none
    | .wo | .cmd => if w then none else some 1
    | _ => none

-- The form of a request (R400, R403)

/-- Whether a request is MALFORMED. -/
def malformed (c : Caller) (q : Request) : Bool :=
  !(decide (1 ≤ q.op) && decide (q.op ≤ 4)) || q.resv != 0 || (if q.op = 4 then decide (2 ≤ q.flags) else q.flags != 0)
    || ((q.op == 1 || q.op == 2) && q.offset != 0) || (q.op == 1 && q.length != 0) || (writes q.op && decide (q.data.length < q.length))
    || (q.op == 4 && decide (segLimit c < q.length))

/-- Whether a request's operation, type code or length is wrong for an entry's type. -/
def typeWrong (e : Entry) (q : Request) : Bool :=
  ((e.ty == .domain) != (q.op == 3 || q.op == 4)) || ((writes q.op || q.ty != 0) && q.ty != typeCode e.ty)
    || (q.op == 2 && q.length != typeLen e.ty)

end Sys2Proof.Machine
end

