-- ==== Sys2Proof/Machine/Reads.lean ====
section
/-! DEFINITION. What a read returns (R401, R403): entries that are computed when read, byte entries, DOMAIN values, whole records of the rings. -/

namespace Sys2Proof.Machine

/-- OD 0x2000 as a request's arrival latches it (R61): sub-indices 0x01 to 0x07. -/
def Block.latchMt (b : Block) : List Int :=
  [b.mer, b.tick, b.rd Od.MT_UNCERTAINTY, b.rd Od.MT_TIME_VALID, b.rd Od.MT_TIME_SET, b.rd Od.MT_STEER_DOMAIN, b.rd Od.MT_STICKY]

/-- Whole seconds, rounded up, until a cycle. -/
def Block.secsLeft (b : Block) (at_ : Option Nat) : Nat :=
  match at_ with
  | some t => divUp (t - b.cyc) (secs 1)
  | none => 0

/-- A numeric entry that has a value of its own only when it is read; `none` for one that the dictionary holds. -/
def Block.computed (b : Block) (k : Nat) (latch : List Int) : Option Int :=
  let i := k / 256 % 65536
  let s := k % 256
  if 0x1110 ≤ i ∧ i < 0x1118 then
    let q := tat {} b.mg.ev (i - 0x1110)
    if s = 6 then some q.queue.length else if s = 7 then some q.lost else if s = 0x0A then some q.sticky else none
  else if i = 0x1200 then (if s = 1 then some b.mg.srv.queue.length else none)
  else if i = 0x2000 then (if s = 0 then none else latch[s - 1]?)
  else if i = 0x2020 then (if s = 3 then some b.domResidual else none)
  else if 0x2200 ≤ i ∧ i < 0x2220 then
    let p := i - 0x2200
    if s = 0x0C then some (b.alphaInUse p)
    else if s = 0x0F ∧ 3 ≤ b.rdN (Od.LT_STATE p) ∧ !(b.reel p).exch.isEmpty then some (offsetNow (b.reel p).exch b.tick)
    else none
  else if i = 0x2401 then (if s = 3 then some (b.rd (Od.PE_BANDWIDTH 1)) else none)
  else if i = 0x2600 then (if s = 0x0A then some b.switchResidual else none)
  else if 0x2620 ≤ i ∧ i < 0x2638 then (if s = 0x19 then some (b.secsLeft (b.slot (i - 0x2620)).wtrEnd) else none)
  else if i = 0x2701 then (if s = 3 then some b.steerNow else if s = 4 then some (b2n b.selected.isNone) else none)
  else if i = 0x2703 then (if s = 7 then some b.retResidual else none)
  else if i = 0x2800 then (if s = 0x0B then some b.rampLeft else none)
  else if i = 0x2802 then (if 1 ≤ s ∧ s ≤ 8 then some (b.setInfo (s - 1)) else none)
  else if i = 0x3310 then
    (if s = 5 then some (((List.range 512).filter fun r => bit (b.rdN (Od.CLS_ACTION r)) 31).length : Nat) else none)
  else if 0x3800 ≤ i ∧ i < 0x3820 then (if k = Od.LANE_PRBS_BITS (i - 0x3800) then some (b.prbsBits (i - 0x3800)) else none)
  else if i = 0x4001 then (if s = 0x11 then some b.keepBits else none)
  else if i = 0x6001 then
    (if s = 5 then some (if b.pr.held.isSome then min unknownUnc ((b.cyc - b.pr.heldAt) / ms 1) else unknownUnc) else none)
  else if i = 0x6002 then (if s = 3 then some (b2n b.handoverHigh) else none)
  else if i = 0x7001 then (if s = 3 then some b.xwStatus else none)
  else none

/-- The bound of a numeric entry for which the spec gives the module a figure it measures by means it does not state: a free value below the bound
is read (log 4). They are SRV_MEAN_SERVICE, SRV_LOAD, SUP_POWER, OSC_HEATER_POWER and SCRUB_PROGRESS. (DESIGN CHOICE, log 114.) -/
def measuredBound (k : Nat) : Option Nat :=
  if k = Od.SRV_MEAN_SERVICE ∨ k = Od.SUP_POWER then some (2 ^ 32)
  else if k = Od.SRV_LOAD ∨ k = Od.SCRUB_PROGRESS then some 10001
  else if k = Od.OSC_HEATER_POWER then some (2 ^ 16)
  else none

/-- The entries that a read of entry k latches together: the figures of a channel's last block (R209), a lane's PRBS counters (R309). (DEDUCED, log 150.) -/
def latchGroup (k : Nat) : List Nat :=
  let i := k / 256 % 65536
  if 0x2900 ≤ i ∧ i < 0x2908 ∧ 0x15 ≤ k % 256 ∧ k % 256 ≤ 0x19 then [0x15, 0x16, 0x17, 0x18, 0x19].map (k / 256 * 256 + ·)
  else if 0x3800 ≤ i ∧ i < 0x3820 ∧ (k = Od.LANE_PRBS_BITS (i - 0x3800) ∨ k = Od.LANE_PRBS_ERRORS (i - 0x3800)) then
    [Od.LANE_PRBS_BITS (i - 0x3800), Od.LANE_PRBS_ERRORS (i - 0x3800)]
  else []

/-- A read of a latched entry by tenant t: what an earlier read of the group latched for it and it has not read since, else the group latched anew. (DEDUCED, log 150.) -/
def Block.readLatched (b : Block) (t k : Nat) (g : List Nat) : Int × Block :=
  match tget b.mg.srv.latched (k * 8 + t) with
  | some v => (v, b.setSrv fun s => { s with latched := tdel s.latched (k * 8 + t) })
  | none =>
    let now (x : Nat) : Int := (b.computed x []).getD (b.rd x)
    (now k, b.setSrv fun s => { s with latched := (g.filter (· != k)).foldl (fun l x => tput l (x * 8 + t) (now x)) s.latched })

/-- A numeric entry as a read finds it. (DESIGN CHOICE, log 4 and 114; DEDUCED, log 46.) -/
def Block.readNum (b : Block) (t k : Nat) (latch : List Int) : Int × Block :=
  match measuredBound k with
  | some n => let d := b.draw n; (d.1, d.2)
  | none => match latchGroup k with
    | [] => (((b.computed k latch).getD (b.rd k)), b)
    | g => b.readLatched t k g

/-- The oldest event of tenant t taken through TNTt_EVENT_NEXT; all zero where the queue is empty (R413). -/
def Block.takeEvent (b : Block) (t : Nat) : Bytes × Block :=
  match (tat {} b.mg.ev t).take with
  | some (e, q) => (e.bytes, { b with mg := { b.mg with ev := tput b.mg.ev t q } })
  | none => (List.replicate 24 0, b)

/-- The value of an entry under a key as tenant t reads it, in bytes. -/
def Block.readEntry (b : Block) (t : Nat) (e : Entry) (k : Nat) (latch : List Int) : Bytes × Block :=
  match e.ty with
  | .octets n =>
    if k / 256 / 8 = 0x1110 / 8 ∧ k % 256 = 5 then b.takeEvent (k / 256 - 0x1110) else (padTo n (b.blob k), b)
  | .string n => (padTo n (b.blob k), b)
  | ty => let r := b.readNum t k latch; (encodeVal ty r.1, r.2)

/-- The table in force of converter c: the width of each bin in fs (Table 7.7). -/
def Block.convTable (b : Block) (c : Nat) : Bytes :=
  let n := if (b.conv c).table.bins.isEmpty then Config.factoryBins c % 65536 else (b.conv c).table.bins.length
  (List.range n).flatMap fun i => toLE 4 (b.codeBin c i)

/-- The whole value of a DOMAIN entry that is not a record entry. -/
def Block.domainValue (b : Block) (k : Nat) : Bytes :=
  let i := k / 256 % 65536
  if i = 0x2801 then b.convTable (k / 2 ^ 24)
  else if i = 0x2802 then Config.calSetData
  else if 0x3530 ≤ i ∧ i < 0x3540 then b.lagMap (i - 0x3530)
  else if i = 0x3500 then b.fdbDump
  else b.blob k

/-- Whether an entry returns whole records and ignores OFFSET (R403). -/
def recordEntry (index sub : Nat) : Bool :=
  (index == 0x2910 && sub == 3) || (index == 0x4003 && sub == 3) || (index == 0x5040 && sub == 0x0C) || (index == 0x7102 && sub == 3)

/-- Tenant t's read of a ring, at most `room` bytes, from its own index (R211, R215): records overwritten unread set bit [0] of its sticky entry and
raise an event that carries it. (DEDUCED, log 99.) -/
def Block.readRing (b : Block) (t room : Nat) (ring : List Bytes) (size wr rdKey stickyKey ev : Nat) : List Bytes × Block :=
  let (lost, out, next) := ringRead ring size wr (b.rdN rdKey) room
  let b := if lost then (b.orBits stickyKey 1).raise ev t else b
  (out, b.wr rdKey next)

/-- The records that tenant t's read of a record entry returns. -/
def Block.readRecords (b : Block) (t index room : Nat) : List Bytes × Block :=
  if index = 0x2910 then b.readRing t room b.tm.ticRing 65536 (b.rdN Od.TIC_RING_WR) (Od.TIC_RING_RD t) (Od.TIC_RING_STICKY t) 0x2906
  else if index = 0x4003 then b.readRing t room b.gn.ring 4096 (b.rdN Od.GNSS_RING_WR) (Od.GNSS_RING_RD t) (Od.GNSS_RING_STICKY t) 0x4008
  else if index = 0x7102 then
    let r := b.readRing t room b.mg.safe.dumpRing 8192 (b.rdN Od.CNT_RING_WR) (Od.CNT_RING_RD t) (Od.CNT_RING_STICKY t) 0x7102
    (r.1.map (b.maskDump t), r.2)
  else b.arcRead t room

end Sys2Proof.Machine
end

