-- ==== Sys2Proof/Machine/Writes.lean ====
section
/-! DEFINITION. What a write does (R10, R12, R399, R527): which state forbids it, which values are in range, what each entry's write brings, and
what each command starts. -/

namespace Sys2Proof.Machine

-- Sticky entries (R12) and entries whose write restarts a measurement

/-- The sub-indices of each record whose bits a write of 1 clears. -/
def stickySubs : List (Nat × List Nat) := [
  (0x1110, [0x0A]), (0x1202, [0x08]), (0x1210, [0x05]), (0x1300, [0x0A]), (0x1301, [0x07]), (0x1302, [0x0A]),
  (0x2000, [0x07]), (0x2200, [0x26]), (0x2400, [0x0E]), (0x2410, [0x11]), (0x2600, [0x0C, 0x0F]), (0x2620, [0x1C, 0x1D]),
  (0x2700, [0x05]), (0x2701, [0x05]), (0x2702, [0x11]), (0x2800, [0x0C]), (0x2810, [0x15]), (0x2900, [0x20]), (0x2910, [0x05]),
  (0x3000, [0x0D]), (0x3100, [0x25]), (0x3240, [0x0E]), (0x3400, [0x0C]), (0x3530, [0x07]), (0x3800, [0x26]),
  (0x4001, [0x14]), (0x4003, [0x05]), (0x5000, [0x09]), (0x5001, [0x0F]), (0x5010, [0x06]), (0x5040, [0x10]), (0x5100, [0x07]), (0x5200, [0x1E]),
  (0x6000, [0x0B]), (0x7000, [0x08]), (0x7001, [0x0B]), (0x7002, [0x09]), (0x7003, [0x08]), (0x7100, [0x05]), (0x7102, [0x05]),
  (0x7200, [0x06]), (0x7210, [0x10])]

/-- Whether the entry under a key is sticky. -/
def isSticky (k : Nat) : Bool :=
  match findRecord records (k / 256 % 65536) with
  | some r => stickySubs.any fun e => e.1 == r.1 && e.2.contains (k % 256)
  | none => false

/-- A write of a sticky entry: each bit written 1 is cleared. SAFE_STICKY bit [1] stays set while fault injection is enabled (R475). -/
def Block.clearSticky (b : Block) (k v : Nat) : Block :=
  let i := k / 256 % 65536
  if 0x1110 ≤ i ∧ i < 0x1118 then
    { b with mg := { b.mg with ev := tmod {} b.mg.ev (i - 0x1110) fun q => { q with sticky := q.sticky - (q.sticky &&& v) } } }
  else
    let b := b.clearBits k v
    if k = Od.SAFE_STICKY ∧ b.on Od.FI_ENABLE then b.orBits Od.SAFE_STICKY 2 else b

/-- The entry whose present value a write of the entry under a key restarts it from. -/
def restartFrom (k : Nat) : Option Nat :=
  let i := k / 256 % 65536
  let s := k % 256
  if i = 0x3000 ∧ s = 9 then some Od.SW_CELLS_FREE
  else if 0x3200 ≤ i ∧ i < 0x3220 ∧ s = 9 then some (k - 1)
  else if i = 0x3220 ∧ s = 6 then some (k - 1)
  else if 0x5101 ≤ i ∧ i < 0x5105 ∧ s = 2 then some (k - 1)
  else if i = 0x1300 ∧ s = 9 then some Od.SUP_VIN
  else none

-- STATE (R527)

/-- Whether the state of the module forbids a write: a standby takes local entries only (R444); an RWS entry while its function is not STOPPED or
another tenant holds it (R420); a slot in use (R133); time of day while a slot is SELECTED (R526). -/
def Block.writeBarred (b : Block) (t k : Nat) (acc : Access) (v : Int) : Bool :=
  let i := k / 256 % 65536
  let s := k % 256
  let rws : Bool := acc == .rws && (match b.blockFn k with | some f => b.fnState f != 0 || !b.holds f t | none => false)
  let graph : Bool := i == 0x5001 && s == 0x0A && decide (0 ≤ v) && decide (v < 16) && b.fnState (86 + v.toNat) != 0
  let slot : Bool := decide (0x2620 ≤ i) && decide (i < 0x2638) && decide (1 ≤ s) && decide (s ≤ 3) && b.slotBusy (i - 0x2620) && b.rd k != v
  (b.standby && !localKey k) || rws || graph || slot || (k == Od.MT_SET_TIME && b.setTimeBarred)

-- RANGE

/-- The ranges of a phase engine's settings (Table 4.3). -/
def engineRange (e s : Nat) : List (Int × Int) :=
  match s with
  | 1 | 3 => if e = 0 then [(1, 10000)] else [(10000, 4000000)]
  | 5 => if e = 0 then [(10, 100000000)] else [(10, 100000)]
  | 6 => if e = 0 then [(100, 3600000)] else [(1, 10000)]
  | _ => []

/-- Whether an event select is one of Table 18.5 (R471). -/
def selectOk (v : Nat) : Bool :=
  let cls := v / 2048
  let inst := v / 32 % 64
  let ev := v % 32
  match cls with
  | 0 => inst == 0 && decide (ev ≤ 4)
  | 1 => decide (inst < 32) && (decide (ev ≤ 7) || ev == 16 || ev == 17)
  | 2 | 3 => decide (inst < 32)
  | 4 => if inst = 16 then ev == 0 || ev == 16 else decide (inst < 16) && decide (ev ≤ 1)
  | 5 => decide (ev ≤ 2) || ev == 16 || ev == 17
  | 6 => decide (ev ≤ 3) || ev == 16 || ev == 17
  | 7 => decide (inst < 16) && (decide (ev ≤ 2) || ev == 16)
  | 8 => decide (inst < 8) && decide (ev ≤ 2)
  | 9 => inst == 0 && (decide (ev ≤ 3) || ev == 16 || ev == 17)
  | 10 => inst == 0 && (decide (ev ≤ 3) || ev == 16)
  | 11 => inst == 0 && (decide (ev ≤ 2) || ev == 16)
  | 12 => inst == 0 && decide (ev ≤ 2)
  | _ => false

/-- Whether a counter's select and mode go together (R471). -/
def selectMode (sel mode : Nat) : Bool :=
  selectOk sel && (mode == 0 || (mode == 1 && decide (sel % 32 < 16)) || (mode == 2 && decide (16 ≤ sel % 32)))

/-- What an entry's Range/units says beyond its list of ranges. -/
def Block.fieldsOk (b : Block) (k : Nat) (v : Int) : Bool :=
  let i := k / 256 % 65536
  let s := k % 256
  let sel := k / 2 ^ 24
  let n := v.toNat
  if i = 0x1100 then (if 1 ≤ s then b.apOk (s - 1) n else true)
  else if 0x2400 ≤ i ∧ i < 0x2404 then inRanges (engineRange (i - 0x2400) s) v
  else if 0x3100 ≤ i ∧ i < 0x3120 then
    if k = Od.P_VLAN (i - 0x3100) then decide (1 ≤ n % 4096) && decide (n % 4096 ≤ 4094) && decide (bits n 12 2 ≤ 2) && decide (n < 2 ^ 18) else true
  else if i = 0x3260 then
    (if 2 ≤ s ∧ sel = 0 then false
     else if s = 2 then decide (n ≤ b.rdN (Od.WRED_MAX sel)) else if s = 3 then decide (b.rdN (Od.WRED_MIN sel) ≤ n) else true)
  else if i = 0x3300 then (if s = 6 then decide (b.rdN (Od.POL_CIR sel) ≤ n) else true)
  else if i = 0x3310 then (if s = 3 then n % 16 == 0 else true)
  else if 0x5200 ≤ i ∧ i < 0x5240 then
    let follow := b.rdN (Od.DMA_MODE (i - 0x5200)) == 2
    if s = 7 then !(follow && n == 1) else if s = 9 then (if follow then decide (65536 ≤ n) else decide (n ≤ 4096)) else true
  else if 0x7110 ≤ i ∧ i < 0x7150 then
    let c := i - 0x7110
    if s = 1 then selectMode n (b.rdN (Od.CNTN_MODE c)) else if s = 2 then selectMode (b.rdN (Od.CNTN_SELECT c)) n else true
  else true

/-- Whether a value lies in an entry's Range/units (R399). (DEDUCED, log 43.) -/
def Block.valueOk (b : Block) (e : Entry) (k : Nat) (v : Int) : Bool := inRanges e.range v && b.fieldsOk k v

/-- Whether a flow rule's match record is one of Table 10.1. -/
def matchOk (l : Bytes) : Bool :=
  decide (ofLE (slice l 44 1) ≤ 32) && decide (ofLE (slice l 45 1) ≤ 32) && bits (ofLE (slice l 50 1)) 3 4 == 0 && ofLE (slice l 51 1) == 0

-- What a write brings

/-- The programmable counters that count follow CNTn_SELECT and CNTn_MODE (R470). -/
def Block.syncCounter (b : Block) (c : Nat) : Block :=
  let mode := b.rdN (Od.CNTN_MODE c)
  { b with mg := { b.mg with cnt := if mode = 0 then tdel b.mg.cnt c else tput b.mg.cnt c (b.rdN (Od.CNTN_SELECT c), mode) } }

/-- Entry n of the arrival-point table written: a change raises event 0x1101, and the requester that events there went to is forgotten (R410, R413). (DEDUCED, log 101.) -/
def Block.writeAp (b : Block) (n : Nat) (v : Nat) : Block :=
  if b.apEntry n = v then b
  else (({ (b.wr (key 0x1100 (n + 1)) v) with mg := { b.mg with from_ := tdel b.mg.from_ n } } : Block)).raise 0x1101 n

/-- FI_ENABLE written (R475): enabling sets bits of SAFE_STICKY and FI_STICKY, disabling ends every injector. (DEDUCED, log 118.) -/
def Block.writeFi (b : Block) (v : Int) : Block :=
  let b := b.wr Od.FI_ENABLE v
  if v = 1 then (b.orBits Od.SAFE_STICKY 2).orBits Od.FI_STICKY 1
  else (List.range 32).foldl (fun b p => if bit (b.rdN Od.FI_ARMED) p then b.fipEnd p 3 else b) b

/-- A numeric RW or RWS entry takes a value, with what that brings. (DEDUCED, log 120.) -/
def Block.putNum (b : Block) (t k : Nat) (v : Int) : Block :=
  let i := k / 256 % 65536
  let s := k % 256
  let w := b.wr k v
  if isSticky k then b.clearSticky k v.toNat
  else match restartFrom k with
  | some k' => b.wr k (b.rd k')
  | none =>
    if i = 0x1100 then b.writeAp (s - 1) v.toNat
    else if i = 0x1300 then w.judgeSupply
    else if i = 0x2002 then (if k = Od.MT_UTC_SOURCE ∧ v = 0 then w.followUtc else w.takeManual)
    else if i = 0x2020 then w.rebaseDom
    else if 0x2200 ≤ i ∧ i < 0x2220 then
      let p := i - 0x2200
      if 0x09 ≤ s ∧ s ≤ 0x0B then w.takeAlpha p
      else if k = Od.LT_SYNCE_ESMC p then w.esmcMode p
      else if k = Od.LT_PTP_PORT_CONFIG p ∧ b.ptpRuns p then w.setPortState p (w.portState p (b.rdN (Od.LT_PTP_PORT_STATE p)))
      else w
    else if 0x2410 ≤ i ∧ i < 0x2418 then w.refreshPending
    else if i = 0x2600 then
      if k = Od.SEL_PHASE then (if b.rd k = v then b else (b.setPhase v.toNat false).phaseChanged.evaluate)
      else if k = Od.SEL_FORCE then w.evaluate
      else if k = Od.SEL_SWITCH_SLEW then w.rebaseSwitch
      else w
    else if 0x2620 ≤ i ∧ i < 0x2638 then
      let n := i - 0x2620
      if 1 ≤ s ∧ s ≤ 3 then b.slotConfig n k v
      else if s = 4 then w.evaluate
      else if s = 5 then b.lockout n v
      else if s = 6 then w.judgeQuality n
      else if s = 7 then w.rerank n
      else w
    else if i = 0x2701 then (if s = 1 then b.steerWrite v else if s = 5 then w.clipSticky else w.retargetSteer)
    else if i = 0x2703 then (if k = Od.RET_SLEW_RATE then w.rebaseReturn else w)
    else if i = 0x2800 then (if k = Od.CAL_RAMP_RATE then b.setRampRate v else w)
    else if i = 0x4000 then
      (if k = Od.GNSS_POS_MODE ∧ b.rd k ≠ v then w.surveyForget else if k = Od.GNSS_ANT_POWER then w.antPower else w)
    else if i = 0x5040 then (if k = Od.ARC_STAGING then (w.wr Od.POOL_REGION_MIB (14784 - v)).stagingUsed else w)
    else if 0x5200 ≤ i ∧ i < 0x5240 then
      let c := i - 0x5200
      if s = 0x0B then b.dmaTail c v.toNat true
      else if (s = 1 ∨ s = 8 ∨ s = 9) ∧ b.rd k ≠ v then (w.wr (Od.DMA_HEAD c) 0).wr (Od.DMA_TAIL c) 0
      else w
    else if k = Od.CNT_DUMP_PERIOD then w.setSafe fun x => { x with dumpAt := w.dumpIndex }
    else if 0x7110 ≤ i ∧ i < 0x7150 then
      let c := i - 0x7110
      if s = 1 then (w.wr (Od.CNTN_OWNER c) t).syncCounter c else if s = 2 then w.syncCounter c else w
    else if k = Od.FI_ENABLE then b.writeFi v
    else w

-- Commands

/-- OUT_COMMIT = 1 (R120): the checks in the order of R527. -/
def Block.outCommit (b : Block) : Reply :=
  let cfgs := (List.range 8).map b.shadow
  match firstOffence b cfgs (List.range 8) with
  | some (n, s) => (b.wr Od.OUT_COMMIT_ERROR (n * 256 + s : Nat)).rangeError
  | none =>
    let at_ := b.rdN Od.OUT_COMMIT_AT
    if b.pairCommits ∧ at_ ≠ 0 ∧ tickDiff at_ b.tick < 10000000 * 65536 then (b.wr Od.OUT_COMMIT_ERROR 0xFF02).rangeError
    else if b.rdN Od.OUT_COMMIT_STATUS = 1 then b.busy
    else
      let b := if b.pairCommits then b.emit (.carried (.commit ⟨cfgs, if at_ = 0 then tickOf b.nextCommitSecond else at_⟩)) else b
      b.armCommit.ok

/-- FNf_CMD, JOBj_CTRL and the rest: what the command under a key starts when tenant t writes v in its range. -/
def Block.command (b : Block) (t k : Nat) (v : Nat) : Reply :=
  let i := k / 256 % 65536
  if k = Od.IMG_COMMIT then b.imgCommit t
  else if k = Od.IMG_BOOT_SELECT then b.bootSelect v
  else if k = Od.CFG_SAVE then b.cfgSave t
  else if k = Od.CFG_CLEAR then b.cfgClear
  else if 0x1210 ≤ i ∧ i < 0x12B8 then (if v = 1 then b.functionStart (i - 0x1210) t else b.functionStop (i - 0x1210) t)
  else if 0x12C0 ≤ i ∧ i < 0x12D0 then
    let j := i - 0x12C0
    if v = 1 then b.jobPause j else if v = 2 then b.jobResume j else b.jobAbort j
  else if k = Od.RST_WARM then (b.rstCommand 5 t).getD b.stateError
  else if k = Od.RST_FW_RESTART then (b.rstCommand 7 t).getD b.stateError
  else if k = Od.RST_FUNCTION then b.rstFunction v t
  else if k = Od.MT_SET_TIME then (b.setTime v).ok
  else if k = Od.OUT_COMMIT then (if v = 1 then b.outCommit else b.cancelCommit.ok)
  else if 0x2620 ≤ i ∧ i < 0x2638 then (b.endWait (i - 0x2620)).ok
  else if k = Od.CAL_CD_START then b.codeDensityStart t
  else if 0x2820 ≤ i ∧ i < 0x2840 then b.linkCalStart (i - 0x2820) t
  else if 0x2900 ≤ i ∧ i < 0x2908 then (if v = 1 then b.ticArm (i - 0x2900) else b.ticDisarm (i - 0x2900))
  else if k = Od.SW_RESEED then b.swReseed
  else if 0x3240 ≤ i ∧ i < 0x3260 then (if v = 1 then b.gclChange (i - 0x3240) else b.gclCancel (i - 0x3240))
  else if k = Od.FDB_OP then
    (match v with
     | 1 => b.fdbRead t
     | 2 => b.fdbWrite t
     | 3 => b.fdbDelete t
     | _ => b.fdbFlush t)
  else if 0x3800 ≤ i ∧ i < 0x3820 then
    let l := i - 0x3800
    if k = Od.LANE_PRBS_CLEAR l then (b.prbsClear l).ok
    else if k = Od.LANE_INJ_ARM l then (if v = 1 then b.injArm l else b.injDisarm l)
    else b.i2cStart l v t
  else if k = Od.GNSS_KEEP_CLEAR then b.keepClear
  else if k = Od.ARC_SEEK then b.arcSeek t
  else if 0x5200 ≤ i ∧ i < 0x5240 then (if v = 1 then b.dmaResumeRetry (i - 0x5200) else b.dmaResumeSkip (i - 0x5200))
  else if k = Od.PAIR_SWITCH_BACK then b.switchBack
  else if k = Od.SAFE_CLEAR then b.safeClear
  else if k = Od.SAFE_FORCE then b.safeForce
  else if k = Od.CNT_SNAPSHOT then b.cntSnapshot
  else if k = Od.FI_XW_TEST then b.fiXwTest v
  else if k = Od.FI_ECC_TEST then b.eccTest v
  else if 0x7210 ≤ i ∧ i < 0x7230 then (if v = 1 then b.fipArm (i - 0x7210) else b.fipDisarm (i - 0x7210))
  else b.ok

/-- A command whose value is out of its range: STATE where the state forbids the action for any value, else RANGE (R527). (DEDUCED, log 95.) -/
def Block.commandRange (b : Block) (t k : Nat) : Reply :=
  let i := k / 256 % 65536
  let open_ : Bool := (decide (0x1210 ≤ i) && decide (i < 0x12B8)) || k == Od.RST_FUNCTION || k == Od.MT_SET_TIME
  if !open_ && (b.command t k 1).status == 6 then b.stateError else b.rangeError

-- A write taken whole (R399, R527 from STATE on)

/-- Tenant t's write of bytes, of the length of its type, to the entry under a key. (DEDUCED, log 43 and 63.) -/
def Block.writeEntry (b : Block) (t : Nat) (e : Entry) (acc : Access) (k : Nat) (l : Bytes) : Reply :=
  let v := decodeVal e.ty l
  if b.pr.back.isSome then ⟨b, 1, 100000⟩
  else if b.writeBarred t k acc (v.getD 0) then b.stateError
  else match e.ty with
  | .octets _ | .string _ => if k = Od.CLS_MATCH (k / 2 ^ 24) ∧ !matchOk l then b.rangeError else (b.wrBlob k l).ok
  | _ =>
    match v with
    | none => b.rangeError
    | some v =>
      if acc = .cmd then
        (if k = Od.IMG_BOOT_SELECT then b.command t k v.toNat
         else if b.valueOk e k v then b.command t k v.toNat else b.commandRange t k)
      else if b.valueOk e k v then (b.putNum t k v).ok
      else b.rangeError

/-- A DOMAIN entry takes a whole value with its last segment (R403): at most 134,217,728 bytes; a gate list has 1 to 256 entries of Table 10.3. -/
def Block.writeDomain (b : Block) (k : Nat) (l : Bytes) : Reply :=
  let i := k / 256 % 65536
  if 0x3240 ≤ i ∧ i < 0x3260 ∧ (l.isEmpty ∨ (gclEntries 256 l).isNone) then b.rangeError
  else (b.wrBlob k l).ok

end Sys2Proof.Machine
end

