-- ==== Sys2Proof/Machine/Server.lean ====
section
/-! DEFINITION. The dictionary server (R400 to R403, R414 to R416, R527): what it answers, kept responses, credits, rounds, and the minimal
responder. -/

namespace Sys2Proof.Machine


-- The answer to a request (R401, R403, R527)

/-- A response of a status, AUX and data to a request (Table 15.3). (DEDUCED, log 94.) -/
def reply (q : Request) (ty status aux : Nat) (data : Bytes := []) (gen : Option Nat := none) : Response :=
  { op := (q.op + 128) % 256, status := status, token := q.token, index := q.index, sub := q.sub, ty := ty, aux := aux, data := data, gen := gen }

/-- How long an accumulation or snapshot is kept idle (R403). (DEDUCED, log 96.) -/
def segmentLife : Nat := secs 10

/-- A DOMAIN segment read by tenant t (R403). (DEDUCED, log 41.) -/
def Block.readSegment (b : Block) (t k : Nat) (q : Request) (ty room : Nat) : Response × Block :=
  let sk := keyAt t q.index q.sub
  let serve (b : Block) (v : Bytes) : Response × Block :=
    (reply q ty 0 v.length ((v.drop q.offset).take room), b.setSrv fun s => { s with snaps := tput s.snaps sk ⟨q.index, q.sub, v, b.cyc⟩ })
  if q.offset = 0 then serve b (b.domainValue k)
  else match tget b.mg.srv.snaps sk with
    | some s => if b.cyc < s.at_ + segmentLife then serve b s.bytes else (reply q ty 8 0, b)
    | none => (reply q ty 8 0, b)

/-- A DOMAIN segment written by tenant t (R399, R403): accumulated under the tenant and the entry, taken into force with LAST (log 41). -/
def Block.writeSegment (b : Block) (t k : Nat) (acc : Access) (q : Request) (ty : Nat) : Response × Block :=
  let sk := keyAt t q.index q.sub
  let had : Bytes := match tget b.mg.srv.accs sk with
    | some s => if b.cyc < s.at_ + segmentLife then s.bytes else []
    | none => []
  let drop (b : Block) : Block := b.setSrv fun s => { s with accs := tdel s.accs sk }
  let before := if q.offset = 0 then [] else had
  if q.offset ≠ before.length then (reply q ty 8 0, drop b)
  else if b.pr.back.isSome then (reply q ty 1 100000, b)
  else if b.writeBarred t k acc 0 then (reply q ty 6 0, b)
  else
    let all_ := before ++ q.data.take q.length
    if 134217728 < all_.length then (reply q ty 5 0, drop b)
    else if q.flags % 2 = 1 then
      let r := (drop b).writeDomain k all_
      (reply q ty r.status r.aux, r.b)
    else (reply q ty 0 0, b.setSrv fun s => { s with accs := tput s.accs sk ⟨q.index, q.sub, all_, b.cyc⟩ })

/-- What the server answers to a request, and the module after it: the checks of R527 in their order, then the effect. (DEDUCED, log 97.) -/
def Block.answer (b : Block) (w : Waiting) : Response × Block :=
  let q := w.req
  let found := rowOf (key q.index q.sub)
  let ty := match found with | some e => typeCode e.ty | none => 0
  if malformed w.caller q then (reply q ty 9 0, b)
  else match found with
  | none => (reply q 0 2 0, b)
  | some e =>
    match b.refusal w.tenant w.owner e q.op q.index q.sub with
    | some why =>
      let b := if why = 2 then { b with mg := { b.mg with ev := tmod {} b.mg.ev w.tenant fun x => { x with sticky := x.sticky ||| 4 } } } else b
      (reply q ty 3 why, b)
    | none =>
      if typeWrong e q then (reply q ty 4 0, b)
      else
        let k := b.entryKey w.tenant e q.index q.sub
        if q.op = 1 then
          let (v, b) := b.readEntry w.tenant e k w.latch
          (reply q ty 0 0 v (if isCounter k then some (b.genOf k) else none), b)
        else if q.op = 2 then
          let r := b.writeEntry w.tenant e (accessOf e q.index q.sub) k (q.data.take q.length)
          (reply q ty r.status r.aux, r.b)
        else if q.op = 3 then
          let room := min q.length (segLimit w.caller)
          if recordEntry q.index q.sub then
            let (rs, b) := b.readRecords w.tenant q.index room
            (reply q ty 0 rs.length rs.flatten, b)
          else b.readSegment w.tenant k q ty room
        else b.writeSegment w.tenant k (accessOf e q.index q.sub) q ty

-- Sending

/-- The bytes of an in-band frame that carries a message of n bytes (R404). -/
def frameBytes (vid n : Nat) : Nat := max 64 (14 + (if vid = 0 then 0 else 4) + 4 + n + 4)

/-- PCIe function fn's mailbox, and the module with it changed. -/
def Block.box (b : Block) (fn : Nat) : Mailbox := tat {} b.mg.srv.box fn
def Block.setBox (b : Block) (fn : Nat) (f : Mailbox → Mailbox) : Block := b.setSrv fun s => { s with box := tmod {} s.box fn f }

/-- A response sent back on the path its request came by (R401, R404, R407). (DEDUCED, log 93.) -/
def Block.respond (b : Block) (c : Caller) (r : Response) : Block :=
  match c with
  | .pcie fn => ((b.setBox fn fun x => { x with pending := none, response := some r }).emit (.response c r)).emit (.msix fn 0)
  | .inband p _ _ => if b.on (Od.P_LINK p) then b.ownSend p (.response c r) else b
  | _ => b.emit (.response c r)

-- Serving (R402, R415)

/-- The kept response that a request finds at its arrival point (R402). -/
def Block.keptFor (b : Block) (w : Waiting) : Option Response :=
  ((tat [] b.mg.srv.kept w.point).find? fun k =>
    k.token == w.req.token && k.op == w.req.op && k.index == w.req.index && k.sub == w.req.sub).map (·.resp)

/-- A response kept for a resend: the last 16 of its arrival point, BUSY ones not. (DEDUCED, log 93.) -/
def Block.keep (b : Block) (w : Waiting) (r : Response) : Block :=
  if r.status = 1 then b
  else b.setSrv fun s => { s with kept := tmod [] s.kept w.point fun l => (⟨w.req.token, w.req.op, w.req.index, w.req.sub, r⟩ :: l).take 16 }

/-- A request checked, taken into effect and answered once (R401): counted as served, its response kept and sent. (DEDUCED, log 93.) -/
def Block.answered (b : Block) (w : Waiting) : Block :=
  let x := b.answer w
  ((((x.2.bump (Od.TNT_REQUESTS w.tenant) 1).bump Od.CNT_FIXED_OD_REQUESTS 1).tally 10 0 0).keep w x.1).respond w.caller x.1

/-- The server's round at a request of tenant t: its progress is what the watchdog sees (R417), and the next round starts after t (R415). (DEDUCED, log 96.) -/
def Block.turn (b : Block) (t : Nat) : Block := b.setSrv fun s => { s with progressAt := b.cyc, schedAt := b.cyc, last := t }

/-- One request served: a kept response is sent again, any other request is answered. (DEDUCED, log 93.) -/
def Block.serve (b : Block) (w : Waiting) : Block :=
  let b := b.turn w.tenant
  match b.keptFor w with
  | some r => b.respond w.caller r
  | none => b.answered w

/-- The first request of tenant t in a queue, and the queue without it. -/
def firstOf (t : Nat) : List Waiting → Option (Waiting × List Waiting)
  | [] => none
  | w :: r => if w.tenant = t then some (w, r) else (firstOf t r).map fun e => (e.1, w :: e.2)

/-- The request that the round takes next: of the first tenant with one whose boundary's fence is settled (R34), from the one after the last served. -/
def Block.nextRequest (b : Block) : Option (Waiting × List Waiting) :=
  ((List.range 8).map fun i => (b.mg.srv.last + 1 + i) % 8).findSome? fun t =>
    if b.agreed (Boundary.server (Fin.ofNat 8 t)).no then firstOf t b.mg.srv.queue else none

/-- At most n waiting requests served, in rounds, while the server runs with its clock. -/
def Block.serveAll (b : Block) : Nat → Block
  | 0 => b
  | n + 1 =>
    if !b.mg.srv.running || !b.clockRuns .prixus then b
    else match b.nextRequest with
    | none => b
    | some (w, rest) => ((b.setSrv fun s => { s with queue := rest }).serve w).serveAll n

/-- Every request that waits now served. -/
def Block.serveWaiting (b : Block) : Block := b.serveAll b.mg.srv.queue.length

-- Accepting (R401, R414, R416)

/-- Whether the minimal responder answers a request itself (R416). -/
def minimal (q : Request) : Bool :=
  let i := q.index
  q.op == 1 && (decide (0x1000 ≤ i) && decide (i < 0x1100) || decide (0x1300 ≤ i) && decide (i < 0x1400)
    || decide (0x2000 ≤ i) && decide (i < 0x2100) || decide (0x2600 ≤ i) && decide (i < 0x2638)
    || decide (0x2700 ≤ i) && decide (i < 0x2800) || (decide (0x1110 ≤ i) && decide (i < 0x1118) && q.sub == 5))

/-- The type code a response shows. (DEDUCED, log 94.) -/
def entryCode (q : Request) : Nat := match rowOf (key q.index q.sub) with | some e => typeCode e.ty | none => 0

/-- A request that arrives while the server does not run (R416). (DEDUCED, log 93 and 94.) -/
def Block.minimalAnswer (b : Block) (w : Waiting) : Block :=
  match w.caller with
  | .service _ _ | .can _ _ =>
    if minimal w.req then let r := b.answer w; r.2.respond w.caller r.1
    else b.respond w.caller (reply w.req (entryCode w.req) 1 100000)
  | _ => b

/-- A request beyond its tenant's credits (R414): the hint is n times the mean service time, for which the spec gives no value: a free value (log 4). (DEDUCED, log 93, 94 and 97.) -/
def Block.noCredit (b : Block) (w : Waiting) : Block :=
  let (mean, b) := b.draw (2 ^ 32)
  let hint := max 50 (min 100000 (b.mg.srv.queue.length * mean / 1000))
  let b := b.bump (Od.TNT_BUSY w.tenant) 1
  let b := { b with mg := { b.mg with ev := tmod {} b.mg.ev w.tenant fun x => { x with sticky := x.sticky ||| 2 } } }
  ((b.raiseLim 0x1102 w.tenant).tally 10 0 1).respond w.caller (reply w.req (entryCode w.req) 1 hint)

/-- A request that no arrival point matches (R401). -/
def Block.noPoint (b : Block) (c : Caller) (q : Request) : Block :=
  match c with
  | .inband p _ _ => b.dropOn p (Od.P_DROP_MGMT p)
  | .service _ _ | .can _ _ => b.bump Od.MP_NO_POINT 1
  | .pcie _ => (b.bump Od.MP_NO_POINT 1).respond c (reply q (entryCode q) 3 4)

/-- A request as it waits for the server: with the tenant of entry n of the arrival-point table, and OD 0x2000 as its arrival latches it (R61). -/
def Block.waiting (b : Block) (n : Nat) (c : Caller) (q : Request) : Waiting :=
  ⟨apTenant (b.apEntry n), n, apOwner (b.apEntry n), c, q, if q.index = 0x2000 then b.latchMt else []⟩

/-- The requester of entry n known as the one that its events go to (R413). (DEDUCED, log 101.) -/
def Block.known (b : Block) (n : Nat) (c : Caller) : Block := { b with mg := { b.mg with from_ := tput b.mg.from_ n c } }

/-- A request taken into the server's queue. -/
def Block.queued (b : Block) (w : Waiting) : Block := (b.setSrv fun s => { s with queue := s.queue ++ [w] }).need .prixus

/-- Whether tenant t has used all its credits: as many requests wait as the boundary has (R414, Table 1.5). (DEDUCED, log 97.) -/
def Block.noCredits (b : Block) (t : Nat) : Bool :=
  decide (b.credits (.server (Fin.ofNat 8 t)) ≤ (b.mg.srv.queue.filter fun x => x.tenant == t).length)

/-- A request at the dictionary's door, on a path that is up. One in a PCIe mailbox, or in-band, is not answered while the server does not run. (DEDUCED, log 8.) -/
def Block.accept (b : Block) (c : Caller) (q : Request) : Block :=
  let running := b.mg.srv.running
  let waits : Bool := match c with | .pcie _ => !running | _ => false
  if waits then b
  else match b.pointOf c with
  | none => b.noPoint c q
  | some n =>
    let w := b.waiting n c q
    if !running then
      (match c with
       | .inband _ _ _ => b
       | _ => (b.known n c).minimalAnswer w)
    else if b.noCredits w.tenant then b.noCredit w
    else ((b.known n c).queued w).serveWaiting

/-- The requests that the mailboxes still hold, taken once the server runs (R416). -/
def Block.takePending (b : Block) : Block :=
  b.mg.srv.box.foldl (fun (b : Block) (e : Nat × Mailbox) =>
    match e.2.pending with
    | some q => b.accept (.pcie (Fin.ofNat 4 e.1)) q
    | none => b) b

end Sys2Proof.Machine
end

