-- ==== Sys2Proof/Machine/Paths.lean ====
section
/-! DEFINITION. The paths of the dictionary (R404 to R408, R413): requests in frames, in CAN FD messages and in PCIe mailboxes, events that leave
a tenant's queue, and the restore of a saved configuration (R428). -/

namespace Sys2Proof.Machine

-- Requests as bytes (Table 15.2)

/-- The request that a message's bytes spell. -/
def requestOf (l : Bytes) : Request :=
  let n (o w : Nat) : Nat := ofLE (slice l o w)
  { op := n 0 1, flags := n 1 1, token := n 2 2, index := n 4 2, sub := n 6 1, ty := n 7 1, offset := n 8 4, length := n 12 2, resv := n 14 2,
    data := l.drop 16 }

/-- The request that writes a value to an entry, of the entry's type. -/
def writeRequest (token index sub : Nat) (v : Int) : Request :=
  let ty := match rowOf (key index sub) with | some e => e.ty | none => .u8
  { op := 2, token := token, index := index, sub := sub, ty := typeCode ty, length := typeLen ty, data := encodeVal ty v }

/-- The request that reads an entry. -/
def readRequest (token index sub : Nat) : Request := { op := 1, token := token, index := index, sub := sub }

/-- The request that reads at most n bytes of a record entry. -/
def recordRequest (token index sub n : Nat) : Request := { op := 3, token := token, index := index, sub := sub, length := n }

/-- The same by the key of an entry. -/
def writeKey (token k : Nat) (v : Int) : Request := writeRequest token (k / 256 % 65536) (k % 256) v
def readKey (token k : Nat) : Request := readRequest token (k / 256 % 65536) (k % 256)
def ringKey (token k n : Nat) : Request := recordRequest token (k / 256 % 65536) (k % 256) n

-- Whether a path is up

/-- Whether PCIe function fn exposes its mailbox (R407, R437). -/
def Block.pcieUp (b : Block) (fn : Nat) : Bool :=
  !b.partHeld 2 && b.rdN Od.CAP_PCIE_LINK != 0 && !b.rootPort && decide (fn < b.rdN Od.CAP_PCIE_FUNCTIONS)

/-- Whether CAN controller c is in use (R405). -/
def Block.canOn (b : Block) (c : Nat) : Bool := b.on (if c = 0 then Od.MP_CAN0_ENABLE else Od.MP_CAN1_ENABLE)

/-- A frame received whole and good on port p (R264). -/
def Block.rxCounted (b : Block) (p n : Nat) : Block :=
  (((b.bump (Od.P_RX_FRAMES p) 1).bump (Od.P_RX_OCTETS p) n).bump Od.CNT_FIXED_RX_FRAMES 1).tally 1 p 0

/-- Whether a requester's path takes a request now: an in-band one on a running port with a link (R404), a CAN one on a controller in use (R405), a
PCIe one while no request is pending and no response waits (R407). -/
def Block.pathUp (b : Block) (c : Caller) : Bool :=
  match c with
  | .inband p _ _ => !b.partHeld 1 && !b.standby && b.fnRuns p && b.on (Od.P_LINK p)
  | .service _ _ => true
  | .can ctrl _ => b.canOn ctrl
  | .pcie fn => b.pcieUp fn && (b.box fn).pending.isNone && (b.box fn).response.isNone

/-- What a request's way in brings: a frame received in-band, the mailbox of a PCIe function taken. -/
def Block.arriving (b : Block) (c : Caller) (q : Request) : Block :=
  match c with
  | .inband p vid _ => ((b.wakePort p).need .fabric).rxCounted p (frameBytes vid (16 + q.data.length))
  | .pcie fn => b.setBox fn fun x => { x with pending := some q }
  | _ => b

-- The ingress buffers (R23)

/-- Whether a port's path into the fabric runs. -/
def Block.pathRuns (b : Block) (p : Nat) : Bool := b.clockRuns .fabric && !b.on (Od.P_IDLE p) && b.mayCross (.ingress (Fin.ofNat 32 p))

/-- The bytes of a frame that waits. -/
def RxWait.size (w : RxWait) : Nat := match w.req with | some (vid, _, q) => frameBytes vid (16 + q.data.length) | none => w.bytes.length

/-- The bytes that wait in port p's ingress buffers, and their size (R23). -/
def Block.waitingBytes (b : Block) (p : Nat) : Nat := ((b.pf p).ingress.map RxWait.size).sum
def Block.ingressSize (b : Block) (p : Nat) : Nat := 49152 * (lanesOf (b.modeNow p) p).length

/-- Whether a frame at port p's PCS has to wait in its ingress buffer: its path does not run, or frames wait before it. -/
def Block.mustHold (b : Block) (p : Nat) : Bool := !b.pathRuns p || !(b.pf p).ingress.isEmpty

/-- A frame held in port p's ingress buffer while its path is woken, or dropped where the buffer is full (R23). -/
def Block.holdRx (b : Block) (p : Nat) (w : RxWait) : Block :=
  let b := (b.wakePort p).need .fabric
  if b.ingressSize p < b.waitingBytes p + w.size then (b.dropOn p (Od.P_DROP_OVERRUN p)).orBits (Od.P_STICKY p) 16
  else b.setPf p fun x => { x with ingress := x.ingress ++ [w] }

/-- Whether a request has to wait in its port's ingress buffer. -/
def Block.heldAtPort (b : Block) (c : Caller) : Bool := match c with | .inband p _ _ => b.mustHold p | _ => false

/-- A request on one of the paths; one in-band waits with the frames of its port while the path does not run. (DEDUCED, log 8.) -/
def Block.submit (b : Block) (c : Caller) (q : Request) : Block :=
  if !b.pathUp c then b
  else match c, b.heldAtPort c with
    | .inband p vid src, true => b.holdRx p { bytes := [], pcs := true, stamp := 0, req := some (vid, src, q) }
    | _, _ => (b.arriving c q).accept c q

/-- MB_DOORBELL (R407): ignored while a request is pending or a response waits. -/
def Block.doorbell (b : Block) (fn : Fin 4) (q : Request) : Block := b.submit (.pcie fn) q

/-- MB_ACK (R407). -/
def Block.mailboxAck (b : Block) (fn : Nat) : Block :=
  if b.pcieUp fn then b.setBox fn fun x => { x with response := none } else b

/-- Whether an event ring of n slots is one (Table 15.6); 0 disables it. -/
def ringSizeOk (n : Nat) : Bool := [0, 16, 32, 64, 128, 256, 512, 1024, 2048, 4096].contains n

/-- MB_EVQ_TAIL written; `setup` is the base and size of the ring where the host sets it up, with HEAD and TAIL at 0 (R408, log 42). -/
def Block.evqTail (b : Block) (fn tail : Nat) (setup : Option (Nat × Nat)) : Block :=
  if !b.pcieUp fn then b
  else
    let b := match setup with
      | some (base, size) =>
        if ringSizeOk size ∧ base % 64 = 0 then b.setBox fn fun x => { x with evqBase := base, evqSize := size, evqHead := 0, evqTail := 0 } else b
      | none => b
    b.setBox fn fun x => { x with evqTail := tail % 2 ^ 32 }

-- CAN FD (R406)

/-- A partial CAN message discarded and counted. -/
def Block.canDiscard (b : Block) (k : Nat) : Block :=
  match tget b.mg.srv.can k with
  | some _ => (b.setSrv fun s => { s with can := tdel s.can k }).bump Od.MP_CAN_ERRORS 1
  | none => b

/-- A fragment of a request: controller, destination and source node, control byte and 63 bytes. (DEDUCED, log 100.) -/
def Block.canFragment (b : Block) (ctrl : Fin 2) (dest src ctl : Nat) (l : Bytes) : Block :=
  if !b.canOn ctrl ∨ dest ≠ b.rdN (if ctrl = 0 then Od.MP_CAN0_NODE else Od.MP_CAN1_NODE) then b
  else
    let k := ctrl * 256 + src
    let first := bit ctl 7
    let last := bit ctl 6
    let num := ctl % 64
    let take (b : Block) (had : Bytes) : Block :=
      let all_ := had ++ padTo 63 l
      if last then (b.setSrv fun s => { s with can := tdel s.can k }).submit (.can ctrl src) (requestOf all_)
      else b.setSrv fun s => { s with can := tput s.can k ⟨num + 1, all_, b.cyc⟩ }
    if first then
      let b := b.canDiscard k
      if num = 0 then take b [] else b
    else match tget b.mg.srv.can k with
      | some part => if num = part.next ∧ num < 5 then take b part.bytes else b.canDiscard k
      | none => b

/-- The partial messages idle for 100 ms discarded. (DEDUCED, log 100.) -/
def Block.canTimeout (b : Block) : Block :=
  b.mg.srv.can.foldl (fun (b : Block) (e : Nat × CanPart) => if e.2.at_ + ms 100 ≤ b.cyc then b.canDiscard e.1 else b) b

/-- DOMAIN accumulations and snapshots idle for 10 s discarded (R403). -/
def Block.segTimeout (b : Block) : Block :=
  let live (e : Nat × Segments) : Bool := decide (b.cyc < e.2.at_ + segmentLife)
  b.setSrv fun s => { s with accs := s.accs.filter live, snaps := s.snaps.filter live }

-- Events (R408, R412, R413)

/-- The oldest event of tenant t taken from its queue and sent to a requester. -/
def Block.sendEvent (b : Block) (t : Nat) (c : Caller) : Block :=
  match (tat {} b.mg.ev t).take with
  | some (e, q) => ({ b with mg := { b.mg with ev := tput b.mg.ev t q } }).emit (.event c e)
  | none => b

/-- The oldest event of tenant t written into the event ring of PCIe function fn, unless the ring is full or off. -/
def Block.ringEvent (b : Block) (t fn : Nat) : Block :=
  let x := b.box fn
  if !b.pcieUp fn ∨ x.evqSize = 0 ∨ x.evqSize ≤ (x.evqHead + 2 ^ 32 - x.evqTail) % 2 ^ 32 then b
  else match (tat {} b.mg.ev t).take with
    | some (e, q) =>
      let b : Block := { b with mg := { b.mg with ev := tput b.mg.ev t q } }
      let b := b.emit (.pcieWrite fn (x.evqBase + 32 * (x.evqHead % x.evqSize)) (e.bytes ++ List.replicate 8 0))
      (b.setBox fn fun x => { x with evqHead := (x.evqHead + 1) % 2 ^ 32 }).emit (.msix fn 1)
    | none => b

/-- EVENT_DELIVER: an event of tenant t leaves on its event point, or into the event ring of a function that is the tenant's. (DEDUCED, log 42 and 101.) -/
def Block.deliverEvent (b : Block) (t : Nat) (way : Option (Fin 4)) : Block :=
  match way with
  | some fn =>
    (match b.pointOf (.pcie fn) with
     | some n => if apTenant (b.apEntry n) = t then b.ringEvent t fn else b
     | none => b)
  | none =>
    let n := b.rdN (Od.TNT_EVENT_POINT t)
    let v := b.apEntry n
    if 64 ≤ n ∨ !apValid v ∨ (tat {} b.mg.ev t).queue.isEmpty then b
    else if apKind v = 2 then b.ringEvent t (apWhere v)
    else if apKind v = 3 then
      (if b.canOn (apWhere v) then b.sendEvent t (.can (Fin.ofNat 2 (apWhere v)) (apNode v)) else b)
    else match tget b.mg.from_ n with
      | some (.inband p vid src) =>
        if b.on (Od.P_LINK p) ∧ b.fnRuns p ∧ (b.pf p).own.isEmpty then
          (match (tat {} b.mg.ev t).take with
           | some (e, q) =>
             let o := Own.event (.inband p vid src) e
             b.ownTurn p (o.bytes b).length fun b => ({ b with mg := { b.mg with ev := tput b.mg.ev t q } } : Block).ownLeave p o
           | none => b)
        else b
      | some c => b.sendEvent t c
      | none => b

-- The saved configuration (R428)

/-- The entries of a saved copy whose part the last resets cleared, written as tenant 0. (DEDUCED, log 104.) -/
def Block.restoreEntries (b : Block) (c : SavedCfg) (mask : Nat) : Block :=
  let b := c.entries.foldl (fun (b : Block) (e : Nat × Int) =>
    let acc := match rowOf e.1 with | some r => r.acc | none => .rw
    if bit mask (partOf e.1) ∧ !b.writeBarred 0 e.1 acc e.2 then b.putNum 0 e.1 e.2 else b) b
  c.blobs.foldl (fun (b : Block) (e : Nat × Bytes) =>
    let acc := match rowOf e.1 with | some r => r.acc | none => .rw
    if bit mask (partOf e.1) ∧ !b.writeBarred 0 e.1 acc 0 then b.wrBlob e.1 e.2 else b) b

/-- The saved RUN functions that the resets stopped, started in ascending number; a start that is refused says so. (DEDUCED, log 104.) -/
def Block.restoreRuns (b : Block) (c : SavedCfg) (mask : Nat) : Block :=
  c.running.foldl (fun (b : Block) (f : Nat) =>
    if bit mask (fnPart f) ∧ b.fnState f = 0 then
      let r := b.functionStart f 0
      if r.status = 0 then r.b else (r.b.orBits (Od.FN_STICKY f) 1).raise 0x1202 f r.status
    else b) b

/-- CONFIG_RESTORE: a job writes the newest valid copy after a reset that cleared the management subsystem. -/
def Block.configRestore (b : Block) : Block :=
  let mask := b.pw.rst.cleared
  if !b.mg.srv.running ∨ mask = 0 ∨ !b.on Od.CFG_AUTO_RESTORE then b
  else match newest b.mg.cfg, b.jobObject 8 with
  | some c, some j =>
    let b := ((b.openJob j 8 255 [] 0).restoreEntries c mask).restoreRuns c mask
    ((b.showCfg 2).endJob j 3).setRst fun r => { r with cleared := 0 }
  | _, _ => b

end Sys2Proof.Machine
end

