-- ==== Sys2Proof/Machine/FrameRx.lean ====
section
/-! DEFINITION. The forwarding pipeline (R230 to R243, R246 to R250, R268 to R274, R287 to R289): a received frame from its port to its queues. -/

namespace Sys2Proof.Machine

-- Stage 1 (R230, R263)

/-- The entry that counts a frame as received bad on port p, in the order of Table 9.7; none for a good frame. (DEDUCED, log 58.) -/
def Block.rxFault (b : Block) (p : Nat) (f : Bytes) (pcs : Bool) : Option Nat :=
  if b.rdN (Od.P_MAX_FRAME p) < f.length then some (Od.P_RX_OVERSIZE p)
  else if !pcs then some (Od.P_RX_PCS_ERR p)
  else if fcsField f == stompOf (body f) then some (Od.P_RX_STOMPED p)
  else if fcsField f != fcsOf (body f) then some (Od.P_RX_FCS_ERR p)
  else none

/-- The bytes of a copy stomped on its way (R247): a body of at most `most` bytes with a stomped FCS. -/
def stomped (most : Nat) (l : Bytes) : Bytes := withStomp (if most < l.length + 4 then l.take (most - 4) else l)

-- Stage 3 (R231)

/-- Where the PTP message of a frame lies, of the transport of port p (Table 3.10, R231): of EtherType 0x88F7, or of UDP port 319 or 320 to a
PTP group over IPv4; none for a frame without one. -/
def Block.ptpAt (b : Block) (p : Nat) (f : Bytes) (h : Header) : Option Nat :=
  if b.rdN (Od.LT_MODE p) ≠ 2 then none
  else if b.rdN (Od.LT_PTP_TRANSPORT p) = 1 then
    match h.ip, h.l4 with
    | some (_, dst, proto, _, _), some (_, port) =>
      if proto = 17 ∧ (port = 319 ∨ port = 320) ∧ (dst = 0xE0000181 ∨ dst = 0xE000006B) then
        some (h.off + 4 * (ofBE (slice f h.off 1) % 16) + 8)
      else none
    | _, _ => none
  else if h.etype = 0x88F7 then some h.off
  else none

/-- Whether a frame is an ESMC frame (R231). -/
def isEsmc (f : Bytes) (h : Header) : Bool := h.etype == 0x8809 && ofBE (slice f h.off 1) == 0x0A

/-- A PTP message at an offset of a frame, for the module (R231): Signaling and Management discarded, a domain in use taken; none where it goes on. -/
def Block.trapPtp (b : Block) (p : Nat) (f : Bytes) (o : Nat) : Option Block :=
  let kind := ofBE (slice f o 1) % 16
  if kind = 12 ∨ kind = 13 then some (b.dropOn p (Od.P_DROP_PTP p))
  else if b.ptpOwn p (ofBE (slice f (o + 4) 1)) then some b
  else none

/-- Whether the module takes a frame for itself, and with which effect; none where the frame goes on. (DEDUCED, log 59 and 60.) -/
def Block.trap (b : Block) (p : Nat) (f : Bytes) (h : Header) : Option Block :=
  let at_ (n w : Nat) : Nat := ofBE (slice f (h.off + n) w)
  match (b.ptpAt p f h).bind (b.trapPtp p f) with
  | some b => some b
  | none =>
    if isEsmc f h then some b
    else if h.etype = 0x88B5 ∧ (h.da = 0xFFFFFFFFFFFF ∨ h.da = ofBE (b.blob Od.ID_MAC_ADDRESS)) then
      let vid := match h.tag with | some t => t % 4096 | none => 0
      some (if at_ 0 1 = 1 ∧ at_ 1 1 = 1 then b.accept (.inband (Fin.ofNat 32 p) vid h.sa) (requestOf ((body f).drop (h.off + 4)))
        else if at_ 0 1 = 1 ∧ (at_ 1 1 = 2 ∨ at_ 1 1 = 3) then b
        else b.dropOn p (Od.P_DROP_MGMT p))
    else if h.da / 16 = 0x0180C2000000 / 16 then some (b.dropOn p (Od.P_DROP_FILTER p))
    else none

-- Stages 4 to 6 (R232, R233, R268 to R270)

/-- The port state of P_VLAN: 0 DISABLED, 1 BLOCKING, 2 LEARNING, 3 FORWARDING. -/
def Block.fwdState (b : Block) (p : Nat) : Nat := bits (b.rdN (Od.P_VLAN p)) 15 2

/-- The VID of a frame, none where stage 4 drops it. -/
def Block.vlanIn (b : Block) (p : Nat) (h : Header) : Option Nat :=
  let v := b.rdN (Od.P_VLAN p)
  let acc := bits v 12 2
  let vid := if h.tagged then h.tag.getD 0 % 4096 else v % 4096
  if (acc = 1 ∧ !h.tagged) ∨ (acc = 2 ∧ h.tagged) ∨ (bit v 14 ∧ !bit (b.rdN (Od.VLAN_MEMBERS vid)) p) then none else some vid

/-- What classification makes of a frame: the queue a rule sets, its policer, compute queue and mirror sessions, its initial colour. -/
structure Classified where
  queue : Option Nat := none
  policer : Option Nat := none
  cq : Option Nat := none
  mirror : Nat := 0
  colour : Nat := 0
  deriving DecidableEq, Repr

/-- The fields of an action word (Table 10.2). -/
def readAction (v own : Nat) : Classified :=
  { queue := if bit v 21 then some (bits v 17 4) else none
    policer := if bit v 30 then some (bits v 22 8) else none
    cq := if bit v 16 then some (bits v 10 6) else none
    mirror := bits v 6 4
    colour := if bits v 4 2 = 0 then own else bits v 4 2 - 1 }

/-- Stage 6: the first enabled rule that matches; a hit is counted. -/
def Block.classify (b : Block) (p vid : Nat) (h : Header) : Classified × Block :=
  let own := b2n h.dei
  if !b.fnRuns 48 then ({ colour := own }, b)
  else match (List.range 512).find? fun r => bit (b.rdN (Od.CLS_ACTION r)) 31 && ruleMatches (b.blob (Od.CLS_MATCH r)) p vid h with
    | some r => (readAction (b.rdN (Od.CLS_ACTION r)) own, b.bump (Od.CLS_HITS r) 1)
    | none => ({ colour := own }, b)

-- Stage 8 (R234, R259 to R261)

/-- The destinations of a frame: ports and a compute queue, and what finding them has counted. -/
structure Dests where
  ports : List Nat := []
  cq : Option Nat := none
  counted : Bool := false
  deriving DecidableEq, Repr

/-- Whether a port may take a frame of VID vid from port p. -/
def Block.mayTake (b : Block) (p vid q : Nat) : Bool := q != p && bit (b.rdN (Od.VLAN_MEMBERS vid)) q && b.fwdState q == 3

/-- The member of group g that the bucket of a frame names (R260). -/
def Block.lagMember (b : Block) (g vid : Nat) (h : Header) : Nat :=
  (b.lag g).map.getD (hashBucket (b.rdN (Od.LAG_FIELDS g)) (b.rdN (Od.LAG_SEED g)) vid h) ((maskBits 32 (b.rdN (Od.LAG_MEMBERS g))).headD 0)

/-- A destination port kept, or removed; `counts` says that a removal is counted, which a flooded frame's is not. (DEDUCED, log 62.) -/
def Block.addPort (p vid : Nat) (counts : Bool) (r : Dests × Block) (q : Nat) : Dests × Block :=
  let b := r.2
  if !b.mayTake p vid q then r
  else if !b.fnRuns q then (if counts then ({ r.1 with counted := b.laneOwner q == q }, b.dropOn q (Od.P_DROP_STOPPED q)) else r)
  else if b.gone q then (if counts then ({ r.1 with counted := true }, b.dropOn q (Od.P_DROP_LINKDOWN q)) else r)
  else ({ r.1 with ports := r.1.ports ++ [q] }, b)

/-- A group as a destination: one copy, on the member of the frame's bucket; a group without an active member takes nothing (R261). (DEDUCED, log 62.) -/
def Block.addLag (p vid : Nat) (h : Header) (counts : Bool) (r : Dests × Block) (g : Nat) : Dests × Block :=
  let b := r.2
  let q := b.lagMember g vid h
  if bit (b.rdN (Od.LAG_MEMBERS g)) p then r
  else if !b.fnRuns (53 + g) ∨ b.rdN (Od.LAG_ACTIVE g) = 0 then
    (if counts then ({ r.1 with counted := true }, b.dropOn q (Od.P_DROP_LINKDOWN q)) else r)
  else Block.addPort p vid counts r q

/-- A set of ports as destinations: ports by themselves, the members of a running group as one destination. -/
def Block.addPorts (p vid : Nat) (h : Header) (counts : Bool) (r : Dests × Block) (set : Nat) : Dests × Block :=
  let b := r.2
  let ports := maskBits 32 set
  let alone := ports.filter fun q => (b.lagOf q).isNone
  let groups := (List.range 16).filter fun g => b.fnRuns (53 + g) && set &&& b.rdN (Od.LAG_MEMBERS g) != 0
  groups.foldl (Block.addLag p vid h counts) (alone.foldl (Block.addPort p vid counts) r)

/-- Stage 8: the destination set of a frame. -/
def Block.destinations (b : Block) (p vid : Nat) (h : Header) (hit : Option Mac) (cq : Option Nat) : Dests × Block :=
  let r := match hit with
    | none => Block.addPorts p vid h false ({}, b) (b.rdN (Od.VLAN_MEMBERS vid))
    | some e =>
      match e.dtype with
      | 0 => Block.addPort p vid true ({}, b) e.dest
      | 1 => Block.addLag p vid h true ({}, b) e.dest
      | 2 =>
        let q := b.rdN (Od.MCG_QUEUE e.dest)
        Block.addPorts p vid h e.static ({ cq := if q < 64 then some q else none }, b) (b.rdN (Od.MCG_PORTS e.dest))
      | 3 => ({ cq := some e.dest }, b)
      | _ => ({}, b)
  match cq with
  | some q => ({ r.1 with cq := some q }, r.2)
  | none => r

-- Stage 9 (R271 to R273)

/-- A policer's buckets filled up to now, in 1/800,000 byte. -/
def Block.polFill (b : Block) (i : Nat) : Nat × Nat :=
  let x : Policer := tat {} b.fab.pol i
  let cbs := b.rdN (Od.POL_CBS i) * 800000
  let xbs := b.rdN (Od.POL_XBS i) * 800000
  if x.full then (cbs, xbs)
  else
    let gone := b.cyc - x.at_
    let c := x.c + b.rdN (Od.POL_CIR i) * gone
    if b.rdN (Od.POL_MODE i) = 0 then (min cbs c, min xbs (x.e + (c - min cbs c)))
    else (min cbs c, min xbs (x.e + b.rdN (Od.POL_PIR i) * gone))

/-- RFC 2697 and RFC 2698: the colour of a frame of `size` against two buckets, and the buckets after it; `pre` is its colour as the marker
sees it (0 green, 1 yellow, 2 red). -/
def meter (trtcm : Bool) (pre c e size : Nat) : Nat × Nat × Nat :=
  if trtcm then
    if pre = 2 ∨ e < size then (2, c, e)
    else if pre = 1 ∨ c < size then (1, c, e - size)
    else (0, c - size, e - size)
  else if pre = 0 ∧ size ≤ c then (0, c - size, e)
  else if pre ≤ 1 ∧ size ≤ e then (1, c, e - size)
  else (2, c, e)

/-- A frame of n bytes metered by policer i: its colour, whether it passes, the module after it. -/
def Block.police (b : Block) (p i colour n : Nat) : Nat × Bool × Block :=
  let (c, e) := b.polFill i
  let pre := if b.on (Od.POL_COLOUR_AWARE i) then colour else 0
  let (out, c, e) := meter (b.rdN (Od.POL_MODE i) == 1) pre c e (n * 800000)
  let b := b.setFab fun x => { x with pol := tput x.pol i ⟨c, e, b.cyc, false⟩ }
  let b := b.bump (match out with | 0 => Od.POL_GREEN_BYTES i | 1 => Od.POL_YELLOW_BYTES i | _ => Od.POL_RED_BYTES i) n
  let passes : Bool := out == 0 || (out == 1 && b.rdN (Od.POL_YELLOW_ACTION i) == 0) || (out == 2 && b.rdN (Od.POL_RED_ACTION i) == 1)
  (out, passes, if passes then b else (b.dropOn p (Od.P_DROP_POLICER p)).bump (Od.POL_DROPS i) 1)

-- Cut-through (R242)

/-- Whether neither the shaper of Qq of port o nor the port's holds a debt (R276). -/
def Block.noDebt (b : Block) (o q : Nat) : Bool :=
  let x := b.fillShapers o
  (b.rdN (Od.EQ_SHAPE_RATE o q) == 0 || decide (0 ≤ (x.queue (o * 16 + q)).tokens)) && (b.rdN (Od.EQ_PORT_RATE o) == 0 || decide (0 ≤ (x.pf o).tokens))

/-- Whether a copy from port p to Qq of port o may be cut through; its gate has to stay open for a frame of P_MAX_FRAME of port p (R283). (DEDUCED, log 57.) -/
def Block.mayCut (b : Block) (p o q : Nat) : Bool :=
  b.on (Od.P_CUT_THROUGH p) && b.rdN (Od.P_MODE p) != 1 && b.rdN (Od.P_MODE o) != 1 && decide (b.lineRate o ≤ b.lineRate p)
    && (b.queue (o * 16 + q)).frames.isEmpty && b.canSend o && b.noDebt o q && (b.pf o).fip.ready.isEmpty && !b.fipStores o
    && b.gateOpen o q (b.rdN (Od.P_MAX_FRAME p))

-- Mirroring (R287 to R289)

/-- The copy of a good frame for session s: cut to MIRs_TRUNCATE; it may be cut through (R288, R289). -/
def Block.putGood (d : Desc) (bytes : Bytes) (s : Nat) (b : Block) : Block :=
  let most := b.rdN (Od.MIR_TRUNCATE s)
  let bytes := if most ≠ 0 ∧ most < bytes.length then withFcs (bytes.take (most - 4)) else bytes
  let k := b.mirrorQueue s
  let cut := decide (k < 512) && b.mayCut d.inPort (k / 16) (k % 16)
  match b.mirrorPut s { d with content := some bytes } with
  | (true, b) => if cut then b.takeHead (k / 16) (k % 16) true else b
  | (false, b) => b

/-- A frame that has no cell as a candidate of a session: the copy is dropped. -/
def Block.mirrorLost (b : Block) (s : Nat) : Block := let r := b.candidate s; if r.1 then r.2.mirrorDrop s else r.2

-- Stage 10 (R253, R274)

/-- Whether a frame fits in packet memory outside the reserve (R253). -/
def Block.roomFor (b : Block) (f : Bytes) : Bool := decide (b.rdN Od.SW_CELL_RESERVE + cellsOf f ≤ b.rdN Od.SW_CELLS_FREE)

/-- The queue a copy to port o takes. -/
def Block.queueAt (b : Block) (o : Nat) (h : Header) (c : Classified) : Nat :=
  match c.queue with
  | some q => q
  | none => bits (b.rdN (Od.EQ_PRIO_MAP o)) (4 * h.prio) 4

/-- A copy to port o: admitted, and cut through where it may be. The second component says whether it was admitted. -/
def Block.copyTo (b : Block) (p o q : Nat) (d : Desc) : Bool × Block :=
  let cut := b.mayCut p o q
  match b.enqueue (o * 16 + q) d with
  | (true, b) => (true, if cut then (b.wakePort o).takeHead o q true else b.wakePort o)
  | (false, b) => (false, b)

/-- The queue of the first copy of a frame: to a port, to a compute queue, to a mirror session. -/
def Block.firstQueue (b : Block) (h : Header) (c : Classified) (ports : List Nat) (cq : Option Nat) (ss : List Nat) : Nat :=
  match ports, cq, ss with
  | o :: _, _, _ => o * 16 + b.queueAt o h c
  | [], some k, _ => 512 + k
  | [], none, s :: _ => b.mirrorQueue s
  | [], none, [] => 0

/-- A good frame from stage 9 on: `early` are the sessions that take it as received (R288). -/
def Block.deliver (b : Block) (p vid stamp : Nat) (f : Bytes) (h : Header) (c : Classified) (t : Dests) (early : List Nat) : Block :=
  let (colour, passes, b) := match c.policer with
    | some i => b.police p i c.colour f.length
    | none => (c.colour, true, b)
  let ports := if passes then t.ports else []
  let cq := if passes then t.cq else none
  if ports.isEmpty ∧ cq.isNone ∧ early.isEmpty then b
  else if !b.roomFor f then
    let b := early.foldl Block.mirrorLost b
    -- a frame without a destination is counted already (R263)
    if ports.isEmpty ∧ cq.isNone then b else b.dropOn p (Od.P_DROP_NO_CELL p)
  else
    let (id, b) := b.store f vid h.dei (b.firstQueue h c ports cq early)
    let d : Desc := ⟨id, b.cyc, colour, p, stamp, none⟩
    let own : Desc := { d with colour := c.colour }
    let b := early.foldl (Block.mirrorOnce id (Block.putGood own f)) b
    -- the sessions that take an egress copy, with the first port that makes them do so
    let r := ports.foldl (fun (r : List (Nat × Nat) × Block) (o : Nat) =>
      let b := r.2
      let (ok, b) := b.copyTo p o (b.queueAt o h c) d
      let late := if ok then b.sessions fun s => bit (b.rdN (Od.MIR_SRC_TX s)) o && !(r.1.any fun e => e.1 == s) else []
      (r.1 ++ late.map (fun s => (s, o)), b)) ([], b)
    let b := r.1.foldl (fun (b : Block) (e : Nat × Nat) => Block.mirrorOnce id (Block.putGood own (b.txBytes e.2 d)) b e.1) r.2
    let b := match cq with | some k => (b.enqueue (512 + k) d).2 | none => b
    b.freeChain id

-- Bad frames

/-- What becomes of a bad frame that would be forwarded: its classification, VID and destination ports. (DEDUCED, log 57.) -/
def Block.badRoute (b : Block) (p : Nat) (f : Bytes) (h : Header) : Classified × Nat × List Nat :=
  match b.vlanIn p h with
  | none => ({}, 0, [])
  | some vid =>
    if f.length < 64 ∨ b.fwdState p ≠ 3 ∨ (b.trap p f h).isSome then ({}, vid, [])
    else
      let c := (b.classify p vid h).1
      let hit := if h.da = 0xFFFFFFFFFFFF then none else (b.lookup vid h.da).1
      (c, vid, (b.destinations p vid h hit c.cq).1.ports)

/-- A copy to port o of a bad frame whose head has been cut through (R247): its bytes where it leaves stomped; one that its queue refuses is
not counted again (R263). -/
def Block.stompTo (b : Block) (p vid : Nat) (f : Bytes) (o q : Nat) (d : Desc) : Option Bytes × Block :=
  match b.judgeCopy (o * 16 + q) d with
  | (some _, b) => (none, b)
  | (none, b) =>
    let strip := bit (b.rdN (Od.VLAN_UNTAGGED vid)) o
    let bytes := stomped (b.rdN (Od.P_MAX_FRAME p)) (egressBody f strip (if b.on (Od.EQ_DEI_REMARK o) then some (d.colour != 0) else none))
    let b := ((((b.takeIn (o * 16 + q) d).wakePort o).fillShapers o).popHead (o * 16 + q)).payShapers o q bytes.length
    (some bytes, b.leave o { desc := d, queue := q, bytes := bytes, stomped := true, cut := true })

/-- The copies of a stored bad frame that had begun to leave: each leaves stomped, and the frame is counted once as such (R246 to R248); with
each the sessions that ask for bad frames of its port, which take it as it leaves (R250). (DEDUCED, log 57.) -/
def Block.stompOut (b : Block) (p vid : Nat) (f : Bytes) (h : Header) (c : Classified) (ports : List Nat) (d : Desc) : List (Nat × Bytes) × Block :=
  ports.foldl (fun (r : List (Nat × Bytes) × Block) (o : Nat) =>
    match r.2.stompTo p vid f o (r.2.queueAt o h c) d with
    | (some bytes, b) => (r.1 ++ (b.sessions (b.asksBad o)).map (fun s => (s, bytes)),
        (b.setChain d.chain fun x => { x with told := true }).bump (Od.P_CT_STOMPED_IN p) (match b.chain d.chain with | some x => 1 - b2n x.told | none => 0))
    | (none, b) => (r.1, b)) ([], b)

/-- A frame that stage 1, or a parity error, finds bad: the copies that had begun to leave are stomped, the others are dropped; sessions that ask
for bad frames take it, as received where its own port has it so (`rx`: R287). (DEDUCED, log 57.) -/
def Block.rxSpoilt (b : Block) (p : Nat) (w : RxWait) (rx : Bool) : Block :=
  let f := w.bytes
  let h := header f
  let (c, vid, dests) := b.badRoute p f h
  let kept := f.take (b.rdN (Od.P_MAX_FRAME p))
  let room := b.roomFor kept
  let cutTo := if room then dests.filter fun o => b.mayCut p o (b.queueAt o h c) else []
  let own := if rx then b.sessions (b.asksBad p) else []
  if cutTo.isEmpty ∧ own.isEmpty then b
  else if !room then own.foldl Block.mirrorLost b
  else
    let (id, b) := b.store kept vid h.dei (b.firstQueue h c cutTo none own)
    let d : Desc := ⟨id, b.cyc, c.colour, p, w.stamp, none⟩
    let (late, b) := b.stompOut p vid f h c cutTo d
    let b := own.foldl (Block.mirrorOnce id (Block.putBad d (stomped (b.rdN (Od.P_MAX_FRAME p)) (body f)))) b
    let b := late.foldl (fun (b : Block) (e : Nat × Bytes) => Block.mirrorOnce id (Block.putBad d e.2) b e.1) b
    b.freeChain id

/-- A frame received bad: counted at stage 1, with bit [2] of P_STICKY (R263, R264). (DEDUCED, log 57.) -/
def Block.rxBad (b : Block) (p : Nat) (w : RxWait) (cause : Nat) : Block :=
  ((b.dropOn p cause).orBits (Od.P_STICKY p) 4).rxSpoilt p w true

/-- A frame received good, a word of which meets a parity error on its way in: counted in DPC_PARITY_ERRORS (R464, R246). (DEDUCED, log 153.) -/
def Block.rxParity (b : Block) (p : Nat) (w : RxWait) : Block := (b.pathError p 1).rxSpoilt p w false

-- The pipeline

/-- A good frame from stage 3 on. (DEDUCED, log 62.) -/
def Block.rxGood (b : Block) (p : Nat) (w : RxWait) : Block :=
  let f := w.bytes
  let h := header f
  match b.trap p f h with
  | some b => b
  | none =>
    match b.vlanIn p h with
    | none => b.dropOn p (Od.P_DROP_VLAN p)
    | some vid =>
      let learns := bit (b.rdN (Od.P_VLAN p)) 17
      let st := b.fwdState p
      if st ≤ 1 then b.dropOn p (Od.P_DROP_PORT_STATE p)
      else if st = 2 then (if learns then b.learn p vid h.sa else b).dropOn p (Od.P_DROP_PORT_STATE p)
      else
        let (c, b) := b.classify p vid h
        let (hit, b) := if h.da = 0xFFFFFFFFFFFF then (none, b) else b.lookup vid h.da
        let b := if learns then b.learn p vid h.sa else b
        let early := b.sessions fun s => bit (b.rdN (Od.MIR_SRC_RX s)) p || bit c.mirror s
        let (t, b) := b.destinations p vid h hit c.cq
        let b := if t.ports.isEmpty ∧ t.cq.isNone ∧ !t.counted then b.dropOn p (Od.P_DROP_FILTER p) else b
        b.deliver p vid w.stamp f h (if t.ports.isEmpty ∧ t.cq.isNone then { c with policer := none } else c) t early

/-- A frame through the pipeline (R230). -/
def Block.pipeline (b : Block) (p : Nat) (w : RxWait) : Block :=
  let b := b.setPf p fun x => { x with busyAt := b.cyc }
  if w.bytes.length < 64 then b.rxBad p w (Od.P_RX_RUNT p)
  else match b.rxFault p w.bytes w.pcs with
    | some cause => b.rxBad p w cause
    | none =>
      let b := b.rxCounted p w.bytes.length
      if w.parity then b.rxParity p w else b.rxGood p w

/-- A frame, or the request of one, from port p's PCS into the fabric. -/
def Block.enter (b : Block) (p : Nat) (w : RxWait) : Block :=
  match w.req with
  | some (vid, src, q) => let c : Caller := .inband (Fin.ofNat 32 p) vid src; (b.arriving c q).accept c q
  | none => b.pipeline p w

/-- A frame at port p's PCS (R221, R229, R23): discarded, held in the ingress buffer, or passed through the pipeline. (DEDUCED, log 58.) -/
def Block.arrive (b : Block) (p : Nat) (w : RxWait) : Block :=
  if !b.fnRuns p then
    -- PTP and ESMC frames are discarded without count (Table 9.2)
    (let h := header w.bytes
     if (b.ptpAt p w.bytes h).isSome || isEsmc w.bytes h then b else b.dropOn p (Od.P_DROP_STOPPED p))
  else if b.mustHold p then b.holdRx p w
  else (b.need .fabric).pipeline p w

/-- What a port's ingress buffer holds delivered in order, once its path runs. -/
def Block.drainIngress (b : Block) (p : Nat) : Block :=
  if b.pathRuns p then
    let l := (b.pf p).ingress
    l.foldl (fun (b : Block) (w : RxWait) => b.enter p w) (b.setPf p fun x => { x with ingress := [] })
  else b

/-- A frame stamp as its descriptor carries it: a qualified stamp (R61) as the number of its 16 bytes. -/
def Block.stampWord (b : Block) (t : Int) : Nat := ofLE (b.qualified (t % (wordWrap : Int)).toNat)

/-- FRAME_RX: a frame whose last byte arrives on port p, with what is observed of its stamped bit (R68), what FEC saw, and whether a word of it
meets a parity error on its way to packet memory (R464). (DEDUCED, log 58.) -/
def Block.frameRx (b : Block) (p : Nat) (f : Bytes) (pcs : Bool) (stamp : Stamp) (fec : FecSeen) (parity : Bool) : Block :=
  if b.partHeld 1 ∨ !b.on (Od.P_LINK p) ∨ b.inTest p ∨ b.partner p then b
  else (b.fecSeen p fec).arrive p { bytes := f, pcs := pcs, stamp := b.stampWord (b.frameArrival p stamp), parity := parity }

/-- The arrival stamp of what a loop test sends (R305): its bit at the egress land, the loop's delay l_lb (R184), and the delays of the board and
the optic that an arrival is free of. (DEDUCED, log 155.) -/
def Block.loopArrival (b : Block) (p : Nat) (s : Stamp) : Int :=
  b.arriveFace p s.lane 0 (b.stampAt p s + psToTicks (b.portCorrections p).1 + fsToTicks (b.setNow (loopItem (p + s.lane))))

/-- FRAME_TX_DONE: the egress stamp of the frame sent (R68) and the path error it met (R464); what a loop test sends comes back as received
(R305, Table 11.2). -/
def Block.frameTxDone (b : Block) (p : Nat) (stamp : Stamp) (fault : Nat) : Block :=
  match (b.pf p).sending with
  | none => b
  | some t =>
    let bytes := (b.endTx p fault t).1.bytes
    let b := (b.setPf p fun x => { x with txStamp := some (b.stampWord (b.frameDeparture p stamp)) }).txDone p fault
    let test := (b.pf p).testInForce
    if test = 2 ∨ test = 4 then b.arrive p { bytes := bytes, pcs := true, stamp := b.stampWord (b.loopArrival p stamp) } else b

end Sys2Proof.Machine
end

