-- ==== Sys2Proof/Machine/Tick.lean ====
section
/-! DEFINITION. What keeps a fast clock running (R21, R496), the work a started clock sets free (R19, R23), and a Vesper cycle without a
command. -/

namespace Sys2Proof.Machine

-- Demand (R21)

/-- Whether a consumer of a fast clock has work: a port that runs and is not idle, frames that wait, a gate list change or an injector armed at a time (fabric); samples on the edges of a graph (Evorvo);
requests or a running job (Prixus); records, frames or descriptors on their way to LPDDR5. -/
def Block.busyClock (b : Block) (c : FastClock) : Bool :=
  match c with
  | .fabric =>
    (List.range 32).any (fun p => b.fnRuns p && b.modeNow p != 0 && !b.on (Od.P_IDLE p)) || b.fab.port.any (fun e => !e.2.ingress.isEmpty)
      || b.fab.queue.any (fun e => !e.2.frames.isEmpty)
      || (List.range 32).any fun p => (b.target (.gcl (Fin.ofNat 32 p))).isSome || (b.target (.injector (Fin.ofNat 32 p))).isSome
  | .evorvo => !b.cp.inbox.isEmpty || b.cp.graph.any fun e => e.2.st.any fun o => !o.2.edge.isEmpty
  | .prixus => !b.mg.srv.queue.isEmpty || b.mg.job.any fun e => b.jobState e.1 == 1
  | .lpddr =>
    b.tm.tic.any (fun e => !e.2.records.isEmpty) || !b.gn.queue.isEmpty || !b.mg.safe.dumpQueue.isEmpty || !b.cp.inbox.isEmpty
      || b.fab.queue.any (fun e => decide (512 ≤ e.1) && !e.2.frames.isEmpty)
      || b.cp.dma.any fun e => b.rdN (Od.DMA_STATUS e.1) == 1

/-- Every clock that a consumer needs is started and kept from sleeping. -/
def Block.demand (b : Block) : Block :=
  [FastClock.fabric, .evorvo, .prixus, .lpddr].foldl (fun (b : Block) (c : FastClock) => if b.busyClock c then b.need c else b) b

/-- SLEEP_DELAY_EXPIRY: every consumer has been idle for the delay; a delay of 0 keeps the clock running (R496). -/
def Block.sleepExpiry (b : Block) (c : FastClock) : Block :=
  let d := b.sleepDelay c
  if b.clockRuns c ∧ !b.busyClock c ∧ d ≠ 0 ∧ (b.clock c).idleSince + d ≤ b.cyc then b.clockDown c else b

-- Work that a started clock sets free

/-- The port awake where its wake is complete, and what its ingress buffer holds delivered, the first own frame that waits sent (R229). -/
def Block.portAwake (b : Block) (p : Nat) : Block := ((if b.wakeReady p then b.awake p else b).drainIngress p).ownNext p

/-- CLOCK_START_COMPLETE: the clock runs, and the work that waited for it goes on. -/
def Block.clockStarted (b : Block) (c : FastClock) : Block :=
  if !b.clockReady c then b
  else
    let b := b.clockUp c
    match c with
    | .fabric => (List.range 32).foldl (fun (b : Block) (p : Nat) => b.portAwake p) b
    | .prixus => b.serveWaiting
    | .lpddr => b.gnssDrain.dumpDrain
    | .evorvo => b

/-- RESET_FENCE_AGREE: the two sides agree, and what waited for the crossing goes on (R23, R26, R34, R35). -/
def Block.fenceSettled (b : Block) (x : Boundary) : Block :=
  let b := b.fenceAgree x
  if !b.agreed x.no then b
  else match x with
    | .ingress p => b.drainIngress p
    | .server _ => b.serveWaiting
    | .gnssRing => b.gnssDrain
    | _ => b

/-- CLOCK_START_REQUEST: a consumer needs a sleeping clock. -/
def Block.clockWanted (b : Block) (c : FastClock) : Block := if b.clockRuns c then b else b.need c

/-- PORT_IDLE_WAKE: a wake of an idle port asked for, or complete. -/
def Block.idleWake (b : Block) (p : Nat) : Block :=
  if !b.on (Od.P_IDLE p) then b
  else if (b.pf p).wakeAt.isSome then b.portAwake p
  else b.wakePort p

-- A Vesper cycle

/-- The cycles of a clock of Table 1.4 in Vesper cycle n: 1.35 GHz, 1.8 GHz and 800 MHz against 100 MHz. -/
def cyclesIn (c : FastClock) (n : Nat) : Nat :=
  match c with
  | .fabric | .evorvo => 27 * (n + 1) / 2 - 27 * n / 2
  | .prixus => 18
  | .lpddr => 8
def Block.cyclesNow (b : Block) (c : FastClock) : Nat := if b.clockRuns c then cyclesIn c b.cyc else 0

/-- The cycles of its own clock for which a LEVEL source of Table 18.5 holds in this Vesper cycle. -/
def Block.levelNow (b : Block) (cls inst ev : Nat) : Nat :=
  let vesper (h : Bool) : Nat := b2n h
  let of (c : FastClock) (h : Bool) : Nat := if h then b.cyclesNow c else 0
  match cls with
  | 1 => vesper (b.on (if ev = 16 then Od.P_IDLE inst else Od.P_LINK inst))
  | 2 => of .fabric (!(b.queue (inst * 16 + (ev - 16))).frames.isEmpty)
  | 3 => vesper (!bit (b.pf inst).gate.states (ev - 16))
  | 4 => of .fabric b.fab.atReserve
  | 5 => of .fabric (!(b.queue (512 + inst)).frames.isEmpty && (ev == 16 || !b.cqTakes inst))
  | 6 => of .lpddr (b.rdN (Od.DMA_STATUS inst) == if ev = 16 then 2 else 1)
  | 7 => of .evorvo (b.fnRuns (86 + inst) && (b.streamsOf inst).any fun i => !b.ingestCredit inst i)
  | 9 => vesper (if ev = 16 then b.pe0 == 2 else b.pe0 == 3 || b.pe0 == 4)
  | 10 => of .prixus (!b.mg.srv.queue.isEmpty)
  | 11 => vesper (!b.clockRuns .lpddr)
  | _ => 0

/-- The programmable counters in LEVEL mode (R470). -/
def Block.countLevels (b : Block) : Block :=
  b.mg.cnt.foldl (fun (b : Block) (e : Nat × Nat × Nat) =>
    if e.1 < 64 ∧ e.2.2 = 2 then
      let n := b.levelNow (e.2.1 / 2048) (e.2.1 / 32 % 64) (e.2.1 % 32)
      if n = 0 then b else b.cntAdd e.1 n
    else b) b

/-- The clock cycles counted (Table 18.5 class 0, Table 18.11). -/
def Block.countCycles (b : Block) : Block :=
  let one (k ev : Nat) (b : Block) (n : Nat) : Block := if n = 0 then b else (b.bump k n).tally 0 0 ev n
  let f := b.cyclesNow .fabric
  let p := b.cyclesNow .prixus
  let e := b.cyclesNow .evorvo
  let l := b.cyclesNow .lpddr
  let b := one Od.CNT_FIXED_VESPER_CYCLES 0 b 1
  let b := one Od.CNT_FIXED_FABRIC_CYCLES 1 b f
  let b := one Od.CNT_FIXED_PRIXUS_CYCLES 2 b p
  let b := one Od.CNT_FIXED_EVORVO_CYCLES 3 b e
  one Od.CNT_FIXED_LPDDR_CYCLES 4 b l

/-- One Vesper cycle without a command (log 2): time moves on, clocks that stop have stopped, crossings deliver, cycles are counted. While the Vesper
domain is held in reset or unpowered only the reset controller's time moves. -/
def Block.idleCycle (b : Block) : Block :=
  if !b.up then { b with cyc := b.cyc + 1 }
  else
    let b := b.countLevels.countCycles.advance.reformFw.scrubOverrun
    let b := [FastClock.fabric, .evorvo, .prixus, .lpddr].foldl (fun (b : Block) (c : FastClock) => b.clockStopped c) b
    b.deliverAll

end Sys2Proof.Machine
end

