-- ==== Sys2Proof/Machine/Events.lean ====
section
/-! DEFINITION. Events of the module whose condition several units share: armed targets that fall due (R47 to R51), sources that come and go,
samples, doorbells, resets. -/

namespace Sys2Proof.Machine

-- Time (R38, R47, R54)

/-- SECONDS_WRAP: the Vesper cycle in which SECONDS wraps. -/
def Block.secondsWrap (b : Block) : Block := if wordWrap ≤ b.mer + 655360 then b.advance else b

/-- The armed output commit, once due (R121). -/
def Block.commitDue (b : Block) : Block :=
  match b.target .outCommit with
  | some t => if b.due t.tick then b.applyCommit t.late else b
  | none => b

/-- TARGET_DUE: an armed target with d ≤ 0, and the action of its owner. (DESIGN CHOICE, log 6.) -/
def Block.targetDue (b : Block) (o : Owner) : Block :=
  match b.target o with
  | none => b
  | some t =>
    if !b.due t.tick then b
    else match o with
      | .outCommit => b.applyCommit t.late
      | .gcl p => (b.need .fabric).gclApply p
      | .tic c => (b.disarm o).ticArmNow c
      | .lane l => b.injStart l
      | .injector p => (b.need .fabric).fipStart p

-- Engines and slots (R101, R139, R144)

/-- PE_PHASE_SAMPLE. -/
def Block.phaseSample (b : Block) (x : PhaseSample) : Block :=
  match x with
  | .slot k phase => b.slotSample k phase
  | .engine e cycles code => if b.fnRuns (33 + e) then b.peSample (1 + e) (cycles * 655360 + b.reading (33 + e) code) else b

/-- The entry of a slot's field. -/
def SlotField.key (f : SlotField) (k : Nat) : Nat :=
  match f with
  | .kind => Od.SLOT_KIND k
  | .port => Od.SLOT_PORT k
  | .ptpDomain => Od.SLOT_PTP_DOMAIN k

/-- SLOT_SOURCE_ACTIVE and SLOT_SOURCE_INACTIVE. -/
def Block.sourceUp (b : Block) (k : Nat) : Block := if b.sourceActive k ∧ !(b.slot k).active then b.sourceOn k else b
def Block.sourceDown (b : Block) (k : Nat) : Block := if (b.slot k).active ∧ !b.sourceActive k then b.sourceOff k else b

/-- TRANSFER_HANDOVER: the sample of the target with which the measure step ends (R144). (DEDUCED, log 124.) -/
def Block.transferSample (b : Block) (phase : Int) : Block :=
  match b.tm.sel.transfer with
  | some t =>
    if t.startAt + ms (b.rdN Od.SEL_TRANSFER_TIME) ≤ b.cyc ∧ 16 ≤ (b.transferTake t phase).n then b.slotSample t.target phase else b
  | none => b

-- DMA doorbells (R393)

/-- DMA_DOORBELL: TAIL of channel ch from a page of BAR2, which may ring for its own function's channels, or through the dictionary. (DEDUCED, log 88.) -/
def Block.ring (b : Block) (bell : Bell) (ch : Fin 64) (v : Nat) : Block :=
  match bell with
  | .bar2 fn => if b.pcieUp fn then b.dmaTail ch (v % 2 ^ 32) (b.rdN (Od.DMA_FUNCTION ch) == fn.val) else b
  | .entry c token => b.submit c (writeKey token (Od.DMA_TAIL ch) v)

-- Power and resets

/-- WARM_PIN_RESET, COLD_PIN_RESET and THERMAL_TRIP act only on a module with its rails on. -/
def Block.warmReset (b : Block) : Block := if b.pw.rails then b.warmPin else b
def Block.coldReset (b : Block) : Block := if b.pw.rails then b.coldPin else b
def Block.thermalReset (b : Block) : Block := if b.pw.rails then b.thermalTrip else b

/-- PCIE_LINK_CHANGE, while the compute subsystem is out of reset. -/
def Block.linkChange (b : Block) (gen width : Nat) : Block := if b.partHeld 2 then b else b.pcieLink gen width

/-- FIRMWARE_START: the server runs, and takes the requests that the mailboxes kept (R416). -/
def Block.serverStart (b : Block) : Block :=
  if b.mg.srv.running then b
  else
    let b := b.firmwareUp
    if b.mg.srv.running then b.takePending else b

end Sys2Proof.Machine
end

