-- ==== Sys2Proof/Machine/State.lean ====
section
/-! DEFINITION. The state of the machine: the commands that wait, the pool memory, the module; and the reasons a step can stop. -/

namespace Sys2Proof.Machine

/-- Faults. No command of this model ends in one: every command has an effect that the spec gives, or changes nothing. -/
inductive Fault where
  /-- Raised by nothing; it stands for a stop of the module itself, which the spec never describes (safe). -/
  | stopped
  deriving DecidableEq, Repr

/-- Refusals. -/
inductive Refusal where
  /-- The command named has no meaning yet: answered by an arm of exec that is still to be written, and by none now (safe). -/
  | notModelled (mnemonic : String)
  deriving DecidableEq, Repr

/-- The commands that wait, first in, first out; the pool region of LPDDR5; the module. -/
structure State where
  pending : List Instr := []
  ram : Memory := []
  m : Block := {}
  deriving DecidableEq, Repr

/-- The module right after a power-on reset (R11, R42, R43): every entry at its default, no function running but PE0 and PE1, Meridian time 0, nothing
waiting; the firmware has still to start (R495). (DESIGN CHOICE, log 9.) -/
def State.reset : State := {}

end Sys2Proof.Machine
end

