-- ==== Sys2Proof/Machine/Act.lean ====
section
/-! DEFINITION. What every command does beside its own effect: the reactions of the module within the same command, the pool memory, TIME_VALID. -/

namespace Sys2Proof.Machine

/-- The reactions that follow any change within the command that made it (R452, R442, R493, R21): an active module in the safe state gives up its
role, the partner's identity and readiness are seen, a commanded reset starts, clocks that are needed start. (DEDUCED, log 10.) -/
def Block.react (b : Block) : Block :=
  let b := if b.up then b.safeGiveUp.pairWatch.orderedReset else b
  if b.up then b.demand else b

/-- The state with the module as a command leaves it; the queue stays. (DEDUCED, log 10.) -/
def State.withBlock (s : State) (b : Block) : State :=
  let b := b.react
  { s with ram := b.ramAfter s.ram, m := settle { b with pokes := [], ramLost := false } }

/-- A command of a module that is powered and whose Vesper domain is out of reset; in any other it does nothing (R490). (DEDUCED, log 7 and 122.) -/
def State.act (s : State) (f : Memory → Block → Block) : Host.Outcome State Fault Refusal :=
  if s.m.up then .next (s.withBlock (f s.ram s.m)) else .next s

/-- A command that acts on a module held in reset or without power too. (DEDUCED, log 7.) -/
def State.actHeld (s : State) (f : Memory → Block → Block) : Host.Outcome State Fault Refusal := .next (s.withBlock (f s.ram s.m))

/-- A Vesper cycle without a command (log 2). -/
def State.idle (s : State) : State := s.withBlock (if s.m.up then s.m.idleCycle.dmaCycle s.ram else s.m.idleCycle)

end Sys2Proof.Machine
end

