-- ==== Sys2Proof/Machine/ExecCal.lean ====
section
/-! DEFINITION. The meanings of the commands of calibration (chapter 7): each is an operation of its unit, applied to the module as every command is. -/

namespace Sys2Proof.Machine

/-- CODE_DENSITY_START (R180). -/
def execCodeDensityStart (c : Caller) (token : Nat) (s : State) : Host.Outcome State Fault Refusal :=
  s.act fun _ b => b.submit c (writeKey token Od.CAL_CD_START 1)

/-- CONVERTER_RUN_COMPLETE (R179). -/
def execConverterRunComplete (v : Fin 52) (first second : Halves) (s : State) : Host.Outcome State Fault Refusal :=
  s.act fun _ b => b.runComplete v first.one first.two second.one second.two

/-- TWIN_SWAP (R175). -/
def execTwinSwap (v : Fin 52) (d : Int) (s : State) : Host.Outcome State Fault Refusal :=
  s.act fun _ b => b.twinSwap v d

/-- CAL_AUTO_TRIGGER (R176). -/
def execCalAutoTrigger (s : State) : Host.Outcome State Fault Refusal :=
  s.act fun _ b => b.autoTrigger

/-- CAL_TEMP_UPDATE (R183). -/
def execCalTempUpdate (t : Int) (s : State) : Host.Outcome State Fault Refusal :=
  s.act fun _ b => b.tempUpdate t

/-- LINK_CAL_START (R184). -/
def execLinkCalStart (c : Caller) (token : Nat) (p : Fin 32) (s : State) : Host.Outcome State Fault Refusal :=
  s.act fun _ b => b.submit c (writeKey token (Od.LC_START p) 1)

/-- LINK_CAL_COMPLETE (R185). -/
def execLinkCalComplete (loops txs : List Int) (s : State) : Host.Outcome State Fault Refusal :=
  s.act fun _ b => b.linkCalComplete (loops.zip txs)

/-- LINK_CAL_SAVE (R186). -/
def execLinkCalSave (s : State) : Host.Outcome State Fault Refusal :=
  s.act fun _ b => b.linkCalSave

/-- ASY_SOLVER_TICK (R192). -/
def execAsySolverTick (i : Fin 16) (s : State) : Host.Outcome State Fault Refusal :=
  s.act fun _ b => b.asyTick i

end Sys2Proof.Machine
end

