-- ==== Sys2Proof/Machine/ExecDict.lean ====
section
/-! DEFINITION. The meanings of the commands of the dictionary, its paths and events (chapter 15): each is an operation of its unit, applied to the module as every command is. -/

namespace Sys2Proof.Machine

/-- OD_READ (R401). -/
def execOdRead (c : Caller) (q : Request) (s : State) : Host.Outcome State Fault Refusal :=
  s.act fun _ b => b.submit c q

/-- OD_WRITE (R399). -/
def execOdWrite (c : Caller) (q : Request) (s : State) : Host.Outcome State Fault Refusal :=
  s.act fun _ b => b.submit c { q with op := 2 }

/-- OD_READ_SEG (R403). -/
def execOdReadSeg (c : Caller) (q : Request) (s : State) : Host.Outcome State Fault Refusal :=
  s.act fun _ b => b.submit c { q with op := 3 }

/-- OD_WRITE_SEG (R403). -/
def execOdWriteSeg (c : Caller) (q : Request) (s : State) : Host.Outcome State Fault Refusal :=
  s.act fun _ b => b.submit c { q with op := 4 }

/-- STICKY_CLEAR_WRITE (R12). -/
def execStickyClearWrite (c : Caller) (token index sub v : Nat) (s : State) : Host.Outcome State Fault Refusal :=
  s.act fun _ b => b.submit c (writeRequest token index sub v)

/-- DOMAIN_SEG_TIMEOUT (R403). -/
def execDomainSegTimeout (s : State) : Host.Outcome State Fault Refusal :=
  s.act fun _ b => b.segTimeout

/-- CAN_FRAGMENT_RX (R406). -/
def execCanFragmentRx (ctrl : Fin 2) (dest src ctl : Nat) (data : Bytes) (s : State) : Host.Outcome State Fault Refusal :=
  s.act fun _ b => b.canFragment ctrl dest src ctl data

/-- CAN_FRAGMENT_TIMEOUT (R406). -/
def execCanFragmentTimeout (s : State) : Host.Outcome State Fault Refusal :=
  s.act fun _ b => b.canTimeout

/-- MB_DOORBELL (R407). -/
def execMbDoorbell (fn : Fin 4) (q : Request) (s : State) : Host.Outcome State Fault Refusal :=
  s.act fun _ b => b.doorbell fn q

/-- MB_ACK (R407). -/
def execMbAck (fn : Fin 4) (s : State) : Host.Outcome State Fault Refusal :=
  s.act fun _ b => b.mailboxAck fn

/-- MB_EVQ_TAIL_WRITE (R408). -/
def execMbEvqTailWrite (fn : Fin 4) (tail : Nat) (setup : Option (Nat × Nat)) (s : State) : Host.Outcome State Fault Refusal :=
  s.act fun _ b => b.evqTail fn tail setup

/-- AP_ENTRY_WRITE (R410). -/
def execApEntryWrite (c : Caller) (token : Nat) (n : Fin 64) (v : Nat) (s : State) : Host.Outcome State Fault Refusal :=
  s.act fun _ b => b.submit c (writeRequest token 0x1100 (n + 1) v)

/-- EVENT_DELIVER (R413). -/
def execEventDeliver (t : Fin 8) (way : Option (Fin 4)) (s : State) : Host.Outcome State Fault Refusal :=
  s.act fun _ b => b.deliverEvent t way

/-- TNT_EVENT_NEXT (R413). -/
def execTntEventNext (c : Caller) (token : Nat) (t : Fin 8) (s : State) : Host.Outcome State Fault Refusal :=
  s.act fun _ b => b.submit c (readKey token (Od.TNT_EVENT_NEXT t))

/-- WATCHDOG_EXPIRY (R417). -/
def execWatchdogExpiry (s : State) : Host.Outcome State Fault Refusal :=
  s.act fun _ b => b.watchdogExpiry

end Sys2Proof.Machine
end

