-- ==== Sys2Proof/Machine/ExecDma.lean ====
section
/-! DEFINITION. The meanings of the commands of DMA engine (chapter 14): each is an operation of its unit, applied to the module as every command is. -/

namespace Sys2Proof.Machine

/-- DMA_COPY (R382). -/
def execDmaCopy (turn : DmaTurn) (desc data : Bytes) (s : State) : Host.Outcome State Fault Refusal :=
  s.act fun ram b => b.dmaCopy ram turn.ch desc data turn.beats

/-- DMA_GATHER (R385). -/
def execDmaGather (turn : DmaTurn) (desc data : Bytes) (s : State) : Host.Outcome State Fault Refusal :=
  s.act fun ram b => b.dmaGather ram turn.ch desc data turn.beats

/-- DMA_ALLOC (R383). -/
def execDmaAlloc (ch : Fin 64) (desc : Bytes) (s : State) : Host.Outcome State Fault Refusal :=
  s.act fun ram b => b.dmaAlloc ram ch desc

/-- DMA_REF (R376). -/
def execDmaRef (ch : Fin 64) (desc : Bytes) (s : State) : Host.Outcome State Fault Refusal :=
  s.act fun ram b => b.dmaRef ram ch desc

/-- DMA_RELEASE (R376). -/
def execDmaRelease (ch : Fin 64) (desc : Bytes) (s : State) : Host.Outcome State Fault Refusal :=
  s.act fun ram b => b.dmaRelease ram ch desc

/-- DMA_BUS_ERROR (R386). -/
def execDmaBusError (ch : Fin 64) (cause : Nat) (write pool : Bool) (addr done : Nat) (s : State) : Host.Outcome State Fault Refusal :=
  s.act fun _ b => b.dmaBusError ch cause write pool addr done

/-- DMA_RETRY (R386). -/
def execDmaRetry (ch : Fin 64) (s : State) : Host.Outcome State Fault Refusal :=
  s.act fun _ b => b.dmaRetry ch

/-- DMA_RESUME_RETRY (R387). -/
def execDmaResumeRetry (c : Caller) (token : Nat) (ch : Fin 64) (s : State) : Host.Outcome State Fault Refusal :=
  s.act fun _ b => b.submit c (writeKey token (Od.DMA_RESUME ch) 1)

/-- DMA_RESUME_SKIP (R387). -/
def execDmaResumeSkip (c : Caller) (token : Nat) (ch : Fin 64) (s : State) : Host.Outcome State Fault Refusal :=
  s.act fun _ b => b.submit c (writeKey token (Od.DMA_RESUME ch) 2)

/-- DMA_DOORBELL (R393). -/
def execDmaDoorbell (bell : Bell) (ch : Fin 64) (v : Nat) (s : State) : Host.Outcome State Fault Refusal :=
  s.act fun _ b => b.ring bell ch v

/-- DMA_CQ_RX_FRAME (R389). -/
def execDmaCqRxFrame (turn : DmaTurn) (desc : Bytes) (s : State) : Host.Outcome State Fault Refusal :=
  s.act fun ram b => b.dmaRxFrame ram turn.ch desc turn.beats

/-- DMA_RING_FOLLOW_RECORD (R391). -/
def execDmaRingFollowRecord (turn : DmaTurn) (s : State) : Host.Outcome State Fault Refusal :=
  s.act fun ram b => b.dmaFollow ram turn.ch turn.beats

/-- DMA_IRQ_HOLDOFF_EXPIRY (R383). -/
def execDmaIrqHoldoffExpiry (ch : Fin 64) (s : State) : Host.Outcome State Fault Refusal :=
  s.act fun _ b => b.dmaIrqExpiry ch

end Sys2Proof.Machine
end

