-- ==== Sys2Proof/Machine/ExecEngines.lean ====
section
/-! DEFINITION. The meanings of the commands of phase engines, outputs and REFIN inputs (chapter 4): each is an operation of its unit, applied to the module as every command is. -/

namespace Sys2Proof.Machine

/-- PE_PHASE_SAMPLE (R101). -/
def execPePhaseSample (x : PhaseSample) (s : State) : Host.Outcome State Fault Refusal :=
  s.act fun _ b => b.phaseSample x

/-- OUT_COMMIT (R120). -/
def execOutCommit (c : Caller) (token : Nat) (s : State) : Host.Outcome State Fault Refusal :=
  s.act fun _ b => b.submit c (writeKey token Od.OUT_COMMIT 1)

/-- OUT_COMMIT_CANCEL (R120). -/
def execOutCommitCancel (c : Caller) (token : Nat) (s : State) : Host.Outcome State Fault Refusal :=
  s.act fun _ b => b.submit c (writeKey token Od.OUT_COMMIT 2)

/-- OUT_COMMIT_APPLY (R121). -/
def execOutCommitApply (s : State) : Host.Outcome State Fault Refusal :=
  s.act fun _ b => b.commitDue

/-- REFIN_PULSE (R130). -/
def execRefinPulse (r : Fin 2) (frac : Int) (s : State) : Host.Outcome State Fault Refusal :=
  s.act fun _ b => b.refinPulse r frac

/-- REFIN_PULSE_TIMEOUT (R130). -/
def execRefinPulseTimeout (r : Fin 2) (s : State) : Host.Outcome State Fault Refusal :=
  s.act fun _ b => b.refinTimeout r

/-- REFIN_FREQ_CHANGE (R512). -/
def execRefinFreqChange (r : Fin 2) (present : Bool) (s : State) : Host.Outcome State Fault Refusal :=
  s.act fun _ b => b.refinFreq r present

/-- OUT_ALIGN_LOSS (R115). -/
def execOutAlignLoss (n : Fin 8) (s : State) : Host.Outcome State Fault Refusal :=
  s.act fun _ b => b.alignLoss n

/-- OUTPUT_SQUELCH (R116). -/
def execOutputSquelch (n : Fin 8) (s : State) : Host.Outcome State Fault Refusal :=
  s.act fun _ b => b.squelch n

/-- OUTPUT_UNSQUELCH (R116). -/
def execOutputUnsquelch (n : Fin 8) (s : State) : Host.Outcome State Fault Refusal :=
  s.act fun _ b => b.unsquelch n

end Sys2Proof.Machine
end

