-- ==== Sys2Proof/Machine/ExecFabric.lean ====
section
/-! DEFINITION. The meanings of the commands of ports, fabric and queues (chapters 9, 10): each is an operation of its unit, applied to the module as every command is. -/

namespace Sys2Proof.Machine

/-- LINK_UP (R220). -/
def execLinkUp (p : Fin 32) (seen : LinkSeen) (s : State) : Host.Outcome State Fault Refusal :=
  s.act fun _ b => b.linkUp p seen.deskew seen.freq

/-- LINK_DOWN (R220). -/
def execLinkDown (p : Fin 32) (cause : Fin 3) (s : State) : Host.Outcome State Fault Refusal :=
  s.act fun _ b => b.linkDown p cause

/-- LINKDOWN_HOLD_EXPIRY (R223). -/
def execLinkdownHoldExpiry (p : Fin 32) (s : State) : Host.Outcome State Fault Refusal :=
  s.act fun _ b => b.holdExpiry p

/-- FRAME_RX (R230). -/
def execFrameRx (p : Fin 32) (f : Bytes) (pcs : Bool) (stamp : Stamp) (seen : RxSeen) (s : State) : Host.Outcome State Fault Refusal :=
  s.act fun _ b => b.frameRx p f pcs stamp seen.fec seen.parity

/-- EGRESS_SCHEDULE (R276). -/
def execEgressSchedule (p : Fin 32) (parity : Bool) (s : State) : Host.Outcome State Fault Refusal :=
  s.act fun _ b => b.egressSchedule p parity

/-- FRAME_TX_DONE (R252). -/
def execFrameTxDone (seen : TxSeen) (s : State) : Host.Outcome State Fault Refusal :=
  s.act fun _ b => b.frameTxDone seen.p seen.stamp seen.fault

/-- PORT_IDLE_ENTRY (R228). -/
def execPortIdleEntry (p : Fin 32) (s : State) : Host.Outcome State Fault Refusal :=
  s.act fun _ b => b.idleEntry p

/-- PORT_IDLE_WAKE (R229). -/
def execPortIdleWake (p : Fin 32) (s : State) : Host.Outcome State Fault Refusal :=
  s.act fun _ b => b.idleWake p

/-- MAC_AGE_PASS (R238). -/
def execMacAgePass (s : State) : Host.Outcome State Fault Refusal :=
  s.act fun _ b => b.agePass

/-- FDB_READ (R239). -/
def execFdbRead (c : Caller) (token : Nat) (s : State) : Host.Outcome State Fault Refusal :=
  s.act fun _ b => b.submit c (writeKey token Od.FDB_OP 1)

/-- FDB_WRITE_STATIC (R239). -/
def execFdbWriteStatic (c : Caller) (token : Nat) (s : State) : Host.Outcome State Fault Refusal :=
  s.act fun _ b => b.submit c (writeKey token Od.FDB_OP 2)

/-- FDB_DELETE (R239). -/
def execFdbDelete (c : Caller) (token : Nat) (s : State) : Host.Outcome State Fault Refusal :=
  s.act fun _ b => b.submit c (writeKey token Od.FDB_OP 3)

/-- FDB_FLUSH (R239). -/
def execFdbFlush (c : Caller) (token : Nat) (s : State) : Host.Outcome State Fault Refusal :=
  s.act fun _ b => b.submit c (writeKey token Od.FDB_OP 4)

/-- FDB_FLUSH_COMPLETE (R239). -/
def execFdbFlushComplete (s : State) : Host.Outcome State Fault Refusal :=
  s.act fun _ b => b.fdbFlushed

/-- BANK_WINDOW (R256). -/
def execBankWindow (n : Nat) (s : State) : Host.Outcome State Fault Refusal :=
  s.act fun _ b => b.bankWindows n

/-- SW_RESEED (R256). -/
def execSwReseed (c : Caller) (token : Nat) (s : State) : Host.Outcome State Fault Refusal :=
  s.act fun _ b => b.submit c (writeKey token Od.SW_RESEED 1)

/-- WRED_AVG_UPDATE (R275). -/
def execWredAvgUpdate (s : State) : Host.Outcome State Fault Refusal :=
  s.act fun _ b => b.wredUpdate

/-- GCL_CHANGE (R284). -/
def execGclChange (c : Caller) (token : Nat) (p : Fin 32) (s : State) : Host.Outcome State Fault Refusal :=
  s.act fun _ b => b.submit c (writeKey token (Od.GCL_CHANGE p) 1)

/-- GCL_CHANGE_CANCEL (R284). -/
def execGclChangeCancel (c : Caller) (token : Nat) (p : Fin 32) (s : State) : Host.Outcome State Fault Refusal :=
  s.act fun _ b => b.submit c (writeKey token (Od.GCL_CHANGE p) 2)

/-- GCL_CHANGE_APPLY (R284). -/
def execGclChangeApply (p : Fin 32) (s : State) : Host.Outcome State Fault Refusal :=
  s.act fun _ b => b.gclApply p

/-- GATE_ENTRY (R281). -/
def execGateEntry (p : Fin 32) (s : State) : Host.Outcome State Fault Refusal :=
  s.act fun _ b => b.gateEntry p

/-- CQ_COPY (R286). -/
def execCqCopy (s : State) : Host.Outcome State Fault Refusal :=
  s.act fun _ b => b.cqCopy

end Sys2Proof.Machine
end

