-- ==== Sys2Proof/Machine/ExecGnss.lean ====
section
/-! DEFINITION. The meanings of the commands of the GNSS receiver (chapter 12): each is an operation of its unit, applied to the module as every command is. -/

namespace Sys2Proof.Machine

/-- GNSS_DWELL (R321). -/
def execGnssDwell (e code svid : Nat) (elev : Int) (azim : Nat) (hit : Bool) (s : State) : Host.Outcome State Fault Refusal :=
  s.act fun _ b => b.gnssDwell e code svid elev azim hit

/-- GNSS_EPOCH_LATCH (R326). -/
def execGnssEpochLatch (seen : List ChannelEpoch) (sol : Option Solution) (s : State) : Host.Outcome State Fault Refusal :=
  s.act fun _ b => b.epochLatch seen sol

/-- GNSS_ANT_CHANGE (R320). -/
def execGnssAntChange (current : Nat) (limited : Bool) (s : State) : Host.Outcome State Fault Refusal :=
  s.act fun _ b => b.antChange current limited

/-- GNSS_ANT_RETRY (R320). -/
def execGnssAntRetry (s : State) : Host.Outcome State Fault Refusal :=
  s.act fun _ b => b.antRetry

/-- GNSS_JAM_DETECT (R336). -/
def execGnssJamDetect (l1 l5 : Nat) (s : State) : Host.Outcome State Fault Refusal :=
  s.act fun _ b => b.jamDetect l1 l5

/-- GNSS_DUTY_SLEEP (R339). -/
def execGnssDutySleep (s : State) : Host.Outcome State Fault Refusal :=
  s.act fun _ b => b.dutySleep

/-- GNSS_DUTY_WAKE (R339). -/
def execGnssDutyWake (s : State) : Host.Outcome State Fault Refusal :=
  s.act fun _ b => b.dutyWake

/-- GNSS_KEEP_CLEAR (R337). -/
def execGnssKeepClear (c : Caller) (token : Nat) (s : State) : Host.Outcome State Fault Refusal :=
  s.act fun _ b => b.submit c (writeKey token Od.GNSS_KEEP_CLEAR 1)

/-- GNSS_KEEP_SAVE (R337). -/
def execGnssKeepSave (s : State) : Host.Outcome State Fault Refusal :=
  s.act fun _ b => b.keepSave

/-- GNSS_RING_READ (R329). -/
def execGnssRingRead (c : Caller) (token n : Nat) (s : State) : Host.Outcome State Fault Refusal :=
  s.act fun _ b => b.submit c (ringKey token Od.GNSS_RING_DATA n)

/-- GNSS_COHERENT_INTEGRATION (R325). -/
def execGnssCoherentIntegration (c : Fin 80) (m : Coherent) (s : State) : Host.Outcome State Fault Refusal :=
  s.act fun _ b => b.coherent c m

end Sys2Proof.Machine
end

