-- ==== Sys2Proof/Machine/ExecLanes.lean ====
section
/-! DEFINITION. The meanings of the commands of serial lanes (chapter 11): each is an operation of its unit, applied to the module as every command is. -/

namespace Sys2Proof.Machine

/-- LANE_TRAINING_FRAME_RX (R299). -/
def execLaneTrainingFrameRx (l : Fin 32) (t : Training) (s : State) : Host.Outcome State Fault Refusal :=
  s.act fun _ b => b.trainFrame l t

/-- LANE_TRAINING_TIMEOUT (R300). -/
def execLaneTrainingTimeout (l : Fin 32) (s : State) : Host.Outcome State Fault Refusal :=
  s.act fun _ b => b.trainTimeout l

/-- LANE_TRAINING_RETRY (R300). -/
def execLaneTrainingRetry (l : Fin 32) (s : State) : Host.Outcome State Fault Refusal :=
  s.act fun _ b => b.trainRetry l

/-- PRBS_LOCK_LOSS (R308). -/
def execPrbsLockLoss (l : Fin 32) (errs : Nat) (s : State) : Host.Outcome State Fault Refusal :=
  s.act fun _ b => b.prbsLoss l errs

/-- PRBS_CLEAR (R309). -/
def execPrbsClear (c : Caller) (token : Nat) (l : Fin 32) (s : State) : Host.Outcome State Fault Refusal :=
  s.act fun _ b => b.submit c (writeKey token (Od.LANE_PRBS_CLEAR l) 1)

/-- LANE_INJ_ARM (R310). -/
def execLaneInjArm (c : Caller) (token : Nat) (l : Fin 32) (s : State) : Host.Outcome State Fault Refusal :=
  s.act fun _ b => b.submit c (writeKey token (Od.LANE_INJ_ARM l) 1)

/-- LANE_INJ_DISARM (R310). -/
def execLaneInjDisarm (c : Caller) (token : Nat) (l : Fin 32) (s : State) : Host.Outcome State Fault Refusal :=
  s.act fun _ b => b.submit c (writeKey token (Od.LANE_INJ_ARM l) 2)

/-- LANE_INJ_ACT (R310). -/
def execLaneInjAct (l : Fin 32) (s : State) : Host.Outcome State Fault Refusal :=
  s.act fun _ b => b.injAct l

/-- SIDEBAND_SCAN (R311). -/
def execSidebandScan (inputs : List Nat) (s : State) : Host.Outcome State Fault Refusal :=
  s.act fun _ b => b.sbScan inputs

/-- I2C_READ (R314). -/
def execI2cRead (c : Caller) (token : Nat) (l : Fin 32) (s : State) : Host.Outcome State Fault Refusal :=
  s.act fun _ b => b.submit c (writeKey token (Od.LANE_I2C_OP l) 1)

/-- I2C_WRITE (R314). -/
def execI2cWrite (c : Caller) (token : Nat) (l : Fin 32) (s : State) : Host.Outcome State Fault Refusal :=
  s.act fun _ b => b.submit c (writeKey token (Od.LANE_I2C_OP l) 2)

/-- I2C_TRANSACTION_DONE (R314). -/
def execI2cTransactionDone (m : Fin 4) (ack timeout : Bool) (data : Bytes) (s : State) : Host.Outcome State Fault Refusal :=
  s.act fun _ b => b.i2cDone m ack timeout data

/-- PRBS_LOCK (R308). -/
def execPrbsLock (l : Fin 32) (s : State) : Host.Outcome State Fault Refusal :=
  s.act fun _ b => b.prbsLock l

end Sys2Proof.Machine
end

