-- ==== Sys2Proof/Machine/ExecLink.lean ====
section
/-! DEFINITION. The meanings of the commands of Reel, ESMC and PTP (chapter 3): each is an operation of its unit, applied to the module as every command is. -/

namespace Sys2Proof.Machine

/-- REEL_PERIOD (R78). -/
def execReelPeriod (p : Fin 32) (s : State) : Host.Outcome State Fault Refusal :=
  s.act fun _ b => b.reelPeriod p

/-- REEL_MARKER_TX (R79). -/
def execReelMarkerTx (p : Fin 32) (stamp : Stamp) (s : State) : Host.Outcome State Fault Refusal :=
  s.act fun _ b => b.markerTx p stamp

/-- REEL_T_MARKER_RX (R80). -/
def execReelTMarkerRx (p : Fin 32) (m : Word64) (stamp : Stamp) (s : State) : Host.Outcome State Fault Refusal :=
  s.act fun _ b => b.tMarkerRx p m stamp

/-- REEL_REPORT_RX (R82). -/
def execReelReportRx (p : Fin 32) (d0 d1 d2 d3 : Word64) (s : State) : Host.Outcome State Fault Refusal :=
  s.act fun _ b => b.reportRx p d0 d1 d2 d3

/-- REEL_SLOW_WORD_RX (R86). -/
def execReelSlowWordRx (p : Fin 32) (m : Word64) (s : State) : Host.Outcome State Fault Refusal :=
  s.act fun _ b => b.slowWordRx p m

/-- REEL_AVG_TIME_EXPIRY (R80). -/
def execReelAvgTimeExpiry (p : Fin 32) (s : State) : Host.Outcome State Fault Refusal :=
  s.act fun _ b => b.reelAvgExpiry p

/-- REEL_PEER_TIMEOUT (R80). -/
def execReelPeerTimeout (p : Fin 32) (s : State) : Host.Outcome State Fault Refusal :=
  s.act fun _ b => b.reelPeerTimeout p

/-- ESMC_PDU_RX (R88). -/
def execEsmcPduRx (p : Fin 32) (pdu : EsmcPdu) (s : State) : Host.Outcome State Fault Refusal :=
  s.act fun _ b => b.esmcRx p pdu.ql pdu.ext

/-- ESMC_INFO_TX (R88). -/
def execEsmcInfoTx (p : Fin 32) (s : State) : Host.Outcome State Fault Refusal :=
  s.act fun _ b => b.esmcTx p false

/-- ESMC_EVENT_TX (R88). -/
def execEsmcEventTx (p : Fin 32) (s : State) : Host.Outcome State Fault Refusal :=
  s.act fun _ b => b.esmcTx p true

/-- ESMC_RX_TIMEOUT (R88). -/
def execEsmcRxTimeout (p : Fin 32) (s : State) : Host.Outcome State Fault Refusal :=
  s.act fun _ b => b.esmcTimeout p

/-- PTP_SYNC_RX (R89). -/
def execPtpSyncRx (p : Fin 32) (h : PtpMsg) (twoStep : Bool) (origin : PtpTime) (logInterval : Int) (stamp : Stamp) (s : State) : Host.Outcome State Fault Refusal :=
  s.act fun _ b => b.syncRx p h twoStep origin logInterval stamp

/-- PTP_FOLLOW_UP_RX (R89). -/
def execPtpFollowUpRx (p : Fin 32) (h : PtpMsg) (origin : PtpTime) (s : State) : Host.Outcome State Fault Refusal :=
  s.act fun _ b => b.followUpRx p h origin

/-- PTP_DELAY_REQ_RX (R89). -/
def execPtpDelayReqRx (p : Fin 32) (h : PtpMsg) (stamp : Stamp) (s : State) : Host.Outcome State Fault Refusal :=
  s.act fun _ b => b.delayReqRx p h stamp

/-- PTP_DELAY_RESP_RX (R89). -/
def execPtpDelayRespRx (p : Fin 32) (h : PtpMsg) (received : PtpTime) (s : State) : Host.Outcome State Fault Refusal :=
  s.act fun _ b => b.delayRespRx p h received

/-- PTP_PDELAY_REQ_RX (R89). -/
def execPtpPdelayReqRx (p : Fin 32) (h : PtpMsg) (stamp sent : Stamp) (s : State) : Host.Outcome State Fault Refusal :=
  s.act fun _ b => b.pdelayReqRx p h stamp sent

/-- PTP_PDELAY_RESP_RX (R89). -/
def execPtpPdelayRespRx (p : Fin 32) (h : PtpMsg) (twoStep : Bool) (received : PtpTime) (stamp : Stamp) (s : State) : Host.Outcome State Fault Refusal :=
  s.act fun _ b => b.pdelayRespRx p h twoStep received stamp

/-- PTP_PDELAY_RESP_FOLLOW_UP_RX (R89). -/
def execPtpPdelayRespFollowUpRx (p : Fin 32) (h : PtpMsg) (origin : PtpTime) (s : State) : Host.Outcome State Fault Refusal :=
  s.act fun _ b => b.pdelayFollowUpRx p h origin

/-- PTP_ANNOUNCE_RX (R89). -/
def execPtpAnnounceRx (p : Fin 32) (h : PtpMsg) (a : Announce) (s : State) : Host.Outcome State Fault Refusal :=
  s.act fun _ b => b.announceRx p h a

/-- PTP_SYNC_TX (R91). -/
def execPtpSyncTx (p : Fin 32) (stamp : Stamp) (s : State) : Host.Outcome State Fault Refusal :=
  s.act fun _ b => b.syncTx p stamp

/-- PTP_DELAY_REQ_TX (R89). -/
def execPtpDelayReqTx (p : Fin 32) (stamp : Stamp) (s : State) : Host.Outcome State Fault Refusal :=
  s.act fun _ b => b.delayReqTx p stamp

/-- PTP_ANNOUNCE_TX (R92). -/
def execPtpAnnounceTx (p : Fin 32) (s : State) : Host.Outcome State Fault Refusal :=
  s.act fun _ b => b.announceTx p

/-- PTP_ANNOUNCE_TIMEOUT (R89). -/
def execPtpAnnounceTimeout (p : Fin 32) (s : State) : Host.Outcome State Fault Refusal :=
  s.act fun _ b => b.announceTimeout p

/-- PTP_SYNC_TIMEOUT (R132). -/
def execPtpSyncTimeout (p : Fin 32) (s : State) : Host.Outcome State Fault Refusal :=
  s.act fun _ b => b.syncTimeout p

end Sys2Proof.Machine
end

