-- ==== Sys2Proof/Machine/ExecMgmt.lean ====
section
/-! DEFINITION. The meanings of the commands of functions, jobs, images and saved configuration (chapter 15): each is an operation of its unit, applied to the module as every command is. -/

namespace Sys2Proof.Machine

/-- FUNCTION_START (R419). -/
def execFunctionStart (c : Caller) (token : Nat) (f : Fin 168) (s : State) : Host.Outcome State Fault Refusal :=
  s.act fun _ b => b.submit c (writeKey token (Od.FN_CMD f) 1)

/-- FUNCTION_STOP (R419). -/
def execFunctionStop (c : Caller) (token : Nat) (f : Fin 168) (s : State) : Host.Outcome State Fault Refusal :=
  s.act fun _ b => b.submit c (writeKey token (Od.FN_CMD f) 2)

/-- FUNCTION_RUN (R419). -/
def execFunctionRun (f : Fin 168) (s : State) : Host.Outcome State Fault Refusal :=
  s.act fun _ b => b.functionRun f

/-- FUNCTION_STOPPED (R419). -/
def execFunctionStopped (f : Fin 168) (s : State) : Host.Outcome State Fault Refusal :=
  s.act fun _ b => b.functionStopped f

/-- JOB_STEP (R422). -/
def execJobStep (j : Fin 16) (good : Bool) (s : State) : Host.Outcome State Fault Refusal :=
  s.act fun _ b => b.jobStep j good

/-- JOB_PAUSE (R423). -/
def execJobPause (c : Caller) (token : Nat) (j : Fin 16) (s : State) : Host.Outcome State Fault Refusal :=
  s.act fun _ b => b.submit c (writeKey token (Od.JOB_CTRL j) 1)

/-- JOB_RESUME (R423). -/
def execJobResume (c : Caller) (token : Nat) (j : Fin 16) (s : State) : Host.Outcome State Fault Refusal :=
  s.act fun _ b => b.submit c (writeKey token (Od.JOB_CTRL j) 2)

/-- JOB_ABORT (R423). -/
def execJobAbort (c : Caller) (token : Nat) (j : Fin 16) (s : State) : Host.Outcome State Fault Refusal :=
  s.act fun _ b => b.submit c (writeKey token (Od.JOB_CTRL j) 3)

/-- IMG_COMMIT (R425). -/
def execImgCommit (c : Caller) (token : Nat) (s : State) : Host.Outcome State Fault Refusal :=
  s.act fun _ b => b.submit c (writeKey token Od.IMG_COMMIT 1)

/-- IMG_BOOT_SELECT (R427). -/
def execImgBootSelect (c : Caller) (token slot : Nat) (s : State) : Host.Outcome State Fault Refusal :=
  s.act fun _ b => b.submit c (writeKey token Od.IMG_BOOT_SELECT slot)

/-- IMG_CONFIRM (R427). -/
def execImgConfirm (s : State) : Host.Outcome State Fault Refusal :=
  s.act fun _ b => b.imgConfirm

/-- CFG_SAVE (R428). -/
def execCfgSave (c : Caller) (token : Nat) (s : State) : Host.Outcome State Fault Refusal :=
  s.act fun _ b => b.submit c (writeKey token Od.CFG_SAVE 1)

/-- CFG_CLEAR (R428). -/
def execCfgClear (c : Caller) (token : Nat) (s : State) : Host.Outcome State Fault Refusal :=
  s.act fun _ b => b.submit c (writeKey token Od.CFG_CLEAR 1)

/-- CONFIG_RESTORE (R428). -/
def execConfigRestore (s : State) : Host.Outcome State Fault Refusal :=
  s.act fun _ b => b.configRestore

end Sys2Proof.Machine
end

