-- ==== Sys2Proof/Machine/ExecOsc.lean ====
section
/-! DEFINITION. The meanings of the commands of oscillator, holdover and return (chapter 6): each is an operation of its unit, applied to the module as every command is. -/

namespace Sys2Proof.Machine

/-- OSC_WARMUP_CLEAR (R153). -/
def execOscWarmupClear (s : State) : Host.Outcome State Fault Refusal :=
  s.act fun _ b => b.warmupClear

/-- OSC_TEMP_EXCURSION (R154). -/
def execOscTempExcursion (s : State) : Host.Outcome State Fault Refusal :=
  s.act fun _ b => b.tempExcursion

/-- STEER_WRITE (R155). -/
def execSteerWrite (c : Caller) (token : Nat) (v : Int) (s : State) : Host.Outcome State Fault Refusal :=
  s.act fun _ b => b.submit c (writeKey token Od.STEER_PPT v)

/-- HO_MODEL_RECORD (R158). -/
def execHoModelRecord (temp : Int) (s : State) : Host.Outcome State Fault Refusal :=
  s.act fun _ b => b.modelRecord temp

/-- HO_MODEL_VALID_CHECK (R160). -/
def execHoModelValidCheck (s : State) : Host.Outcome State Fault Refusal :=
  s.act fun _ b => b.modelCheck

/-- HO_MODEL_SAVE (R161). -/
def execHoModelSave (s : State) : Host.Outcome State Fault Refusal :=
  s.act fun _ b => b.modelSave

/-- HOLDOVER_TICK (R164). -/
def execHoldoverTick (temp : Int) (s : State) : Host.Outcome State Fault Refusal :=
  s.act fun _ b => b.holdoverTick temp

/-- HO_BUDGET_EXCEEDED (R165). -/
def execHoBudgetExceeded (s : State) : Host.Outcome State Fault Refusal :=
  s.act fun _ b => b.budgetExceeded

/-- RETURN_STEP (R170). -/
def execReturnStep (s : State) : Host.Outcome State Fault Refusal :=
  s.act fun _ b => b.returnStep

/-- RETURN_COMPLETE (R171). -/
def execReturnComplete (s : State) : Host.Outcome State Fault Refusal :=
  s.act fun _ b => b.returnComplete

end Sys2Proof.Machine
end

