-- ==== Sys2Proof/Machine/ExecPair.lean ====
section
/-! DEFINITION. The meanings of the commands of pair operation (chapter 17): each is an operation of its unit, applied to the module as every command is. -/

namespace Sys2Proof.Machine

/-- HEARTBEAT_TX (R450). -/
def execHeartbeatTx (s : State) : Host.Outcome State Fault Refusal :=
  s.act fun _ b => b.heartbeatTx

/-- HEARTBEAT_RX (R450). -/
def execHeartbeatRx (h : Heard) (s : State) : Host.Outcome State Fault Refusal :=
  s.act fun _ b => b.heartbeatRx h.w h.carried

/-- HEARTBEAT_MISS (R451). -/
def execHeartbeatMiss (s : State) : Host.Outcome State Fault Refusal :=
  s.act fun _ b => b.heartbeatMiss

/-- HANDOVER_N_FALL (R452). -/
def execHandoverNFall (s : State) : Host.Outcome State Fault Refusal :=
  s.act fun _ b => b.handoverFall

/-- PARTNER_ALIVE_FALL (R451). -/
def execPartnerAliveFall (s : State) : Host.Outcome State Fault Refusal :=
  s.act fun _ b => b.aliveFall

/-- SWITCHOVER_TABLES_LOADED (R453). -/
def execSwitchoverTablesLoaded (s : State) : Host.Outcome State Fault Refusal :=
  s.act fun _ b => b.tablesLoaded

/-- STATE_EXPORT (R447). -/
def execStateExport (s : State) : Host.Outcome State Fault Refusal :=
  s.act fun _ b => b.stateExport

/-- SNAPSHOT_RX (R448). -/
def execSnapshotRx (x : Snapshot) (whole crcOk : Bool) (s : State) : Host.Outcome State Fault Refusal :=
  s.act fun _ b => b.snapshotRx x whole crcOk

/-- SNAPSHOT_AGE_EXPIRY (R448). -/
def execSnapshotAgeExpiry (s : State) : Host.Outcome State Fault Refusal :=
  s.act fun _ b => b.snapshotAge

/-- PAIR_STARTUP_TIMEOUT (R455). -/
def execPairStartupTimeout (s : State) : Host.Outcome State Fault Refusal :=
  s.act fun _ b => b.startupTimeout

/-- PAIR_SWITCH_BACK (R457). -/
def execPairSwitchBack (c : Caller) (token : Nat) (s : State) : Host.Outcome State Fault Refusal :=
  s.act fun _ b => b.submit c (writeKey token Od.PAIR_SWITCH_BACK 1)

/-- SWITCH_BACK_TIMEOUT (R457). -/
def execSwitchBackTimeout (s : State) : Host.Outcome State Fault Refusal :=
  s.act fun _ b => b.switchBackTimeout

/-- PARTNER_ALIVE_RISE (R455). -/
def execPartnerAliveRise (s : State) : Host.Outcome State Fault Refusal :=
  s.act fun _ b => b.aliveRise

end Sys2Proof.Machine
end

