-- ==== Sys2Proof/Machine/ExecPower.lean ====
section
/-! DEFINITION. The meanings of the commands of power and resets (chapter 19): each is an operation of its unit, applied to the module as every command is. -/

namespace Sys2Proof.Machine

/-- VIN_BELOW_WARNING (R484). -/
def execVinBelowWarning (vin vbak : Nat) (s : State) : Host.Outcome State Fault Refusal :=
  s.act fun _ b => b.vinBelow vin vbak

/-- VIN_RETURN (R480). -/
def execVinReturn (vin : Nat) (s : State) : Host.Outcome State Fault Refusal :=
  s.act fun _ b => b.vinReturn vin

/-- BRACE_EXIT (R485). -/
def execBraceExit (input : Nat) (s : State) : Host.Outcome State Fault Refusal :=
  s.act fun _ b => b.braceExit input

/-- HOLD_UP_ENTRY (R487). -/
def execHoldUpEntry (vin vbak : Nat) (s : State) : Host.Outcome State Fault Refusal :=
  s.act fun _ b => b.holdUpEntry vin vbak

/-- HOLD_UP_RECOVER (R487). -/
def execHoldUpRecover (vin vbak vhold : Nat) (s : State) : Host.Outcome State Fault Refusal :=
  s.act fun _ b => b.holdUpRecover vin vbak vhold

/-- SUPPLY_FAIL_RESET (R487). -/
def execSupplyFailReset (vhold : Nat) (s : State) : Host.Outcome State Fault Refusal :=
  s.actHeld fun _ b => b.supplyFail vhold

/-- POWER_ON (R497). -/
def execPowerOn (vin vbak : Nat) (s : State) : Host.Outcome State Fault Refusal :=
  s.actHeld fun _ b => b.powerOn vin vbak

/-- WARM_PIN_RESET (R489). -/
def execWarmPinReset (s : State) : Host.Outcome State Fault Refusal :=
  s.actHeld fun _ b => b.warmReset

/-- COLD_PIN_RESET (R489). -/
def execColdPinReset (s : State) : Host.Outcome State Fault Refusal :=
  s.actHeld fun _ b => b.coldReset

/-- RST_WARM (R493). -/
def execRstWarm (c : Caller) (token : Nat) (s : State) : Host.Outcome State Fault Refusal :=
  s.act fun _ b => b.submit c (writeKey token Od.RST_WARM 1)

/-- RST_FW_RESTART (R493). -/
def execRstFwRestart (c : Caller) (token : Nat) (s : State) : Host.Outcome State Fault Refusal :=
  s.act fun _ b => b.submit c (writeKey token Od.RST_FW_RESTART 1)

/-- RST_FUNCTION (R528). -/
def execRstFunction (c : Caller) (token : Nat) (f : Nat) (s : State) : Host.Outcome State Fault Refusal :=
  s.act fun _ b => b.submit c (writeKey token Od.RST_FUNCTION f)

/-- RESET_RELEASE (R490). -/
def execResetRelease (s : State) : Host.Outcome State Fault Refusal :=
  s.actHeld fun _ b => b.releaseReset

/-- FIRMWARE_START (R495). -/
def execFirmwareStart (s : State) : Host.Outcome State Fault Refusal :=
  s.act fun _ b => b.serverStart

/-- THERMAL_TRIP (R519). -/
def execThermalTrip (s : State) : Host.Outcome State Fault Refusal :=
  s.actHeld fun _ b => b.thermalReset

/-- PCIE_LINK_CHANGE (R437). -/
def execPcieLinkChange (gen width : Nat) (s : State) : Host.Outcome State Fault Refusal :=
  s.act fun _ b => b.linkChange gen width

/-- VBAK_ABOVE_WARNING (R485). -/
def execVbakAboveWarning (vbak : Nat) (s : State) : Host.Outcome State Fault Refusal :=
  s.act fun _ b => b.vbakAbove vbak

/-- HOLDUP_READY_CHANGE (R482). -/
def execHoldupReadyChange (vhold : Nat) (s : State) : Host.Outcome State Fault Refusal :=
  s.act fun _ b => b.holdupReady vhold

/-- PHY_RESET_RELEASE (R516). -/
def execPhyResetRelease (s : State) : Host.Outcome State Fault Refusal :=
  s.act fun _ b => b.phyRelease

end Sys2Proof.Machine
end

