-- ==== Sys2Proof/Machine/ExecSafety.lean ====
section
/-! DEFINITION. The meanings of the commands of safety, counters and injectors (chapter 18): each is an operation of its unit, applied to the module as every command is. -/

namespace Sys2Proof.Machine

/-- XW_CHECK (R462). -/
def execXwCheck (code inst : Nat) (diff : Int) (s : State) : Host.Outcome State Fault Refusal :=
  s.act fun _ b => b.xwCheck code inst diff

/-- XW_SELFTEST (R463). -/
def execXwSelftest (tripped : Bool) (s : State) : Host.Outcome State Fault Refusal :=
  s.act fun _ b => b.xwSelftest tripped

/-- SAFE_FORCE (R468). -/
def execSafeForce (c : Caller) (token : Nat) (s : State) : Host.Outcome State Fault Refusal :=
  s.act fun _ b => b.submit c (writeKey token Od.SAFE_FORCE 1)

/-- SAFE_CLEAR (R468). -/
def execSafeClear (c : Caller) (token : Nat) (s : State) : Host.Outcome State Fault Refusal :=
  s.act fun _ b => b.submit c (writeKey token Od.SAFE_CLEAR 1)

/-- SCRUB_PASS (R466). -/
def execScrubPass (fixed : List Nat) (bad : List (Nat × Nat)) (cells : Nat) (s : State) : Host.Outcome State Fault Refusal :=
  s.act fun _ b => b.scrubPass fixed bad cells

/-- CNT_OVERFLOW (R470). -/
def execCntOverflow (n : Fin 64) (s : State) : Host.Outcome State Fault Refusal :=
  s.act fun _ b => b.cntOverflow n

/-- CNT_DUMP (R473). -/
def execCntDump (s : State) : Host.Outcome State Fault Refusal :=
  s.act fun _ b => b.cntDump

/-- CNT_SNAPSHOT (R473). -/
def execCntSnapshot (c : Caller) (token : Nat) (s : State) : Host.Outcome State Fault Refusal :=
  s.act fun _ b => b.submit c (writeKey token Od.CNT_SNAPSHOT 1)

/-- CNT_RING_READ (R474). -/
def execCntRingRead (c : Caller) (token n : Nat) (s : State) : Host.Outcome State Fault Refusal :=
  s.act fun _ b => b.submit c (ringKey token Od.CNT_RING_DATA n)

/-- FIP_ARM (R475). -/
def execFipArm (c : Caller) (token : Nat) (p : Fin 32) (s : State) : Host.Outcome State Fault Refusal :=
  s.act fun _ b => b.submit c (writeKey token (Od.FIP_ARM p) 1)

/-- FIP_DISARM (R475). -/
def execFipDisarm (c : Caller) (token : Nat) (p : Fin 32) (s : State) : Host.Outcome State Fault Refusal :=
  s.act fun _ b => b.submit c (writeKey token (Od.FIP_ARM p) 2)

/-- FIP_REORDER_TIMEOUT (R476). -/
def execFipReorderTimeout (p : Fin 32) (s : State) : Host.Outcome State Fault Refusal :=
  s.act fun _ b => b.fipReorderTimeout p

/-- FIP_DELAY_EXPIRY (R476). -/
def execFipDelayExpiry (p : Fin 32) (s : State) : Host.Outcome State Fault Refusal :=
  s.act fun _ b => b.fipDelayExpiry p

/-- FI_XW_TEST (R476). -/
def execFiXwTest (c : Caller) (token check : Nat) (s : State) : Host.Outcome State Fault Refusal :=
  s.act fun _ b => b.submit c (writeKey token Od.FI_XW_TEST check)

/-- FI_ECC_TEST_SINGLE (R476). -/
def execFiEccTestSingle (c : Caller) (token : Nat) (s : State) : Host.Outcome State Fault Refusal :=
  s.act fun _ b => b.submit c (writeKey token Od.FI_ECC_TEST 1)

/-- FI_ECC_TEST_DOUBLE (R476). -/
def execFiEccTestDouble (c : Caller) (token : Nat) (s : State) : Host.Outcome State Fault Refusal :=
  s.act fun _ b => b.submit c (writeKey token Od.FI_ECC_TEST 2)

end Sys2Proof.Machine
end

