-- ==== Sys2Proof/Machine/ExecSlots.lean ====
section
/-! DEFINITION. The meanings of the commands of slots and the selector (chapter 5): each is an operation of its unit, applied to the module as every command is. -/

namespace Sys2Proof.Machine

/-- SLOT_CONFIG_WRITE (R133). -/
def execSlotConfigWrite (c : Caller) (token : Nat) (k : Fin 24) (f : SlotField) (v : Nat) (s : State) : Host.Outcome State Fault Refusal :=
  s.act fun _ b => b.submit c (writeKey token (f.key k) v)

/-- SLOT_LOCKOUT_WRITE (R139). -/
def execSlotLockoutWrite (c : Caller) (token : Nat) (k : Fin 24) (v : Nat) (s : State) : Host.Outcome State Fault Refusal :=
  s.act fun _ b => b.submit c (writeKey token (Od.SLOT_LOCKOUT k) v)

/-- SLOT_SOURCE_ACTIVE (R139). -/
def execSlotSourceActive (k : Fin 24) (s : State) : Host.Outcome State Fault Refusal :=
  s.act fun _ b => b.sourceUp k

/-- SLOT_SOURCE_INACTIVE (R139). -/
def execSlotSourceInactive (k : Fin 24) (s : State) : Host.Outcome State Fault Refusal :=
  s.act fun _ b => b.sourceDown k

/-- SLOT_MONITOR_TICK (R135). -/
def execSlotMonitorTick (means : List (Fin 24 × Int)) (s : State) : Host.Outcome State Fault Refusal :=
  s.act fun _ b => b.monitorTick means

/-- SLOT_WTR_EXPIRY (R139). -/
def execSlotWtrExpiry (k : Fin 24) (s : State) : Host.Outcome State Fault Refusal :=
  s.act fun _ b => b.waitOver k

/-- SLOT_WTR_CLEAR (R139). -/
def execSlotWtrClear (c : Caller) (token : Nat) (k : Fin 24) (s : State) : Host.Outcome State Fault Refusal :=
  s.act fun _ b => b.submit c (writeKey token (Od.SLOT_WTR_CLEAR k) 1)

/-- SELECTOR_EVALUATE (R143). -/
def execSelectorEvaluate (s : State) : Host.Outcome State Fault Refusal :=
  s.act fun _ b => b.evaluate

/-- TRANSFER_HANDOVER (R144). -/
def execTransferHandover (phase : Int) (s : State) : Host.Outcome State Fault Refusal :=
  s.act fun _ b => b.transferSample phase

/-- SWITCH_RESIDUAL_ZERO (R146). -/
def execSwitchResidualZero (s : State) : Host.Outcome State Fault Refusal :=
  s.act fun _ b => b.switchResidualZero

/-- SEL_PHASE_WRITE (R141). -/
def execSelPhaseWrite (c : Caller) (token v : Nat) (s : State) : Host.Outcome State Fault Refusal :=
  s.act fun _ b => b.submit c (writeKey token Od.SEL_PHASE v)

/-- SEL_FORCE_WRITE (R143). -/
def execSelForceWrite (c : Caller) (token v : Nat) (s : State) : Host.Outcome State Fault Refusal :=
  s.act fun _ b => b.submit c (writeKey token Od.SEL_FORCE v)

/-- SEL_SETTLE_EXPIRY (R141). -/
def execSelSettleExpiry (s : State) : Host.Outcome State Fault Refusal :=
  s.act fun _ b => b.settleExpiry

end Sys2Proof.Machine
end

