-- ==== Sys2Proof/Machine/ExecStream.lean ====
section
/-! DEFINITION. The meanings of the commands of stream engine and archive (chapter 13): each is an operation of its unit, applied to the module as every command is. -/

namespace Sys2Proof.Machine

/-- SENSOR_FRAME_INGEST (R348). -/
def execSensorFrameIngest (s : State) : Host.Outcome State Fault Refusal :=
  s.act fun ram b => b.sensorIngest ram

/-- OPERATOR_BLOCK (R352). -/
def execOperatorBlock (g : Fin 16) (id : Nat) (s : State) : Host.Outcome State Fault Refusal :=
  s.act fun _ b => b.operatorBlock g id

/-- ALIGN_WAIT_EXPIRY (R354). -/
def execAlignWaitExpiry (g : Fin 16) (id : Nat) (s : State) : Host.Outcome State Fault Refusal :=
  s.act fun _ b => b.alignExpiry g id

/-- ARCHIVE_FLASH_WRITE (R365). -/
def execArchiveFlashWrite (s : State) : Host.Outcome State Fault Refusal :=
  s.act fun _ b => b.flashWrite

/-- ARCHIVE_NVME_WRITE (R367). -/
def execArchiveNvmeWrite (done : Bool) (s : State) : Host.Outcome State Fault Refusal :=
  s.act fun _ b => b.nvmeWrite done

/-- ARCHIVE_NVME_FLUSH (R367). -/
def execArchiveNvmeFlush (done : Bool) (s : State) : Host.Outcome State Fault Refusal :=
  s.act fun _ b => b.nvmeFlush done

/-- ARC_SEEK (R368). -/
def execArcSeek (c : Caller) (token : Nat) (s : State) : Host.Outcome State Fault Refusal :=
  s.act fun _ b => b.submit c (writeKey token Od.ARC_SEEK 1)

/-- ARC_SEEK_COMPLETE (R368). -/
def execArcSeekComplete (s : State) : Host.Outcome State Fault Refusal :=
  s.act fun _ b => b.arcSeekDone

/-- ARC_READ (R368). -/
def execArcRead (c : Caller) (token n : Nat) (s : State) : Host.Outcome State Fault Refusal :=
  s.act fun _ b => b.submit c (ringKey token Od.ARC_DATA n)

end Sys2Proof.Machine
end

