-- ==== Sys2Proof/Machine/ExecTic.lean ====
section
/-! DEFINITION. The meanings of the commands of interval measurement (chapter 8): each is an operation of its unit, applied to the module as every command is. -/

namespace Sys2Proof.Machine

/-- TIC_EDGE (R197). -/
def execTicEdge (c : Fin 8) (rising : Bool) (code : Nat) (s : State) : Host.Outcome State Fault Refusal :=
  s.act fun _ b => b.ticEdge c rising code

/-- TIC_ENCODE (R205). -/
def execTicEncode (c : Fin 8) (s : State) : Host.Outcome State Fault Refusal :=
  s.act fun _ b => b.ticEncode c

/-- TIC_RECORD_WRITE (R206). -/
def execTicRecordWrite (s : State) : Host.Outcome State Fault Refusal :=
  s.act fun _ b => b.ticRecordWrite

/-- TIC_GATE_END (R201). -/
def execTicGateEnd (c : Fin 8) (s : State) : Host.Outcome State Fault Refusal :=
  s.act fun _ b => b.ticGateEnd c

/-- TIC_OVERFLOW (R207). -/
def execTicOverflow (c : Fin 8) (s : State) : Host.Outcome State Fault Refusal :=
  s.act fun _ b => b.ticOverflow c

/-- TIC_ARM (R202). -/
def execTicArm (c : Caller) (token : Nat) (ch : Fin 8) (s : State) : Host.Outcome State Fault Refusal :=
  s.act fun _ b => b.submit c (writeKey token (Od.TIC_ARM ch) 1)

/-- TIC_DISARM (R202). -/
def execTicDisarm (c : Caller) (token : Nat) (ch : Fin 8) (s : State) : Host.Outcome State Fault Refusal :=
  s.act fun _ b => b.submit c (writeKey token (Od.TIC_ARM ch) 2)

/-- TIC_RING_READ (R215). -/
def execTicRingRead (c : Caller) (token n : Nat) (s : State) : Host.Outcome State Fault Refusal :=
  s.act fun _ b => b.submit c (ringKey token Od.TIC_RING_DATA n)

end Sys2Proof.Machine
end

