-- ==== Sys2Proof/Machine/ExecTime.lean ====
section
/-! DEFINITION. The meanings of the commands of clocks and Meridian time (chapters 1, 2): each is an operation of its unit, applied to the module as every command is. -/

namespace Sys2Proof.Machine

/-- CLOCK_START_REQUEST (R21). -/
def execClockStartRequest (c : FastClock) (s : State) : Host.Outcome State Fault Refusal :=
  s.act fun _ b => b.clockWanted c

/-- CLOCK_START_COMPLETE (R19). -/
def execClockStartComplete (c : FastClock) (s : State) : Host.Outcome State Fault Refusal :=
  s.act fun _ b => b.clockStarted c

/-- SLEEP_DELAY_EXPIRY (R496). -/
def execSleepDelayExpiry (c : FastClock) (s : State) : Host.Outcome State Fault Refusal :=
  s.act fun _ b => b.sleepExpiry c

/-- RESET_FENCE_AGREE (R34). -/
def execResetFenceAgree (x : Boundary) (s : State) : Host.Outcome State Fault Refusal :=
  s.act fun _ b => b.fenceSettled x

/-- MT_SET_TIME (R526). -/
def execMtSetTime (c : Caller) (token word : Nat) (s : State) : Host.Outcome State Fault Refusal :=
  s.act fun _ b => b.submit c (writeKey token Od.MT_SET_TIME word)

/-- SECONDS_WRAP (R38). -/
def execSecondsWrap (s : State) : Host.Outcome State Fault Refusal :=
  s.act fun _ b => b.secondsWrap

/-- MT_STATE_READ (R61). -/
def execMtStateRead (c : Caller) (token : Nat) (sub : Fin 8) (s : State) : Host.Outcome State Fault Refusal :=
  s.act fun _ b => b.submit c (readRequest token 0x2000 sub)

/-- TARGET_DUE (R47). -/
def execTargetDue (o : Owner) (s : State) : Host.Outcome State Fault Refusal :=
  s.act fun _ b => b.targetDue o

/-- LEAP_APPLY (R54). -/
def execLeapApply (s : State) : Host.Outcome State Fault Refusal :=
  s.act fun _ b => b.leapDue

/-- DOMAIN_OBSERVER_CHANGE (R62). -/
def execDomainObserverChange (d : Fin 2) (st : Fin 3) (r : ObserverReading) (s : State) : Host.Outcome State Fault Refusal :=
  s.act fun _ b => b.observe d st r

/-- DOM_RESIDUAL_ZERO (R64). -/
def execDomResidualZero (s : State) : Host.Outcome State Fault Refusal :=
  s.act fun _ b => b.domResidualZero

end Sys2Proof.Machine
end

