-- ==== Sys2Proof/Machine/Dispatch.lean ====
section
/-! DEFINITION. The dispatch of a command to its meaning, one arm per constructor. -/

namespace Sys2Proof.Machine

def exec (i : Instr) (s : State) : Host.Outcome State Fault Refusal :=
  match i with
  | .clockStartRequest c => Sys2Proof.Machine.execClockStartRequest c s
  | .clockStartComplete c => Sys2Proof.Machine.execClockStartComplete c s
  | .sleepDelayExpiry c => Sys2Proof.Machine.execSleepDelayExpiry c s
  | .resetFenceAgree x => Sys2Proof.Machine.execResetFenceAgree x s
  | .mtSetTime c token word => Sys2Proof.Machine.execMtSetTime c token word s
  | .secondsWrap => Sys2Proof.Machine.execSecondsWrap s
  | .mtStateRead c token sub => Sys2Proof.Machine.execMtStateRead c token sub s
  | .targetDue o => Sys2Proof.Machine.execTargetDue o s
  | .leapApply => Sys2Proof.Machine.execLeapApply s
  | .domainObserverChange d st r => Sys2Proof.Machine.execDomainObserverChange d st r s
  | .domResidualZero => Sys2Proof.Machine.execDomResidualZero s
  | .reelPeriod p => Sys2Proof.Machine.execReelPeriod p s
  | .reelMarkerTx p stamp => Sys2Proof.Machine.execReelMarkerTx p stamp s
  | .reelTMarkerRx p m stamp => Sys2Proof.Machine.execReelTMarkerRx p m stamp s
  | .reelReportRx p d0 d1 d2 d3 => Sys2Proof.Machine.execReelReportRx p d0 d1 d2 d3 s
  | .reelSlowWordRx p m => Sys2Proof.Machine.execReelSlowWordRx p m s
  | .reelAvgTimeExpiry p => Sys2Proof.Machine.execReelAvgTimeExpiry p s
  | .reelPeerTimeout p => Sys2Proof.Machine.execReelPeerTimeout p s
  | .esmcPduRx p pdu => Sys2Proof.Machine.execEsmcPduRx p pdu s
  | .esmcInfoTx p => Sys2Proof.Machine.execEsmcInfoTx p s
  | .esmcEventTx p => Sys2Proof.Machine.execEsmcEventTx p s
  | .esmcRxTimeout p => Sys2Proof.Machine.execEsmcRxTimeout p s
  | .ptpSyncRx p h twoStep origin logInterval stamp => Sys2Proof.Machine.execPtpSyncRx p h twoStep origin logInterval stamp s
  | .ptpFollowUpRx p h origin => Sys2Proof.Machine.execPtpFollowUpRx p h origin s
  | .ptpDelayReqRx p h stamp => Sys2Proof.Machine.execPtpDelayReqRx p h stamp s
  | .ptpDelayRespRx p h received => Sys2Proof.Machine.execPtpDelayRespRx p h received s
  | .ptpPdelayReqRx p h stamp sent => Sys2Proof.Machine.execPtpPdelayReqRx p h stamp sent s
  | .ptpPdelayRespRx p h twoStep received stamp => Sys2Proof.Machine.execPtpPdelayRespRx p h twoStep received stamp s
  | .ptpPdelayRespFollowUpRx p h origin => Sys2Proof.Machine.execPtpPdelayRespFollowUpRx p h origin s
  | .ptpAnnounceRx p h a => Sys2Proof.Machine.execPtpAnnounceRx p h a s
  | .ptpSyncTx p stamp => Sys2Proof.Machine.execPtpSyncTx p stamp s
  | .ptpDelayReqTx p stamp => Sys2Proof.Machine.execPtpDelayReqTx p stamp s
  | .ptpAnnounceTx p => Sys2Proof.Machine.execPtpAnnounceTx p s
  | .ptpAnnounceTimeout p => Sys2Proof.Machine.execPtpAnnounceTimeout p s
  | .pePhaseSample x => Sys2Proof.Machine.execPePhaseSample x s
  | .outCommit c token => Sys2Proof.Machine.execOutCommit c token s
  | .outCommitCancel c token => Sys2Proof.Machine.execOutCommitCancel c token s
  | .outCommitApply => Sys2Proof.Machine.execOutCommitApply s
  | .refinPulse r frac => Sys2Proof.Machine.execRefinPulse r frac s
  | .refinPulseTimeout r => Sys2Proof.Machine.execRefinPulseTimeout r s
  | .refinFreqChange r present => Sys2Proof.Machine.execRefinFreqChange r present s
  | .outAlignLoss n => Sys2Proof.Machine.execOutAlignLoss n s
  | .outputSquelch n => Sys2Proof.Machine.execOutputSquelch n s
  | .outputUnsquelch n => Sys2Proof.Machine.execOutputUnsquelch n s
  | .slotConfigWrite c token k f v => Sys2Proof.Machine.execSlotConfigWrite c token k f v s
  | .slotLockoutWrite c token k v => Sys2Proof.Machine.execSlotLockoutWrite c token k v s
  | .slotSourceActive k => Sys2Proof.Machine.execSlotSourceActive k s
  | .slotSourceInactive k => Sys2Proof.Machine.execSlotSourceInactive k s
  | .slotMonitorTick means => Sys2Proof.Machine.execSlotMonitorTick means s
  | .slotWtrExpiry k => Sys2Proof.Machine.execSlotWtrExpiry k s
  | .slotWtrClear c token k => Sys2Proof.Machine.execSlotWtrClear c token k s
  | .selectorEvaluate => Sys2Proof.Machine.execSelectorEvaluate s
  | .transferHandover phase => Sys2Proof.Machine.execTransferHandover phase s
  | .switchResidualZero => Sys2Proof.Machine.execSwitchResidualZero s
  | .selPhaseWrite c token v => Sys2Proof.Machine.execSelPhaseWrite c token v s
  | .selForceWrite c token v => Sys2Proof.Machine.execSelForceWrite c token v s
  | .selSettleExpiry => Sys2Proof.Machine.execSelSettleExpiry s
  | .oscWarmupClear => Sys2Proof.Machine.execOscWarmupClear s
  | .oscTempExcursion => Sys2Proof.Machine.execOscTempExcursion s
  | .steerWrite c token v => Sys2Proof.Machine.execSteerWrite c token v s
  | .hoModelRecord temp => Sys2Proof.Machine.execHoModelRecord temp s
  | .hoModelValidCheck => Sys2Proof.Machine.execHoModelValidCheck s
  | .hoModelSave => Sys2Proof.Machine.execHoModelSave s
  | .holdoverTick temp => Sys2Proof.Machine.execHoldoverTick temp s
  | .hoBudgetExceeded => Sys2Proof.Machine.execHoBudgetExceeded s
  | .returnStep => Sys2Proof.Machine.execReturnStep s
  | .returnComplete => Sys2Proof.Machine.execReturnComplete s
  | .codeDensityStart c token => Sys2Proof.Machine.execCodeDensityStart c token s
  | .converterRunComplete v first second => Sys2Proof.Machine.execConverterRunComplete v first second s
  | .twinSwap v d => Sys2Proof.Machine.execTwinSwap v d s
  | .calAutoTrigger => Sys2Proof.Machine.execCalAutoTrigger s
  | .calTempUpdate t => Sys2Proof.Machine.execCalTempUpdate t s
  | .linkCalStart c token p => Sys2Proof.Machine.execLinkCalStart c token p s
  | .linkCalComplete loops txs => Sys2Proof.Machine.execLinkCalComplete loops txs s
  | .linkCalSave => Sys2Proof.Machine.execLinkCalSave s
  | .asySolverTick e => Sys2Proof.Machine.execAsySolverTick e s
  | .ticEdge c rising code => Sys2Proof.Machine.execTicEdge c rising code s
  | .ticEncode c => Sys2Proof.Machine.execTicEncode c s
  | .ticRecordWrite => Sys2Proof.Machine.execTicRecordWrite s
  | .ticGateEnd c => Sys2Proof.Machine.execTicGateEnd c s
  | .ticOverflow c => Sys2Proof.Machine.execTicOverflow c s
  | .ticArm c token ch => Sys2Proof.Machine.execTicArm c token ch s
  | .ticDisarm c token ch => Sys2Proof.Machine.execTicDisarm c token ch s
  | .ticRingRead c token n => Sys2Proof.Machine.execTicRingRead c token n s
  | .linkUp p seen => Sys2Proof.Machine.execLinkUp p seen s
  | .linkDown p cause => Sys2Proof.Machine.execLinkDown p cause s
  | .linkdownHoldExpiry p => Sys2Proof.Machine.execLinkdownHoldExpiry p s
  | .frameRx p f pcs stamp seen => Sys2Proof.Machine.execFrameRx p f pcs stamp seen s
  | .egressSchedule p parity => Sys2Proof.Machine.execEgressSchedule p parity s
  | .frameTxDone seen => Sys2Proof.Machine.execFrameTxDone seen s
  | .portIdleEntry p => Sys2Proof.Machine.execPortIdleEntry p s
  | .portIdleWake p => Sys2Proof.Machine.execPortIdleWake p s
  | .macAgePass => Sys2Proof.Machine.execMacAgePass s
  | .fdbRead c token => Sys2Proof.Machine.execFdbRead c token s
  | .fdbWriteStatic c token => Sys2Proof.Machine.execFdbWriteStatic c token s
  | .fdbDelete c token => Sys2Proof.Machine.execFdbDelete c token s
  | .fdbFlush c token => Sys2Proof.Machine.execFdbFlush c token s
  | .fdbFlushComplete => Sys2Proof.Machine.execFdbFlushComplete s
  | .bankWindow n => Sys2Proof.Machine.execBankWindow n s
  | .swReseed c token => Sys2Proof.Machine.execSwReseed c token s
  | .wredAvgUpdate => Sys2Proof.Machine.execWredAvgUpdate s
  | .gclChange c token p => Sys2Proof.Machine.execGclChange c token p s
  | .gclChangeCancel c token p => Sys2Proof.Machine.execGclChangeCancel c token p s
  | .gclChangeApply p => Sys2Proof.Machine.execGclChangeApply p s
  | .gateEntry p => Sys2Proof.Machine.execGateEntry p s
  | .cqCopy => Sys2Proof.Machine.execCqCopy s
  | .laneTrainingFrameRx l t => Sys2Proof.Machine.execLaneTrainingFrameRx l t s
  | .laneTrainingTimeout l => Sys2Proof.Machine.execLaneTrainingTimeout l s
  | .laneTrainingRetry l => Sys2Proof.Machine.execLaneTrainingRetry l s
  | .prbsLockLoss l errs => Sys2Proof.Machine.execPrbsLockLoss l errs s
  | .prbsClear c token l => Sys2Proof.Machine.execPrbsClear c token l s
  | .laneInjArm c token l => Sys2Proof.Machine.execLaneInjArm c token l s
  | .laneInjDisarm c token l => Sys2Proof.Machine.execLaneInjDisarm c token l s
  | .laneInjAct l => Sys2Proof.Machine.execLaneInjAct l s
  | .sidebandScan inputs => Sys2Proof.Machine.execSidebandScan inputs s
  | .i2cRead c token l => Sys2Proof.Machine.execI2cRead c token l s
  | .i2cWrite c token l => Sys2Proof.Machine.execI2cWrite c token l s
  | .i2cTransactionDone m ack timeout data => Sys2Proof.Machine.execI2cTransactionDone m ack timeout data s
  | .gnssDwell e code svid elev azim hit => Sys2Proof.Machine.execGnssDwell e code svid elev azim hit s
  | .gnssEpochLatch seen sol => Sys2Proof.Machine.execGnssEpochLatch seen sol s
  | .gnssAntChange current limited => Sys2Proof.Machine.execGnssAntChange current limited s
  | .gnssAntRetry => Sys2Proof.Machine.execGnssAntRetry s
  | .gnssJamDetect l1 l5 => Sys2Proof.Machine.execGnssJamDetect l1 l5 s
  | .gnssDutySleep => Sys2Proof.Machine.execGnssDutySleep s
  | .gnssDutyWake => Sys2Proof.Machine.execGnssDutyWake s
  | .gnssKeepClear c token => Sys2Proof.Machine.execGnssKeepClear c token s
  | .gnssKeepSave => Sys2Proof.Machine.execGnssKeepSave s
  | .gnssRingRead c token n => Sys2Proof.Machine.execGnssRingRead c token n s
  | .sensorFrameIngest => Sys2Proof.Machine.execSensorFrameIngest s
  | .operatorBlock g id => Sys2Proof.Machine.execOperatorBlock g id s
  | .alignWaitExpiry g id => Sys2Proof.Machine.execAlignWaitExpiry g id s
  | .archiveFlashWrite => Sys2Proof.Machine.execArchiveFlashWrite s
  | .archiveNvmeWrite done => Sys2Proof.Machine.execArchiveNvmeWrite done s
  | .archiveNvmeFlush done => Sys2Proof.Machine.execArchiveNvmeFlush done s
  | .arcSeek c token => Sys2Proof.Machine.execArcSeek c token s
  | .arcSeekComplete => Sys2Proof.Machine.execArcSeekComplete s
  | .arcRead c token n => Sys2Proof.Machine.execArcRead c token n s
  | .dmaCopy turn desc data => Sys2Proof.Machine.execDmaCopy turn desc data s
  | .dmaGather turn desc data => Sys2Proof.Machine.execDmaGather turn desc data s
  | .dmaAlloc ch desc => Sys2Proof.Machine.execDmaAlloc ch desc s
  | .dmaRef ch desc => Sys2Proof.Machine.execDmaRef ch desc s
  | .dmaRelease ch desc => Sys2Proof.Machine.execDmaRelease ch desc s
  | .dmaBusError ch cause write pool addr done => Sys2Proof.Machine.execDmaBusError ch cause write pool addr done s
  | .dmaRetry ch => Sys2Proof.Machine.execDmaRetry ch s
  | .dmaResumeRetry c token ch => Sys2Proof.Machine.execDmaResumeRetry c token ch s
  | .dmaResumeSkip c token ch => Sys2Proof.Machine.execDmaResumeSkip c token ch s
  | .dmaDoorbell bell ch v => Sys2Proof.Machine.execDmaDoorbell bell ch v s
  | .dmaCqRxFrame turn desc => Sys2Proof.Machine.execDmaCqRxFrame turn desc s
  | .dmaRingFollowRecord turn => Sys2Proof.Machine.execDmaRingFollowRecord turn s
  | .dmaIrqHoldoffExpiry ch => Sys2Proof.Machine.execDmaIrqHoldoffExpiry ch s
  | .odRead c q => Sys2Proof.Machine.execOdRead c q s
  | .odWrite c q => Sys2Proof.Machine.execOdWrite c q s
  | .odReadSeg c q => Sys2Proof.Machine.execOdReadSeg c q s
  | .odWriteSeg c q => Sys2Proof.Machine.execOdWriteSeg c q s
  | .stickyClearWrite c token index sub v => Sys2Proof.Machine.execStickyClearWrite c token index sub v s
  | .domainSegTimeout => Sys2Proof.Machine.execDomainSegTimeout s
  | .canFragmentRx ctrl dest src ctl data => Sys2Proof.Machine.execCanFragmentRx ctrl dest src ctl data s
  | .canFragmentTimeout => Sys2Proof.Machine.execCanFragmentTimeout s
  | .mbDoorbell fn q => Sys2Proof.Machine.execMbDoorbell fn q s
  | .mbAck fn => Sys2Proof.Machine.execMbAck fn s
  | .mbEvqTailWrite fn tail setup => Sys2Proof.Machine.execMbEvqTailWrite fn tail setup s
  | .apEntryWrite c token n v => Sys2Proof.Machine.execApEntryWrite c token n v s
  | .eventDeliver t way => Sys2Proof.Machine.execEventDeliver t way s
  | .tntEventNext c token t => Sys2Proof.Machine.execTntEventNext c token t s
  | .watchdogExpiry => Sys2Proof.Machine.execWatchdogExpiry s
  | .functionStart c token f => Sys2Proof.Machine.execFunctionStart c token f s
  | .functionStop c token f => Sys2Proof.Machine.execFunctionStop c token f s
  | .functionRun f => Sys2Proof.Machine.execFunctionRun f s
  | .functionStopped f => Sys2Proof.Machine.execFunctionStopped f s
  | .jobStep j good => Sys2Proof.Machine.execJobStep j good s
  | .jobPause c token j => Sys2Proof.Machine.execJobPause c token j s
  | .jobResume c token j => Sys2Proof.Machine.execJobResume c token j s
  | .jobAbort c token j => Sys2Proof.Machine.execJobAbort c token j s
  | .imgCommit c token => Sys2Proof.Machine.execImgCommit c token s
  | .imgBootSelect c token slot => Sys2Proof.Machine.execImgBootSelect c token slot s
  | .imgConfirm => Sys2Proof.Machine.execImgConfirm s
  | .cfgSave c token => Sys2Proof.Machine.execCfgSave c token s
  | .cfgClear c token => Sys2Proof.Machine.execCfgClear c token s
  | .configRestore => Sys2Proof.Machine.execConfigRestore s
  | .heartbeatTx => Sys2Proof.Machine.execHeartbeatTx s
  | .heartbeatRx h => Sys2Proof.Machine.execHeartbeatRx h s
  | .heartbeatMiss => Sys2Proof.Machine.execHeartbeatMiss s
  | .handoverNFall => Sys2Proof.Machine.execHandoverNFall s
  | .partnerAliveFall => Sys2Proof.Machine.execPartnerAliveFall s
  | .switchoverTablesLoaded => Sys2Proof.Machine.execSwitchoverTablesLoaded s
  | .stateExport => Sys2Proof.Machine.execStateExport s
  | .snapshotRx x whole crcOk => Sys2Proof.Machine.execSnapshotRx x whole crcOk s
  | .snapshotAgeExpiry => Sys2Proof.Machine.execSnapshotAgeExpiry s
  | .pairStartupTimeout => Sys2Proof.Machine.execPairStartupTimeout s
  | .pairSwitchBack c token => Sys2Proof.Machine.execPairSwitchBack c token s
  | .switchBackTimeout => Sys2Proof.Machine.execSwitchBackTimeout s
  | .xwCheck code inst diff => Sys2Proof.Machine.execXwCheck code inst diff s
  | .xwSelftest tripped => Sys2Proof.Machine.execXwSelftest tripped s
  | .safeForce c token => Sys2Proof.Machine.execSafeForce c token s
  | .safeClear c token => Sys2Proof.Machine.execSafeClear c token s
  | .scrubPass fixed bad cells => Sys2Proof.Machine.execScrubPass fixed bad cells s
  | .cntOverflow n => Sys2Proof.Machine.execCntOverflow n s
  | .cntDump => Sys2Proof.Machine.execCntDump s
  | .cntSnapshot c token => Sys2Proof.Machine.execCntSnapshot c token s
  | .cntRingRead c token n => Sys2Proof.Machine.execCntRingRead c token n s
  | .fipArm c token p => Sys2Proof.Machine.execFipArm c token p s
  | .fipDisarm c token p => Sys2Proof.Machine.execFipDisarm c token p s
  | .fipReorderTimeout p => Sys2Proof.Machine.execFipReorderTimeout p s
  | .fipDelayExpiry p => Sys2Proof.Machine.execFipDelayExpiry p s
  | .fiXwTest c token check => Sys2Proof.Machine.execFiXwTest c token check s
  | .fiEccTestSingle c token => Sys2Proof.Machine.execFiEccTestSingle c token s
  | .fiEccTestDouble c token => Sys2Proof.Machine.execFiEccTestDouble c token s
  | .vinBelowWarning vin vbak => Sys2Proof.Machine.execVinBelowWarning vin vbak s
  | .vinReturn vin => Sys2Proof.Machine.execVinReturn vin s
  | .braceExit input => Sys2Proof.Machine.execBraceExit input s
  | .holdUpEntry vin vbak => Sys2Proof.Machine.execHoldUpEntry vin vbak s
  | .holdUpRecover vin vbak vhold => Sys2Proof.Machine.execHoldUpRecover vin vbak vhold s
  | .supplyFailReset vhold => Sys2Proof.Machine.execSupplyFailReset vhold s
  | .powerOn vin vbak => Sys2Proof.Machine.execPowerOn vin vbak s
  | .warmPinReset => Sys2Proof.Machine.execWarmPinReset s
  | .coldPinReset => Sys2Proof.Machine.execColdPinReset s
  | .rstWarm c token => Sys2Proof.Machine.execRstWarm c token s
  | .rstFwRestart c token => Sys2Proof.Machine.execRstFwRestart c token s
  | .rstFunction c token f => Sys2Proof.Machine.execRstFunction c token f s
  | .resetRelease => Sys2Proof.Machine.execResetRelease s
  | .firmwareStart => Sys2Proof.Machine.execFirmwareStart s
  | .thermalTrip => Sys2Proof.Machine.execThermalTrip s
  | .prbsLock l => Sys2Proof.Machine.execPrbsLock l s
  | .gnssCoherentIntegration c m => Sys2Proof.Machine.execGnssCoherentIntegration c m s
  | .ptpSyncTimeout p => Sys2Proof.Machine.execPtpSyncTimeout p s
  | .pcieLinkChange gen width => Sys2Proof.Machine.execPcieLinkChange gen width s
  | .vbakAboveWarning vbak => Sys2Proof.Machine.execVbakAboveWarning vbak s
  | .holdupReadyChange vhold => Sys2Proof.Machine.execHoldupReadyChange vhold s
  | .partnerAliveRise => Sys2Proof.Machine.execPartnerAliveRise s
  | .phyResetRelease => Sys2Proof.Machine.execPhyResetRelease s

end Sys2Proof.Machine
end

