-- ==== Sys2Proof/Machine/Step.lean ====
section
/-! DEFINITION. One step: the command at the front of the queue, or a Vesper cycle where none waits. -/

namespace Sys2Proof.Machine

/-- The front command runs on the state with the queue's rest; on an empty queue one Vesper cycle passes (log 2). (DEDUCED, log 122.) -/
def step (s : State) : Host.Outcome State Fault Refusal :=
  match s.pending with
  | [] => .next s.idle
  | c :: rest => exec c { s with pending := rest }

/-- The command that a word of the opcode table spells put at the front of the queue: the table gives no bits, so there is none (log 1). -/
def State.withFetchWord (s : State) (nbits w : Nat) : State :=
  match decodeTableWord nbits w with
  | some c => { s with pending := c :: s.pending }
  | none => s

end Sys2Proof.Machine
end

