-- ==== Sys2Proof/Safety.lean ====
section
/-! DEFINITION. The terms that statements use: where a command leads, what a tenant was told, when a request is served at once, and what holds of
every state that a step leaves. -/

namespace Sys2Proof.Machine

-- Where a command leads

/-- Command i answers a next state, and the module as the command itself leaves it, before the reactions of State.withBlock, satisfies P. -/
def State.leads (s : State) (i : Instr) (P : Block → Prop) : Prop := ∃ b : Block, exec i s = .next (s.withBlock b) ∧ P b

/-- The module has sent o beyond what it had sent in a. -/
def Block.sends (a b : Block) (o : Output) : Prop := o ∈ b.sent.drop a.sent.length

-- Events

/-- Whether tenant t listens to an event: its event-group and read-mask bits of the group are set (R412). -/
def Block.listens (b : Block) (t num : Nat) : Bool :=
  decide (t < 8) && match groupOf num with
    | some g => bit (b.rdN (Od.TNT_EVENT_GROUPS t)) g && bit (b.rdN (Od.TNT_READ_MASK t)) g
    | none => false

/-- Between a and b every tenant that listens has the event queued, or lost and counted (R412, R413). -/
def Block.told (a b : Block) (num argA argB : Nat) : Prop :=
  ∀ t, a.listens t num = true →
    (∃ e ∈ (tat {} b.mg.ev t).queue, e.num = num ∧ e.argA = argA ∧ e.argB = argB) ∨ (tat {} a.mg.ev t).lost < (tat {} b.mg.ev t).lost

/-- An event stands on the source side of its crossing x in module b: on its way, or pending behind one that is (R27). -/
def Block.crosses (b : Block) (x : Nat) (e : Pulse) : Prop :=
  let t : Toggle := tat {} (b.crossing x).toggles e.source
  (∃ c, t.flight = some (c, e)) ∨ t.held = some e

/-- Between a and b an event is raised: told where its block lies in the Vesper domain, else on its way there across its crossing (R27, R412). -/
def Block.reported (a b : Block) (num argA argB : Nat) : Prop :=
  match eventCrossing num argA with
  | some x => b.crosses x { num := num, argA := argA, argB := argB }
  | none => a.told b num argA argB

/-- Between a and b tenant t, where its event-group bit is set, has a directed event queued, or lost and counted (R412, R413). -/
def Block.toldOne (a b : Block) (t num argA argB : Nat) : Prop :=
  ∀ g, groupOf num = some g → bit (a.rdN (Od.TNT_EVENT_GROUPS t)) g = true →
    (∃ e ∈ (tat {} b.mg.ev t).queue, e.num = num ∧ e.argA = argA ∧ e.argB = argB) ∨ (tat {} a.mg.ev t).lost < (tat {} b.mg.ev t).lost

/-- Between a and b an event directed to tenant t is raised, as Block.reported says of the others (R27, R412). -/
def Block.reportedOne (a b : Block) (t num argA argB : Nat) : Prop :=
  match eventCrossing num argA with
  | some x => b.crosses x { num := num, argA := argA, argB := argB, dest := some t }
  | none => a.toldOne b t num argA argB

-- Requests

/-- The module as the server finds a request of c at its turn, having arrived at entry n of the arrival-point table and been queued. -/
def Block.door (b : Block) (c : Caller) (q : Request) (n : Nat) : Block :=
  let a := b.arriving c q
  ((((a.known n c).queued (a.waiting n c q)).setSrv fun s => { s with queue := [] })).turn (apTenant (a.apEntry n))

/-- The request as the server finds it. -/
def Block.asked (b : Block) (c : Caller) (q : Request) (n : Nat) : Waiting := (b.arriving c q).waiting n c q

/-- Whether a request passes the checks of R527 up to its type and length: well formed, of an entry that exists, permitted, of its type. -/
def Block.passes (b : Block) (w : Waiting) : Bool :=
  !malformed w.caller w.req && match rowOf (key w.req.index w.req.sub) with
    | some e => (b.refusal w.tenant w.owner e w.req.op w.req.index w.req.sub).isNone && !typeWrong e w.req
    | none => false

/-- Whether the module serves a request of c at once, as one of entry n of the arrival-point table: the module is up, the path takes it, the server runs with its clock and
nothing else waits, its tenant's boundary carries (R34), no kept response matches, and the request passes its checks up to its type. -/
def State.takes (s : State) (c : Caller) (q : Request) (n : Nat) : Bool :=
  let a := s.m.arriving c q
  s.m.up && s.m.pathUp c && !s.m.heldAtPort c && a.mg.srv.running && a.clockRuns .prixus && a.mg.srv.queue.isEmpty && a.pointOf c == some n
    && a.agreed (Boundary.server (Fin.ofNat 8 (apTenant (a.apEntry n)))).no && ((s.m.door c q n).keptFor (s.m.asked c q n)).isNone && (s.m.door c q n).passes (s.m.asked c q n)

/-- Whether the module takes up a request of c at once, as one of entry n of the arrival-point table, whatever the request's checks then say: as State.takes, but for the checks. -/
def State.serves (s : State) (c : Caller) (q : Request) (n : Nat) : Bool :=
  let a := s.m.arriving c q
  s.m.up && s.m.pathUp c && !s.m.heldAtPort c && a.mg.srv.running && a.clockRuns .prixus && a.mg.srv.queue.isEmpty && a.pointOf c == some n
    && a.agreed (Boundary.server (Fin.ofNat 8 (apTenant (a.apEntry n)))).no && ((s.m.door c q n).keptFor (s.m.asked c q n)).isNone

/-- What a write of w brings to module a: the outcome of the entry's own rules from STATE on (R527). -/
def Block.written (a : Block) (w : Waiting) : Reply :=
  match rowOf (key w.req.index w.req.sub) with
  | some e => a.writeEntry w.tenant e (accessOf e w.req.index w.req.sub) (a.entryKey w.tenant e w.req.index w.req.sub) (w.req.data.take w.req.length)
  | none => a.stateError

/-- Whether nothing but the entry's own rules stands between the write w and its effect: no switch-back is under way, and the state of the module does
not forbid the write (R444, R420, R133, R526). -/
def Block.unbarred (a : Block) (w : Waiting) : Bool :=
  match rowOf (key w.req.index w.req.sub) with
  | some e => a.pr.back.isNone && !a.writeBarred w.tenant (a.entryKey w.tenant e w.req.index w.req.sub) (accessOf e w.req.index w.req.sub)
      ((decodeVal e.ty (w.req.data.take w.req.length)).getD 0)
  | none => false

/-- Whether the module serves a write of c at once and its state does not forbid it. -/
def State.grants (s : State) (c : Caller) (q : Request) (n : Nat) : Bool := s.takes c q n && (s.m.door c q n).unbarred (s.m.asked c q n)

/-- A frame of the module's own for port p has left it in b, or waits there behind others (R279), unless the port's injector has had it (R475). -/
def Block.sendsOwn (b : Block) (p : Nat) (o : Own) : Prop :=
  (b.pf p).fip.acting = false → (b.pf p).fip.acts = 0 → o.output p ∈ b.sent ∨ ∃ n, (o, n) ∈ (b.pf p).own

/-- Module b has answered caller c with r (R401); an answer in-band needs the port's link. -/
def Block.answers (b : Block) (c : Caller) (r : Response) : Prop :=
  match c with
  | .inband p _ _ => b.on (Od.P_LINK p) = true → b.sendsOwn p (.response c r)
  | _ => .response c r ∈ b.sent

/-- Whether a PTP event message of n bytes leaves port p as soon as it is made: nothing holds the port, and no injector acts there. -/
def Block.eventLeaves (b : Block) (p n : Nat) : Bool :=
  (b.fillShapers p).ownClear p n && !(b.pf p).fip.acting && (b.pf p).fip.through == 0

/-- Module b has answered w with a status and AUX (R401). -/
def Block.replied (b : Block) (w : Waiting) (status aux : Nat) : Prop := b.answers w.caller (reply w.req (entryCode w.req) status aux)

/-- Module b has answered w with status OK, AUX and data. -/
def Block.repliedWith (b : Block) (w : Waiting) (aux : Nat) (data : Bytes) : Prop :=
  b.answers w.caller (reply w.req (entryCode w.req) 0 aux data)

/-- The keys of the fixed and the programmable counters (R470), which counting and events may change. -/
def counterKey (k : Nat) : Prop := (0x7101 * 256 ≤ k ∧ k < 0x7102 * 256) ∨ (0x7110 * 256 ≤ k ∧ k < 0x7150 * 256)

/-- The entries that answering a request itself may change: TNTt_REQUESTS, the counters group, what the port of an in-band response counts as
sent, and, where that frame passes the port's injector or wakes the port, the injector's and the fabric clock's count of starts. -/
def bookKey (k : Nat) : Prop :=
  counterKey k ∨ ∃ i, i = k % 2 ^ 24 / 256 ∧ (0x1110 ≤ i ∧ i < 0x1118 ∧ k % 256 = 8 ∨
    0x3100 ≤ i ∧ i < 0x3120 ∧ (k % 256 = 0x1D ∨ k % 256 = 0x1F) ∨ 0x3200 ≤ i ∧ i < 0x3220 ∧ k % 256 = 0x0A ∨
    0x7210 ≤ i ∧ i < 0x7230 ∧ (k % 256 = 0x0E ∨ k % 256 = 0x0F ∨ k % 256 = 0x10) ∨ i = 0x7200 ∧ k % 256 = 2 ∨ i = 0x1303 ∧ k % 256 = 6)

/-- The parts of a module that answering a request may change besides entries: what waits to be sent or to be told, free values, kept responses and
mailboxes, the fabric clock, armed targets of injectors, and shaper tokens, wakes, waiting own frames and injectors of ports. -/
structure Books where
  od : Table Int
  free : Nat
  ev : Table TenantEv
  kept : Table (List Kept)
  box : Table Mailbox
  sent : List Output
  clk : Table ClockSt
  targets : Table Target
  port : Table PortFab
  queue : Table Queue

/-- A module's own books. -/
def Block.books (b : Block) : Books :=
  ⟨b.od, b.free, b.mg.ev, b.mg.srv.kept, b.mg.srv.box, b.sent, b.clk, b.tm.mt.targets, b.fab.port, b.fab.queue⟩

/-- Module y with other books. -/
def Block.withBooks (y : Block) (x : Books) : Block :=
  { y with od := x.od, free := x.free, sent := x.sent, clk := x.clk, tm := { y.tm with mt := { y.tm.mt with targets := x.targets } },
           fab := { y.fab with port := x.port, queue := x.queue }, mg := { y.mg with ev := x.ev, srv := { y.mg.srv with kept := x.kept, box := x.box } } }

/-- The module b beside y, which answering a request leads to: other books at most, and of those only the entries of bookKey, the fabric clock and the
injectors' targets, the tokens of queues, and of ports what waits to be sent, wakes, tokens and the injector; events and things sent only grow. -/
def Block.sameButBooks (y b : Block) : Prop :=
  b = y.withBooks b.books ∧ (∀ k, ¬bookKey k → b.rd k = y.rd k) ∧ (∀ c, c ≠ FastClock.fabric → b.clock c = y.clock c) ∧
    (∀ o : Owner, o.no < 96 → b.target o = y.target o) ∧
    (∀ p, ∃ t u o n m f, b.pf p = { y.pf p with busyAt := t, wakeAt := u, own := o, tokens := n, tokensAt := m, fip := f }) ∧
    (∀ k, ∃ n m, b.queue k = { y.queue k with tokens := n, tokensAt := m }) ∧ (∀ o, o ∈ y.sent → o ∈ b.sent) ∧
    ∀ t, (∀ e, e ∈ (tat {} y.mg.ev t).queue → e ∈ (tat {} b.mg.ev t).queue) ∧ (tat {} y.mg.ev t).lost ≤ (tat {} b.mg.ev t).lost

-- Frames

/-- Module b beside y: it differs in entries of the records that `own` holds and in counters, in free values drawn, and in event queues that have only grown. -/
def Block.within (y b : Block) (own : Nat → Prop) : Prop :=
  (∃ od free ev, b = { y with od := od, free := free, mg := { y.mg with ev := ev } }) ∧
    (∀ k, ¬own (k % 2 ^ 24 / 256) → ¬counterKey k → b.rd k = y.rd k) ∧
    ∀ t, (∀ e, e ∈ (tat {} y.mg.ev t).queue → e ∈ (tat {} b.mg.ev t).queue) ∧ (tat {} y.mg.ev t).lost ≤ (tat {} b.mg.ev t).lost

/-- Whether a command acts on a module that is held in reset or unpowered too: pins, supply and the release of a reset (R490, R497). -/
def actsHeld : Instr → Bool
  | .supplyFailReset _ | .powerOn _ _ | .warmPinReset | .coldPinReset | .resetRelease | .thermalTrip => true
  | _ => false

-- The pair

/-- Module b is what module a becomes as it takes over from a failed partner with snapshot x (R453, steps 1 to 3): the role taken and HANDOVER_N pulled, then the partner's time
left. -/
def Block.takesOver (a b : Block) (x : Snapshot) (cause : Nat) : Prop :=
  ∃ b1 : Block, b1.rd Od.SWO_ROLE = 1 ∧ b1.rd Od.PAIR_STATE = 2 ∧ b1.rd Od.SWO_LAST_CAUSE = cause ∧ b1.rd Od.SWO_LAST_TIME = a.mer ∧
    bit (b1.rdN Od.PAIR_STICKY) 1 = true ∧ b1.pulls = true ∧ b1.pr.loading = true ∧ (∃ f, b1.pr.taking = some (cause, f)) ∧
    b = b1.leavePartner x (a.rdN (Od.LT_OFFSET_UNC 31))

/-- Module b is what module a becomes as a standby (R444, R445, R452): out of the role, with no snapshot, then stood down. -/
def Block.stoodBy (a b : Block) : Prop :=
  ∃ b1 : Block, b1.rd Od.SWO_ROLE = 0 ∧ b1.rd Od.PAIR_STATE = 3 ∧ b1.rd Od.EXPORT_SEQ = 0 ∧ b1.pr.held = none ∧ b1.pr.missed = 0 ∧
    b1.pr.hbAt = some a.cyc ∧ b1.pr.back = none ∧ b1.pr.taking = none ∧ b = b1.standDown

-- Invariants

/-- TIME_VALID reads 1 exactly while the four conditions of R59 hold of the uncertainty reported. -/
def State.timeHonest (s : State) : Prop :=
  s.m.rd Od.MT_TIME_VALID = b2n (s.m.timeConditions (s.m.rdN Od.MT_UNCERTAINTY))

/-- The pool memory has its canonical form, nothing is left of the last command's stores, and TIME_VALID is honest. -/
def State.Inv (s : State) : Prop := s.ram.wf = true ∧ s.m.pokes = [] ∧ s.m.ramLost = false ∧ s.timeHonest

end Sys2Proof.Machine
end

