-- ==== Sys2Proof/Certificates/Slice0/Obligations.lean ====
section
/-! DEFINITION. The statements for the provers. -/

open Sys2Proof Sys2Proof.Machine

/-- Fast clocks start, run, sleep and keep running; a crossing reopens with what it held (R19, R21, R34, R496). -/
def Obligations.ClocksAndCrossings : Prop :=
  (∀ (s : State) (c : FastClock), s.m.up = true → (s.m.clock c).phase = .stopped → s.m.rdN (startsKey c) + 1 < 2 ^ 64 →
    s.leads (.clockStartRequest c) fun b =>
      (b.clock c).phase = .starting (s.m.cyc + if c = .lpddr ∧ (s.m.clock c).trained = false then ms 18 else c.latency) ∧
        b.rd (startsKey c) = s.m.rdN (startsKey c) + 1) ∧
  (∀ (s : State) (c : FastClock), s.m.up = true → s.m.clockReady c = true →
    (c = .fabric → ∀ p < 32, (s.m.pf p).wakeAt = none ∧ (s.m.pf p).ingress = [] ∧ (s.m.pf p).own = []) → (c = .prixus → s.m.mg.srv.queue = []) →
    (c = .lpddr → s.m.gn.queue = [] ∧ s.m.mg.safe.dumpQueue = []) →
    s.leads (.clockStartComplete c) fun b => b.clockRuns c = true ∧ bit (b.rdN Od.SLP_CLOCKS) c.no = true) ∧
  (∀ (s : State) (w : Waiting), s.m.up = true → s.m.clockReady .prixus = true → s.m.mg.srv.running = true → s.m.mg.srv.queue = [w] → w.tenant < 8 →
    s.m.agreed (Boundary.server (Fin.ofNat 8 w.tenant)).no = true →
    s.leads (.clockStartComplete .prixus) fun b => b = ((s.m.clockUp .prixus).setSrv fun x => { x with queue := [] }).serve w) ∧
  (∀ (s : State) (c : FastClock), s.m.up = true → s.m.clockRuns c = true → s.m.busyClock c = false → s.m.sleepDelay c ≠ 0 →
    (s.m.clock c).idleSince + s.m.sleepDelay c ≤ s.m.cyc →
    s.leads (.sleepDelayExpiry c) fun b => b.clockRuns c = false ∧ bit (b.rdN Od.SLP_CLOCKS) c.no = false) ∧
  (∀ (s : State) (c : FastClock), s.m.up = true → s.m.sleepDelay c = 0 → s.leads (.sleepDelayExpiry c) fun b => b = s.m) ∧
  (∀ (s : State) (x : Boundary), s.m.up = true → s.m.sideHeld x = false → s.leads (.resetFenceAgree x) fun b => ∃ b1 : Block,
    b1.agreed x.no = true ∧ ((s.m.crossing x.no).settled = false → (b1.crossing x.no).used = 0) ∧
      (∀ (e : Pulse) (busy : Nat), (s.m.crossing x.no).toggles = [(e.source, ⟨busy, none, some e⟩)] → busy ≤ s.m.cyc → b1.crosses x.no e) ∧
      match x with
      | .ingress p => b = b1.drainIngress p
      | .server _ => b = b1.serveWaiting
      | .gnssRing => b = b1.gnssDrain
      | _ => b = b1)

/-- Time of day: set, wrapped, leap seconds, due targets, the end of a domain residual (R38, R41, R47, R54, R64, R526). -/
def Obligations.TimeOfDay : Prop :=
  (∀ (s : State) (c : Caller) (token word n : Nat), s.grants c (writeKey token Od.MT_SET_TIME word) n = true → word < wordWrap →
    (s.m.door c (writeKey token Od.MT_SET_TIME word) n).selected = none →
    s.leads (.mtSetTime c token word) fun b => b.replied (s.m.asked c (writeKey token Od.MT_SET_TIME word) n) 0 0 ∧ b.mer = word ∧
      b.rd Od.MT_TIME_SET = 1) ∧
  (∀ s : State, s.m.up = true → s.m.mer < wordWrap → wordWrap ≤ s.m.mer + 655360 →
    s.leads .secondsWrap fun b => b.mer = s.m.mer + 655360 - wordWrap ∧ b.tm.mt.steps = s.m.tm.mt.steps + 1) ∧
  (∀ (s : State) (o : Owner) (t : Target), s.m.up = true → s.m.target o = some t → s.m.due t.tick = true →
    (o = .outCommit → s.m.tm.commit.isSome = true) → (∀ p, o = .gcl p → ∃ g, (s.m.pf p).gate.pend = some g ∧ upTo g.at_ s.m.mer = true) →
    (∀ l, o = .lane l → (s.m.lane l).injArmed = true) → (∀ p, o = .injector p → (s.m.pf p).fip.armed = true ∧ (s.m.pf p).fip.acting = false) →
    s.leads (.targetDue o) fun b => b.target o = none) ∧
  (∀ s : State, s.m.up = true → s.m.rdN Od.MT_LEAP_PENDING ≠ 0 → s.m.reached (s.m.rdN Od.MT_LEAP_TAI) = true →
    s.leads .leapApply fun b =>
      b.rd Od.MT_UTC_OFFSET = s.m.rd Od.MT_UTC_OFFSET + (if s.m.rdN Od.MT_LEAP_PENDING = 1 then 1 else -1) ∧ b.rd Od.MT_LEAP_PENDING = 0 ∧
        b.rdN Od.MT_STICKY = s.m.rdN Od.MT_STICKY ||| 8 ∧ s.m.told b 0x2007 0 0) ∧
  (∀ s : State, s.m.up = true → s.m.tm.mt.dom.start ≠ 0 → s.m.tm.mt.dom.rate ≠ 0 → s.m.domResidual = 0 →
    s.leads .domResidualZero fun b => b.tm.mt.dom = {} ∧ s.m.told b 0x2005 0 0)

/-- A read of OD 0x2000 answers what the arrival latched; a domain observer takes what it measures (R61, R62). -/
def Obligations.StateReadAndObservers : Prop :=
  (∀ (s : State) (c : Caller) (token n : Nat) (sub : Fin 8) (e : Entry) (v : Int), s.takes c (readRequest token 0x2000 sub) n = true →
    rowOf (key 0x2000 sub) = some e → ((s.m.arriving c (readRequest token 0x2000 sub)).latchMt)[sub.val - 1]? = some v → 0 < sub.val →
    s.leads (.mtStateRead c token sub) fun b => b.answers c (reply (readRequest token 0x2000 sub) (typeCode e.ty) 0 0 (encodeVal e.ty v))) ∧
  (∀ (s : State) (d : Fin 2) (st : Fin 3) (r : ObserverReading), s.m.up = true → s.m.fnRuns (38 + d) = true → s.m.rdN (Od.DOMX_KIND d) ≠ 0 →
    (∀ k < 24, s.m.slotKind k = 0 ∧ s.m.rdN (Od.SLOT_RANK k) = 15) → s.m.selected = none →
    s.leads (.domainObserverChange d st r) fun b =>
      b.rdN (Od.DOMX_STATE d) = st.val ∧ b.rd (Od.DOMX_OFFSET d) = r.offset ∧ b.rd (Od.DOMX_FREQ_OFFSET d) = r.freq ∧
        b.rd (Od.DOMX_UTC_OFFSET d) = r.utc ∧ tat false b.tm.mt.obsArb d = r.arb)

/-- Reel: the markers of a period, a T marker, the report that completes an exchange, slow words, expiries (R78, R79, R80, R81, R82, R86). -/
def Obligations.ReelExchange : Prop :=
  (∀ (s : State) (p : Fin 32), s.m.up = true → s.m.reelRuns p = true → (s.m.reel p).period = none →
    s.leads (.reelPeriod p) fun b => (b.reel p).due = [1, 2, 3, 4, 5, 6]) ∧
  (∀ (s : State) (p : Fin 32) (stamp : Stamp) (kind : Nat) (rest : List Nat), s.m.up = true → (s.m.reel p).due = kind :: rest → (s.m.pf p).sending = none →
    s.leads (.reelMarkerTx p stamp) fun b => s.m.sends b (.marker p (mkMarker kind (s.m.markerPayload p kind))) ∧ (b.reel p).due = rest) ∧
  (∀ (s : State) (p : Fin 32) (m : Word64) (stamp : Stamp) (payload : Nat), s.m.up = true → s.m.reelRuns p = true →
    readMarker m = some (1, payload) → bits payload 16 4 = 1 → s.m.rdN (Od.LT_STATE p) = 2 →
    s.leads (.reelTMarkerRx p m stamp) fun b =>
      b.rd (Od.LT_STATE p) = 3 ∧ (b.reel p).lastT = some s.m.cyc ∧
        (b.reel p).rx = some (bits payload 24 16, unsigned 64 (s.m.markerArrival p stamp))) ∧
  (∀ (s : State) (p : Fin 32) (m : Word64) (stamp : Stamp), s.m.up = true → s.m.reelRuns p = true → readMarker m = none →
    s.m.rdN (Od.LT_MARKER_ERRORS p) + 1 < keySize (Od.LT_MARKER_ERRORS p) →
    s.leads (.reelTMarkerRx p m stamp) fun b =>
      b.rd (Od.LT_MARKER_ERRORS p) = s.m.rdN (Od.LT_MARKER_ERRORS p) + 1 ∧ (b.reel p).rx = (s.m.reel p).rx) ∧
  (∀ (s : State) (p : Fin 32) (d0 d1 d2 d3 : Word64) (p0 p1 p2 p3 n t1 m t4 : Nat), s.m.up = true → s.m.reelRuns p = true →
    (s.m.reel p).lost = false → readMarker d0 = some (2, p0) → readMarker d1 = some (3, p1) → readMarker d2 = some (4, p2) →
    readMarker d3 = some (5, p3) → bit (p3 % 2 ^ 16) 15 = true → (s.m.reel p).sent.find? (·.1 == p1 % 2 ^ 16) = some (n, t1) →
    (s.m.reel p).rx = some (m, t4) → (s.m.reel p).pair ≠ some (n, m) →
    let tx := p0 + p1 / 2 ^ 16 * 2 ^ 40
    let rx := p2 + p3 / 2 ^ 16 * 2 ^ 40
    let rtt := tickDiff t4 t1 - tickDiff tx rx
    let e := s.m.exchange p t1 rx tx t4
    e.rtt = rtt ∧ e.theta = (tickDiff rx t1 - tickDiff t4 tx) / 2 - s.m.corr (alphaItem p) ∧ s.leads (.reelReportRx p d0 d1 d2 d3) fun b =>
      (rtt < 0 ∨ 81920000000 < rtt → b.rd (Od.LT_STATE p) = 5 ∧ s.m.told b 0x2203 p 0) ∧
      (0 ≤ rtt → rtt ≤ 81920000000 → b = (((s.m.wr (Od.LT_PEER_STATUS p) (p3 % 2 ^ 16 : Nat)).setReel p fun r => { r with peerTx := some tx }).setReel p
        fun r => { r with pair := some (n, m) }).useExchange p e)) ∧
  (∀ (s : State) (p : Fin 32) (m : Word64) (payload : Nat), s.m.up = true → s.m.reelRuns p = true → readMarker m = some (6, payload) →
    s.leads (.reelSlowWordRx p m) fun b =>
      (bits payload 36 4 ∉ [1, 3, 5] → tget (b.reel p).words (bits payload 36 4) = some (bits payload 0 32)) ∧
      (∀ lo, bits payload 36 4 = 7 → tget (s.m.reel p).words 6 = some lo → b.rd (Od.LT_PEER_ID p) = lo + bits payload 0 32 * 2 ^ 32) ∧
      (∀ k < 24, bits payload 36 4 = 2 → s.m.slotKind k = 1 → s.m.rdN (Od.SLOT_PORT k) = p.val →
        b.rd (Od.SLOT_UNCERTAINTY k) = min unknownUnc (bits payload 0 32 + s.m.rdN (Od.LT_OFFSET_UNC p)))) ∧
  (∀ (s : State) (p : Fin 32) (t : Nat), s.m.up = true → s.m.rdN (Od.LT_STATE p) = 3 → (s.m.reel p).since = some t →
    t + ms (s.m.rdN (Od.LT_AVG_TIME p)) ≤ s.m.cyc →
    s.leads (.reelAvgTimeExpiry p) fun b => b.rd (Od.LT_STATE p) = 4 ∧ s.m.told b 0x2201 p 0) ∧
  (∀ (s : State) (p : Fin 32) (t : Nat), s.m.up = true → s.m.rdN (Od.LT_STATE p) ∈ [3, 4, 5] → (s.m.reel p).lastT = some t →
    t + secs 2 ≤ s.m.cyc → s.leads (.reelPeerTimeout p) fun b => b.rd (Od.LT_STATE p) = 2 ∧ s.m.told b 0x2202 p 0)

/-- ESMC: a level received, the level sent, the loss of ESMC (R88). -/
def Obligations.EsmcLevels : Prop :=
  (∀ (s : State) (p : Fin 32) (ql : Nat) (ext : Bytes), s.m.up = true → s.m.rdN (Od.LT_SYNCE_ESMC p) ≠ 0 → s.m.fnRuns p = true → s.m.inTest p = false →
    s.m.rdN (Od.LT_QL_RX p) ≠ ql → s.leads (.esmcPduRx p ⟨ql, ext⟩) fun b => ∃ b1 : Block, b = b1.rerankAll ∧ b1.rd (Od.LT_QL_RX p) = ql ∧
      s.m.told b1 0x2206 p ql ∧ (tat {} b1.tm.esmc p).lastRx = some s.m.cyc ∧ (ext ≠ [] → (tat {} b1.tm.esmc p).ext = ext)) ∧
  (∀ (s : State) (p : Fin 32), s.m.up = true → s.m.esmcSends p = true → s.m.esmcDue p = true → s.leads (.esmcInfoTx p) fun b =>
    b.sendsOwn p (.frame (s.m.esmcFrame (s.m.qlSend p) false)) ∧ b.rd (Od.LT_QL_TX p) = s.m.qlSend p ∧ (tat {} b.tm.esmc p).sentAt = some s.m.cyc) ∧
  (∀ (s : State) (p : Fin 32), s.m.up = true → s.m.esmcSends p = true → s.m.rdN (Od.LT_QL_TX p) ≠ s.m.qlSend p →
    s.leads (.esmcEventTx p) fun b => b.sendsOwn p (.frame (s.m.esmcFrame (s.m.qlSend p) true)) ∧ b.rd (Od.LT_QL_TX p) = s.m.qlSend p) ∧
  (∀ (s : State) (p : Fin 32) (t : Nat), s.m.up = true → (tat {} s.m.tm.esmc p).lastRx = some t → t + secs 5 ≤ s.m.cyc →
    s.leads (.esmcRxTimeout p) fun b => ∃ b1 : Block, b = b1.rerankAll ∧ b1.rd (Od.LT_QL_RX p) = 0xFF ∧ s.m.told b1 0x2207 p 0)

/-- PTP messages received: what each completes, and the sample it gives (R55, R56, R89, R90). -/
def Obligations.PtpReceived : Prop :=
  (∀ (b : Block) (p dom : Nat) (t1 d : Int), (b.ptpDom p dom).t1 = some t1 → b.ptpDelay p dom = some d →
    b.ptpOffset p dom = b.ptpSample p dom (t1 + d - b.corr (alphaItem p) - (b.ptpDom p dom).t2)) ∧
  (∀ (s : State) (p : Fin 32) (h : PtpMsg) (twoStep : Bool) (origin : PtpTime) (l : Int) (stamp : Stamp), s.m.up = true → s.m.ptpTakes p h = true →
    s.m.ptpDomain h.domain = true → s.leads (.ptpSyncRx p h twoStep origin l stamp) fun b => ∃ b1 : Block,
      (b1.ptpDom p h.domain).t2 = s.m.frameArrival p stamp ∧ (b1.ptpDom p h.domain).lastSync = some s.m.cyc ∧ (b1.ptpDom p h.domain).logSync = l ∧
        (twoStep = true → b = b1 ∧ (b1.ptpDom p h.domain).syncWait = some (h.seq, h.src, h.corr) ∧ (b1.ptpDom p h.domain).t1 = none) ∧
        (twoStep = false → b = b1.ptpOffset p h.domain ∧ (b1.ptpDom p h.domain).t1 = some (ptpTicks origin h.corr))) ∧
  (∀ (s : State) (p : Fin 32) (h : PtpMsg) (origin : PtpTime) (corr : Int), s.m.up = true → s.m.ptpTakes p h = true →
    (s.m.ptpDom p h.domain).syncWait = some (h.seq, h.src, corr) → s.leads (.ptpFollowUpRx p h origin) fun b =>
      b = (s.m.setPtpDom p h.domain fun q => { q with syncWait := none, t1 := some (ptpTicks origin (corr + h.corr)) }).ptpOffset p h.domain) ∧
  (∀ (s : State) (p : Fin 32) (h : PtpMsg) (stamp : Stamp), s.m.up = true → s.m.ptpTakes p h = true → s.m.rdN (Od.LT_PTP_PORT_STATE p) = 6 →
    s.m.rdN (Od.LT_PTP_DELAY_MECH p) = 0 → h.domain = s.m.rdN (Od.LT_PTP_DOMAIN p) →
    let t := ptpStamp (s.m.frameArrival p stamp)
    s.leads (.ptpDelayReqRx p h stamp) fun b =>
      b.sendsOwn p (.frame (s.m.ptpTimed p 9 h.domain h.seq false t.1 t.2.1 (h.corr + t.2.2) (some h.src)))) ∧
  (∀ (s : State) (p : Fin 32) (h : PtpMsg) (received : PtpTime) (t3 t1 : Int), s.m.up = true → s.m.ptpTakes p h = true →
    (s.m.ptpDom p h.domain).t3 = some (h.seq, t3) → (s.m.ptpDom p h.domain).t1 = some t1 →
    s.leads (.ptpDelayRespRx p h received) fun b => ∃ b1 : Block, b = b1.ptpOffset p h.domain ∧ (b1.ptpDom p h.domain).t3 = none ∧
      (b1.ptpDom p h.domain).meanDelay = some (((s.m.ptpDom p h.domain).t2 - t1 + (ptpTicks received h.corr - t3)) / 2)) ∧
  (∀ (s : State) (p : Fin 32) (h : PtpMsg) (stamp sent : Stamp), s.m.up = true → s.m.ptpTakes p h = true → s.m.ptpOwn p h.domain = true →
    s.m.rdN (Od.LT_PTP_DELAY_MECH p) = 1 →
    let t2 := s.m.frameArrival p stamp
    let t3 := s.m.frameDeparture p sent
    let one := s.m.ptpTimed p 3 h.domain h.seq false 0 0 (h.corr + (t3 - t2)) (some h.src)
    let two := s.m.ptpTimed p 3 h.domain h.seq true (ptpStamp t2).1 (ptpStamp t2).2.1 0 (some h.src)
    s.leads (.ptpPdelayReqRx p h stamp sent) fun b =>
      (s.m.on (Od.LT_PTP_ONE_STEP p) = true → s.m.eventLeaves p one.length = true → .frame p one ∈ b.sent) ∧
      (s.m.on (Od.LT_PTP_ONE_STEP p) = false → s.m.eventLeaves p two.length = true → .frame p two ∈ b.sent ∧
        b.sendsOwn p (.frame (s.m.ptpTimed p 10 h.domain h.seq false (ptpStamp t3).1 (ptpStamp t3).2.1
          (h.corr + (ptpStamp t3).2.2 - (ptpStamp t2).2.2) (some h.src))))) ∧
  (∀ (s : State) (p : Fin 32) (h : PtpMsg) (twoStep : Bool) (received : PtpTime) (stamp : Stamp) (t1 : Int), s.m.up = true → s.m.ptpTakes p h = true →
    (s.m.ptp p).pdelayT1 = some (h.seq, t1) →
    let t4 := s.m.frameArrival p stamp
    s.leads (.ptpPdelayRespRx p h twoStep received stamp) fun b =>
      (twoStep = true → (b.ptp p).pdelayWait = some (h.seq, ptpTicks received 0, t4, h.corr)) ∧
      (twoStep = false → ∃ b1 : Block, b = s.m.ptpDomains.foldl (fun b n => b.ptpOffset p n) b1 ∧
        (b1.ptp p).peerDelay = some ((t4 - t1 - h.corr) / 2) ∧ (b1.ptp p).pdelayT1 = none)) ∧
  (∀ (s : State) (p : Fin 32) (h : PtpMsg) (origin : PtpTime) (n : Nat) (t1 t2 t4 corr : Int), s.m.up = true → s.m.ptpTakes p h = true →
    (s.m.ptp p).pdelayWait = some (h.seq, t2, t4, corr) → (s.m.ptp p).pdelayT1 = some (n, t1) →
    s.leads (.ptpPdelayRespFollowUpRx p h origin) fun b => ∃ b1 : Block, b = s.m.ptpDomains.foldl (fun b n => b.ptpOffset p n) b1 ∧
      (b1.ptp p).peerDelay = some ((t4 - t1 - (ptpTicks origin 0 - t2) - corr - h.corr) / 2) ∧ (b1.ptp p).pdelayWait = none)

/-- PTP Announce received and lost, and the messages a port sends when they are due (R89, R91, R92, R132). -/
def Obligations.PtpAnnounceAndSent : Prop :=
  (∀ (s : State) (p : Fin 32) (h : PtpMsg) (a : Announce), s.m.up = true → s.m.ptpTakes p h = true → s.m.ptpDomain h.domain = true →
    (∀ k < 24, s.m.slotKind k = 0 ∧ s.m.rdN (Od.SLOT_RANK k) = 15) → s.m.selected = none →
    s.leads (.ptpAnnounceRx p h a) fun b => (b.ptpDom p h.domain).lastAnnounce = some s.m.cyc ∧
      (∃ par, (b.ptpDom p h.domain).parent = some par ∧ par.domain = h.domain ∧ par.cls = a.cls ∧ par.gm = a.gm ∧ par.utc = a.utc) ∧
      b.rdN (Od.LT_PTP_PORT_STATE p) = s.m.portState p a.decided) ∧
  (∀ (s : State) (p : Fin 32) (n : Nat), s.m.up = true → s.m.announceLate p n = true →
    s.leads (.ptpAnnounceTimeout p) fun b => ∃ b1 : Block, b = (b1.ptpSlotsOff p).rerankAll ∧ (b1.ptpDom p n).parent = none ∧
      (b1.ptpDom p n).lastAnnounce = none ∧
      (((b1.ptp p).dom.any fun e => e.2.parent.isSome) = false → b1.rdN (Od.LT_PTP_PORT_STATE p) = s.m.portState p 6) ∧
      (((b1.ptp p).dom.any fun e => e.2.parent.isSome) = true → b1.rdN (Od.LT_PTP_PORT_STATE p) = s.m.rdN (Od.LT_PTP_PORT_STATE p))) ∧
  (∀ (s : State) (p : Fin 32) (n : Nat), s.m.up = true → s.m.syncLate p n = true → s.leads (.ptpSyncTimeout p) fun b => ∃ b1 : Block,
    b = b1.ptpSlotsOff p ∧ (b1.ptpDom p n).lastSync = none ∧ (b1.ptpDom p n).t1 = none ∧ (b1.ptpDom p n).syncWait = none) ∧
  (∀ (s : State) (p : Fin 32) (stamp : Stamp), s.m.up = true → s.m.ptpMaster p = true →
    s.m.intervalDue (s.m.ptp p).syncSentAt (s.m.rd (Od.LT_PTP_LOG_SYNC p)) = true →
    let t := ptpStamp (s.m.frameDeparture p stamp)
    let dom := s.m.rdN (Od.LT_PTP_DOMAIN p)
    let seq := (s.m.ptp p).syncSeqTx
    let one := s.m.ptpTimed p 0 dom seq false t.1 t.2.1 t.2.2 none
    let two := s.m.ptpTimed p 0 dom seq true 0 0 0 none
    s.leads (.ptpSyncTx p stamp) fun b =>
      (s.m.on (Od.LT_PTP_ONE_STEP p) = true → s.m.eventLeaves p one.length = true →
        .frame p one ∈ b.sent ∧ (b.ptp p).syncSeqTx = (seq + 1) % 65536 ∧ (b.ptp p).syncSentAt = some s.m.cyc) ∧
      (s.m.on (Od.LT_PTP_ONE_STEP p) = false → s.m.eventLeaves p two.length = true →
        .frame p two ∈ b.sent ∧ (b.ptp p).syncSeqTx = (seq + 1) % 65536 ∧ b.sendsOwn p (.frame (s.m.ptpTimed p 8 dom seq false t.1 t.2.1 t.2.2 none)))) ∧
  (∀ (s : State) (p : Fin 32) (stamp : Stamp), s.m.up = true → s.m.ptpRuns p = true → s.m.rdN (Od.LT_PTP_DELAY_MECH p) = 1 →
    s.m.intervalDue (s.m.ptp p).delaySentAt (s.m.rd (Od.LT_PTP_LOG_DELAY p)) = true →
    let seq := (s.m.ptp p).delaySeq
    let l := s.m.ptpTimed p 2 (s.m.rdN (Od.LT_PTP_DOMAIN p)) seq false 0 0 0 none
    s.m.eventLeaves p l.length = true →
    s.leads (.ptpDelayReqTx p stamp) fun b => .frame p l ∈ b.sent ∧ (b.ptp p).pdelayT1 = some (seq, s.m.frameDeparture p stamp)) ∧
  (∀ (s : State) (p : Fin 32) (stamp : Stamp) (n : Nat), s.m.up = true → s.m.ptpRuns p = true → s.m.rdN (Od.LT_PTP_DELAY_MECH p) = 0 →
    s.m.rdN (Od.LT_PTP_PORT_STATE p) ∈ [8, 9] → s.m.delayDomain p = some n →
    let seq := (s.m.ptp p).delaySeq
    let l := s.m.ptpTimed p 1 n seq false 0 0 0 none
    s.m.eventLeaves p l.length = true →
    s.leads (.ptpDelayReqTx p stamp) fun b => .frame p l ∈ b.sent ∧ (b.ptpDom p n).t3 = some (seq, s.m.frameDeparture p stamp)) ∧
  (∀ (s : State) (p : Fin 32), s.m.up = true → s.m.ptpMaster p = true →
    s.m.intervalDue (s.m.ptp p).announceSentAt (s.m.rd (Od.LT_PTP_LOG_ANNOUNCE p)) = true → s.leads (.ptpAnnounceTx p) fun b =>
      b.sendsOwn p (.frame (s.m.announceFrame p)) ∧ (b.ptp p).announceSeqTx = ((s.m.ptp p).announceSeqTx + 1) % 65536)

/-- Phase samples reach their engine; an output commit is armed, cancelled, applied (R101, R104, R120, R121). -/
def Obligations.SamplesAndCommits : Prop :=
  (∀ (s : State) (e : Fin 3) (cycles : Int) (code : Nat), s.m.up = true → s.m.fnRuns (33 + e) = true →
    s.leads (.pePhaseSample (.engine e cycles code)) fun b => b = s.m.peSample (1 + e) (cycles * 655360 + s.m.reading (33 + e) code)) ∧
  (∀ (s : State) (k : Fin 24) (phase : Int), s.m.up = true → s.m.slotState k ≠ 0 → (s.m.slot k).last = none → s.m.tm.sel.transfer = none →
    s.m.selected = some k.val → s.leads (.pePhaseSample (.slot k phase)) fun b => ∃ b1 : Block,
      b = b1.peSample 0 (if s.m.timeCapable k then phase - s.m.domResidual - s.m.switchResidual - s.m.retResidual
        else s.m.unwrap k s.m.tm.sel.edgeNow phase - s.m.tm.sel.edgeBase) ∧
        b1.rd (Od.SLOT_PHASE k) = (if s.m.timeCapable k then phase else 0) ∧ (b1.slot k).last = some (phase, s.m.cyc)) ∧
  (∀ (s : State) (c : Caller) (token n : Nat), s.grants c (writeKey token Od.OUT_COMMIT 1) n = true →
    let a := s.m.door c (writeKey token Od.OUT_COMMIT 1) n
    let shadows := (List.range 8).map a.shadow
    let tick := if a.rdN Od.OUT_COMMIT_AT = 0 then tickOf a.nextCommitSecond else a.rdN Od.OUT_COMMIT_AT
    firstOffence a shadows (List.range 8) = none → a.pairCommits = false → a.rdN Od.OUT_COMMIT_STATUS ≠ 1 → a.due tick = false →
    s.leads (.outCommit c token) fun b => b.replied (s.m.asked c (writeKey token Od.OUT_COMMIT 1) n) 0 0 ∧ b.rd Od.OUT_COMMIT_STATUS = 1 ∧
      b.rd Od.OUT_COMMIT_ERROR = 0xFFFF ∧ b.tm.commit = some ⟨shadows, tick⟩ ∧ b.target .outCommit = some ⟨tick, false⟩) ∧
  (∀ (s : State) (c : Caller) (token n : Nat), s.grants c (writeKey token Od.OUT_COMMIT 2) n = true →
    (s.m.door c (writeKey token Od.OUT_COMMIT 2) n).tm.commit.isSome = true →
    s.leads (.outCommitCancel c token) fun b => b.replied (s.m.asked c (writeKey token Od.OUT_COMMIT 2) n) 0 0 ∧ b.tm.commit = none ∧
      b.rd Od.OUT_COMMIT_STATUS = 0 ∧ b.target .outCommit = none) ∧
  (∀ (s : State) (t : Target) (c : Commit), s.m.up = true → s.m.target .outCommit = some t → s.m.due t.tick = true → s.m.tm.commit = some c →
    s.leads .outCommitApply fun b => b.tm.commit = none ∧ b.target .outCommit = none ∧ b.rd Od.OUT_COMMIT_STATUS = (if t.late then 3 else 2) ∧
      b.rd Od.OUT_COMMIT_TICK = s.m.tick ∧ ∀ (n : Nat) (x : OutCfg), n < 8 → c.cfgs[n]? = some x → (b.out n).cfg = x)

/-- Reference inputs and outputs: pulses, presence, alignment lost, squelch (R109, R115, R116, R130, R512). -/
def Obligations.ReferencesAndOutputs : Prop :=
  (∀ (s : State) (r : Fin 2) (frac : Int), s.m.up = true → s.m.fnRuns (36 + r) = true → s.m.on (Od.REFIN_PULSE r) = true →
    let at_ : Int := s.m.mer + frac - s.m.corr (refinItem r) - psToTicks (s.m.rd (Od.REFIN_BOARD_DELAY r)) - psToTicks (s.m.rd (Od.REFIN_PULSE_OFFSET r))
    let phase := (at_ + ticksPerSec / 2) % ticksPerSec - ticksPerSec / 2
    s.leads (.refinPulse r frac) fun b => ∃ b1 : Block, b = (b1.kindSample (5 + r) (-phase)).alignPulse r (tat {} s.m.tm.refin r).lastAt ∧
      b1.rd (Od.REFIN_PULSE_PHASE r) = phase ∧ bit (b1.rdN (Od.REFIN_STATUS r)) 0 = true ∧ (tat {} b1.tm.refin r).lastAt = some s.m.cyc) ∧
  (∀ (s : State) (r : Fin 2) (t : Nat), s.m.up = true → (tat {} s.m.tm.refin r).lastAt = some t → t + ms 2050 ≤ s.m.cyc →
    s.leads (.refinPulseTimeout r) fun b => bit (b.rdN (Od.REFIN_STATUS r)) 0 = false) ∧
  (∀ (s : State) (r : Fin 2) (present : Bool), s.m.up = true → s.m.fnRuns (36 + r) = true → s.m.rdN (Od.REFIN_FREQ r) ≠ 0 →
    s.leads (.refinFreqChange r present) fun b => bit (b.rdN (Od.REFIN_STATUS r)) 1 = present) ∧
  (∀ (s : State) (n : Fin 8), s.m.up = true → (s.m.out n).cfg.mode ≠ 0 → (s.m.out n).cfg.align ≠ 0 → (s.m.out n).flywheel = false →
    s.m.alignLost n = true →
    s.leads (.outAlignLoss n) fun b => (b.out n).flywheel = true ∧ s.m.told b 0x2414 n 0) ∧
  (∀ (s : State) (n : Fin 8), s.m.up = true → (s.m.out n).cfg.mode ≠ 0 → (s.m.out n).squelched = false → s.m.squelchNow n = true →
    s.leads (.outputSquelch n) fun b => (b.out n).squelched = true ∧ (b.out n).first = none ∧ s.m.told b 0x2412 n 0) ∧
  (∀ (s : State) (n : Fin 8), s.m.up = true → (s.m.out n).squelched = true → s.m.squelchNow n = false →
    s.leads (.outputUnsquelch n) fun b => (b.out n).squelched = false ∧ s.m.told b 0x2413 n 0)

/-- Candidate slots: configuration, lockout, sources that come and go, the monitors' second, wait-to-restore (R132, R133, R135, R139, R143). -/
def Obligations.CandidateSlots : Prop :=
  (∀ (s : State) (c : Caller) (token n v : Nat) (k : Fin 24) (f : SlotField), s.grants c (writeKey token (f.key k) v) n = true →
    (f = .kind → v ≤ 9) → (f = .port → v ≤ 31) → (f = .ptpDomain → 1 ≤ v ∧ v ≤ 2) →
    let a := s.m.door c (writeKey token (f.key k) v) n
    a.rd (f.key k) ≠ v → s.leads (.slotConfigWrite c token k f v) fun b =>
      b.replied (s.m.asked c (writeKey token (f.key k) v) n) 0 0 ∧ ((a.wr (f.key k) v).restartSlot k).sameButBooks b) ∧
  (∀ (s : State) (c : Caller) (token n v : Nat) (k : Fin 24), s.grants c (writeKey token (Od.SLOT_LOCKOUT k) v) n = true → v ≤ 1 →
    s.leads (.slotLockoutWrite c token k v) fun b => b.replied (s.m.asked c (writeKey token (Od.SLOT_LOCKOUT k) v) n) 0 0 ∧
      ((s.m.door c (writeKey token (Od.SLOT_LOCKOUT k) v) n).lockout k v).sameButBooks b) ∧
  (∀ (s : State) (k : Fin 24), s.m.up = true → s.m.sourceActive k = true → (s.m.slot k).active = false →
    s.leads (.slotSourceActive k) fun b => ∃ b1 : Block, b = (b1.rerank k).judgeQuality k ∧ b1.slotState k = 1 ∧
      (b1.slot k).active = true ∧ (b1.slot k).activeAt = s.m.cyc) ∧
  (∀ (s : State) (k : Fin 24), s.m.up = true → (s.m.slot k).active = true → s.m.sourceActive k = false →
    s.leads (.slotSourceInactive k) fun b => (b.slot k).active = false ∧ ∃ b1 : Block,
      b = (b1.dropSlot k 0).setSlot k (fun _ => freshSlot (b1.dropSlot k 0).cyc false) ∧ bit (b1.rdN (Od.SLOT_TRIPS k)) 0 = true ∧
        s.m.told b1 0x2621 k 0) ∧
  (∀ (s : State) (means : List (Fin 24 × Int)), s.m.up = true → s.leads (.slotMonitorTick means) fun b => ∃ b1 : Block,
    b = (List.range 24).foldl Block.monitorJudge b1 ∧ ∀ (k : Fin 24) (x : Int), s.m.slotState k ≠ 0 → means.find? (fun e => e.1.val == k.val) = some (k, x) →
      (b1.slot k).oven = (x :: (s.m.slot k).oven).take 86400 ∧ b1.rd (Od.SLOT_FREQ_OFFSET k) = meanOf 10 ((x :: (s.m.slot k).oven).take 86400)) ∧
  (∀ (s : State) (k : Fin 24) (t : Nat), s.m.up = true → (s.m.slot k).wtrEnd = some t → t ≤ s.m.cyc → s.m.slotState k = 2 →
    s.m.domainTracks k = true →
    s.leads (.slotWtrExpiry k) fun b => ∃ b1 : Block, b = b1.evaluate ∧ b1.slotState k = 3 ∧ (b1.slot k).wtrEnd = none) ∧
  (∀ (s : State) (c : Caller) (token n : Nat) (k : Fin 24), s.grants c (writeKey token (Od.SLOT_WTR_CLEAR k) 1) n = true →
    (s.m.door c (writeKey token (Od.SLOT_WTR_CLEAR k) 1) n).slotState k = 2 →
    (s.m.door c (writeKey token (Od.SLOT_WTR_CLEAR k) 1) n).domainTracks k = true →
    s.leads (.slotWtrClear c token k) fun b => b.replied (s.m.asked c (writeKey token (Od.SLOT_WTR_CLEAR k) 1) n) 0 0 ∧
      ∃ b1 : Block, b1.evaluate.sameButBooks b ∧ b1.slotState k = 3 ∧ (b1.slot k).wtrEnd = none)

/-- The selector: evaluation, handover, the end of a switch residual, service phase and force (R141, R142, R143, R144, R146). -/
def Obligations.SelectorCommands : Prop :=
  (∀ (s : State) (k : Nat), s.m.up = true → s.m.standby = false → 24 ≤ s.m.rdN Od.SEL_FORCE → s.m.tm.sel.transfer = none →
    s.m.best ((s.m.slotsWhere fun st => st == 3 || st == 4).filter fun k => s.m.rdN (Od.SLOT_PRIORITY k) != 0) = some k → s.m.selected ≠ some k →
    s.leads .selectorEvaluate fun b => b.tm.sel.transfer = some { target := k, startAt := s.m.cyc } ∧ b.rd Od.SEL_TRANSFER_TARGET = k ∧
      s.m.told b 0x2602 k 0) ∧
  (∀ (s : State) (phase : Int) (t : Transfer), s.m.up = true → s.m.tm.sel.transfer = some t → s.m.slotState t.target ≠ 0 →
    let u := s.m.transferTake t phase
    t.startAt + ms (s.m.rdN Od.SEL_TRANSFER_TIME) ≤ s.m.cyc → 16 ≤ u.n →
    (s.m.slot t.target).last = none → s.leads (.transferHandover phase) fun b => ∃ b1 : Block, b = b1.handover ∧ b1.tm.sel.transfer = some u ∧
      b1.rd (Od.SLOT_PHASE t.target) = (if s.m.timeCapable t.target then phase else 0)) ∧
  (∀ s : State, s.m.up = true → s.m.tm.sel.residual.start ≠ 0 → s.m.switchResidual = 0 →
    s.leads .switchResidualZero fun b => b.tm.sel.residual = {} ∧ s.m.told b 0x2605 0 0) ∧
  (∀ (s : State) (c : Caller) (token n v : Nat), s.grants c (writeKey token Od.SEL_PHASE v) n = true → v ≤ 3 →
    let a := s.m.door c (writeKey token Od.SEL_PHASE v) n
    a.rd Od.SEL_PHASE ≠ v → s.leads (.selPhaseWrite c token v) fun b => b.replied (s.m.asked c (writeKey token Od.SEL_PHASE v) n) 0 0 ∧
      ∃ b1 : Block, b1.phaseChanged.evaluate.sameButBooks b ∧ b1.rd Od.SEL_PHASE = v ∧ a.told b1 0x2606 0 v) ∧
  (∀ (s : State) (c : Caller) (token n v : Nat), s.grants c (writeKey token Od.SEL_FORCE v) n = true → v < 24 ∨ v = 255 →
    s.leads (.selForceWrite c token v) fun b => b.replied (s.m.asked c (writeKey token Od.SEL_FORCE v) n) 0 0 ∧
      ((s.m.door c (writeKey token Od.SEL_FORCE v) n).wr Od.SEL_FORCE v).evaluate.sameButBooks b) ∧
  (∀ (s : State) (t : Nat), s.m.up = true → s.m.tm.sel.lockedAt = some t → bit (s.m.rdN Od.SEL_AUTO) 0 = true → s.m.rdN Od.SEL_PHASE ∈ [1, 3] →
    max t s.m.tm.sel.phaseAt + secs (s.m.rdN Od.SEL_SETTLE_TIME) ≤ s.m.cyc →
    s.leads .selSettleExpiry fun b => ∃ b1 : Block, b = b1.phaseChanged ∧ b1.rd Od.SEL_PHASE = 0 ∧ s.m.told b1 0x2606 0 0)

/-- Oven oscillator, steering, holdover model and timer, the return (R153, R154, R155, R158, R160, R161, R164, R165, R170, R171). -/
def Obligations.OscillatorAndHoldover : Prop :=
  (∀ s : State, s.m.up = true → s.m.on Od.OSC_WARMUP = true → max s.m.tm.osc.startAt (s.m.tm.osc.outAt.getD 0) + secs 30 ≤ s.m.cyc →
    s.leads .oscWarmupClear fun b => b.rd Od.OSC_WARMUP = 0 ∧ b.rd Od.OSC_WARMUP_TIME = ((s.m.cyc - s.m.tm.osc.powerAt) / secs 1 : Nat) ∧
      s.m.told b 0x2701 0 0) ∧
  (∀ s : State, s.m.up = true → s.m.on Od.OSC_WARMUP = false → s.leads .oscTempExcursion fun b => ∃ b1 : Block,
    b1.rd Od.OSC_WARMUP = 1 ∧ b1.rd Od.HO_MODEL_VALID = 0 ∧ s.m.told b1 0x2702 0 0 ∧
      b = if s.m.pe0 = 3 then b1.outOfSpec.orBits Od.HO_STICKY 8 else b1) ∧
  (∀ (s : State) (c : Caller) (token n : Nat) (v : Int), s.grants c (writeKey token Od.STEER_PPT v) n = true → -10000000 ≤ v → v ≤ 10000000 →
    let a := s.m.door c (writeKey token Od.STEER_PPT v) n
    s.leads (.steerWrite c token v) fun b => b.replied (s.m.asked c (writeKey token Od.STEER_PPT v) n) 0 0 ∧ b.rd Od.STEER_PPT = v ∧
      b.tm.osc.steer.goal = (if a.selected = none then v else 0) ∧ b.tm.osc.steer.start = a.steerNow) ∧
  (∀ (s : State) (temp : Int), s.m.up = true → s.m.pe0 = 2 → s.m.on Od.OSC_WARMUP = false → s.leads (.hoModelRecord temp) fun b =>
    ∃ b1 : Block, b = b1.fitModel ∧ b1.tm.ho.records.head? =
      some (s.m.cyc, if s.m.tm.ho.secN = 0 then yMilli (s.m.pe 0).integ else s.m.tm.ho.secY / s.m.tm.ho.secN, temp)) ∧
  (∀ s : State, s.m.up = true → s.leads .hoModelValidCheck fun b =>
    b.rd Od.HO_LOCKED_TIME = (min (s.m.lockedCycles / secs 1) unknownUnc : Nat) ∧
      b.on Od.HO_MODEL_VALID = (!s.m.on Od.OSC_WARMUP && (s.m.on Od.HO_MODEL_VALID || decide (s.m.rdN Od.HO_MIN_LOCK ≤ s.m.lockedCycles / secs 1))) ∧
      (s.m.on Od.HO_MODEL_VALID = false → b.on Od.HO_MODEL_VALID = true → s.m.told b 0x2703 0 0) ∧
      (s.m.on Od.HO_MODEL_VALID = true → b.on Od.HO_MODEL_VALID = false → s.m.told b 0x2704 0 0)) ∧
  (∀ s : State, s.m.up = true → s.m.rdN Od.BRACE_STATE = 0 → s.m.mg.srv.running = true → s.m.tm.ho.savedAt + secs 3600 ≤ s.m.cyc →
    s.leads .hoModelSave fun b => b.tm.ho.savedAt = s.m.cyc ∧ b.tm.ho.saved =
      some (s.m.rd Od.HO_AGEING, s.m.rd Od.HO_TEMP_COEF, s.m.rdN Od.HO_AGEING_UNC, s.m.rdN Od.HO_TEMP_UNC, s.m.rdN Od.HO_TEMP_COEF_SOURCE)) ∧
  (∀ (s : State) (temp : Int) (t : Nat), s.m.up = true → s.m.pe0 ∈ [3, 4] → s.m.tm.ho.startAt = some t → s.leads (.holdoverTick temp) fun b =>
    b.rd Od.OSC_COMPARTMENT_TEMP = temp ∧ b.rd Od.HO_ELAPSED = (min ((s.m.cyc - t) / secs 1) (2 ^ 32 - 1) : Nat) ∧
      b.tm.ho.tempInt = s.m.tm.ho.tempInt + (temp - s.m.tm.ho.tempE).natAbs) ∧
  (∀ s : State, s.m.up = true → s.m.pe0 = 3 → s.m.rdN Od.HO_BUDGET ≤ s.m.rdN Od.HO_TERM → s.leads .hoBudgetExceeded fun b =>
    b = s.m.outOfSpec ∧ (bit (s.m.rdN Od.SEL_AUTO) 1 = false → b.pe0 = 4 ∧ b.rd Od.HO_TIME_LEFT = 0)) ∧
  (∀ s : State, s.m.up = true → s.m.rdN Od.RET_STATE = 2 → s.m.mer % ticksPerSec < 655360 → s.m.inWindow s.m.mer = true →
    s.leads .returnStep fun b => ∃ b1 : Block, b = b1.endReturn ∧ b1.mer = ((s.m.mer + s.m.retResidual) % wordWrap).toNat ∧
      b1.rd Od.RET_LAST_STEP = s.m.retResidual) ∧
  (∀ s : State, s.m.up = true → s.m.rdN Od.RET_STATE = 1 → s.m.retResidual = 0 → s.leads .returnComplete fun b =>
    b.rd Od.RET_STATE = 0 ∧ s.m.told b 0x2707 0 0 ∧ (s.m.tm.ho.fromSpec = true → b.pe0 = 2))

/-- Calibration: campaigns, runs, twins, temperature, link calibration, the solver's second (R175, R176, R179, R180, R183, R184, R185, R186, R192). -/
def Obligations.CalibrationCommands : Prop :=
  (∀ (s : State) (c : Caller) (token n j : Nat), s.grants c (writeKey token Od.CAL_CD_START 1) n = true →
    let a := s.m.door c (writeKey token Od.CAL_CD_START 1) n
    (∀ v ∈ maskBits 52 (a.rdN Od.CAL_CD_MASK), 36 ≤ v → v < 44 → a.fnState (40 + (v - 36)) = 0) → a.calBusy = false → a.jobObject 1 = some j →
    s.leads (.codeDensityStart c token) fun b => b.replied (s.m.asked c (writeKey token Od.CAL_CD_START 1) n) 0 a.mg.nextJob ∧
      b.rd Od.CAL_JOB = a.mg.nextJob ∧ ∀ v ∈ maskBits 52 (a.rdN Od.CAL_CD_MASK), (b.conv v).run = 2) ∧
  (∀ (s : State) (v : Fin 52) (h1 h2 g1 g2 : List Nat), s.m.up = true → (s.m.conv v).run ≠ 0 → (s.m.conv v).waits = false →
    let r := s.m.runCounts v h1 h2 g1 g2
    r.complete (s.m.conv v).need = true → s.leads (.converterRunComplete v ⟨h1, h2⟩ ⟨g1, g2⟩) fun b => ∃ b1 : Block, b1.rd (Od.CONV_RESULT v) = r.verdict ∧
      (r.verdict ≠ 1 → (b1.conv v).run = 0 ∧ (b1.conv v).table = (s.m.conv v).table ∧
        b = if (s.m.conv v).run = 2 then b1.campaignTake v else b1.raise 0x2802 v) ∧
      (r.verdict = 1 → (b1.conv v).pend = r.table (s.m.convSpan v) ∧ (b1.conv v).acceptedAt = s.m.cyc) ∧
      (r.verdict = 1 → hasTwin v = true → b = b1 ∧ (b1.conv v).waits = true) ∧
      (r.verdict = 1 → hasTwin v = false → b = b1.campaignTake v ∧ (b1.conv v).run = 0)) ∧
  (∀ (s : State) (v : Fin 52) (d : Int), s.m.up = true → (s.m.conv v).waits = true → (s.m.conv v).acceptedAt + secs 1 ≤ s.m.cyc →
    s.leads (.twinSwap v d) fun b => ∃ b1 : Block, (b = if (s.m.conv v).run = 2 then b1.campaignTake v else b1) ∧ (b1.conv v).run = 0 ∧
      (b1.conv v).waits = false ∧ (b1.conv v).table = (s.m.conv v).pend ∧ (tat {} b1.tm.cal.corr (twinItem v)).goal = 0 ∧
      b1.corr (twinItem v) = (if s.m.convRuns v then s.m.corr (twinItem v) + d else 0)) ∧
  (∀ (s : State) (v : Fin 52), s.m.up = true → s.m.rdN Od.CAL_AUTO_PERIOD ≠ 0 → hasTwin v = true → (s.m.conv v).run = 0 →
    (s.m.conv v).acceptedAt + secs (s.m.rdN Od.CAL_AUTO_PERIOD) ≤ s.m.cyc → s.leads .calAutoTrigger fun b => (b.conv v).run = 1) ∧
  (∀ (s : State) (t : Int), s.m.up = true → s.leads (.calTempUpdate t) fun b => ∃ b1 : Block, b1.rd Od.CAL_DIE_TEMP = t ∧
    (∀ j, s.m.liveJob 2 = some j → 500 < (t - (s.m.job j).temp).natAbs → b1.tm.cal.moved = true) ∧ b = b1.takeAllCorr) ∧
  (∀ (s : State) (c : Caller) (token n j : Nat) (p : Fin 32), s.grants c (writeKey token (Od.LC_START p) 1) n = true →
    let a := s.m.door c (writeKey token (Od.LC_START p) 1) n
    a.fnState p = 0 → (∀ l ∈ lanesOf (a.pMode p) p, a.rdN (Od.LANE_TEST l) = 0) → a.calBusy = false → a.jobObject 2 = some j →
    s.leads (.linkCalStart c token p) fun b => b.replied (s.m.asked c (writeKey token (Od.LC_START p) 1) n) 0 a.mg.nextJob ∧
      b.rd Od.CAL_JOB = a.mg.nextJob ∧ (b.job j).arg = p.val ∧ b.tm.cal.moved = false) ∧
  (∀ (s : State) (loops txs : List Int) (j : Nat), s.m.up = true → s.m.liveJob 2 = some j → (s.m.job j).arg < 32 →
    let p := (s.m.job j).arg
    let off := s.m.portOffsets p (loops.zip txs)
    s.leads (.linkCalComplete loops txs) fun b =>
      (s.m.tm.cal.moved = true ∨ 500 < (s.m.rd Od.CAL_DIE_TEMP - (s.m.job j).temp).natAbs ∨ 300 < off.1.natAbs ∨ 300 < off.2.natAbs →
        b = (s.m.endJob j 4).raise 0x2804 p) ∧
      (s.m.tm.cal.moved = false → (s.m.rd Od.CAL_DIE_TEMP - (s.m.job j).temp).natAbs ≤ 500 → off.1.natAbs ≤ 300 → off.2.natAbs ≤ 300 → ∃ b1 : Block,
        b = (b1.endJob j 3).raise 0x2803 p ∧ b1.rd (Od.LC_TX_OFFSET p) = off.1 ∧ b1.rd (Od.LC_RX_OFFSET p) = off.2 ∧
          b1.rd (Od.LT_CAL_STATE p) = (if s.m.sets.length < 2 then 0 else 1) ∧ p ∈ b1.tm.cal.dirty)) ∧
  (∀ (s : State) (p : Nat), s.m.up = true → s.m.nandHeld = false → s.m.mg.srv.running = true → s.m.tm.cal.dirty = [p] →
    s.leads .linkCalSave fun b => b.tm.cal.dirty = [] ∧
      ∃ x : SavedCal, tget b.tm.cal.saved p = some x ∧ x.tx = s.m.rd (Od.LC_TX_OFFSET p) ∧ x.rx = s.m.rd (Od.LC_RX_OFFSET p)) ∧
  (∀ (s : State) (i : Fin 16), s.m.up = true → s.m.fnRuns (69 + i) = true → s.m.rdN (Od.ASY_STATE i) = 1 → s.m.asyWrong i = 0 →
    s.m.asyReady i = true → s.leads (.asySolverTick i) fun b => b.rd (Od.ASY_STATE i) = 2 ∧ (b.asy i).since = s.m.cyc)

/-- Measurement inputs: edges, results, records, arming, the ring (R197, R198, R200, R201, R202, R205, R206, R207, R215). -/
def Obligations.MeasurementInputs : Prop :=
  (∀ (s : State) (c : Fin 8) (rising : Bool) (code : Nat), s.m.up = true → s.m.ticMeasures c = true →
    rising = (s.m.rdN (Od.TIC_SLOPE c) == 0) → (s.m.tic c).lastAt = none → (s.m.tic c).queue.length < 16 →
    s.leads (.ticEdge c rising code) fun b => ∃ e : TicEdge, (b.tic c).queue = (s.m.tic c).queue ++ [e] ∧ e.cyc = s.m.cyc ∧ e.active = true ∧
      e.fine = s.m.ticFine c code ∧ e.deaf = []) ∧
  (∀ (s : State) (c : Fin 8) (e : TicEdge) (rest : List TicEdge), s.m.up = true → (s.m.tic c).queue = e :: rest → s.m.ticMeasures c = true →
    s.m.rdN (Od.TIC_MODE c) = 2 → e.deaf.contains c.val = false → s.leads (.ticEncode c) fun b => ∃ b1 : Block,
      (b = if e.active then (b1.ticStopFor c).foldl (fun b d => if e.deaf.contains d then b else b.ticPair d e true) b1 else b1) ∧
      ((s.m.tic c).prev = none → (b1.tic c).queue = rest ∧ (b1.tic c).prev = some e) ∧
      (∀ p, (s.m.tic c).prev = some p → b1 = ((s.m.setTic c fun t => { t with queue := rest }).setTic c fun t => { t with prev := some e }).ticResult c
        (some p) (some e) (edgeDiff p e) (s.m.tic c).accepted false false)) ∧
  (∀ (s : State) (c : Fin 8) (r : Bytes) (rest : List Bytes), s.m.up = true → s.m.clockRuns .lpddr = true → s.m.tm.ticNext = c →
    (s.m.tic c).records = r :: rest → s.leads .ticRecordWrite fun b => (b.tic c).records = rest ∧
      b.tm.ticRing = ringPush 65536 s.m.tm.ticRing r ∧ b.rdN Od.TIC_RING_WR = (s.m.rdN Od.TIC_RING_WR + 1) % 2 ^ 32) ∧
  (∀ (s : State) (c : Fin 8), s.m.up = true → s.m.ticMeasures c = true → s.m.rdN (Od.TIC_MODE c) = 3 →
    ((s.m.tic c).gate + 1) * s.m.gateTicks c ≤ s.m.mer → (s.m.tic c).queue = [] → s.leads (.ticGateEnd c) fun b => ∃ b1 : Block,
      (b1.tic c).gate = s.m.ticNextGate c ∧
      ((s.m.tic c).first = none → b = b1.ticResult c none none 0 0 false true) ∧
      (∀ f l, (s.m.tic c).first = some f → (s.m.tic c).last = some l → (s.m.tic c).count ≠ 0 →
        b = b1.ticResult c (some f) (some l) (edgeDiff f l) (s.m.tic c).count false false)) ∧
  (∀ (s : State) (c : Fin 8) (e : TicEdge), s.m.up = true → s.m.ticMeasures c = true → s.m.rdN (Od.TIC_MODE c) = 2 → (s.m.tic c).prev = some e →
    e.cyc + 2 ^ 40 ≤ s.m.cyc → s.leads (.ticOverflow c) fun b => ∃ b1 : Block, (b1.tic c).prev = none ∧ s.m.told b1 0x2903 c 0 ∧
      bit (b1.rdN (Od.TIC_STICKY c)) 3 = true ∧ b = b1.ticResult c (some e) none 0 (s.m.tic c).accepted true false) ∧
  (∀ (s : State) (c : Caller) (token n : Nat) (ch : Fin 8), s.grants c (writeKey token (Od.TIC_ARM ch) 1) n = true →
    let a := s.m.door c (writeKey token (Od.TIC_ARM ch) 1) n
    a.fnRuns (40 + ch) = true → a.rdN (Od.TIC_ARM_AT ch) = 0 → a.rdN (Od.TIC_MODE ch) ≠ 0 →
    s.leads (.ticArm c token ch) fun b => b.replied (s.m.asked c (writeKey token (Od.TIC_ARM ch) 1) n) 0 0 ∧ (b.tic ch).armed = true ∧
      b.rd (Od.TIC_STATUS ch) = 1 ∧ b.target (.tic ch) = none) ∧
  (∀ (s : State) (c : Caller) (token n : Nat) (ch : Fin 8), s.grants c (writeKey token (Od.TIC_ARM ch) 2) n = true →
    (s.m.door c (writeKey token (Od.TIC_ARM ch) 2) n).fnRuns (40 + ch) = true →
    s.leads (.ticDisarm c token ch) fun b => b.replied (s.m.asked c (writeKey token (Od.TIC_ARM ch) 2) n) 0 0 ∧ (b.tic ch).armed = false ∧
      b.rd (Od.TIC_STATUS ch) = 0 ∧ b.target (.tic ch) = none) ∧
  (∀ (s : State) (c : Caller) (token n len : Nat), s.takes c (ringKey token Od.TIC_RING_DATA len) n = true →
    let q := ringKey token Od.TIC_RING_DATA len
    let r := (s.m.door c q n).readRecords (s.m.asked c q n).tenant 0x2910 (min len (segLimit c))
    s.leads (.ticRingRead c token len) fun b => r.2.sameButBooks b ∧ b.repliedWith (s.m.asked c q n) r.1.length r.1.flatten)

/-- Ports: link up, link down, the end of a hold, phase-keeping idle and the wake (R220, R223, R225, R226, R228, R229). -/
def Obligations.PortLinks : Prop :=
  (∀ (s : State) (p : Fin 32) (deskew : Nat) (freq : Int), s.m.up = true → s.m.modeNow p ≠ 0 → s.m.on (Od.P_LINK p) = false →
    s.m.testAllowsLink p = true → s.m.lanesTrained p = true → s.leads (.linkUp p ⟨deskew, freq⟩) fun b =>
      b.rd (Od.P_LINK p) = 1 ∧ (b.pf p).holdEnd = none ∧ s.m.reported b 0x3101 p 0) ∧
  (∀ (s : State) (p : Fin 32) (cause : Fin 3), s.m.up = true → s.m.on (Od.P_LINK p) = true →
    s.leads (.linkDown p cause) fun b => b.rd (Od.P_LINK p) = 0 ∧ bit (b.rdN (Od.P_STICKY p)) 0 = true ∧ (b.pf p).sending = none ∧
      s.m.reported b 0x3102 p 0 ∧ (s.m.rdN (Od.P_LINKDOWN_HOLD p) ≠ 0 → (b.pf p).holdEnd = some (s.m.cyc + ms (s.m.rdN (Od.P_LINKDOWN_HOLD p))))) ∧
  (∀ (s : State) (p : Fin 32) (t : Nat), s.m.up = true → (s.m.pf p).holdEnd = some t → t ≤ s.m.cyc → s.m.on (Od.P_LINK p) = false →
    s.leads (.linkdownHoldExpiry p) fun b => (b.pf p).holdEnd = none ∧ (∀ q < 16, (b.queue (p * 16 + q)).frames = []) ∧
      (∀ e ∈ b.fab.mac, e.2.static = false → e.2.dtype = 0 → e.2.dest ≠ p.val) ∧ bit (b.rdN (Od.P_STICKY p)) 1 = true ∧ s.m.reported b 0x3103 p 0) ∧
  (∀ (s : State) (p : Fin 32), s.m.up = true → s.m.idleDue p = true → s.m.rdN (Od.P_IDLE_ENTRIES p) + 1 < keySize (Od.P_IDLE_ENTRIES p) →
    s.leads (.portIdleEntry p) fun b => b.rd (Od.P_IDLE p) = 1 ∧ b.rd (Od.P_IDLE_ENTRIES p) = s.m.rdN (Od.P_IDLE_ENTRIES p) + 1) ∧
  (∀ (s : State) (p : Fin 32), s.m.up = true → s.m.on (Od.P_IDLE p) = true → (s.m.pf p).wakeAt = none →
    s.leads (.portIdleWake p) fun b => (b.pf p).wakeAt = some (s.m.cyc + us 2) ∧ b.rd (Od.P_IDLE p) = 1) ∧
  (∀ (s : State) (p : Fin 32), s.m.up = true → s.m.wakeReady p = true → (s.m.pf p).ingress = [] → (s.m.pf p).own = [] →
    s.leads (.portIdleWake p) fun b => b.rd (Od.P_IDLE p) = 0 ∧ (b.pf p).wakeAt = none)

/-- A received frame: counted and dropped, held in the ingress buffer, or stored and enqueued at its destination (R23, R221, R229, R230, R237, R251, R263, R274). -/
def Obligations.FrameReceived : Prop :=
  (∀ (s : State) (p : Fin 32) (f : Bytes) (pcs : Bool) (stamp : Stamp) (fec : FecSeen) (parity : Bool), s.m.up = true → s.m.partHeld 1 = false →
    s.m.on (Od.P_LINK p) = true → s.m.inTest p = false → s.m.partner p = false → s.m.fnRuns p = false → s.leads (.frameRx p f pcs stamp ⟨fec, parity⟩) fun b =>
      ((s.m.ptpAt p f (header f)).isSome = true ∨ isEsmc f (header f) = true → b.rd (Od.P_DROP_STOPPED p) = s.m.rd (Od.P_DROP_STOPPED p)) ∧
      (s.m.ptpAt p f (header f) = none → isEsmc f (header f) = false → s.m.laneOwner p = p →
        s.m.rdN (Od.P_DROP_STOPPED p) + 1 < keySize (Od.P_DROP_STOPPED p) → b.rd (Od.P_DROP_STOPPED p) = s.m.rdN (Od.P_DROP_STOPPED p) + 1)) ∧
  (∀ (s : State) (p : Fin 32) (f : Bytes) (pcs : Bool) (stamp : Stamp) (fec : FecSeen) (parity : Bool), s.m.up = true → s.m.partHeld 1 = false →
    s.m.on (Od.P_LINK p) = true → s.m.inTest p = false → s.m.partner p = false → s.m.fnRuns p = true →
    s.m.pathRuns p = false ∨ (s.m.pf p).ingress ≠ [] → s.leads (.frameRx p f pcs stamp ⟨fec, parity⟩) fun b =>
      (s.m.waitingBytes p + f.length ≤ s.m.ingressSize p →
        ∃ w : RxWait, (b.pf p).ingress = (s.m.pf p).ingress ++ [w] ∧ w.bytes = f ∧ w.pcs = pcs ∧ w.parity = parity) ∧
      (s.m.ingressSize p < s.m.waitingBytes p + f.length → s.m.laneOwner p = p → s.m.rdN (Od.P_DROP_OVERRUN p) + 1 < keySize (Od.P_DROP_OVERRUN p) →
        b.rd (Od.P_DROP_OVERRUN p) = s.m.rdN (Od.P_DROP_OVERRUN p) + 1 ∧ bit (b.rdN (Od.P_STICKY p)) 4 = true ∧
          (b.pf p).ingress = (s.m.pf p).ingress)) ∧
  (∀ (s : State) (p : Fin 32) (f : Bytes) (pcs : Bool) (stamp : Stamp) (fec : FecSeen), s.m.up = true → s.m.partHeld 1 = false →
    s.m.on (Od.P_LINK p) = true → s.m.inTest p = false → s.m.partner p = false → s.m.fnRuns p = true → s.m.pathRuns p = true →
    (s.m.pf p).ingress = [] → s.m.laneOwner p = p → s.leads (.frameRx p f pcs stamp ⟨fec, false⟩) fun b =>
      (∀ cause, (if f.length < 64 then some (Od.P_RX_RUNT p) else s.m.rxFault p f pcs) = some cause → s.m.on (Od.P_CUT_THROUGH p) = false →
        (∀ i < 4, s.m.on (Od.MIR_BAD i) = false) → s.m.rdN cause + 1 < keySize cause →
          b.rd cause = s.m.rdN cause + 1 ∧ bit (b.rdN (Od.P_STICKY p)) 2 = true ∧ b.fab.queue = s.m.fab.queue ∧ b.fab.chains = s.m.fab.chains) ∧
      (64 ≤ f.length → s.m.rxFault p f pcs = none → (s.m.trap p f (header f)).isNone = true → s.m.vlanIn p (header f) = none →
        s.m.rdN (Od.P_DROP_VLAN p) + 1 < keySize (Od.P_DROP_VLAN p) → b.rd (Od.P_DROP_VLAN p) = s.m.rdN (Od.P_DROP_VLAN p) + 1 ∧
          b.fab.queue = s.m.fab.queue ∧ b.fab.chains = s.m.fab.chains)) ∧
  (∀ (s : State) (p : Fin 32) (f : Bytes) (stamp : Stamp) (fec : FecSeen) (vid : Nat) (e : Mac), s.m.up = true → s.m.partHeld 1 = false →
    s.m.on (Od.P_LINK p) = true → s.m.inTest p = false → s.m.partner p = false → s.m.fnRuns p = true → s.m.pathRuns p = true →
    (s.m.pf p).ingress = [] → 64 ≤ f.length → s.m.rxFault p f true = none →
    let h := header f
    let c := (s.m.classify p vid h).1
    let k := e.dest * 16 + s.m.queueAt e.dest h c
    (s.m.trap p f h).isNone = true → s.m.vlanIn p h = some vid → s.m.fwdState p = 3 → h.da ≠ 0xFFFFFFFFFFFF →
    tget s.m.fab.mac (macKey vid h.da) = some e → e.dtype = 0 → e.dest < 32 → s.m.mayTake p vid e.dest = true → s.m.fnRuns e.dest = true →
    s.m.gone e.dest = false → c.policer = none → c.cq = none → (∀ i < 4, s.m.fnRuns (49 + i) = false) → s.m.roomFor f = true →
    s.m.on (Od.P_CUT_THROUGH p) = false → s.m.rdN (depthKey k) + cellsOf f ≤ s.m.rdN (limitKey k) → bits (s.m.rdN (wredKey k)) (4 * c.colour) 4 = 0 →
    s.leads (.frameRx p f true stamp ⟨fec, false⟩) fun b => ∃ (d : Desc) (x : Chain), (b.queue k).frames = (s.m.queue k).frames ++ [d] ∧ d.inPort = p.val ∧
      d.colour = c.colour ∧ d.content = none ∧ b.chain d.chain = some x ∧ x.bytes = f ∧ x.vid = vid ∧ x.refs = 1 ∧
      b.rd (depthKey k) = s.m.rdN (depthKey k) + cellsOf f)

/-- Egress: the queue that scheduling picks begins to leave, a parity error drops its head, the last byte sent releases the copy, whole or stomped
(R246, R247, R252, R276, R277, R278, R464). -/
def Obligations.EgressAndDone : Prop :=
  (∀ (s : State) (p : Fin 32) (parity : Bool) (q : Nat) (d : Desc) (rest : List Desc), s.m.up = true → s.m.canSend p = true →
    (s.m.pf p).fip.ready = [] → (s.m.pf p).fip.acting = false →
    let a := (s.m.dropAged p).fillShapers p
    a.ownFirst p = false → (a.pick p).1 = some q → (a.queue (p * 16 + q)).frames = d :: rest → (a.readEcc d.chain).1 ≠ 2 →
    s.leads (.egressSchedule p parity) fun b =>
      (parity = false → (b.pf p).sending = some ⟨d, q, a.txBytes p d, false, false, none⟩ ∧ (b.queue (p * 16 + q)).frames = rest) ∧
      (parity = true → b = (a.pick p).2.parityDrop p q)) ∧
  (∀ (s : State) (p : Fin 32) (parity : Bool) (t : Tx) (rest : List Tx), s.m.up = true → s.m.canSend p = true → (s.m.pf p).fip.ready = t :: rest →
    s.leads (.egressSchedule p parity) fun b => (b.pf p).fip.ready = rest ∧ (t.own = none → (b.pf p).sending = some t)) ∧
  (∀ (s : State) (p : Fin 32) (stamp : Stamp) (fault : Fin 3) (t : Tx), s.m.up = true → (s.m.pf p).sending = some t →
    (s.m.pf p).testInForce ≠ 2 → (s.m.pf p).testInForce ≠ 4 →
    let whole := fault.val = 0 ∧ s.m.lostCell t = false
    let l := if whole then t.bytes else withStomp (body t.bytes)
    s.m.rdN (Od.P_TX_FRAMES p) + 1 < keySize (Od.P_TX_FRAMES p) → s.m.rdN (Od.P_TX_OCTETS p) + l.length < keySize (Od.P_TX_OCTETS p) →
    s.leads (.frameTxDone ⟨p, stamp, fault⟩) fun b => s.m.sends b (.frame p l) ∧ (b.pf p).sending = none ∧
      b.rd (Od.P_TX_FRAMES p) = s.m.rdN (Od.P_TX_FRAMES p) + 1 ∧ b.rd (Od.P_TX_OCTETS p) = s.m.rdN (Od.P_TX_OCTETS p) + l.length ∧
      (t.stomped = true ∨ ¬whole → bit (b.rdN (Od.P_STICKY p)) 3 = true)) ∧
  (∀ (s : State) (p : Fin 32) (stamp : Stamp) (t : Tx), s.m.up = true → (s.m.pf p).sending = some t → (s.m.pf p).testInForce ∈ [2, 4] →
    s.m.lostCell t = false → s.leads (.frameTxDone ⟨p, stamp, 0⟩) fun b => ∃ b1 : Block,
      b = b1.arrive p { bytes := t.bytes, pcs := true, stamp := b1.stampWord (b1.loopArrival p stamp) } ∧
        s.m.sends b1 (.frame p t.bytes) ∧ (b1.pf p).sending = none)

/-- The MAC table: ageing, the commands of FDB_OP, the end of a flush (R226, R236, R238, R239). -/
def Obligations.MacTable : Prop :=
  (∀ s : State, s.m.up = true → s.m.rdN Od.SW_MAC_AGE_TIME ≠ 0 → s.m.fab.agedAt + secs (s.m.rdN Od.SW_MAC_AGE_TIME) / 2 ≤ s.m.cyc →
    s.leads .macAgePass fun b => b.fab.agedAt = s.m.cyc ∧ b.rd Od.SW_MAC_ENTRIES = b.fab.mac.length ∧
      ∀ k e, (k, e) ∈ s.m.fab.mac → (e.static = true → (k, e) ∈ b.fab.mac) ∧
        (e.static = false → e.age ≠ 2 → (k, { e with age := e.age + 1 }) ∈ b.fab.mac)) ∧
  (∀ (s : State) (c : Caller) (token n : Nat), s.grants c (writeKey token Od.FDB_OP 1) n = true →
    let a := s.m.door c (writeKey token Od.FDB_OP 1) n
    let t := (s.m.asked c (writeKey token Od.FDB_OP 1) n).tenant
    s.leads (.fdbRead c token) fun b => b.replied (s.m.asked c (writeKey token Od.FDB_OP 1) n) 0 0 ∧
      b.rd (Od.FDB_ENTRY t) = (match tget a.fab.mac (fdbKey (a.blob (Od.FDB_KEY t))) with | some e => e.word | none => 0 : Nat)) ∧
  (∀ (s : State) (c : Caller) (token n : Nat), s.grants c (writeKey token Od.FDB_OP 2) n = true →
    let a := s.m.door c (writeKey token Od.FDB_OP 2) n
    let t := (s.m.asked c (writeKey token Od.FDB_OP 2) n).tenant
    let k := fdbKey (a.blob (Od.FDB_KEY t))
    let v := a.rdN (Od.FDB_ENTRY t)
    k / 2 ^ 48 < 4096 → fdbDestOk v = true → s.leads (.fdbWriteStatic c token) fun b =>
      ((tget a.fab.mac k).isSome = true ∨ (freeWay (a.bucket (a.bucketOf k))).isSome = true ∨ (victim (a.bucket (a.bucketOf k))).isSome = true →
        b.replied (s.m.asked c (writeKey token Od.FDB_OP 2) n) 0 0 ∧
          ∃ e, tget b.fab.mac k = some e ∧ e.static = true ∧ e.dtype = bits v 12 3 ∧ e.dest = bits v 0 12) ∧
      (tget a.fab.mac k = none → freeWay (a.bucket (a.bucketOf k)) = none → victim (a.bucket (a.bucketOf k)) = none →
        b.replied (s.m.asked c (writeKey token Od.FDB_OP 2) n) 7 0 ∧ b.fab.mac = a.fab.mac)) ∧
  (∀ (s : State) (c : Caller) (token n : Nat), s.grants c (writeKey token Od.FDB_OP 3) n = true →
    let a := s.m.door c (writeKey token Od.FDB_OP 3) n
    s.leads (.fdbDelete c token) fun b => b.replied (s.m.asked c (writeKey token Od.FDB_OP 3) n) 0 0 ∧
      tget b.fab.mac (fdbKey (a.blob (Od.FDB_KEY (s.m.asked c (writeKey token Od.FDB_OP 3) n).tenant))) = none) ∧
  (∀ (s : State) (c : Caller) (token n j : Nat), s.grants c (writeKey token Od.FDB_OP 4) n = true →
    let a := s.m.door c (writeKey token Od.FDB_OP 4) n
    a.jobObject 3 = some j → s.leads (.fdbFlush c token) fun b => b.replied (s.m.asked c (writeKey token Od.FDB_OP 4) n) 0 a.mg.nextJob ∧
      b.rd (Od.JOB_STATE j) = 1 ∧ b.rd (Od.JOB_KIND j) = 3) ∧
  (∀ (s : State) (j : Nat), s.m.up = true → s.m.liveJob 3 = some j →
    let port := (s.m.job j).arg / 65536
    let vid := (s.m.job j).arg % 65536
    s.leads .fdbFlushComplete fun b => b.rd (Od.JOB_STATE j) = 3 ∧ s.m.reported b 0x3501 (s.m.rdN (Od.JOB_NUMBER j)) 0 ∧
      (∀ e ∈ s.m.fab.mac, e.2.static = true → e ∈ b.fab.mac) ∧
      ∀ e ∈ b.fab.mac, e.2.static = false → ¬((port = 0xFF ∨ (e.2.dtype = 0 ∧ e.2.dest = port)) ∧ (vid = 0xFFFF ∨ e.1 / 2 ^ 48 = vid)))

/-- Bank keys, average depths, compute-queue copies (R256, R275, R286, R389). -/
def Obligations.BanksAndCopies : Prop :=
  (∀ (s : State) (n : Nat), s.m.up = true → s.leads (.bankWindow n) fun b => b.fab.banks.ended = s.m.fab.banks.ended.drop n ∧
    ∀ x, (s.m.fab.banks.ended.take n).getLast? = some x → b.rd Od.SW_BANK_SKEW = x) ∧
  (∀ (s : State) (largest : Nat) (rest : List Nat), s.m.up = true → s.m.fab.banks.ended = largest :: rest →
    s.leads (.bankWindow 1) fun b => b.rd Od.SW_BANK_SKEW = largest ∧ b.fab.banks.ended = rest ∧
      (largest ≤ 192 → b.fab.skew = false ∧ b.fab.bankKey = s.m.fab.bankKey) ∧
      (192 < largest → s.m.fab.skew = false → b.fab.skew = true ∧ b.fab.bankKey = s.m.fab.bankKey) ∧
      (192 < largest → s.m.fab.skew = true → b.fab.skew = false ∧ b.fab.bankKey = s.m.free ∧ bit (b.rdN Od.SW_STICKY) 0 = true)) ∧
  (∀ (s : State) (c : Caller) (token n : Nat), s.grants c (writeKey token Od.SW_RESEED 1) n = true →
    let a := s.m.door c (writeKey token Od.SW_RESEED 1) n
    a.rdN Od.SW_RESEEDS + 1 < keySize Od.SW_RESEEDS → s.leads (.swReseed c token) fun b => b.replied (s.m.asked c (writeKey token Od.SW_RESEED 1) n) 0 0 ∧
      b.fab.bankKey = a.free ∧ b.rd Od.SW_RESEEDS = a.rdN Od.SW_RESEEDS + 1 ∧ bit (b.rdN Od.SW_STICKY) 0 = true) ∧
  (∀ (s : State) (k : Nat) (q : Queue), s.m.up = true → tget s.m.fab.queue k = some q → s.leads .wredAvgUpdate fun b => (b.queue k).frames = q.frames ∧
    (b.queue k).avg = ((q.avg : Int) + ((s.m.rdN (depthKey k) * 65536 : Nat) - (q.avg : Int)) /
      2 ^ s.m.rdN (Od.WRED_WEIGHT (bits (s.m.rdN (wredKey k)) 0 4))).toNat) ∧
  (∀ (s : State) (a a' : Block) (q h : Nat) (d : Desc) (rest : List Desc), s.m.up = true → s.m.fnRuns 102 = true → s.m.clockRuns .lpddr = true →
    s.m.clockRuns .fabric = true → (List.range 64).filter s.m.cqTakes ≠ [] → s.m.cqPick 4096 ((List.range 64).filter s.m.cqTakes) = (some q, a) →
    (a.queue (512 + q)).frames = d :: rest → (a.readEcc d.chain).1 = 0 →
    let n := 32 + (a.cqBytes d).length
    (tget a.cp.grant q = some h ∧ n ≤ poolSize (handlePool h) ∧ a' = a) ∨ (tget a.cp.grant q = none ∧ a.request (64 + q) n
      (if a.streamOn q then 0 else match a.cqChannel q with | some c => a.rdN (Od.DMA_TENANT c) | none => 0) = (.buffer h, a')) →
    (a'.queue (512 + q)).frames = d :: rest →
    s.leads .cqCopy fun b => (a'.handleAddr h, a'.cqHeader q d (a'.cqBytes d) ++ a'.cqBytes d) ∈ b.pokes ∧ (b.queue (512 + q)).frames = rest)

/-- Gate lists: a change armed, cancelled, applied; the next entry and the next cycle (R281, R282, R284). -/
def Obligations.GateLists : Prop :=
  (∀ (s : State) (c : Caller) (token n : Nat) (p : Fin 32) (list : List (Nat × Nat)), s.grants c (writeKey token (Od.GCL_CHANGE p) 1) n = true →
    let a := s.m.door c (writeKey token (Od.GCL_CHANGE p) 1) n
    let cycle := a.rdN (Od.GCL_CYCLE_TIME p)
    let t := changeTime (a.rdN (Od.GCL_BASE_TIME p)) (cycle * 65536) a.mer
    gclEntries 256 (a.blob (Od.GCL_LIST p)) = some list → (a.on (Od.GCL_ENABLE p) = true → list ≠ []) → 1000 ≤ cycle → cycle ≤ 1000000000 →
    a.armable t = true → a.rdN (Od.GCL_CHANGE_STATUS p) ≠ 1 → s.leads (.gclChange c token p) fun b =>
      b.replied (s.m.asked c (writeKey token (Od.GCL_CHANGE p) 1) n) 0 0 ∧ b.rd (Od.GCL_CHANGE_STATUS p) = 1 ∧ b.rd (Od.GCL_CHANGE_TIME p) = t ∧
        b.target (.gcl p) = some ⟨tickOf t, false⟩ ∧ (b.pf p).gate.pend = some ⟨a.on (Od.GCL_ENABLE p), list, cycle * 65536,
          a.rdN (Od.GCL_BASE_TIME p), a.rdN (Od.GCL_CYCLE_EXT p) * 65536, t⟩) ∧
  (∀ (s : State) (c : Caller) (token n : Nat) (p : Fin 32), s.grants c (writeKey token (Od.GCL_CHANGE p) 2) n = true →
    (s.m.door c (writeKey token (Od.GCL_CHANGE p) 2) n).rdN (Od.GCL_CHANGE_STATUS p) = 1 → s.leads (.gclChangeCancel c token p) fun b =>
      b.replied (s.m.asked c (writeKey token (Od.GCL_CHANGE p) 2) n) 0 0 ∧ b.rd (Od.GCL_CHANGE_STATUS p) = 0 ∧ b.target (.gcl p) = none ∧
        (b.pf p).gate.pend = none) ∧
  (∀ (s : State) (p : Fin 32) (g : GatePend), s.m.up = true → (s.m.pf p).gate.pend = some g → upTo g.at_ s.m.mer = true → s.leads (.gclChangeApply p) fun b =>
    b.rd (Od.GCL_CHANGE_STATUS p) = 2 ∧ b.rd (Od.GCL_OPER_ENABLE p) = b2n g.on ∧ b.rd (Od.GCL_OPER_CYCLE_TIME p) = (g.cycle / 65536 : Nat) ∧
      b.rd (Od.GCL_OPER_BASE_TIME p) = g.base ∧ bit (b.rdN (Od.GCL_STICKY p)) 0 = true ∧ s.m.reported b 0x3201 p 0 ∧ (b.pf p).gate.pend = none ∧
      (b.pf p).gate.list = g.list ∧ (b.pf p).gate.on = g.on ∧ (g.on = false → b.rd (Od.GCL_STATES p) = 0xFFFF) ∧
      (g.on = true → g.list ≠ [] → b.rd (Od.GCL_STATES p) = ((g.list.headD (0, 0)).2 : Nat))) ∧
  (∀ (s : State) (p : Fin 32) (u : Nat) (e : Nat × Nat), s.m.up = true →
    let g := (s.m.pf p).gate
    g.until_ = some u → upTo u s.m.mer = true → g.pend = none → s.leads (.gateEntry p) fun b =>
      (upTo g.cend u = false → g.list[g.idx + 1]? = some e → (b.pf p).gate.idx = g.idx + 1 ∧ b.rd (Od.GCL_STATES p) = (e.2 : Nat) ∧
        (b.pf p).gate.until_ = some (earlier (u + e.1) g.cend)) ∧
      (upTo g.cend u = true → g.list[0]? = some e → (b.pf p).gate.idx = 0 ∧ b.rd (Od.GCL_STATES p) = (e.2 : Nat) ∧ (b.pf p).gate.start = u ∧
        (b.pf p).gate.cend = u + g.cycle ∧ (b.pf p).gate.until_ = some (earlier (u + e.1) (u + g.cycle))))

/-- Lane training: a frame answered, both ends ready, the timeout, the retry (R298, R299, R300). -/
def Obligations.LaneTraining : Prop :=
  (∀ (s : State) (l : Fin 32) (t : Training), s.m.up = true → s.leads (.laneTrainingFrameRx l t) fun b =>
    b.rd (Od.LANE_SIGNAL l) = 1 ∧ b.rd (Od.LANE_CDR_LOCK l) = 1 ∧ (s.m.rdN (Od.LANE_TRAIN_STATE l) = 1 →
      (t.preset = true → b.rd (Od.LANE_TAPS_IN_USE l) = tapWord 0 64 0) ∧
      (t.preset = false → t.initialize_ = true → b.rd (Od.LANE_TAPS_IN_USE l) = tapWord (-3) 42 (-17)) ∧
      (∀ r, t.preset = false → t.initialize_ = false → t.request = (r, 0, 0) → r ≠ 0 →
        let next := (tapStep r (s.m.taps l).1, (s.m.taps l).2)
        (tapsOk next = true → b.taps l = next) ∧ (tapsOk next = false → b.taps l = s.m.taps l)) ∧
      (t.ready = true → t.converged = true → b.rd (Od.LANE_TRAIN_STATE l) = 2 ∧ s.m.reported b 0x3801 l 0) ∧
      (t.ready = false → b.rdN (Od.LANE_TRAIN_STATE l) = 1) ∧ ∃ status ask ready, s.m.sends b (.training l status ask ready))) ∧
  (∀ (s : State) (l : Fin 32), s.m.up = true → s.m.rdN (Od.LANE_TRAIN_STATE l) = 1 → (s.m.lane l).trainAt + ms 500 ≤ s.m.cyc →
    s.leads (.laneTrainingTimeout l) fun b => b.rd (Od.LANE_TRAIN_STATE l) = 3 ∧ bit (b.rdN (Od.LANE_STICKY l)) 0 = true ∧
      (b.lane l).failAt = s.m.cyc ∧ ((s.m.lane l).failed = false → s.m.reported b 0x3802 l 0)) ∧
  (∀ (s : State) (l : Fin 32), s.m.up = true → s.m.rdN (Od.LANE_TRAIN_STATE l) = 3 → (s.m.lane l).failAt + ms 100 ≤ s.m.cyc →
    s.m.on (Od.LANE_SIGNAL l) = true → s.leads (.laneTrainingRetry l) fun b => b.rd (Od.LANE_TRAIN_STATE l) = 1 ∧
      b.rd (Od.LANE_TAPS_IN_USE l) = tapWord (-3) 42 (-17) ∧ (b.lane l).trainAt = s.m.cyc)

/-- PRBS checker and error injector of a lane (R308, R309, R310). -/
def Obligations.PrbsAndInjector : Prop :=
  (∀ (s : State) (l : Fin 32), s.m.up = true → s.m.checks l = true → s.m.on (Od.LANE_PRBS_LOCK l) = false → s.leads (.prbsLock l) fun b =>
    b.rd (Od.LANE_PRBS_LOCK l) = 1 ∧ (b.lane l).lockAt = some s.m.cyc) ∧
  (∀ (s : State) (l : Fin 32) (errs : Nat), s.m.up = true → s.m.on (Od.LANE_PRBS_LOCK l) = true → 256 ≤ errs → errs ≤ 1024 →
    s.m.rdN (Od.LANE_PRBS_ERRORS l) + errs < keySize (Od.LANE_PRBS_ERRORS l) → s.leads (.prbsLockLoss l errs) fun b =>
      b.rd (Od.LANE_PRBS_LOCK l) = 0 ∧ b.rd (Od.LANE_PRBS_ERRORS l) = s.m.rdN (Od.LANE_PRBS_ERRORS l) + errs ∧
        bit (b.rdN (Od.LANE_STICKY l)) 1 = true ∧ s.m.reported b 0x3804 l 0 ∧ b.prbsBits l = s.m.prbsBits l) ∧
  (∀ (s : State) (c : Caller) (token n : Nat) (l : Fin 32), s.grants c (writeKey token (Od.LANE_PRBS_CLEAR l) 1) n = true →
    s.leads (.prbsClear c token l) fun b => b.replied (s.m.asked c (writeKey token (Od.LANE_PRBS_CLEAR l) 1) n) 0 0 ∧
      b.rd (Od.LANE_PRBS_ERRORS l) = 0 ∧ b.prbsBits l = 0) ∧
  (∀ (s : State) (c : Caller) (token n : Nat) (l : Fin 32), s.grants c (writeKey token (Od.LANE_INJ_ARM l) 1) n = true →
    let a := s.m.door c (writeKey token (Od.LANE_INJ_ARM l) 1) n
    let at_ := a.rdN (Od.LANE_INJ_AT l)
    s.leads (.laneInjArm c token l) fun b =>
      (a.fnRuns (a.laneOwner l) = false ∨ a.rdN (Od.LANE_PRBS_GEN l) = 0 → b.replied (s.m.asked c (writeKey token (Od.LANE_INJ_ARM l) 1) n) 6 0) ∧
      (a.fnRuns (a.laneOwner l) = true → a.rdN (Od.LANE_PRBS_GEN l) ≠ 0 →
        (at_ = 0 → b.replied (s.m.asked c (writeKey token (Od.LANE_INJ_ARM l) 1) n) 0 0 ∧ (b.lane l).injActing = true ∧ (b.lane l).injSince = a.cyc ∧
          (b.lane l).injMode = a.rdN (Od.LANE_INJ_MODE l) ∧ b.target (.lane l) = none) ∧
        (a.mer < at_ → a.armable at_ = true → b.replied (s.m.asked c (writeKey token (Od.LANE_INJ_ARM l) 1) n) 0 0 ∧ (b.lane l).injArmed = true ∧
          b.target (.lane l) = some ⟨tickOf at_, false⟩) ∧
        (a.armable at_ = false → b.replied (s.m.asked c (writeKey token (Od.LANE_INJ_ARM l) 1) n) 5 0))) ∧
  (∀ (s : State) (c : Caller) (token n : Nat) (l : Fin 32), s.grants c (writeKey token (Od.LANE_INJ_ARM l) 2) n = true →
    s.leads (.laneInjDisarm c token l) fun b => b.replied (s.m.asked c (writeKey token (Od.LANE_INJ_ARM l) 2) n) 0 0 ∧
      (b.lane l).injArmed = false ∧ (b.lane l).injActing = false ∧ b.target (.lane l) = none) ∧
  (∀ (s : State) (l : Fin 32), s.m.up = true → (s.m.lane l).injActing = true →
    (s.m.lane l).injMode = 1 ∨ ((s.m.lane l).injMode = 2 ∧ (s.m.lane l).injActs * (s.m.lane l).injPeriod ≤ s.m.laneBits l (s.m.cyc - (s.m.lane l).injSince)) →
    s.m.rdN (Od.LANE_INJ_COUNT l) + 1 < keySize (Od.LANE_INJ_COUNT l) → s.leads (.laneInjAct l) fun b =>
      b.rd (Od.LANE_INJ_COUNT l) = s.m.rdN (Od.LANE_INJ_COUNT l) + 1 ∧ (b.lane l).injActs = (s.m.lane l).injActs + 1 ∧
        (b.lane l).injActing = decide ((s.m.lane l).injMode ≠ 1) ∧
        (s.m.looped l = true → s.m.on (Od.LANE_PRBS_LOCK l) = true → s.m.rdN (Od.LANE_PRBS_ERRORS l) + 1 < keySize (Od.LANE_PRBS_ERRORS l) →
          b.rd (Od.LANE_PRBS_ERRORS l) = s.m.rdN (Od.LANE_PRBS_ERRORS l) + 1))

/-- The sideband chain and the I2C masters (R311, R312, R313, R314). -/
def Obligations.SidebandAndI2c : Prop :=
  (∀ (s : State) (inputs : List Nat), s.m.up = true → inputs.length = 32 → s.leads (.sidebandScan inputs) fun b =>
    b.ln.lines = s.m.ln.shift ∧ s.m.sends b (.sideband s.m.ln.shift) ∧ ∀ l v, inputs[l]? = some v → (b.lane l).sbLast = some (v % 256) ∧
      ((s.m.lane l).sbLast = some (v % 256) → b.rdN (Od.LANE_SB_IN l) = v % 256 ∧
        (bit (s.m.rdN (Od.LANE_SB_IN l)) 7 = true → bit v 7 = false → s.m.reported b 0x3805 l 0) ∧
        (bit (s.m.rdN (Od.LANE_SB_IN l)) 7 = false → bit v 7 = true → s.m.reported b 0x3806 l 0))) ∧
  (∀ (s : State) (c : Caller) (token n : Nat) (l : Fin 32), s.grants c (writeKey token (Od.LANE_I2C_OP l) 1) n = true →
    let a := s.m.door c (writeKey token (Od.LANE_I2C_OP l) 1) n
    let w := s.m.asked c (writeKey token (Od.LANE_I2C_OP l) 1) n
    s.leads (.i2cRead c token l) fun b =>
      (a.rdN (Od.LANE_I2C_STATUS l w.tenant) ∈ [1, 2] ∨ 16 ≤ (tat [] a.ln.i2c (l / 8)).length → b.replied w 1 0) ∧
      (a.rdN (Od.LANE_I2C_STATUS l w.tenant) ∉ [1, 2] → (tat [] a.ln.i2c (l / 8)).length < 16 → b.replied w 0 0 ∧
        b.rd (Od.LANE_I2C_STATUS l w.tenant) = 1 ∧ (tat [] b.ln.i2c (l / 8)).length = (tat [] a.ln.i2c (l / 8)).length + 1)) ∧
  (∀ (s : State) (c : Caller) (token n : Nat) (l : Fin 32), s.grants c (writeKey token (Od.LANE_I2C_OP l) 2) n = true →
    let a := s.m.door c (writeKey token (Od.LANE_I2C_OP l) 2) n
    let w := s.m.asked c (writeKey token (Od.LANE_I2C_OP l) 2) n
    s.leads (.i2cWrite c token l) fun b => (8 < a.rdN (Od.LANE_I2C_LEN l w.tenant) → b.replied w 5 0) ∧
      (a.rdN (Od.LANE_I2C_LEN l w.tenant) ≤ 8 → a.rdN (Od.LANE_I2C_STATUS l w.tenant) ∉ [1, 2] → (tat [] a.ln.i2c (l / 8)).length < 16 →
        b.replied w 0 0 ∧ b.rd (Od.LANE_I2C_STATUS l w.tenant) = 1 ∧
          (tat [] b.ln.i2c (l / 8)).length = (tat [] a.ln.i2c (l / 8)).length + 1)) ∧
  (∀ (s : State) (i : Fin 4) (ack timeout : Bool) (data : Bytes) (t : I2cTx) (rest : List I2cTx), s.m.up = true → tat [] s.m.ln.i2c i = t :: rest →
    let absent := bit (s.m.rdN (Od.LANE_SB_IN t.lane)) 7
    let st := if absent then 5 else if timeout then 6 else if ack = false then 4 else 3
    absent = true ∨ t.busy = true → s.leads (.i2cTransactionDone i ack timeout data) fun b =>
      b.rd (Od.LANE_I2C_STATUS t.lane t.tenant) = (st : Nat) ∧ (tat [] b.ln.i2c i).length = rest.length ∧
        s.m.toldOne b t.tenant 0x3808 t.lane (st + (if st = 3 then t.len else 0) * 256) ∧
        (absent = false → s.m.sends b (.i2c t.lane t.op (s.m.rdN (Od.LANE_I2C_RATE t.lane)) t.dev t.page t.offset (if t.op = 2 then t.data else []))) ∧
        (st = 3 → t.op = 1 → (b.blob (Od.LANE_I2C_DATA t.lane t.tenant)).take (data.take t.len).length = data.take t.len))

/-- GNSS: a dwell, a coherent period, the measurement latch (R321, R323, R325, R326, R328, R329, R333). -/
def Obligations.GnssChannels : Prop :=
  (∀ (s : State) (e code svid : Nat) (elev : Int) (azim : Nat) (hit : Bool), s.m.up = true → s.m.gnssAwake = true → code ≤ 3 →
    s.m.sigOn code svid = true → s.m.tracks code svid = none → s.leads (.gnssDwell e code svid elev azim hit) fun b =>
      (hit = false → tget b.gn.engine e = none) ∧
      (hit = true → tget s.m.gn.engine e ≠ some (code, svid) → tget b.gn.engine e = some (code, svid)) ∧
      (∀ c, hit = true → tget s.m.gn.engine e = some (code, svid) → s.m.rd Od.GNSS_ELEV_MASK < elev →
        ((List.range 80).find? fun c => s.m.chState c == 0) = some c → tget b.gn.engine e = none ∧ b.rd (Od.GNSS_CH_STATE c) = 1 ∧
          b.rd (Od.GNSS_CH_SIGNAL c) = code ∧ b.rd (Od.GNSS_CH_SVID c) = svid ∧ b.rd (Od.GNSS_CH_ELEV c) = elev)) ∧
  (∀ (s : State) (c : Fin 80) (x : Coherent), s.m.up = true → s.m.gnssAwake = true → s.m.chState c ≠ 0 →
    s.leads (.gnssCoherentIntegration c x) fun b =>
      (x.elev + 2 ≤ s.m.rd Od.GNSS_ELEV_MASK → b.rd (Od.GNSS_CH_STATE c) = 0 ∧ b.gnssCh c = {}) ∧
      (s.m.rd Od.GNSS_ELEV_MASK < x.elev + 2 → x.codeLock = false → b.rd (Od.GNSS_CH_STATE c) = 1 ∧ (b.gnssCh c).lockAt = none ∧
        b.rd (Od.GNSS_CH_CN0 c) = x.cn0) ∧
      (∀ t, s.m.rd Od.GNSS_ELEV_MASK < x.elev + 2 → x.codeLock = true → (s.m.gnssCh c).lockAt = some t → ∃ b1 : Block,
        b = (if s.m.rdN (Od.GNSS_CH_SIGNAL c) ≤ 3 then b1.assign (s.m.rdN (Od.GNSS_CH_SIGNAL c) + 3) (s.m.rdN (Od.GNSS_CH_SVID c)) x.elev x.azim
          else b1).showGnss ∧ b1.rd (Od.GNSS_CH_STATE c) = 3 ∧ b1.rd (Od.GNSS_CH_CN0 c) = x.cn0 ∧
        (500 ≤ x.pli ∨ (s.m.gnssCh c).below = true → x.step.natAbs ≤ 250 →
          (b1.gnssCh c).lockAt = some t ∧ (b1.gnssCh c).slips = (s.m.gnssCh c).slips) ∧
        ((x.pli < 500 ∧ (s.m.gnssCh c).below = false) ∨ 250 < x.step.natAbs →
          (b1.gnssCh c).lockAt = some s.m.cyc ∧ (b1.gnssCh c).slips = ((s.m.gnssCh c).slips + 1) % 256))) ∧
  (∀ (s : State) (seen : List ChannelEpoch) (sol : Option Solution), s.m.up = true → s.m.gnssAwake = true →
    let tm := epochInstant (max 1 (s.m.rdN Od.GNSS_MEAS_RATE)) s.m.mer
    let kept := (List.range 80).filterMap fun c => if 2 ≤ s.m.chState c then seen.find? fun e => e.channel.val == c else none
    let used := ((kept.filter s.m.prUsed).map fun e => s.m.chSat e.channel).dedup.length
    let a := s.m.solve tm used sol
    (∀ t, s.m.gn.lastAt = some t → t < tm) → s.m.tm.mt.landed ≤ tm → a.rdN Od.GNSS_EPOCHS + 1 < keySize Od.GNSS_EPOCHS →
    s.leads (.gnssEpochLatch seen sol) fun b => ∃ (b1 : Block) (r : Bytes), b = b1.gnssQueue r ∧ r.length = 32 + 72 * kept.length ∧
      b1.gn.lastAt = some tm ∧ b1.gn.epoch = (a.gn.epoch + 1) % 2 ^ 32 ∧ b1.rd Od.GNSS_EPOCHS = a.rdN Od.GNSS_EPOCHS + 1 ∧
      b1.gn.queue = a.gn.queue ∧ (s.m.mg.srv.running = false → a = s.m))

/-- GNSS: antenna, jamming, duty cycle, keep data, records read (R320, R333, R336, R337, R338, R339). -/
def Obligations.GnssReceiver : Prop :=
  (∀ (s : State) (current : Nat) (limited : Bool), s.m.up = true → s.leads (.gnssAntChange current limited) fun b =>
    (s.m.antFed = false → b.rdN Od.GNSS_ANT_STATE = 0 ∧ b.gn.cut = false) ∧
    (s.m.antFed = true → s.m.gn.cut = false →
      (limited = false → b.rdN Od.GNSS_ANT_STATE = (if current < 30 then 2 else 1) ∧ b.gn.shortAt = none) ∧
      (limited = true → s.m.gn.shortAt = none → b.gn.shortAt = some s.m.cyc) ∧
      (∀ t, limited = true → s.m.gn.shortAt = some t → t + ms 10 ≤ s.m.cyc → b.rdN Od.GNSS_ANT_STATE = 3 ∧ b.gn.cut = true ∧
        b.gn.retryAt = s.m.cyc + secs 10 ∧ (s.m.rdN Od.GNSS_ANT_STATE ≠ 3 → s.m.reported b 0x4003 0 3)))) ∧
  (∀ s : State, s.m.up = true → s.m.antFed = true → s.m.gn.cut = true → s.m.gn.retryAt ≤ s.m.cyc → s.leads .gnssAntRetry fun b => b.gn.cut = false) ∧
  (∀ (s : State) (l1 l5 : Nat), s.m.up = true → s.m.gnssAwake = true →
    let gains := (s.m.cyc, l1, l5) :: s.m.gn.gains.takeWhile fun g => decide (s.m.cyc < g.1 + secs 86400)
    let fall := gainFall gains l1 l5
    s.leads (.gnssJamDetect l1 l5) fun b =>
      b.gn.gains = gains ∧ b.rd Od.GNSS_AGC = (l5 * 65536 + l1 : Nat) ∧ b.rd Od.GNSS_JAM_IND = (min 255 fall : Nat) ∧ (fall < 10 → b.gn.jamAt = none) ∧
      (10 ≤ fall → s.m.gn.jamAt = none → b.gn.jamAt = some s.m.cyc) ∧
      (∀ t, 10 ≤ fall → s.m.gn.jamAt = some t → t + secs 1 ≤ s.m.cyc → s.m.gn.jamRaised = false → b.gn.jamRaised = true ∧
        bit (b.rdN Od.GNSS_STICKY) 2 = true ∧ s.m.reported b 0x4004 0 (min 255 fall))) ∧
  (∀ s : State, s.m.up = true → s.m.fnRuns 85 = true → s.m.gn.awake = true → s.m.dutyOn = false → s.leads .gnssDutySleep fun b =>
    ∃ b1 : Block, b = b1.report 0x4009 ∧ b1.gn.awake = false ∧ b1.rdN Od.GNSS_FIX_CLASS = 0 ∧ ∀ c < 80, b1.chState c = 0) ∧
  (∀ s : State, s.m.up = true → s.m.fnRuns 85 = true → s.m.gn.awake = false → s.m.dutyOn = true → s.leads .gnssDutyWake fun b =>
    b.gn.awake = true ∧ b.gn.startAt = s.m.cyc ∧ b.rdN Od.GNSS_START_KIND ≤ 2 ∧ s.m.reported b 0x400A 0 0) ∧
  (∀ (s : State) (c : Caller) (token n : Nat), s.grants c (writeKey token Od.GNSS_KEEP_CLEAR 1) n = true →
    let a := s.m.door c (writeKey token Od.GNSS_KEEP_CLEAR 1) n
    s.leads (.gnssKeepClear c token) fun b =>
      (a.fnState 85 ≠ 0 → b.replied (s.m.asked c (writeKey token Od.GNSS_KEEP_CLEAR 1) n) 6 0 ∧ b.gn = a.gn) ∧
      (a.fnState 85 = 0 → b.replied (s.m.asked c (writeKey token Od.GNSS_KEEP_CLEAR 1) n) 0 0 ∧ b.gn.keep = {} ∧ b.gn.nand = {} ∧
        b.rd Od.GNSS_SURVEY_STATE = 0)) ∧
  (∀ s : State, s.m.up = true → s.m.gn.savedAt + secs 3600 ≤ s.m.cyc → s.m.mg.srv.running = true → s.m.nandHeld = false →
    s.leads .gnssKeepSave fun b => b.gn.savedAt = s.m.cyc ∧
      b.gn.nand = { almanac := s.m.gn.keep.almanac, pos := s.m.gn.keep.pos, survey := s.m.gn.keep.survey }) ∧
  (∀ (s : State) (c : Caller) (token n len : Nat), s.takes c (ringKey token Od.GNSS_RING_DATA len) n = true →
    let q := ringKey token Od.GNSS_RING_DATA len
    let r := (s.m.door c q n).readRecords (s.m.asked c q n).tenant 0x4003 (min len (segLimit c))
    s.leads (.gnssRingRead c token len) fun b => r.2.sameButBooks b ∧ b.repliedWith (s.m.asked c q n) r.1.length r.1.flatten)

/-- Stream engine: a sensor frame, an operator's block, the wait of ALIGN (R343, R346, R348, R352, R354, R359). -/
def Obligations.StreamsAndGraphs : Prop :=
  (∀ (s : State) (q : Nat) (x : CqFrame) (rest : List (Nat × CqFrame)), s.m.up = true → s.m.clockRuns .evorvo = true → s.m.clockRuns .lpddr = true →
    s.m.cp.inbox = (q, x) :: rest →
    let raw := ramBytes s.ram (s.m.handleAddr x.handle) x.len
    let a := (((s.m.setCp fun y => { y with inbox := rest }).lpRead (blocks (s.m.handleAddr x.handle) x.len)).releaseBuf x.handle).2
    s.leads .sensorFrameIngest fun b =>
      (a.readSensor (raw.drop 32) = .unknown → a.rdN Od.SE_UNKNOWN + 1 < keySize Od.SE_UNKNOWN → b.rd Od.SE_UNKNOWN = a.rdN Od.SE_UNKNOWN + 1) ∧
      (a.readSensor (raw.drop 32) = .malformed → a.rdN Od.SE_MALFORMED + 1 < keySize Od.SE_MALFORMED →
        b.rd Od.SE_MALFORMED = a.rdN Od.SE_MALFORMED + 1 ∧ bit (b.rdN Od.SE_STICKY) 0 = true) ∧
      (∀ (f : Sensor) (i : Nat), a.readSensor (raw.drop 32) = .sensor f →
        ((List.range 256).find? fun i => a.rdN (Od.STR_KIND i) == f.kind && a.rdN (Od.STR_KEY i) == f.key && a.rdN (Od.STR_CQ i) == q) = some i →
        f.channels = a.rdN (Od.STR_CHANNELS i) → (∀ r, f.rate = some r → r = a.rdN (Od.STR_RATE i)) →
        let g := a.rdN (Od.STR_GRAPH i)
        let t := firstTime f (ofLE (slice raw 0 2) + ofLE (slice raw 2 4) * 65536 + ofLE (slice raw 6 6) * ticksPerSec)
        (16 ≤ g ∨ a.fnRuns (86 + g) = false → a.rdN (Od.STR_DROPS i) + 1 < keySize (Od.STR_DROPS i) →
          b.rd (Od.STR_DROPS i) = a.rdN (Od.STR_DROPS i) + 1) ∧
        (g < 16 → a.fnRuns (86 + g) = true → a.rdN (Od.STR_TIMING i) = 0 → (a.stream i).exp = none → a.ingestCredit g i = true →
          ∃ (b1 : Block) (n : Nat), b = b1.pushAll g n ∧
            b1.stream i = ⟨some (t + sampleTime (a.rdN (Od.STR_RATE i)) (f.data.length / (f.width * f.channels))), false⟩))) ∧
  (∀ (s : State) (g : Fin 16) (id : Nat) (o : OpDesc) (x : Blk) (rest : List Blk), s.m.up = true → s.m.fnState (86 + g) ≠ 0 → s.m.clockRuns .evorvo = true →
    s.m.clockRuns .lpddr = true → s.m.agreed (Boundary.edge g).no = true → (s.m.graph g).ops[id]? = some o → o.id = id → o.op ≠ 1 → o.op ≠ 8 →
    s.m.edgesFree g id = true → s.m.sumsWait g o = false → (s.m.opSt g id).edge = x :: rest → s.leads (.operatorBlock g id) fun b => ∃ b1 : Block, b = b1.pushAll g 8 ∧
      b1 = ((s.m.setOp g id fun y => { y with edge := rest }).bump Od.CNT_FIXED_MACS (opCost o * (x.cols.map (·.length)).sum)).runBlock g o x ∧
      (o.op = 7 → (consumers (s.m.graph g).ops id).Nodup → ∀ k ∈ consumers (s.m.graph g).ops id, k ≠ id →
        (b1.opSt g k).edge = (s.m.opSt g k).edge ++ [{ x with kind := 1, data := x.cols.map compress }])) ∧
  (∀ (s : State) (g : Fin 16) (id : Nat) (o : OpDesc) (n : Nat), s.m.up = true → (s.m.graph g).ops[id]? = some o → o.id = id → o.op = 1 →
    s.m.fnState (86 + g) ≠ 0 → s.m.alignGrid g o = some n → s.m.edgesFree g id = true →
    upTo (gridTick (ofLE (slice o.params 4 4)) (n + (s.m.graph g).block - 1) + ofLE (slice o.params 12 4) * 65536000000) s.m.mer = true →
    s.leads (.alignWaitExpiry g id) fun b => (b.opSt g id).grid = some (n + (s.m.graph g).block) ∧
      (b.opSt g id).reached = gridTick (ofLE (slice o.params 4 4)) (n + (s.m.graph g).block - 1))

/-- The archive: flash pages, NVMe writes and flushes, seek, read (R365, R366, R367, R368, R388). -/
def Obligations.Archive : Prop :=
  (∀ s : State, s.m.up = true → s.m.fnRuns 103 = true → s.m.mg.srv.running = true → s.m.nandHeld = false → 16384 + s.m.arc.flashPart ≤ waitingFor (·.flash) s.m.arc.staged →
    s.leads .archiveFlashWrite fun b => b.arc.written = s.m.arc.written + 16384 ∧
      b.rd Od.ARC_FLASH_WEAR = (min ((s.m.arc.written + 16384) * 10000 / flashLife) 65535 : Nat) ∧
      ∀ r, firstFor (·.flash) s.m.arc.staged = some r → r.length - s.m.arc.flashPart ≤ 16384 →
        (s.m.arc.flashSeq, r.bytes s.m.arc.flashSeq) ∈ b.arc.flash) ∧
  (∀ (s : State) (done : Bool), s.m.up = true → s.m.fnRuns 103 = true → s.m.mg.srv.running = true → s.m.rdN Od.ARC_NVME_STATE = 1 →
    131072 + s.m.arc.nvmePart ≤ waitingFor (·.nvme) s.m.arc.staged →
    let lb := if Config.logicalBlock = 4096 then 4096 else 512
    let from_ := s.m.rdN Od.ARC_NVME_LBA_START * lb
    let start := divUp from_ 131072 * 131072
    let cap := (from_ + s.m.rdN Od.ARC_NVME_LBA_COUNT * lb - start) / 131072 * 131072
    s.leads (.archiveNvmeWrite done) fun b =>
      (done = true → cap ≠ 0 → b.arc.nvmeUsed = s.m.arc.nvmeUsed + 131072 ∧ s.m.sends b (.nvme 1
        ((start + s.m.arc.nvmeUsed % cap) / lb) (slice (streamFrom s.m.arc.staged s.m.arc.nvmeSeq) s.m.arc.nvmePart 131072))) ∧
      (done = false → s.m.arc.nvmeTries + 1 ≤ s.m.rdN (Od.DMA_RETRIES 63) → b.arc.nvmeTries = s.m.arc.nvmeTries + 1 ∧
        b.rdN Od.ARC_NVME_STATE = 1) ∧
      (done = false → s.m.rdN (Od.DMA_RETRIES 63) ≤ s.m.arc.nvmeTries → b.rd Od.ARC_NVME_STATE = 2 ∧ s.m.reported b 0x5006 0 0)) ∧
  (∀ (s : State) (done : Bool), s.m.up = true → s.m.fnRuns 103 = true → s.m.mg.srv.running = true → s.m.rdN Od.ARC_NVME_STATE = 1 → s.m.arc.flushAt + secs 1 ≤ s.m.cyc →
    s.m.arc.nvmeUsed ≠ s.m.arc.flushed → s.leads (.archiveNvmeFlush done) fun b =>
      (done = true → s.m.sends b (.nvme 0 0 []) ∧ b.arc.flushAt = s.m.cyc ∧ b.arc.flushed = s.m.arc.nvmeUsed) ∧
      (done = false → s.m.rdN (Od.DMA_RETRIES 63) ≤ s.m.arc.nvmeTries → b.rd Od.ARC_NVME_STATE = 2)) ∧
  (∀ (s : State) (c : Caller) (token n j : Nat), s.grants c (writeKey token Od.ARC_SEEK 1) n = true →
    let a := s.m.door c (writeKey token Od.ARC_SEEK 1) n
    a.jobObject 4 = some j → s.leads (.arcSeek c token) fun b => b.replied (s.m.asked c (writeKey token Od.ARC_SEEK 1) n) 0 a.mg.nextJob ∧
      b.rd (Od.JOB_STATE j) = 1 ∧ b.rd (Od.JOB_KIND j) = 4 ∧ (b.job j).arg = (s.m.asked c (writeKey token Od.ARC_SEEK 1) n).tenant) ∧
  (∀ (s : State) (j : Nat), s.m.up = true → s.m.liveJob 4 = some j →
    let t := (s.m.job j).arg
    let ring := s.m.arcRing (s.m.rdN (Od.ARC_RD_TARGET t))
    t < 8 → s.leads .arcSeekComplete fun b => b.rd (Od.JOB_STATE j) = 3 ∧ s.m.reported b 0x5007 t 0 ∧
      (∀ r, (ring.1.reverse.find? fun r => decide (s.m.rdN (Od.ARC_SEEK_TIME t) ≤ whenOf r.2)) = some r → b.rd (Od.ARC_RD t) = r.1) ∧
      ((ring.1.reverse.find? fun r => decide (s.m.rdN (Od.ARC_SEEK_TIME t) ≤ whenOf r.2)) = none → b.rd (Od.ARC_RD t) = ring.2)) ∧
  (∀ (s : State) (c : Caller) (token n len : Nat), s.takes c (ringKey token Od.ARC_DATA len) n = true →
    let q := ringKey token Od.ARC_DATA len
    let r := (s.m.door c q n).readRecords (s.m.asked c q n).tenant 0x5040 (min len (segLimit c))
    s.leads (.arcRead c token len) fun b => r.2.sameButBooks b ∧ b.repliedWith (s.m.asked c q n) r.1.length r.1.flatten)

/-- DMA descriptors: copy, gather, allocation, reference, release, and their completion (R373, R374, R375, R376, R382, R383, R385). -/
def Obligations.DmaDescriptors : Prop :=
  (∀ (b : Block) (c : Fin 64) (result bytes : Nat) (irq : Bool), (b.complete c result bytes irq).rd (Od.DMA_HEAD c) = ((b.rdN (Od.DMA_HEAD c) + 1) % 2 ^ 32 : Nat) ∧
    (b.rdN (Od.DMA_RING_SPACE c) = 0 → b.sends (b.complete c result bytes irq)
      (.pcieWrite (b.rdN (Od.DMA_FUNCTION c)) (b.headSlot c + 28) (toLE 4 (statusBits result bytes)))) ∧
    (b.rdN (Od.DMA_RING_SPACE c) ≠ 0 → (b.poolAddr (b.headSlot c + 28), toLE 4 (statusBits result bytes)) ∈ (b.complete c result bytes irq).pokes)) ∧
  (∀ (s : State) (ch : Fin 64) (desc data raw : Bytes) (beats : Option Nat), s.m.up = true → s.m.dmaFree ch 0 = true → s.m.headDesc s.ram ch desc = some raw →
    let d := readDescriptor raw
    let f := s.m.spaceFault ch d.srcSpace d.src d.len
    let g := s.m.spaceFault ch d.dstSpace d.dst d.len
    let bytes := if d.srcSpace = 0 then data else ramBytes s.ram (s.m.poolAddr d.src) d.len
    let alone := beats = none ∧ s.m.cp.dma.all (fun e => e.2.job.isNone) = true
    s.leads (.dmaCopy ⟨ch, beats⟩ desc data) fun b => (5 ≤ d.op → b = s.m.complete ch 5 0 d.irq) ∧
      (d.op = 0 → f = 3 ∨ g = 3 → b = s.m.complete ch 3 0 d.irq) ∧
      (d.op = 0 → f ≠ 3 → g ≠ 3 → f = 5 ∨ g = 5 ∨ d.len = 0 ∨ 16777216 < d.len → b = s.m.complete ch 5 0 d.irq) ∧
      (d.op = 0 → f = 0 → g = 0 → 1 ≤ d.len → d.len ≤ 16777216 → (d.srcSpace = 0 → data.length = d.len) → ∃ b1 : Block,
        (alone → b = b1.complete ch 0 d.len d.irq ∧ (d.dstSpace = 0 → s.m.sends b1 (.pcieWrite (s.m.rdN (Od.DMA_FUNCTION ch)) d.dst bytes)) ∧
          (d.dstSpace ≠ 0 → (s.m.poolAddr d.dst, bytes) ∈ b1.pokes)) ∧
        (¬alone → b = Block.dmaBeats s.ram (beats.getD 0) b1 ∧ (b1.dma ch).job = some ⟨.desc, raw,
          [if d.srcSpace = 0 then .bytes data else .pool (s.m.poolAddr d.src) d.len], [], d.dstSpace, d.dst, 0, 0⟩))) ∧
  (∀ (s : State) (ch : Fin 64) (desc data raw : Bytes), s.m.up = true → s.m.dmaFree ch 0 = true → s.m.headDesc s.ram ch desc = some raw →
    let d := readDescriptor raw
    let tab := if d.srcSpace = 0 then data.take (4 * d.count) else ramBytes s.ram (s.m.poolAddr d.src) (4 * d.count)
    let host := if d.srcSpace = 0 then data.drop (4 * d.count) else data
    let r := s.m.gather ch d.len (offsets d.count tab) host
    let l := (r.1.map (Piece.all s.ram)).flatten
    d.op = 1 → s.m.spaceFault ch d.srcSpace d.src (4 * d.count) = 0 → s.m.spaceFault ch d.dstSpace d.dst (d.len * d.count) = 0 →
    (s.m.rdN (Od.DMA_GATHER_SPACE ch) = 0 ∨ s.m.poolFault ch (s.m.rdN (Od.DMA_GATHER_BASE ch)) 0 = 0) → d.len ≠ 0 → d.count ≠ 0 →
    d.len * d.count ≤ 16777216 → data.length = (if d.srcSpace = 0 then 4 * d.count else 0) + (if s.m.rdN (Od.DMA_GATHER_SPACE ch) = 0 then
      d.len * ((offsets d.count tab).filter (· != 0xFFFFFFFF)).length else 0) → s.m.cp.dma.all (fun e => e.2.job.isNone) = true →
    s.leads (.dmaGather ⟨ch, none⟩ desc data) fun b => ∃ b1 : Block, b = b1.complete ch (if r.2 then 5 else 0) l.length d.irq ∧
        (l ≠ [] → d.dstSpace = 0 → s.m.sends b1 (.pcieWrite (s.m.rdN (Od.DMA_FUNCTION ch)) d.dst l)) ∧
        (l ≠ [] → d.dstSpace ≠ 0 → (s.m.poolAddr d.dst, l) ∈ b1.pokes)) ∧
  (∀ (s : State) (ch : Fin 64) (desc raw : Bytes), s.m.up = true → s.m.dmaFree ch 0 = true → s.m.headDesc s.ram ch desc = some raw →
    let d := readDescriptor raw
    let a := s.m.retried ch
    d.op = 2 → s.leads (.dmaAlloc ch desc) fun b => (d.len = 0 ∨ 262144 < d.len → b = a.complete ch 5 0 d.irq) ∧
      (1 ≤ d.len → d.len ≤ 262144 → s.m.fnRuns 102 = false → b = a.complete ch 4 0 d.irq) ∧
      (∀ h a', 1 ≤ d.len → d.len ≤ 262144 → s.m.fnRuns 102 = true → a.request ch d.len (s.m.rdN (Od.DMA_TENANT ch)) = (.buffer h, a') →
        b = a'.allocDone ch h d.irq) ∧
      (∀ a', 1 ≤ d.len → d.len ≤ 262144 → s.m.fnRuns 102 = true → a.request ch d.len (s.m.rdN (Od.DMA_TENANT ch)) = (.waits, a') →
        (b.dma ch).wait = some raw ∧ b.rd (Od.DMA_STATUS ch) = 2 ∧ b.rd (Od.DMA_HEAD ch) = s.m.rd (Od.DMA_HEAD ch)) ∧
      (∀ a', 1 ≤ d.len → d.len ≤ 262144 → s.m.fnRuns 102 = true → a.request ch d.len (s.m.rdN (Od.DMA_TENANT ch)) = (.refused, a') →
        b = a'.complete ch 4 0 d.irq)) ∧
  (∀ (s : State) (ch : Fin 64) (desc raw : Bytes), s.m.up = true → s.m.dmaFree ch 0 = true → s.m.headDesc s.ram ch desc = some raw →
    let d := readDescriptor raw
    let h := d.src % 2 ^ 32
    d.op = 3 → s.leads (.dmaRef ch desc) fun b =>
      (s.m.handleOk h = false → b = (s.m.retried ch).complete ch 5 0 d.irq) ∧
      (s.m.handleOk h = true → s.m.buf h = none → b = (s.m.retried ch).complete ch 3 0 d.irq) ∧
      (∀ x, s.m.handleOk h = true → s.m.buf h = some x → x.owner ≠ s.m.rdN (Od.DMA_TENANT ch) → b = (s.m.retried ch).complete ch 3 0 d.irq) ∧
      (∀ x, s.m.handleOk h = true → s.m.buf h = some x → x.owner = s.m.rdN (Od.DMA_TENANT ch) → x.refs = 65535 →
        b = (s.m.retried ch).complete ch 5 0 d.irq) ∧
      (∀ x, s.m.handleOk h = true → s.m.buf h = some x → x.owner = s.m.rdN (Od.DMA_TENANT ch) → x.refs ≠ 65535 → ∃ b1 : Block,
        b = b1.complete ch 0 0 d.irq ∧ b1.buf h = some { x with refs := x.refs + 1 } ∧ b.buf h = some { x with refs := x.refs + 1 })) ∧
  (∀ (s : State) (ch : Fin 64) (desc raw : Bytes), s.m.up = true → s.m.dmaFree ch 0 = true → s.m.headDesc s.ram ch desc = some raw →
    let d := readDescriptor raw
    let h := d.src % 2 ^ 32
    d.op = 4 → s.leads (.dmaRelease ch desc) fun b =>
      (s.m.buf h = none → ∃ b1 : Block, b = b1.complete ch 5 0 d.irq ∧ bit (b1.rdN Od.POOL_STICKY) 1 = true ∧ s.m.reported b1 0x5102 (handlePool h) 0) ∧
      (∀ x, s.m.buf h = some x → x.owner ≠ s.m.rdN (Od.DMA_TENANT ch) → b = (s.m.retried ch).complete ch 3 0 d.irq) ∧
      (∀ x, s.m.buf h = some x → x.owner = s.m.rdN (Od.DMA_TENANT ch) → ∃ b1 : Block, b = b1.complete ch 0 0 d.irq ∧
        (2 ≤ x.refs → b1.buf h = some { x with refs := x.refs - 1 }) ∧
        (x.refs ≤ 1 → (∀ q < 4, tat [] s.m.cp.waits q = []) → b1.buf h = none ∧
          b1.rd (Od.POOLP_FREE (handlePool h)) = s.m.rdN (Od.POOLP_FREE (handlePool h)) + 1)))

/-- DMA: bus errors and retries, resume, doorbells, frames to a host, following a ring, the hold-off, and which
channel's beat is granted (R380, R381, R382, R383, R386, R387, R389, R391, R393). -/
def Obligations.DmaChannels : Prop :=
  (∀ (s : State) (ch : Fin 64) (cause : Nat) (write pool : Bool) (addr done : Nat), s.m.up = true → s.m.fnRuns (104 + ch) = true →
    s.m.rdN (Od.DMA_STATUS ch) ≠ 3 → (s.m.dma ch).retryAt = none → s.m.rdN (Od.DMA_HEAD ch) ≠ s.m.rdN (Od.DMA_TAIL ch) ∨ s.m.rdN (Od.DMA_MODE ch) = 2 →
    1 ≤ cause → cause ≤ 7 → (s.m.dma ch).reissued = false ∨ (s.m.dma ch).errAddr = addr → s.leads (.dmaBusError ch cause write pool addr done) fun b =>
      ((s.m.dma ch).tries < s.m.rdN (Od.DMA_RETRIES ch) → (b.dma ch).retryAt = some (s.m.cyc + us 1) ∧ (b.dma ch).tries = (s.m.dma ch).tries + 1 ∧
        b.rd (Od.DMA_STATUS ch) = s.m.rd (Od.DMA_STATUS ch)) ∧
      (s.m.rdN (Od.DMA_RETRIES ch) ≤ (s.m.dma ch).tries → b.rd (Od.DMA_STATUS ch) = 3 ∧ b.rd (Od.DMA_ERR_ADDR ch) = addr ∧
        b.rd (Od.DMA_ERR_INFO ch) = (b2n write * 2 ^ 15 + b2n pool * 2 ^ 14 + cause * 2 ^ 10 + ((s.m.dma ch).tries + 1) * 2 ^ 6 : Nat) ∧
        b.rd (Od.DMA_ERR_DESC ch) = s.m.rd (Od.DMA_HEAD ch) ∧ bit (b.rdN (Od.DMA_STICKY ch)) 0 = true ∧ s.m.reported b 0x5202 ch 0)) ∧
  (∀ (s : State) (ch : Fin 64) (t : Nat), s.m.up = true → (s.m.dma ch).retryAt = some t → t ≤ s.m.cyc → s.leads (.dmaRetry ch) fun b =>
    (b.dma ch).retryAt = none ∧ (b.dma ch).reissued = true) ∧
  (∀ (s : State) (c : Caller) (token n : Nat) (ch : Fin 64), s.grants c (writeKey token (Od.DMA_RESUME ch) 1) n = true →
    let a := s.m.door c (writeKey token (Od.DMA_RESUME ch) 1) n
    s.leads (.dmaResumeRetry c token ch) fun b =>
      (a.rdN (Od.DMA_STATUS ch) ≠ 3 → b.replied (s.m.asked c (writeKey token (Od.DMA_RESUME ch) 1) n) 6 0 ∧ a.sameButBooks b) ∧
      (a.rdN (Od.DMA_STATUS ch) = 3 → b.replied (s.m.asked c (writeKey token (Od.DMA_RESUME ch) 1) n) 0 0 ∧ b.rdN (Od.DMA_STATUS ch) ≠ 3 ∧
        b.rd (Od.DMA_HEAD ch) = a.rd (Od.DMA_HEAD ch))) ∧
  (∀ (s : State) (c : Caller) (token n : Nat) (ch : Fin 64), s.grants c (writeKey token (Od.DMA_RESUME ch) 2) n = true →
    let a := s.m.door c (writeKey token (Od.DMA_RESUME ch) 2) n
    s.leads (.dmaResumeSkip c token ch) fun b =>
      (a.rdN (Od.DMA_STATUS ch) ≠ 3 → b.replied (s.m.asked c (writeKey token (Od.DMA_RESUME ch) 2) n) 6 0 ∧ a.sameButBooks b) ∧
      (a.rdN (Od.DMA_STATUS ch) = 3 → b.replied (s.m.asked c (writeKey token (Od.DMA_RESUME ch) 2) n) 0 0 ∧ b.rdN (Od.DMA_STATUS ch) ≠ 3 ∧
        bit (b.rdN (Od.DMA_STICKY ch)) 1 = true ∧
        (a.rdN (Od.DMA_MODE ch) ≠ 2 → b.rd (Od.DMA_HEAD ch) = ((a.rdN (Od.DMA_HEAD ch) + 1) % 2 ^ 32 : Nat)))) ∧
  (∀ (s : State) (fn : Fin 4) (ch : Fin 64) (v : Nat), s.m.up = true → s.m.pcieUp fn = true → s.leads (.dmaDoorbell (.bar2 fn) ch v) fun b =>
    (s.m.rdN (Od.DMA_FUNCTION ch) ≠ fn.val ∨ s.m.fnRuns (104 + ch) = false → s.m.rdN (Od.DMA_DOORBELL_DROPS ch) + 1 < keySize (Od.DMA_DOORBELL_DROPS ch) →
      b.rd (Od.DMA_DOORBELL_DROPS ch) = s.m.rdN (Od.DMA_DOORBELL_DROPS ch) + 1 ∧ b.rd (Od.DMA_TAIL ch) = s.m.rd (Od.DMA_TAIL ch)) ∧
    (s.m.rdN (Od.DMA_FUNCTION ch) = fn.val → s.m.fnRuns (104 + ch) = true → v < 2 ^ 32 → s.m.rdN (Od.DMA_MODE ch) ≠ 2 →
      (s.m.rdN (Od.DMA_RING_SIZE ch) < (v + 2 ^ 32 - s.m.rdN (Od.DMA_HEAD ch)) % 2 ^ 32 → bit (b.rdN (Od.DMA_STICKY ch)) 4 = true ∧
        b.rd (Od.DMA_TAIL ch) = s.m.rd (Od.DMA_TAIL ch)) ∧
      ((v + 2 ^ 32 - s.m.rdN (Od.DMA_HEAD ch)) % 2 ^ 32 ≤ s.m.rdN (Od.DMA_RING_SIZE ch) → b.rd (Od.DMA_TAIL ch) = v))) ∧
  (∀ (s : State) (c : Caller) (token n v : Nat) (ch : Fin 64), s.grants c (writeKey token (Od.DMA_TAIL ch) v) n = true → v < 2 ^ 32 →
    s.leads (.dmaDoorbell (.entry c token) ch v) fun b => b.replied (s.m.asked c (writeKey token (Od.DMA_TAIL ch) v) n) 0 0 ∧
      ((s.m.door c (writeKey token (Od.DMA_TAIL ch) v) n).dmaTail ch v true).sameButBooks b) ∧
  (∀ (s : State) (ch : Fin 64) (desc raw : Bytes) (f : CqFrame) (rest : List CqFrame), s.m.up = true → s.m.dmaFree ch 1 = true →
    s.m.headDesc s.ram ch desc = some raw → (s.m.dma ch).frames = f :: rest →
    let d := readDescriptor raw
    let l := ramBytes s.ram (s.m.handleAddr f.handle) f.len
    d.len ≠ 0 → f.len ≠ 0 → s.m.cp.dma.all (fun e => e.2.job.isNone) = true → s.leads (.dmaCqRxFrame ⟨ch, none⟩ desc) fun b =>
      (s.m.spaceFault ch d.dstSpace d.dst (min d.len f.len) ≠ 0 →
        b = s.m.complete ch (s.m.spaceFault ch d.dstSpace d.dst (min d.len f.len)) 0 d.irq) ∧
      (s.m.spaceFault ch d.dstSpace d.dst (min d.len f.len) = 0 → f.len ≤ d.len → ∃ b1 : Block, b = b1.complete ch 0 f.len d.irq ∧
        (d.dstSpace = 0 → s.m.sends b1 (.pcieWrite (s.m.rdN (Od.DMA_FUNCTION ch)) d.dst l)) ∧
        (d.dstSpace ≠ 0 → (s.m.poolAddr d.dst, l) ∈ b1.pokes)) ∧
      (s.m.spaceFault ch d.dstSpace d.dst (min d.len f.len) = 0 → d.len < f.len → ∃ b1 : Block,
        b = (((b1.complete ch 6 d.len d.irq).bump (Od.DMA_TRUNCATED ch) 1).orBits (Od.DMA_STICKY ch) 4).raiseLim 0x5204 ch)) ∧
  (∀ (s : State) (ch : Fin 64) (r : Bytes) (more : List Bytes), s.m.up = true → s.m.dmaFree ch 2 = true →
    let src := s.m.sourceRing ch
    let at_ := (s.m.dma ch).src
    let r' := if 2 ≤ s.m.rdN (Od.DMA_SOURCE_RING ch) then s.m.maskDump (s.m.rdN (Od.DMA_TENANT ch)) r else r
    let item := padTo (divUp (8 + r'.length) 8 * 8) (toLE 4 r'.length ++ toLE 4 at_ ++ r')
    let size := s.m.rdN (Od.DMA_RING_SIZE ch)
    let head := s.m.rdN (Od.DMA_HEAD ch)
    let room := size - (head + 2 ^ 32 - s.m.rdN (Od.DMA_TAIL ch)) % 2 ^ 32
    (src.2.2 + 2 ^ 32 - at_) % 2 ^ 32 ≤ src.2.1 → ringFrom src.1 src.2.2 at_ 1 = r :: more → item.length ≤ size - head % size →
    s.m.cp.dma.all (fun e => e.2.job.isNone) = true → s.leads (.dmaRingFollowRecord ⟨ch, none⟩) fun b => (room < item.length → b.rd (Od.DMA_STATUS ch) = 2 ∧ b.rd (Od.DMA_HEAD ch) = s.m.rd (Od.DMA_HEAD ch)) ∧
      (item.length ≤ room → s.m.sends b (.pcieWrite (s.m.rdN (Od.DMA_FUNCTION ch)) (s.m.rdN (Od.DMA_RING_BASE ch) + head % size) item) ∧
        b.rd (Od.DMA_HEAD ch) = ((head + item.length) % 2 ^ 32 : Nat) ∧ (b.dma ch).src = (at_ + 1) % 2 ^ 32)) ∧
  (∀ (s : State) (ch : Fin 64) (w t : Nat), s.m.up = true → (s.m.dma ch).irqWait = some w → (s.m.dma ch).irqAt = some t →
    t + us (s.m.rdN (Od.DMA_IRQ_HOLDOFF ch)) ≤ s.m.cyc → s.leads (.dmaIrqHoldoffExpiry ch) fun b => (b.dma ch).irqAt = some s.m.cyc ∧
      (b.dma ch).irqWait = none ∧ s.m.reportedOne b (s.m.rdN (Od.DMA_TENANT ch)) 0x5201 ch 0) ∧
  (∀ (b : Block) (m : Memory) (c : Nat) (j : DmaJob), b.beatWinner = some c → (b.dma c).job = some j →
    b.canBeat c = true ∧ (∀ d, b.canBeat d = true → b.rdN (Od.DMA_PRIORITY d) ≤ b.rdN (Od.DMA_PRIORITY c)) ∧ (b.dmaBeat m).cp.lastWin = c ∧
    ((j.beat (b.ramAfter m)).1.ended = false → ((b.dmaBeat m).dma c).job = some (j.beat (b.ramAfter m)).1 ∧
      (b.dmaBeat m).pokes = b.pokes ++ (if j.space = 0 ∨ (j.beat (b.ramAfter m)).2 = [] then []
        else [(b.poolAddr (j.to_ + j.written), (j.beat (b.ramAfter m)).2)]) ∧
      ∀ d, d ≠ c → ((b.dmaBeat m).dma d).job = (b.dma d).job))

/-- Requests: the checks in their order, reads, writes in and out of range (R10, R399, R400, R401, R527). -/
def Obligations.DictionaryRequests : Prop :=
  (∀ (s : State) (c : Caller) (q : Request) (n : Nat), s.serves c q n = true →
    let a := s.m.door c q n
    let w := s.m.asked c q n
    s.leads (.odRead c q) fun b => (malformed c q = true → b.replied w 9 0 ∧ a.sameButBooks b) ∧
      (malformed c q = false → rowOf (key q.index q.sub) = none → b.replied w 2 0 ∧ a.sameButBooks b) ∧
      (∀ e why, malformed c q = false → rowOf (key q.index q.sub) = some e → a.refusal w.tenant w.owner e q.op q.index q.sub = some why →
        b.replied w 3 why ∧ a.sameButBooks b) ∧
      (∀ e, malformed c q = false → rowOf (key q.index q.sub) = some e → a.refusal w.tenant w.owner e q.op q.index q.sub = none →
        typeWrong e q = true → b.replied w 4 0 ∧ a.sameButBooks b)) ∧
  (∀ (s : State) (c : Caller) (q : Request) (n : Nat) (e : Entry), s.takes c q n = true → q.op = 1 → rowOf (key q.index q.sub) = some e →
    let k := (s.m.door c q n).entryKey (s.m.asked c q n).tenant e q.index q.sub
    let r := (s.m.door c q n).readEntry (s.m.asked c q n).tenant e k (s.m.asked c q n).latch
    s.leads (.odRead c q) fun b => r.2.sameButBooks b ∧
      b.answers c (reply q (typeCode e.ty) 0 0 r.1 (if isCounter k then some (r.2.genOf k) else none))) ∧
  (∀ (s : State) (c : Caller) (q : Request) (n : Nat) (e : Entry), s.grants c { q with op := 2 } n = true → rowOf (key q.index q.sub) = some e →
    e.acc = .rw ∨ e.acc = .rws → (∀ x, e.ty ≠ .octets x ∧ e.ty ≠ .string x) →
    let a := s.m.door c { q with op := 2 } n
    let w := s.m.asked c { q with op := 2 } n
    let k := a.entryKey w.tenant e q.index q.sub
    s.leads (.odWrite c q) fun b => (decodeVal e.ty (q.data.take q.length) = none → b.replied w 5 0 ∧ a.sameButBooks b) ∧
      (∀ v, decodeVal e.ty (q.data.take q.length) = some v → a.valueOk e k v = false → accessOf e q.index q.sub ≠ .cmd →
        b.replied w 5 0 ∧ a.sameButBooks b) ∧
      (∀ v, decodeVal e.ty (q.data.take q.length) = some v → a.valueOk e k v = true → accessOf e q.index q.sub ≠ .cmd →
        b.replied w 0 0 ∧ (a.putNum w.tenant k v).sameButBooks b))

/-- DOMAIN values in segments, and their time (R403). -/
def Obligations.DomainSegments : Prop :=
  (∀ (s : State) (c : Caller) (q : Request) (n : Nat) (e : Entry), s.takes c { q with op := 3 } n = true → rowOf (key q.index q.sub) = some e →
    recordEntry q.index q.sub = false →
    let a := s.m.door c { q with op := 3 } n
    let w := s.m.asked c { q with op := 3 } n
    let v := a.domainValue (a.entryKey w.tenant e q.index q.sub)
    let room := min q.length (segLimit c)
    s.leads (.odReadSeg c q) fun b =>
      (q.offset = 0 → b.repliedWith w v.length (v.take room) ∧
        tget b.mg.srv.snaps (keyAt w.tenant q.index q.sub) = some ⟨q.index, q.sub, v, a.cyc⟩) ∧
      (∀ x, q.offset ≠ 0 → tget a.mg.srv.snaps (keyAt w.tenant q.index q.sub) = some x → a.cyc < x.at_ + segmentLife →
        b.repliedWith w x.bytes.length ((x.bytes.drop q.offset).take room)) ∧
      (q.offset ≠ 0 → tget a.mg.srv.snaps (keyAt w.tenant q.index q.sub) = none → b.replied w 8 0)) ∧
  (∀ (s : State) (c : Caller) (q : Request) (n : Nat) (e : Entry), s.takes c { q with op := 4 } n = true → rowOf (key q.index q.sub) = some e →
    let a := s.m.door c { q with op := 4 } n
    let w := s.m.asked c { q with op := 4 } n
    let k := a.entryKey w.tenant e q.index q.sub
    let sk := keyAt w.tenant q.index q.sub
    a.pr.back = none → a.writeBarred w.tenant k (accessOf e q.index q.sub) 0 = false → q.length ≤ 4080 → s.leads (.odWriteSeg c q) fun b =>
      (q.offset = 0 → q.flags % 2 = 0 → b.replied w 0 0 ∧ tget b.mg.srv.accs sk = some ⟨q.index, q.sub, q.data.take q.length, a.cyc⟩) ∧
      (q.offset = 0 → q.flags % 2 = 1 → (k / 256 % 65536 < 0x3240 ∨ 0x3260 ≤ k / 256 % 65536) → b.replied w 0 0 ∧
        b.blob k = q.data.take q.length ∧ tget b.mg.srv.accs sk = none) ∧
      (q.offset ≠ 0 → tget a.mg.srv.accs sk = none → b.replied w 8 0 ∧ b.blob k = a.blob k)) ∧
  (∀ s : State, s.m.up = true → s.leads .domainSegTimeout fun b =>
    (∀ e ∈ b.mg.srv.accs ++ b.mg.srv.snaps, s.m.cyc < e.2.at_ + secs 10) ∧
      ∀ e, s.m.cyc < e.2.at_ + secs 10 → (e ∈ s.m.mg.srv.accs → e ∈ b.mg.srv.accs) ∧ (e ∈ s.m.mg.srv.snaps → e ∈ b.mg.srv.snaps))

/-- Sticky status bits are cleared by a write of 1 alone (R12). -/
def Obligations.StickyBits : Prop :=
  ∀ (s : State) (c : Caller) (token index sub n v : Nat) (e : Entry), s.grants c (writeRequest token index sub v) n = true →
    rowOf (key index sub) = some e → index < 65536 → sub < 256 →
    let a := s.m.door c (writeRequest token index sub v) n
    let k := a.entryKey (s.m.asked c (writeRequest token index sub v) n).tenant e index sub
    isSticky k = true → (v : Int) < typeSize e.ty → (index < 0x1110 ∨ 0x1118 ≤ index) → ¬(k = Od.SAFE_STICKY ∧ a.on Od.FI_ENABLE = true) →
    (∀ p vid src, c = .inband p vid src → k ≠ Od.FIP_STICKY p) →
    s.leads (.stickyClearWrite c token index sub v) fun b =>
      b.replied (s.m.asked c (writeRequest token index sub v) n) 0 0 ∧ ∀ i, bit (b.rdN k) i = (bit (a.rdN k) i && !bit v i)

/-- Paths: CAN fragments, mailboxes, event rings, arrival points, events out, the watchdog (R405, R406, R407, R408, R409, R410, R413, R417). -/
def Obligations.PathsAndEvents : Prop :=
  (∀ (s : State) (ctrl : Fin 2) (src ctl : Nat) (data : Bytes), s.m.up = true → s.m.canOn ctrl = true →
    let dest := s.m.rdN (if ctrl = 0 then Od.MP_CAN0_NODE else Od.MP_CAN1_NODE)
    let k := ctrl.val * 256 + src
    s.leads (.canFragmentRx ctrl dest src ctl data) fun b =>
      (bit ctl 7 = true → bit ctl 6 = true → ctl % 64 = 0 → tget s.m.mg.srv.can k = none →
        b = (s.m.setSrv fun x => { x with can := tdel x.can k }).submit (.can ctrl src) (requestOf (padTo 63 data))) ∧
      (bit ctl 7 = true → bit ctl 6 = false → ctl % 64 = 0 → tget b.mg.srv.can k = some ⟨1, padTo 63 data, s.m.cyc⟩) ∧
      (∀ x, bit ctl 7 = false → bit ctl 6 = false → tget s.m.mg.srv.can k = some x → ctl % 64 = x.next → x.next < 5 →
        tget b.mg.srv.can k = some ⟨x.next + 1, x.bytes ++ padTo 63 data, s.m.cyc⟩) ∧
      (∀ x, bit ctl 7 = false → tget s.m.mg.srv.can k = some x → ctl % 64 ≠ x.next → s.m.rdN Od.MP_CAN_ERRORS + 1 < keySize Od.MP_CAN_ERRORS →
        tget b.mg.srv.can k = none ∧ b.rd Od.MP_CAN_ERRORS = s.m.rdN Od.MP_CAN_ERRORS + 1)) ∧
  (∀ (s : State) (k : Nat) (x : CanPart), s.m.up = true → s.m.mg.srv.can = [(k, x)] → x.at_ + ms 100 ≤ s.m.cyc →
    s.m.rdN Od.MP_CAN_ERRORS + 1 < keySize Od.MP_CAN_ERRORS → s.leads .canFragmentTimeout fun b => b.mg.srv.can = [] ∧
      b.rd Od.MP_CAN_ERRORS = s.m.rdN Od.MP_CAN_ERRORS + 1) ∧
  (∀ (s : State) (fn : Fin 4) (q : Request) (n : Nat), s.takes (.pcie fn) q n = true → s.leads (.mbDoorbell fn q) fun b =>
    (b.box fn).pending = none ∧ b.sent.getLast? = some (.msix fn 0) ∧ ∃ r : Response, (b.box fn).response = some r ∧ r.token = q.token) ∧
  (∀ (s : State) (fn : Fin 4) (q : Request), s.m.up = true → s.m.pathUp (.pcie fn) = true → s.m.mg.srv.running = false →
    s.leads (.mbDoorbell fn q) fun b => (b.box fn).pending = some q) ∧
  (∀ (s : State) (fn : Fin 4), s.m.up = true → s.m.pcieUp fn = true → s.leads (.mbAck fn) fun b => (b.box fn).response = none) ∧
  (∀ (s : State) (fn : Fin 4) (tail : Nat) (setup : Option (Nat × Nat)), s.m.up = true → s.m.pcieUp fn = true → tail < 2 ^ 32 →
    s.leads (.mbEvqTailWrite fn tail setup) fun b => (b.box fn).evqTail = tail ∧ (setup = none → (b.box fn).evqHead = (s.m.box fn).evqHead) ∧
      ∀ base size, setup = some (base, size) → ringSizeOk size = true → base % 64 = 0 → (b.box fn).evqBase = base ∧ (b.box fn).evqSize = size ∧
        (b.box fn).evqHead = 0) ∧
  (∀ (s : State) (c : Caller) (token n v : Nat) (i : Fin 64), s.grants c (writeRequest token 0x1100 (i + 1) v) n = true → v < 2 ^ 64 →
    let a := s.m.door c (writeRequest token 0x1100 (i + 1) v) n
    let w := s.m.asked c (writeRequest token 0x1100 (i + 1) v) n
    s.leads (.apEntryWrite c token i v) fun b => (a.apOk i v = false → b.replied w 5 0 ∧ b.apEntry i = a.apEntry i) ∧
      (a.apOk i v = true → b.replied w 0 0 ∧ b.apEntry i = v ∧ (a.apEntry i ≠ v → a.told b 0x1101 i 0))) ∧
  (∀ (s : State) (t : Fin 8) (e : Event) (rest : List Event), s.m.up = true → (tat {} s.m.mg.ev t).queue = e :: rest →
    let n := s.m.rdN (Od.TNT_EVENT_POINT t)
    let e' := { e with lost := (tat {} s.m.mg.ev t).lostSince }
    s.leads (.eventDeliver t none) fun b =>
      (n < 64 → apValid (s.m.apEntry n) = true → apKind (s.m.apEntry n) = 3 → s.m.canOn (apWhere (s.m.apEntry n)) = true →
        (tat {} b.mg.ev t).queue = rest ∧
          s.m.sends b (.event (.can (Fin.ofNat 2 (apWhere (s.m.apEntry n))) (apNode (s.m.apEntry n))) e')) ∧
      (∀ vid src, n < 64 → apValid (s.m.apEntry n) = true → apKind (s.m.apEntry n) = 4 → tget s.m.mg.from_ n = some (.service vid src) →
        (tat {} b.mg.ev t).queue = rest ∧ s.m.sends b (.event (.service vid src) e')) ∧
      (∀ p vid src, n < 64 → apValid (s.m.apEntry n) = true → apKind (s.m.apEntry n) = 1 → tget s.m.mg.from_ n = some (.inband p vid src) →
        s.m.on (Od.P_LINK p) = true → s.m.fnRuns p = true → (s.m.pf p).own = [] →
        s.m.eventLeaves p ((Own.event (.inband p vid src) e').bytes s.m).length = true →
          (tat {} b.mg.ev t).queue = rest ∧ s.m.sends b (.event (.inband p vid src) e'))) ∧
  (∀ (s : State) (t : Fin 8) (fn : Fin 4) (n : Nat) (e : Event) (rest : List Event), s.m.up = true → (tat {} s.m.mg.ev t).queue = e :: rest →
    s.m.pointOf (.pcie fn) = some n → apTenant (s.m.apEntry n) = t.val → s.m.pcieUp fn = true → (s.m.box fn).evqSize ≠ 0 →
    ((s.m.box fn).evqHead + 2 ^ 32 - (s.m.box fn).evqTail) % 2 ^ 32 < (s.m.box fn).evqSize → s.leads (.eventDeliver t (some fn)) fun b =>
      (tat {} b.mg.ev t).queue = rest ∧ (b.box fn).evqHead = ((s.m.box fn).evqHead + 1) % 2 ^ 32 ∧ s.m.sends b (.msix fn 1) ∧
        s.m.sends b (.pcieWrite fn ((s.m.box fn).evqBase + 32 * ((s.m.box fn).evqHead % (s.m.box fn).evqSize))
          (Event.bytes { e with lost := (tat {} s.m.mg.ev t).lostSince } ++ List.replicate 8 0))) ∧
  (∀ (s : State) (c : Caller) (token n : Nat) (t : Fin 8), s.takes c (readKey token (Od.TNT_EVENT_NEXT t)) n = true →
    let r := (s.m.door c (readKey token (Od.TNT_EVENT_NEXT t)) n).takeEvent t
    s.leads (.tntEventNext c token t) fun b => r.2.sameButBooks b ∧ b.repliedWith (s.m.asked c (readKey token (Od.TNT_EVENT_NEXT t)) n) 0 r.1) ∧
  (∀ s : State, s.m.up = true → s.m.watchdogDue = true → s.m.partHeld 4 = false → s.leads .watchdogExpiry fun b => b.partHeld 4 = true ∧ b.mg.srv.running = false ∧
    b.pw.rst.watchdog = true ∧ 6 ∈ b.pw.rst.active)

/-- Functions: start, stop, RUN, STOPPED (R418, R419, R420). -/
def Obligations.Functions : Prop :=
  (∀ (s : State) (c : Caller) (token n : Nat) (f : Fin 168), s.grants c (writeKey token (Od.FN_CMD f) 1) n = true →
    let a := s.m.door c (writeKey token (Od.FN_CMD f) 1) n
    let w := s.m.asked c (writeKey token (Od.FN_CMD f) 1) n
    s.leads (.functionStart c token f) fun b =>
      (a.fnState f = 0 → a.holds f w.tenant = true → (a.startCheck f).status = 0 → b.replied w 0 0 ∧ b.rd (Od.FN_STATE f) = 1 ∧
        b.rd (Od.FN_HOLDER f) = 255 ∧ a.told b 0x1201 f 1) ∧
      (a.fnState f = 0 → a.holds f w.tenant = true → (a.startCheck f).status ≠ 0 → b.replied w (a.startCheck f).status 0 ∧ b.fnState f = 0 ∧
        b.rd (Od.FN_LAST_ERROR f) = ((a.startCheck f).status * 256 : Nat) ∧ bit (b.rdN (Od.FN_STICKY f)) 0 = true) ∧
      (a.fnState f = 0 → a.holds f w.tenant = false → b.replied w 6 0 ∧ b.fnState f = 0) ∧
      (a.fnState f = 3 → b.replied w 6 0 ∧ a.sameButBooks b) ∧ (a.fnState f ∈ [1, 2] → b.replied w 0 0 ∧ a.sameButBooks b)) ∧
  (∀ (s : State) (c : Caller) (token n : Nat) (f : Fin 168), s.grants c (writeKey token (Od.FN_CMD f) 2) n = true →
    let a := s.m.door c (writeKey token (Od.FN_CMD f) 2) n
    let w := s.m.asked c (writeKey token (Od.FN_CMD f) 2) n
    s.leads (.functionStop c token f) fun b =>
      (f.val = 32 ∨ f.val = 33 → b.replied w 6 0 ∧ a.sameButBooks b) ∧
      (f.val ≠ 32 → f.val ≠ 33 → a.fnState f = 2 → f.val ≠ 102 ∨ a.poolsIdle = true → b.replied w 0 0 ∧ b.rd (Od.FN_STATE f) = 3 ∧
        b.fn f = ⟨false, w.tenant⟩ ∧ a.told b 0x1201 f 3) ∧
      (f.val ≠ 32 → f.val ≠ 33 → a.fnState f = 1 → b.replied w 0 0 ∧ b.fnState f = 1 ∧ b.fn f = ⟨true, w.tenant⟩) ∧
      (f.val ≠ 32 → f.val ≠ 33 → a.fnState f ∈ [0, 3] → b.replied w 0 0 ∧ a.sameButBooks b)) ∧
  (∀ (s : State) (f : Fin 168), s.m.up = true → s.m.fnState f = 1 → s.m.startDone f = true → s.leads (.functionRun f) fun b => ∃ b1 b2 : Block,
    b1 = (s.m.runEffect f).setFn f 2 ∧ b1.fnState f = 2 ∧ (f.val < 32 → (b1.pf f).modeInForce = s.m.rdN (Od.P_MODE f)) ∧
      b2 = (if f.val = 85 then b1.gnssRun else b1) ∧ b = (if (b2.fn f).stopPending then b2.beginStop f (b2.fn f).stopper else b2)) ∧
  (∀ (s : State) (f : Fin 168), s.m.up = true → s.m.fnState f = 3 → s.m.stopReady f = true → s.leads (.functionStopped f) fun b =>
    b.rd (Od.FN_STATE f) = 0 ∧ b.rd (Od.FN_HOLDER f) = (s.m.fn f).stopper)

/-- Jobs: a step, a pause, a resume, an abort (R421, R422, R423). -/
def Obligations.Jobs : Prop :=
  (∀ (s : State) (j : Fin 16) (good : Bool), s.m.up = true → s.m.jobState j = 1 → s.m.mg.srv.running = true → s.m.clockRuns .prixus = true →
    let kind := s.m.rdN (Od.JOB_KIND j)
    let total := s.m.rdN (Od.JOB_STEPS_TOTAL j)
    (nandJob kind = true → s.m.nandHeld = false) → s.leads (.jobStep j good) fun b =>
      (kind ∉ [1, 5, 7, 9] → (s.m.job j).abortPending = false → b.rd (Od.JOB_STEPS_DONE j) = (min (s.m.rdN (Od.JOB_STEPS_DONE j) + 1) (total - 1) : Nat) ∧
        ((s.m.job j).pausePending = false → b.rdN (Od.JOB_STATE j) = 1) ∧
        ((s.m.job j).pausePending = true → b.rd (Od.JOB_STATE j) = 2 ∧ s.m.told b 0x1204 (s.m.rdN (Od.JOB_NUMBER j)) 2)) ∧
      (kind ∉ [1, 5, 7, 9] → (s.m.job j).abortPending = true → b.rd (Od.JOB_STATE j) = 5 ∧ s.m.told b 0x1203 (s.m.rdN (Od.JOB_NUMBER j)) 5) ∧
      (nandJob kind = true → good = false → b.rd (Od.JOB_STATE j) = 4 ∧ s.m.told b 0x1203 (s.m.rdN (Od.JOB_NUMBER j)) 4) ∧
      (kind = 7 → good = true → total ≤ s.m.rdN (Od.JOB_STEPS_DONE j) + 1 → b.rd (Od.JOB_STATE j) = 3 ∧
        (∃ (x : SavedCfg) (rest : List SavedCfg), b.mg.cfg = x :: rest ∧ x.time = s.m.mer ∧ x.valid = true) ∧
        s.m.told b 0x1203 (s.m.rdN (Od.JOB_NUMBER j)) 3)) ∧
  (∀ (s : State) (c : Caller) (token n : Nat) (j : Fin 16), s.grants c (writeKey token (Od.JOB_CTRL j) 1) n = true →
    let a := s.m.door c (writeKey token (Od.JOB_CTRL j) 1) n
    let w := s.m.asked c (writeKey token (Od.JOB_CTRL j) 1) n
    s.leads (.jobPause c token j) fun b =>
      (a.jobLive j = false ∨ a.rdN (Od.JOB_KIND j) ∈ [6, 8] → b.replied w 6 0 ∧ a.sameButBooks b) ∧
      (a.jobState j = 1 → a.rdN (Od.JOB_KIND j) ∉ [6, 8] → b.replied w 0 0 ∧ (b.job j).pausePending = true ∧ (b.job j).abortPending = false)) ∧
  (∀ (s : State) (c : Caller) (token n : Nat) (j : Fin 16), s.grants c (writeKey token (Od.JOB_CTRL j) 2) n = true →
    let a := s.m.door c (writeKey token (Od.JOB_CTRL j) 2) n
    let w := s.m.asked c (writeKey token (Od.JOB_CTRL j) 2) n
    s.leads (.jobResume c token j) fun b => (a.jobLive j = false → b.replied w 6 0 ∧ a.sameButBooks b) ∧
      (a.jobState j = 2 → b.replied w 0 0 ∧ b.rd (Od.JOB_STATE j) = 1 ∧ a.told b 0x1204 (a.rdN (Od.JOB_NUMBER j)) 1) ∧
      (a.jobState j = 1 → b.replied w 0 0 ∧ (b.job j).pausePending = false)) ∧
  (∀ (s : State) (c : Caller) (token n : Nat) (j : Fin 16), s.grants c (writeKey token (Od.JOB_CTRL j) 3) n = true →
    let a := s.m.door c (writeKey token (Od.JOB_CTRL j) 3) n
    let w := s.m.asked c (writeKey token (Od.JOB_CTRL j) 3) n
    s.leads (.jobAbort c token j) fun b => (a.jobLive j = false → b.replied w 6 0 ∧ a.sameButBooks b) ∧
      (a.jobState j = 1 → b.replied w 0 0 ∧ (b.job j).abortPending = true) ∧
      (a.jobState j = 2 → a.rdN (Od.JOB_KIND j) ∉ [1, 8] → b.replied w 0 0 ∧ b.rd (Od.JOB_STATE j) = 5 ∧ a.told b 0x1203 (a.rdN (Od.JOB_NUMBER j)) 5))

/-- Firmware images and the saved configuration (R425, R426, R427, R428). -/
def Obligations.ImagesAndConfiguration : Prop :=
  (∀ (s : State) (c : Caller) (token n : Nat), s.grants c (writeKey token Od.IMG_COMMIT 1) n = true →
    let a := s.m.door c (writeKey token Od.IMG_COMMIT 1) n
    let w := s.m.asked c (writeKey token Od.IMG_COMMIT 1) n
    s.leads (.imgCommit c token) fun b =>
      (a.blob Od.IMG_STAGE = [] ∨ (a.liveJob 5).isSome = true → b.replied w 6 0 ∧ a.sameButBooks b) ∧
      (∀ j, a.blob Od.IMG_STAGE ≠ [] → a.liveJob 5 = none → a.jobObject 5 = some j → b.replied w 0 a.mg.nextJob ∧
        b.rd (slotStateKey (1 - a.rdN Od.IMG_RUNNING)) = 2 ∧ b.rd (Od.JOB_KIND j) = 5 ∧ (b.job j).arg = 1 - a.rdN Od.IMG_RUNNING)) ∧
  (∀ (s : State) (c : Caller) (token n slot : Nat), s.grants c (writeKey token Od.IMG_BOOT_SELECT slot) n = true → slot < 256 →
    let a := s.m.door c (writeKey token Od.IMG_BOOT_SELECT slot) n
    let w := s.m.asked c (writeKey token Od.IMG_BOOT_SELECT slot) n
    s.leads (.imgBootSelect c token slot) fun b =>
      (slot ≤ 1 → a.rdN (slotStateKey slot) = 1 → b.replied w 0 0 ∧ b.rd Od.IMG_BOOT_NEXT = slot ∧
        ∃ (r : BootRecord) (rest : List BootRecord), b.mg.boot = r :: rest ∧ r.slot = slot ∧ r.valid = true ∧ ∀ x ∈ rest, x.seq < r.seq) ∧
      (1 < slot ∨ a.rdN (slotStateKey slot) ≠ 1 → b.replied w 6 0 ∧ a.sameButBooks b)) ∧
  (∀ s : State, s.m.up = true → s.m.mg.srv.running = true → s.m.mg.srv.runAt + secs 60 ≤ s.m.cyc → s.leads .imgConfirm fun b =>
    (b.image (s.m.rdN Od.IMG_RUNNING)).confirmed = true ∧ (b.image (s.m.rdN Od.IMG_RUNNING)).tries = 0) ∧
  (∀ (s : State) (c : Caller) (token n j : Nat), s.grants c (writeKey token Od.CFG_SAVE 1) n = true →
    let a := s.m.door c (writeKey token Od.CFG_SAVE 1) n
    a.jobObject 7 = some j → s.leads (.cfgSave c token) fun b => b.replied (s.m.asked c (writeKey token Od.CFG_SAVE 1) n) 0 a.mg.nextJob ∧
      b.rd (Od.JOB_KIND j) = 7 ∧ b.rd (Od.JOB_STATE j) = 1) ∧
  (∀ (s : State) (c : Caller) (token n : Nat), s.grants c (writeKey token Od.CFG_CLEAR 1) n = true → s.leads (.cfgClear c token) fun b =>
    b.replied (s.m.asked c (writeKey token Od.CFG_CLEAR 1) n) 0 0 ∧ b.mg.cfg = [] ∧ b.rd Od.CFG_STATE = 0) ∧
  (∀ (s : State) (x : SavedCfg) (j : Nat), s.m.up = true → s.m.mg.srv.running = true → s.m.pw.rst.cleared ≠ 0 → s.m.on Od.CFG_AUTO_RESTORE = true →
    newest s.m.mg.cfg = some x → s.m.jobObject 8 = some j → s.leads .configRestore fun b =>
      b = (((((s.m.openJob j 8 255 [] 0).restoreEntries x s.m.pw.rst.cleared).restoreRuns x s.m.pw.rst.cleared).showCfg 2).endJob j 3).setRst
        (fun r => { r with cleared := 0 }) ∧ b.rd (Od.JOB_STATE j) = 3 ∧ b.pw.rst.cleared = 0)

/-- Pair: heartbeats sent, received and missed, and what they carry over (log 111: the model's choice) (R448, R450, R451, R457). -/
def Obligations.PairHeartbeats : Prop :=
  (∀ s : State, s.m.up = true → s.m.on Od.PAIR_ENABLED = true → s.m.on (Od.P_LINK 31) = true → s.m.pr.hbSent ≠ some (s.m.mer / hbTicks) →
    s.m.pulls = false → s.leads .heartbeatTx fun b => b.sent = s.m.sent ++ [.heartbeat s.m.heartbeat] ∧ heartbeatOk s.m.heartbeat = true ∧
      b.pr.hbSeq = (s.m.pr.hbSeq + 1) % 65536 ∧ b.pr.hbSent = some (s.m.mer / hbTicks) ∧ b.od = s.m.od) ∧
  (∀ (s : State) (w : Word64) (carried : List Carry), s.m.up = true → s.m.on Od.PAIR_ENABLED = true → heartbeatOk w = true →
    let st := bits w.toNat 44 4
    let ack := ackOf (s.m.rdN Od.EXPORT_SEQ) (bits w.toNat 16 16)
    s.leads (.heartbeatRx ⟨w, carried⟩) fun b =>
      (s.m.pairState ∈ [3, 4] → b.rd Od.PAIR_PARTNER_STATE = st ∧ b.rd Od.PAIR_STATE = s.m.rd Od.PAIR_STATE ∧ b.pr.missed = 0 ∧
        b.pr.hbAt = some s.m.cyc ∧ (bit w.toNat 41 = true → b.pr.loading = true) ∧
        (bit w.toNat 41 = false → b.pr.loading = false ∧
          (s.m.pr.loading = true → s.m.rdN Od.SWO_PREWAKES + 1 < 2 ^ 32 → b.rdN Od.SWO_PREWAKES = s.m.rdN Od.SWO_PREWAKES + 1))) ∧
      (s.m.pairState = 5 → b.rd Od.PAIR_STATE = 3 ∧ b.pr.missed = 0) ∧ (s.m.pairState = 1 → st = 2 → ∃ b1 b2 : Block,
        b1.rd Od.PAIR_PARTNER_STATE = 2 ∧ b1.cyc = s.m.cyc ∧ b1.stoodBy b2 ∧ (b2.pairState = 3 → b.pairState = 3)) ∧
      (s.m.pairState = 2 → s.m.pr.back = none → b.rd Od.PAIR_PARTNER_STATE = st ∧ (st = 3 ∨ st = 4 → b.rd Od.EXPORT_ACKED = ack) ∧
        (st = 4 → s.m.rdN Od.PAIR_PARTNER_STATE ≠ 4 → s.m.told b 0x6005 0 0)) ∧
      (∀ t, s.m.pairState = 2 → s.m.pr.back = some (ack, t) → st = 3 ∨ st = 4 → ∃ b1 : Block, b1.pulls = true ∧ b1.rd Od.EXPORT_ACKED = ack ∧
        b1.stoodBy b)) ∧
  (∀ (s : State) (i : Instr) (carried : List Carry), s.m.up = true → s.m.on Od.PAIR_ENABLED = true → s.m.pairState ∈ [3, 4] →
    (i = .heartbeatMiss ∧ carried = [] ∧ ∃ t, s.m.pr.hbAt = some t ∧ t + us 50 * (s.m.pr.missed + 1) + us 10 ≤ s.m.cyc) ∨
      (∃ w, i = .heartbeatRx ⟨w, carried⟩ ∧ heartbeatOk w = false) →
    let a := carried.foldl Block.takeCarry s.m
    s.leads i fun b =>
      (a.pr.missed ≠ 2 → a.told b 0x6003 0 (min (a.pr.missed + 1) 3) ∧ bit (b.rdN Od.PAIR_STICKY) 0 = true ∧ b.pr.missed = a.pr.missed + 1 ∧
        (a.rdN Od.SWO_HB_MISSED + 1 < 2 ^ 32 → b.rdN Od.SWO_HB_MISSED = a.rdN Od.SWO_HB_MISSED + 1) ∧
        b.rd Od.PAIR_STATE = s.m.rd Od.PAIR_STATE ∧ (a.pr.missed = 0 → b.pr.loading = true)) ∧
      (a.pr.missed = 2 → a.on Od.SWO_PARTNER_ALIVE = true → b.rd Od.PAIR_STATE = 5 ∧ bit (b.rdN Od.PAIR_STICKY) 2 = true ∧
        a.told b 0x6003 0 3 ∧ a.told b 0x6002 0 2) ∧
      (∀ x, a.pr.missed = 2 → a.on Od.SWO_PARTNER_ALIVE = false → a.pr.taking = none → a.pr.held = some x → a.takesOver b x 1) ∧
      (a.pr.missed = 2 → a.on Od.SWO_PARTNER_ALIVE = false → a.pr.taking = none → a.pr.held = none → a.told b 0x6007 0 4 ∧
        b.rd Od.PAIR_STATE = s.m.rd Od.PAIR_STATE)) ∧
  (∀ (b : Block) (c : Commit), (b.takeCarry (.commit c)).tm.commit = some c ∧
    (b.takeCarry (.commit c)).target .outCommit = some ⟨c.tick, b.due c.tick⟩ ∧
    (b.takeCarry (.commit c)).pr.held = b.pr.held.map fun x => { x with commit := some c }) ∧
  (∀ (b : Block) (p : Nat) (c : GatePend), b.takeCarry (.gate p c) = b.setPr fun x =>
    { x with held := x.held.map fun y => { y with gates := tput y.gates p c } })

/-- Pair: roles, the handover net, the takeover (R451, R452, R453, R455). -/
def Obligations.PairRoles : Prop :=
  (∀ s : State, s.m.up = true → s.leads .handoverNFall fun b =>
    (s.m.on Od.PAIR_ENABLED = false ∨ s.m.pulls = true → b = s.m) ∧
    (s.m.on Od.PAIR_ENABLED = true → s.m.pulls = false →
      (s.m.pairState = 2 → ∃ b1 : Block, b1.cyc = s.m.cyc ∧ b1.pr.netLow = s.m.cyc + ms 1 ∧ b1.stoodBy b) ∧
      (∀ x, s.m.standby = true → s.m.pr.taking = none → s.m.pr.held = some x →
        s.m.takesOver b x (if s.m.pr.partnerBack then 3 else 2)) ∧
      (s.m.standby = true → s.m.pr.taking = none → s.m.pr.held = none → s.m.told b 0x6007 0 4 ∧ b.rd Od.PAIR_STATE = s.m.rd Od.PAIR_STATE) ∧
      (s.m.pairState ≠ 2 → s.m.standby = false → b = s.m.setPr fun p => { p with netLow := s.m.cyc + ms 1 }))) ∧
  (∀ s : State, s.m.up = true → s.leads .partnerAliveFall fun b =>
    (s.m.pairState ≠ 5 → b.rd Od.SWO_PARTNER_ALIVE = 0 ∧ b.pr.aliveLowAt = some s.m.cyc) ∧
    (∀ x, s.m.pairState = 5 → s.m.pr.taking = none → s.m.pr.held = some x → s.m.takesOver b x 1)) ∧
  (∀ s : State, s.m.up = true → s.leads .partnerAliveRise fun b =>
    (s.m.pairState ≠ 2 ∨ s.m.pr.posB = false → b.rd Od.SWO_PARTNER_ALIVE = 1 ∧ b.pr.aliveLowAt = none) ∧
    (∀ t, s.m.pairState = 2 → s.m.pr.posB = true → s.m.pr.roleAt = some t → s.m.rdN Od.SWO_LAST_CAUSE = 4 → s.m.cyc ≤ t + ms 1 →
      ∃ b1 : Block, b1.rd Od.SWO_PARTNER_ALIVE = 1 ∧ b1.cyc = s.m.cyc ∧ b1.stoodBy b)) ∧
  (∀ s : State, s.m.up = true → s.leads .pairStartupTimeout fun b =>
    (s.m.pairState = 1 → s.m.pr.since + secs 2 ≤ s.m.cyc → (s.m.pr.posB = true ∧ s.m.on Od.SWO_PARTNER_ALIVE = false ∨
        s.m.pr.posB = false ∧ ∃ t, s.m.pr.aliveLowAt = some t ∧ t + ms 10 ≤ s.m.cyc) →
      b.rd Od.SWO_ROLE = 1 ∧ b.rd Od.PAIR_STATE = 2 ∧ b.rd Od.SWO_LAST_CAUSE = 4 ∧ b.rd Od.SWO_LAST_TIME = s.m.mer ∧ b.pr.roleAt = some s.m.cyc) ∧
    (s.m.pairState = 1 → s.m.pr.since + secs 2 ≤ s.m.cyc → s.m.pr.posB = true → s.m.on Od.SWO_PARTNER_ALIVE = true →
      ∃ b1 : Block, b1.cyc = s.m.cyc ∧ b1.rd Od.SWO_LAST_CAUSE = 4 ∧ b1.stoodBy b) ∧
    (s.m.pairState ≠ 1 ∨ s.m.cyc < s.m.pr.since + secs 2 → b = s.m)) ∧
  (∀ (s : State) (cause fault : Nat) (x : Snapshot), s.m.up = true → s.m.pr.taking = some (cause, fault) → s.m.pr.held = some x →
    s.m.clockRuns .fabric = true → s.leads .switchoverTablesLoaded fun b => ∃ b1 : Block, b1 = (s.m.loadTables x).runSnapshot x ∧
      b.rd Od.PAIR_LAST_GAP = ((b1.cyc - fault) / us 1 : Nat) ∧ b1.told b 0x6004 0 ((b1.cyc - fault) / us 1) ∧ (cause = 3 → b1.told b 0x6006 0 0) ∧
      (b1.rdN Od.PAIR_SWITCHOVERS + 1 < 2 ^ 32 → b.rdN Od.PAIR_SWITCHOVERS = b1.rdN Od.PAIR_SWITCHOVERS + 1) ∧ b.pr.taking = none ∧ b.pr.held = none)

/-- Pair: state export, snapshots, switch-back (R447, R448, R457). -/
def Obligations.PairSnapshots : Prop :=
  (∀ s : State, s.m.up = true → s.leads .stateExport fun b =>
    (s.m.pairState ≠ 2 ∨ s.m.cyc < s.m.pr.exportAt + ms 100 ∨ s.m.mg.srv.running = false ∨ s.m.jobLive 15 = true → b = s.m) ∧
    (s.m.pairState = 2 → s.m.pr.exportAt + ms 100 ≤ s.m.cyc → s.m.mg.srv.running = true → s.m.jobLive 15 = false →
      b.rd (Od.JOB_KIND 15) = 6 ∧ b.rd (Od.JOB_TENANT 15) = 255 ∧
      (s.m.on (Od.P_LINK 31) = false → b.rd (Od.JOB_STATE 15) = 4 ∧ s.m.told b 0x6007 0 1 ∧ b.sent = s.m.sent ∧
        (s.m.rdN Od.EXPORT_FAILS + 1 < 2 ^ 32 → b.rdN Od.EXPORT_FAILS = s.m.rdN Od.EXPORT_FAILS + 1)) ∧
      (s.m.on (Od.P_LINK 31) = true → ∃ x : Snapshot, b.sent = s.m.sent ++ [.snapshot x] ∧ x.seq = s.m.rdN Od.EXPORT_SEQ + 1 ∧ x.time = s.m.mer ∧
        x.size ≤ 6 * 2 ^ 20 ∧ (∀ e ∈ x.entries, exported e.1 = true) ∧ x.running = (List.range 168).filter (fun f => s.m.fnRuns f) ∧
        b.rd Od.EXPORT_SEQ = x.seq ∧ b.rd Od.EXPORT_TIME = x.time ∧ b.rd Od.EXPORT_BYTES = x.size ∧ b.rd (Od.JOB_STATE 15) = 3))) ∧
  (∀ (s : State) (x : Snapshot) (whole crcOk : Bool), s.m.up = true →
    let later := ∀ h, s.m.pr.held = some h → h.seq < x.seq
    s.leads (.snapshotRx x whole crcOk) fun b =>
      (s.m.standby = false → b = s.m) ∧
      (s.m.standby = true → whole = true → crcOk = true → later → ∃ b1 : Block, b = b1.followSnapshot x ∧ b1.pr.held = some x ∧
        b1.pr.heldAt = s.m.cyc ∧ b1.pr.aged = false ∧ b1.rd Od.EXPORT_SEQ = x.seq ∧ b1.rd Od.EXPORT_TIME = x.time ∧ b1.rd Od.EXPORT_BYTES = x.size) ∧
      (s.m.standby = true → whole = false ∨ crcOk = false ∨ ¬later → b.pr = s.m.pr ∧ s.m.told b 0x6007 0 2 ∧
        bit (b.rdN Od.PAIR_STICKY) 5 = true ∧
        (s.m.rdN Od.EXPORT_DISCARDED + 1 < 2 ^ 32 → b.rdN Od.EXPORT_DISCARDED = s.m.rdN Od.EXPORT_DISCARDED + 1))) ∧
  (∀ s : State, s.m.up = true → s.leads .snapshotAgeExpiry fun b =>
    let old := s.m.pr.heldAt + ms (s.m.rdN Od.EXPORT_AGE_LIMIT) < s.m.cyc
    (s.m.standby = true → s.m.pr.held ≠ none → s.m.pr.aged = false → old → b.pr.aged = true ∧ s.m.told b 0x6007 0 3 ∧
      bit (b.rdN Od.PAIR_STICKY) 4 = true) ∧
    (s.m.standby = false ∨ s.m.pr.held = none ∨ s.m.pr.aged = true ∨ ¬old → b = s.m)) ∧
  (∀ (s : State) (c : Caller) (token n : Nat), s.grants c (writeKey token Od.PAIR_SWITCH_BACK 1) n = true →
    let a := s.m.door c (writeKey token Od.PAIR_SWITCH_BACK 1) n
    let w := s.m.asked c (writeKey token Od.PAIR_SWITCH_BACK 1) n
    s.leads (.pairSwitchBack c token) fun b =>
      (a.pairState ≠ 2 ∨ a.rdN Od.PAIR_PARTNER_STATE ≠ 4 → b.replied w 6 0 ∧ a.sameButBooks b) ∧
      (a.pairState = 2 → a.rdN Od.PAIR_PARTNER_STATE = 4 → b.replied w 0 0 ∧ b.pr.back = some (a.rdN Od.EXPORT_SEQ + 1, a.cyc))) ∧
  (∀ (s : State), s.m.up = true → s.leads .switchBackTimeout fun b =>
    (∀ q t, s.m.pr.back = some (q, t) → t + ms 100 ≤ s.m.cyc → b.pr.back = none ∧ s.m.told b 0x6007 0 1) ∧
    (s.m.pr.back = none ∨ (∃ q t, s.m.pr.back = some (q, t) ∧ s.m.cyc < t + ms 100) → b = s.m))

/-- Cross-watch and safe state (R462, R463, R465, R468, R476). -/
def Obligations.CrossWatch : Prop :=
  (∀ (s : State) (code inst : Nat) (diff : Int), s.m.up = true → s.leads (.xwCheck code inst diff) fun b =>
    (s.m.xwApplies code inst = false → b = s.m) ∧
    (s.m.xwApplies code inst = true → s.m.mg.safe.test ≠ code → (code = 2 → b.rd Od.XW_CLOCK_DIFF = diff) ∧
      ((diff.natAbs : Int) ≤ s.m.xwLimit code → bit b.mg.safe.passed code = true ∧ b.rd Od.SAFE_STATE = s.m.rd Od.SAFE_STATE) ∧
      (s.m.xwLimit code < diff.natAbs → b.rd Od.XW_LAST_TRIP = code ∧ b.rd Od.XW_LAST_INSTANCE = inst ∧ b.rd Od.XW_LAST_ERROR = diff ∧
        s.m.told b 0x7002 inst code ∧ bit (b.rdN Od.XW_STICKY) 0 = true ∧ b.rd Od.SAFE_STATE = 1 ∧ bit (b.rdN Od.SAFE_CAUSE) 0 = true ∧
        b.mg.safe.causeAt = some s.m.cyc ∧
        (s.m.rdN Od.XW_TRIPS + 1 < keySize Od.XW_TRIPS → b.rdN Od.XW_TRIPS = s.m.rdN Od.XW_TRIPS + 1) ∧
        (s.m.rd Od.SAFE_STATE ≠ 1 → b.rd Od.SAFE_LAST_TIME = s.m.mer ∧ s.m.told b 0x7001 0 (s.m.rdN Od.SAFE_CAUSE ||| 1)))) ∧
    (s.m.xwApplies code inst = true → s.m.mg.safe.test = code → b.mg.safe.test = 0 ∧
      (code = 2 → b.rd Od.XW_CLOCK_DIFF = diff + max 1 (2 * s.m.xwLimit code)) ∧
      (s.m.xwLimit code < (diff + max 1 (2 * s.m.xwLimit code)).natAbs → s.m.told b 0x7002 inst (code + 256) ∧
        bit (b.rdN Od.XW_STICKY) 2 = true ∧ bit (b.rdN Od.FI_STICKY) 1 = true ∧
        (s.m.on Od.FI_XW_TEST_SAFE = true → b.rd Od.SAFE_STATE = 1) ∧
        (s.m.on Od.FI_XW_TEST_SAFE = false → b.rd Od.SAFE_STATE = s.m.rd Od.SAFE_STATE)))) ∧
  (∀ (s : State) (tripped : Bool), s.m.up = true → s.leads (.xwSelftest tripped) fun b =>
    let due := s.m.mg.safe.selfAt + secs (s.m.rdN Od.XW_SELFTEST_PERIOD) ≤ s.m.cyc
    (¬due → b = s.m) ∧ (due → b.mg.safe.selfAt = s.m.cyc) ∧
    (due → tripped = true → b.rd Od.SAFE_STATE = s.m.rd Od.SAFE_STATE ∧
      (s.m.rdN Od.XW_SELFTESTS + 1 < keySize Od.XW_SELFTESTS → b.rdN Od.XW_SELFTESTS = s.m.rdN Od.XW_SELFTESTS + 1)) ∧
    (due → tripped = false → b.rd Od.XW_LAST_TRIP = 6 ∧ bit (b.rdN Od.XW_STICKY) 1 = true ∧ b.rd Od.SAFE_STATE = 1)) ∧
  (∀ (s : State) (c : Caller) (token n : Nat), s.grants c (writeKey token Od.SAFE_FORCE 1) n = true →
    let a := s.m.door c (writeKey token Od.SAFE_FORCE 1) n
    s.leads (.safeForce c token) fun b => b.replied (s.m.asked c (writeKey token Od.SAFE_FORCE 1) n) 0 0 ∧ b.rd Od.SAFE_STATE = 1 ∧
      bit (b.rdN Od.SAFE_CAUSE) 3 = true ∧ (a.safe = false → b.rd Od.SAFE_LAST_TIME = a.mer ∧ bit (b.rdN Od.SAFE_STICKY) 0 = true ∧
        a.told b 0x7001 0 (a.rdN Od.SAFE_CAUSE ||| 8) ∧
        (a.rdN Od.SAFE_ENTRIES + 1 < keySize Od.SAFE_ENTRIES → b.rdN Od.SAFE_ENTRIES = a.rdN Od.SAFE_ENTRIES + 1))) ∧
  (∀ (s : State) (c : Caller) (token n : Nat), s.grants c (writeKey token Od.SAFE_CLEAR 1) n = true →
    let a := s.m.door c (writeKey token Od.SAFE_CLEAR 1) n
    let w := s.m.asked c (writeKey token Od.SAFE_CLEAR 1) n
    let barred := bit (a.rdN Od.SAFE_CAUSE) 2 = true ∨ ∃ t, a.mg.safe.causeAt = some t ∧ a.cyc < t + secs 10
    s.leads (.safeClear c token) fun b =>
      (a.safe = true → barred → b.replied w 6 0 ∧ a.sameButBooks b) ∧
      (a.safe = true → ¬barred → b.replied w 0 0 ∧ b.rd Od.SAFE_STATE = 0 ∧ b.rd Od.SAFE_CAUSE = 0 ∧ a.told b 0x7007 0 0) ∧
      (a.safe = false → b.replied w 0 0 ∧ a.sameButBooks b)) ∧
  (∀ (s : State) (c : Caller) (token n check : Nat), check < 256 → s.grants c (writeKey token Od.FI_XW_TEST check) n = true →
    let w := s.m.asked c (writeKey token Od.FI_XW_TEST check) n
    s.leads (.fiXwTest c token check) fun b =>
      (1 ≤ check → check ≤ 5 → b.replied w 0 0 ∧ b.mg.safe.test = check) ∧
      (check = 0 ∨ 5 < check → b.replied w 5 0 ∧ (s.m.door c (writeKey token Od.FI_XW_TEST check) n).sameButBooks b))

/-- Scrubbing: a pass, its corrections, its errors (R466). -/
def Obligations.Scrubbing : Prop :=
  (∀ (s : State) (fixed : List Nat) (bad : List (Nat × Nat)) (cells : Nat), s.m.up = true → s.leads (.scrubPass fixed bad cells) fun b =>
    b.rd Od.SCRUB_LAST_PASS = s.m.mer ∧ b.mg.safe.scrubAt = s.m.cyc ∧
      (s.m.rdN Od.SCRUB_PASSES + 1 < keySize Od.SCRUB_PASSES → b.rdN Od.SCRUB_PASSES = s.m.rdN Od.SCRUB_PASSES + 1) ∧
      (s.m.rdN Od.SCRUB_CORRECTED + fixed.length < keySize Od.SCRUB_CORRECTED →
        b.rdN Od.SCRUB_CORRECTED = s.m.rdN Od.SCRUB_CORRECTED + fixed.length) ∧
      (s.m.rdN Od.SCRUB_UNCORRECTED + bad.length < keySize Od.SCRUB_UNCORRECTED →
        b.rdN Od.SCRUB_UNCORRECTED = s.m.rdN Od.SCRUB_UNCORRECTED + bad.length) ∧
      (s.m.mg.safe.scrubLate = false → s.m.mg.safe.scrubAt + secs (s.m.rdN Od.SCRUB_PERIOD) < s.m.cyc → bit (b.rdN Od.SCRUB_STICKY) 1 = true)) ∧
  (∀ (s : State) (mem item cells : Nat), s.m.up = true → s.leads (.scrubPass [] [(mem, item)] cells) fun b =>
    s.m.told b 0x7005 0 mem ∧ bit (b.rdN Od.SCRUB_STICKY) 0 = true ∧
      (mem = 3 → b.rd Od.SAFE_STATE = 1 ∧ bit (b.rdN Od.SAFE_CAUSE) 2 = true) ∧
      (mem = 5 → item ≤ 1 → b.rd (slotStateKey item) = 2)) ∧
  (∀ (s : State) (cells : Nat), s.m.up = true → s.leads (.scrubPass [] [] cells) fun b =>
    let n := min cells (s.m.rdN Od.SW_CELLS_RETIRED - s.m.rdN Od.SCRUB_CELLS_RETURNED)
    s.m.rdN Od.SCRUB_CELLS_RETURNED + n < keySize Od.SCRUB_CELLS_RETURNED →
      b.rdN Od.SCRUB_CELLS_RETURNED = s.m.rdN Od.SCRUB_CELLS_RETURNED + n)

/-- Counters: overflow, snapshots, the counter ring (R470, R472, R473, R474). -/
def Obligations.Counters : Prop :=
  (∀ (s : State) (k : Fin 64), s.m.up = true → s.leads (.cntOverflow k) fun b =>
    (s.m.rdN (Od.CNTN_MODE k) = 0 ∨ s.m.rdN (Od.CNTN_VALUE k) ≠ 2 ^ 48 - 1 → b = s.m) ∧
    (s.m.rdN (Od.CNTN_MODE k) ≠ 0 → s.m.rdN (Od.CNTN_VALUE k) = 2 ^ 48 - 1 →
      b.rd (Od.CNTN_VALUE k) = (s.m.rdN (Od.CNTN_RELOAD k) % 2 ^ 48 : Nat) ∧
      (s.m.rdN (Od.CNTN_OVERFLOWS k) + 1 < keySize (Od.CNTN_OVERFLOWS k) → b.rdN (Od.CNTN_OVERFLOWS k) = s.m.rdN (Od.CNTN_OVERFLOWS k) + 1) ∧
      (s.m.on (Od.CNTN_IRQ k) = true → s.m.rdN (Od.CNTN_OWNER k) < 8 → s.m.overflowWaits (s.m.rdN (Od.CNTN_OWNER k)) k = false →
        s.m.toldOne b (s.m.rdN (Od.CNTN_OWNER k)) 0x7101 k 0) ∧
      (s.m.on (Od.CNTN_IRQ k) = false → b.mg.ev = s.m.mg.ev))) ∧
  (∀ s : State, s.m.up = true → s.leads .cntDump fun b =>
    let x := s.m.mg.safe
    let due := s.m.rdN Od.CNT_DUMP_PERIOD ≠ 0 ∧ x.dumpAt < s.m.dumpIndex
    (¬due → b = s.m) ∧ (due → b.mg.safe.dumpAt = s.m.dumpIndex ∧ b.mg.safe.dumpSeq = (x.dumpSeq + 1) % 2 ^ 32) ∧
    (due → x.dumpQueue = [] → s.m.clockRuns .lpddr = true → b.mg.safe.dumpQueue = [] ∧
      b.mg.safe.dumpRing = ringPush 8192 x.dumpRing (s.m.dumpRecord x.dumpSeq false x.dumpMissed) ∧
      b.rd Od.CNT_RING_WR = ((s.m.rdN Od.CNT_RING_WR + 1) % 2 ^ 32 : Nat) ∧ b.mg.safe.dumpMissed = false) ∧
    (due → x.dumpQueue.length < 4 → s.m.clockRuns .lpddr = false → b.mg.safe.dumpRing = x.dumpRing ∧
      ∃ r, b.mg.safe.dumpQueue = x.dumpQueue ++ [r]) ∧
    (due → 4 ≤ x.dumpQueue.length → b.mg.safe.dumpQueue = x.dumpQueue ∧ b.mg.safe.dumpMissed = true ∧ bit (b.rdN Od.CNT_STICKY) 0 = true ∧
      (s.m.rdN Od.CNT_DUMPS_MISSED + 1 < keySize Od.CNT_DUMPS_MISSED → b.rdN Od.CNT_DUMPS_MISSED = s.m.rdN Od.CNT_DUMPS_MISSED + 1))) ∧
  (∀ (s : State) (c : Caller) (token n : Nat), s.grants c (writeKey token Od.CNT_SNAPSHOT 1) n = true →
    let a := s.m.door c (writeKey token Od.CNT_SNAPSHOT 1) n
    s.leads (.cntSnapshot c token) fun b => b.replied (s.m.asked c (writeKey token Od.CNT_SNAPSHOT 1) n) 0 0 ∧
      b.mg.safe.dumpSeq = (a.mg.safe.dumpSeq + 1) % 2 ^ 32 ∧ (a.mg.safe.dumpQueue = [] → a.clockRuns .lpddr = true →
        b.mg.safe.dumpRing = ringPush 8192 a.mg.safe.dumpRing (a.dumpRecord a.mg.safe.dumpSeq true a.mg.safe.dumpMissed))) ∧
  (∀ (s : State) (c : Caller) (token n len : Nat), s.takes c (ringKey token Od.CNT_RING_DATA len) n = true →
    let q := ringKey token Od.CNT_RING_DATA len
    let r := (s.m.door c q n).readRecords (s.m.asked c q n).tenant 0x7102 (min len (segLimit c))
    s.leads (.cntRingRead c token len) fun b => r.2.sameButBooks b ∧ b.repliedWith (s.m.asked c q n) r.1.length r.1.flatten)

/-- Fault injectors and memory tests (R475, R476). -/
def Obligations.Injectors : Prop :=
  (∀ (s : State) (c : Caller) (token n : Nat) (p : Fin 32), s.grants c (writeKey token (Od.FIP_ARM p) 1) n = true →
    let a := s.m.door c (writeKey token (Od.FIP_ARM p) 1) n
    let w := s.m.asked c (writeKey token (Od.FIP_ARM p) 1) n
    s.leads (.fipArm c token p) fun b =>
      (a.on Od.FI_ENABLE = false ∨ a.fnRuns p = false → b.replied w 6 0 ∧ a.sameButBooks b) ∧
      (a.on Od.FI_ENABLE = true → a.fnRuns p = true → a.rdN (Od.FIP_ARM_AT p) ≠ 0 → a.armable (a.rdN (Od.FIP_ARM_AT p)) = false →
        b.replied w 5 0 ∧ a.sameButBooks b) ∧
      (a.on Od.FI_ENABLE = true → a.fnRuns p = true → a.rdN (Od.FIP_ARM_AT p) = 0 → b.replied w 0 0 ∧ ∃ b1 : Block, b1.sameButBooks b ∧
        ((∀ vid src, c ≠ .inband p vid src) → b.pf p = b1.pf p) ∧ (b1.pf p).fip.armed = true ∧ (b1.pf p).fip.acting = true ∧
        (b1.pf p).fip.kind = a.rdN (Od.FIP_KIND p) ∧ (b1.pf p).fip.n = a.rdN (Od.FIP_N p) ∧ (b1.pf p).fip.match_ = a.rdN (Od.FIP_MATCH p) ∧
        (b1.pf p).fip.count = a.rdN (Od.FIP_COUNT p) ∧ (b1.pf p).fip.seen = 0 ∧ b1.rd (Od.FIP_STATUS p) = 2 ∧ bit (b1.rdN Od.FI_ARMED) p = true ∧
        a.told b1 0x7201 p (a.rdN (Od.FIP_KIND p))) ∧
      (a.on Od.FI_ENABLE = true → a.fnRuns p = true → a.mer < a.rdN (Od.FIP_ARM_AT p) → a.armable (a.rdN (Od.FIP_ARM_AT p)) = true →
        b.replied w 0 0 ∧ (b.pf p).fip.armed = true ∧ (b.pf p).fip.acting = false ∧ b.rd (Od.FIP_STATUS p) = 1 ∧
        b.target (.injector p) = some ⟨tickOf (a.rdN (Od.FIP_ARM_AT p)), false⟩)) ∧
  (∀ (s : State) (c : Caller) (token n : Nat) (p : Fin 32), s.grants c (writeKey token (Od.FIP_ARM p) 2) n = true →
    let a := s.m.door c (writeKey token (Od.FIP_ARM p) 2) n
    let w := s.m.asked c (writeKey token (Od.FIP_ARM p) 2) n
    s.leads (.fipDisarm c token p) fun b => b.replied w 0 0 ∧
      ((a.pf p).fip.armed = false → a.sameButBooks b) ∧
      ((a.pf p).fip.armed = true → (b.pf p).fip.armed = false ∧ (b.pf p).fip.acting = false ∧ (b.pf p).fip.held = [] ∧
        (b.pf p).fip.ready = (a.pf p).fip.ready ++ (a.pf p).fip.held ∧ b.rd (Od.FIP_STATUS p) = 0 ∧ bit (b.rdN Od.FI_ARMED) p = false ∧
        b.target (.injector p) = none ∧ a.told b 0x7202 p 2)) ∧
  (∀ (s : State) (p : Fin 32), s.m.up = true → s.leads (.fipReorderTimeout p) fun b =>
    let f := (s.m.pf p).fip
    (f.held = [] ∨ s.m.cyc < f.heldAt + ms 10 → b = s.m) ∧
    (f.held ≠ [] → f.heldAt + ms 10 ≤ s.m.cyc → (b.pf p).fip.held = [] ∧ (b.pf p).fip.ready = f.ready ++ f.held ∧
      (b.pf p).fip.acts = f.acts + 1 ∧ bit (b.rdN (Od.FIP_STICKY p)) 1 = true ∧
      (f.armed = true → f.count ≠ 0 → f.count ≤ f.acts + 1 → (b.pf p).fip.armed = false ∧ s.m.told b 0x7202 p 1))) ∧
  (∀ (s : State) (p : Fin 32) (t : Tx) (till : Nat), s.m.up = true → (s.m.pf p).fip.delayed = some (t, till) →
    let goes := till ≤ s.m.cyc ∧ (s.m.pf p).sending = none ∧ s.m.mayCross (.egress p) = true ∧ s.m.gateOpen p t.queue t.bytes.length = true
    s.leads (.fipDelayExpiry p) fun b =>
      (goes → (b.pf p).fip.delayed = none) ∧ (goes → t.own = none → (b.pf p).sending = some t ∧ (b.pf p).busyAt = s.m.cyc) ∧
      (∀ l, goes → t.own = some (.frame l) → s.m.sends b (.frame p t.bytes)) ∧ (¬goes → b = s.m)) ∧
  (∀ (s : State) (c : Caller) (token n : Nat), s.grants c (writeKey token Od.FI_ECC_TEST 1) n = true → s.leads (.fiEccTestSingle c token) fun b =>
    b.replied (s.m.asked c (writeKey token Od.FI_ECC_TEST 1) n) 0 0 ∧ b.fab.eccNext = 1) ∧
  (∀ (s : State) (c : Caller) (token n : Nat), s.grants c (writeKey token Od.FI_ECC_TEST 2) n = true → s.leads (.fiEccTestDouble c token) fun b =>
    b.replied (s.m.asked c (writeKey token Od.FI_ECC_TEST 2) n) 0 0 ∧ b.fab.eccNext = 2)

/-- Supply: warning, brace, hold-up (R480, R482, R484, R485, R487). -/
def Obligations.SupplyAndBrace : Prop :=
  (∀ (s : State) (vin vbak : Nat), s.m.up = true → s.leads (.vinBelowWarning vin vbak) fun b =>
    b.rd Od.SUP_VIN = vin ∧ b.rd Od.SUP_VBAK = vbak ∧ b.rd Od.SUP_VIN_MIN = (min (s.m.rdN Od.SUP_VIN_MIN) vin : Nat) ∧
      (s.m.rdN Od.BRACE_STATE ≠ 0 ∨ (s.m.rdN Od.SUP_SOURCE = 0 ∧ s.m.warnV ≤ vin) → b.rd Od.BRACE_STATE = s.m.rd Od.BRACE_STATE ∧
        b.rd Od.SUP_SOURCE = s.m.rd Od.SUP_SOURCE ∧ b.mg.ev = s.m.mg.ev) ∧
      (s.m.rdN Od.SUP_SOURCE ≠ 0 → s.m.warnV ≤ vbak ∨ s.m.warnV ≤ vin → b.rd Od.BRACE_STATE = s.m.rd Od.BRACE_STATE ∧
        b.rd Od.SUP_SOURCE = s.m.rd Od.SUP_SOURCE ∧ b.mg.ev = s.m.mg.ev) ∧
      (s.m.rdN Od.BRACE_STATE = 0 → s.m.rdN Od.SUP_SOURCE = 0 → vin < s.m.warnV → s.m.warnV ≤ vbak → b.rd Od.SUP_SOURCE = 1 ∧
        bit (b.rdN Od.SUP_STICKY) 1 = true ∧ s.m.told b 0x1303 0 vbak ∧ b.rd Od.BRACE_STATE = s.m.rd Od.BRACE_STATE) ∧
      (s.m.rdN Od.BRACE_STATE = 0 → vin < s.m.warnV → vbak < s.m.warnV → b.rd Od.BRACE_STATE = 1 ∧ s.m.told b 0x1301 0 vin ∧
        b.rd Od.BRACE_LAST_TIME = s.m.mer ∧ b.rd Od.BRACE_SNAPSHOT_TIME = s.m.mer ∧ b.pw.sram.isSome = true ∧ b.pw.braceAt = s.m.cyc ∧
        (s.m.rdN Od.BRACE_ENTRIES + 1 < keySize Od.BRACE_ENTRIES → b.rdN Od.BRACE_ENTRIES = s.m.rdN Od.BRACE_ENTRIES + 1))) ∧
  (∀ (s : State) (vin : Nat), s.m.up = true → s.leads (.vinReturn vin) fun b => b.rd Od.SUP_VIN = vin ∧
    (vin < s.m.exitV ∨ s.m.rdN Od.SUP_SOURCE ≠ 1 → b.rd Od.SUP_SOURCE = s.m.rd Od.SUP_SOURCE ∧ b.rd Od.BRACE_STATE = s.m.rd Od.BRACE_STATE) ∧
    (s.m.exitV ≤ vin → s.m.rdN Od.SUP_SOURCE = 1 → b.rd Od.SUP_SOURCE = 0 ∧ s.m.told b 0x1304 0 vin ∧
      (s.m.rdN Od.BRACE_STATE = 1 → b.rd Od.BRACE_STATE = 0 ∧ s.m.told b 0x1302 0 ((s.m.cyc - s.m.pw.braceAt) / ms 1)))) ∧
  (∀ (s : State) (input : Nat), s.m.up = true → s.leads (.braceExit input) fun b =>
    (s.m.rdN Od.SUP_SOURCE = 1 → b.rd Od.SUP_VBAK = input) ∧ (s.m.rdN Od.SUP_SOURCE ≠ 1 → b.rd Od.SUP_VIN = input) ∧
    (s.m.rdN Od.BRACE_STATE ≠ 1 ∨ input < s.m.exitV → b.rd Od.BRACE_STATE = s.m.rd Od.BRACE_STATE) ∧
    (s.m.rdN Od.BRACE_STATE = 1 → s.m.exitV ≤ input → b.rd Od.BRACE_STATE = 0 ∧
      b.rd Od.BRACE_LAST_LENGTH = ((s.m.cyc - s.m.pw.braceAt) / ms 1 : Nat) ∧ s.m.told b 0x1302 0 ((s.m.cyc - s.m.pw.braceAt) / ms 1))) ∧
  (∀ (s : State) (vbak : Nat), s.m.up = true → s.leads (.vbakAboveWarning vbak) fun b => b.rd Od.SUP_VBAK = vbak ∧
    (s.m.rdN Od.BRACE_STATE = 1 → s.m.rdN Od.SUP_SOURCE = 0 → s.m.warnV ≤ vbak → b.rd Od.SUP_SOURCE = 1 ∧ b.rd Od.BRACE_STATE = 0 ∧
      s.m.told b 0x1303 0 vbak ∧ s.m.told b 0x1302 0 ((s.m.cyc - s.m.pw.braceAt) / ms 1)) ∧
    (s.m.rdN Od.BRACE_STATE ≠ 1 ∨ s.m.rdN Od.SUP_SOURCE ≠ 0 ∨ vbak < s.m.warnV → b.rd Od.BRACE_STATE = s.m.rd Od.BRACE_STATE ∧
      b.rd Od.SUP_SOURCE = s.m.rd Od.SUP_SOURCE)) ∧
  (∀ (s : State) (vin vbak : Nat), s.m.up = true → s.leads (.holdUpEntry vin vbak) fun b =>
    (vin < 6800 → vbak < 6800 → s.m.rdN Od.BRACE_STATE ≠ 2 → b.rd Od.BRACE_STATE = 2 ∧ b.rd Od.SUP_SOURCE = 2 ∧
      bit (b.rdN Od.SUP_STICKY) 2 = true ∧ bit (b.rdN Od.BRACE_STICKY) 1 = true ∧ b.pw.nand = b.pw.sram ∧ b.pw.consumed = false ∧
      (s.m.rdN Od.BRACE_STATE = 0 → s.m.told b 0x1301 0 vin ∧ b.pw.nand.isSome = true) ∧
      (s.m.rdN Od.BRACE_HOLDUPS + 1 < keySize Od.BRACE_HOLDUPS → b.rdN Od.BRACE_HOLDUPS = s.m.rdN Od.BRACE_HOLDUPS + 1)) ∧
    (6800 ≤ vin ∨ 6800 ≤ vbak ∨ s.m.rdN Od.BRACE_STATE = 2 → b.rd Od.BRACE_STATE = s.m.rd Od.BRACE_STATE ∧ b.pw.nand = s.m.pw.nand)) ∧
  (∀ (s : State) (vin vbak vhold : Nat), s.m.up = true → s.leads (.holdUpRecover vin vbak vhold) fun b => b.rd Od.SUP_VHOLD = vhold ∧
    (s.m.rdN Od.BRACE_STATE = 2 → 20000 < vhold → 7900 < vin ∨ 7900 < vbak → b.rd Od.BRACE_STATE = 1 ∧
      b.rd Od.SUP_SOURCE = if 7900 < vin then 0 else 1) ∧
    (s.m.rdN Od.BRACE_STATE ≠ 2 ∨ vhold ≤ 20000 ∨ (vin ≤ 7900 ∧ vbak ≤ 7900) → b.rd Od.BRACE_STATE = s.m.rd Od.BRACE_STATE)) ∧
  (∀ (s : State) (vhold : Nat), s.m.up = true → s.leads (.holdupReadyChange vhold) fun b => b.rd Od.SUP_VHOLD = vhold ∧
    b.rd Od.SUP_HOLDUP_READY = b2n (decide (50000 ≤ vhold)))

/-- Resets begin: what they clear and hold (R487, R489, R490, R494, R497, R519). -/
def Obligations.ResetsBegin : Prop :=
  (∀ (s : State) (i : Instr) (code : Nat), s.m.pw.rst.parts = 0 →
    (i = .supplyFailReset 0 ∧ s.m.rdN Od.BRACE_STATE = 2 ∧ code = 2) ∨ (i = .coldPinReset ∧ s.m.pw.rails = true ∧ s.m.pw.rst.fellAt.isSome = true ∧ code = 3) ∨
      (i = .thermalTrip ∧ s.m.pw.rails = true ∧ code = 1) ∨ (i = .powerOn 12000 0 ∧ s.m.pw.rails = false ∧ code = 1) → s.leads i fun b =>
    (∀ k, partOf k < 5 → (∀ f < 168, k ≠ Od.FN_STICKY f) → b.rd k = odDefault k ∧ b.blob k = blobDefault k) ∧ code ∈ b.pw.rst.active ∧
      b.pw.rst.parts = 31 ∧ b.up = false ∧ b.mg.srv.running = false ∧ b.mg.srv.queue = [] ∧ b.tm.mt = {} ∧ b.mg.ev = [] ∧ b.mg.job = [] ∧ b.clk = [] ∧
      b.ramLost = true ∧ b.arc.flash = s.m.arc.flash ∧ b.mg.cfg = s.m.mg.cfg ∧ b.mg.boot = s.m.mg.boot ∧ b.pw.nand = s.m.pw.nand ∧
      b.pw.rst.since = max s.m.pw.rst.since s.m.cyc) ∧
  (∀ s : State, s.m.pw.rails = true → s.leads .warmPinReset fun b => 4 ∈ b.pw.rst.active ∧ (∀ p ∈ [1, 2, 3, 4], b.partHeld p = true) ∧
    b.pw.rst.fellAt.isSome = true ∧ b.rd Od.RST_RESET_N = 0) ∧
  (∀ (s : State) (vhold : Nat), s.m.rdN Od.BRACE_STATE ≠ 2 ∨ 20000 < vhold → s.leads (.supplyFailReset vhold) fun b => b = s.m) ∧
  (∀ (s : State) (vhold : Nat), s.m.rdN Od.BRACE_STATE = 2 → vhold ≤ 20000 → s.leads (.supplyFailReset vhold) fun b =>
    b.pw.rails = false ∧ 2 ∈ b.pw.rst.active ∧ b.pw.supply = none) ∧
  (∀ (s : State) (vin vbak : Nat), s.m.pw.rails = true ∨ (vin ≤ 7900 ∧ vbak ≤ 7900) → s.leads (.powerOn vin vbak) fun b => b = s.m) ∧
  (∀ (s : State) (vin vbak : Nat), s.m.pw.rails = false → 7900 < vin ∨ 7900 < vbak → s.leads (.powerOn vin vbak) fun b =>
    b.pw.rails = true ∧ 1 ∈ b.pw.rst.active ∧ b.pw.supply = some (vin, vbak)) ∧
  (∀ (s : State) (i : Instr), s.m.pw.rails = false → i ∈ [.warmPinReset, .coldPinReset, .thermalTrip] → s.leads i fun b => b = s.m) ∧
  (∀ s : State, s.m.pw.rails = true → s.m.pw.rst.fellAt = none → s.leads .coldPinReset fun b => b = s.m) ∧
  (∀ s : State, s.m.pw.rails = true → s.leads .thermalTrip fun b => b.pw.rails = false ∧ 1 ∈ b.pw.rst.active)

/-- Resets end: release, firmware, commanded resets (R436, R437, R490, R493, R494, R495, R516). -/
def Obligations.ResetsEnd : Prop :=
  (∀ s : State, s.leads .resetRelease fun b =>
    (s.m.pw.rst.active = [] ∨ s.m.pw.rails = false ∨ s.m.cyc < s.m.pw.rst.since → b = s.m.setRst fun r => { r with fns := [] }) ∧
    (∀ code, s.m.pw.rst.active.min? = some code → s.m.pw.rails = true → s.m.pw.rst.since ≤ s.m.cyc → b.pw.rst.active = [] ∧ b.pw.rst.parts = 0 ∧
      b.pw.rst.report = some code ∧ b.up = true ∧ b.rd Od.RST_RESET_N = 1 ∧ b.rd Od.RST_LAST_CAUSE = (if code = 2 then 1 else code : Nat) ∧
      (s.m.partHeld 0 = true → b.tm.mt = {} ∧ b.mer = 0) ∧
      (s.m.partHeld 1 = true → b.rd Od.SWO_ROLE = 0 ∧ b.rd Od.PAIR_ENABLED = b2n (s.m.on Od.PAIR_ENABLE) ∧ b.rd Od.PAIR_PARTNER_STATE = 0xFF))) ∧
  (∀ s : State, s.m.up = true → s.m.mg.srv.running = true ∨ s.m.partHeld 4 = true → s.leads .firmwareStart fun b => b = s.m) ∧
  (∀ (s : State) (cause : Nat), s.m.up = true → s.m.mg.srv.running = false → s.m.partHeld 4 = false → s.m.pw.rst.report = some cause → 4 ≤ cause →
    s.leads .firmwareStart fun b => ∃ b1 : Block, b = b1.takePending ∧ b1.mg.srv.running = true ∧ b1.mg.srv.runAt = s.m.cyc ∧
      b1.clockRuns .prixus = true ∧ s.m.told b1 0x1305 0 cause ∧ (s.m.pw.rst.watchdog = true → s.m.told b1 0x1205 0 0) ∧ b1.pw.rst.report = none ∧
      ((s.m.image (s.m.rdN Od.IMG_BOOT_NEXT)).tries < 2 → b1.rdN Od.IMG_RUNNING = s.m.rdN Od.IMG_BOOT_NEXT) ∧
      (∀ j < 16, b1.jobLive j = false) ∧
      (s.m.rdN (countKeyOf cause) + 1 < keySize (countKeyOf cause) → b1.rdN (countKeyOf cause) = s.m.rdN (countKeyOf cause) + 1)) ∧
  (∀ (s : State) (r : BraceRecord) (cause : Nat), s.m.up = true → s.m.mg.srv.running = false → s.m.partHeld 4 = false →
    s.m.pw.rst.report = some cause → cause ≤ 2 → s.m.pw.nand = some r → s.m.pw.consumed = false →
    s.leads .firmwareStart fun b => ∃ b1 : Block, b = b1.takePending ∧ b1.rd Od.RST_LAST_CAUSE = 2 ∧ bit (b1.rdN Od.RST_STICKY) 1 = true ∧
      b1.pw.consumed = true ∧ b1.rdN Od.SUP_VIN_MIN ≤ r.vinMin) ∧
  (∀ (s : State) (c : Caller) (token n : Nat), s.grants c (writeKey token Od.RST_WARM 1) n = true → s.leads (.rstWarm c token) fun b =>
    let w := s.m.asked c (writeKey token Od.RST_WARM 1) n
    w.tenant = 0 → b.replied w 0 0 ∧ b.pw.rst.ordered = some 5) ∧
  (∀ (s : State) (c : Caller) (token n : Nat), s.grants c (writeKey token Od.RST_FW_RESTART 1) n = true → s.leads (.rstFwRestart c token) fun b =>
    let w := s.m.asked c (writeKey token Od.RST_FW_RESTART 1) n
    w.tenant = 0 → b.replied w 0 0 ∧ b.pw.rst.ordered = some 7) ∧
  (∀ (s : State) (c : Caller) (token n f : Nat), f < 256 → s.grants c (writeKey token Od.RST_FUNCTION f) n = true →
    let a := s.m.door c (writeKey token Od.RST_FUNCTION f) n
    let w := s.m.asked c (writeKey token Od.RST_FUNCTION f) n
    s.leads (.rstFunction c token f) fun b =>
      (168 ≤ f → b.replied w 5 0 ∧ a.sameButBooks b) ∧
      (f < 168 → f = 32 ∨ f = 33 ∨ a.fnState f ≠ 0 ∨ a.holds f w.tenant = false → b.replied w 6 0 ∧ a.sameButBooks b) ∧
      (f < 168 → f ≠ 32 → f ≠ 33 → a.fnState f = 0 → a.holds f w.tenant = true → b.replied w 0 0 ∧ f ∈ b.pw.rst.fns ∧
        (104 ≤ f → ∀ k, a.blockFn k = some f → partOf k ≠ 0 → b.rd k = odDefault k))) ∧
  (∀ s : State, s.m.up = true → s.leads .phyResetRelease fun b =>
    (s.m.partHeld 4 = true ∨ s.m.cyc < s.m.pw.phyAt + ms 10 → b = s.m) ∧
    (s.m.partHeld 4 = false → s.m.pw.phyAt + ms 10 ≤ s.m.cyc → b.pw.phyHigh = true)) ∧
  (∀ (s : State) (gen width : Nat), s.m.up = true → s.leads (.pcieLinkChange gen width) fun b =>
    (s.m.partHeld 2 = true → b = s.m) ∧ (s.m.partHeld 2 = false → b.rd Od.CAP_PCIE_LINK = (gen * 16 + width : Nat) ∧
      (s.m.rootPort = true → b.pw.perstHigh = true)))

/-- A step runs the front command, or lets a Vesper cycle pass (log 2: the model's choice) (R99). -/
def Obligations.StepRunsFront : Prop :=
  (∀ (c : Instr) (rest : List Instr) (s : State), step { s with pending := c :: rest } = exec c { s with pending := rest }) ∧
  (∀ s : State, s.pending = [] → ∃ b : Block, step s = .next (s.withBlock b) ∧ (s.withBlock b).pending = [] ∧ b.cyc = s.m.cyc + 1 ∧
    (s.m.up = true → s.m.mer + 655360 < wordWrap → b.mer = s.m.mer + 655360) ∧ (s.m.up = false → b = { s.m with cyc := s.m.cyc + 1 }))

/-- Every command completes, and leaves the queue alone (R490, R401). -/
def Obligations.EveryCommandCompletes : Prop :=
  (∀ (i : Instr) (s : State), ∃ t, exec i s = .next t ∧ t.pending = s.pending) ∧
  (∀ (i : Instr) (s : State), actsHeld i = false → s.m.up = false → exec i s = .next s) ∧
  (∀ (i : Instr) (s t : State), exec i s = .next t → s.m.up = true ∨ actsHeld i = true → ∃ b : Block, t = s.withBlock b)

/-- What reset leaves (R11, R42, R43, R418, R495). -/
def Obligations.ResetValues : Prop :=
  let m := State.reset.m
  State.reset.pending = [] ∧ State.reset.ram = [] ∧ (∀ k, m.rd k = odDefault k ∧ m.blob k = blobDefault k) ∧ m.mer = 0 ∧ m.tick = 0 ∧
    m.on Od.MT_TIME_SET = false ∧ m.on Od.MT_TIME_VALID = false ∧ m.pe0 = 0 ∧ m.selected = none ∧ m.safe = false ∧
    (∀ f < 168, m.fnRuns f = decide (f = 32 ∨ f = 33)) ∧ (∀ c : FastClock, m.clockRuns c = false) ∧ (∀ j < 16, m.jobLive j = false) ∧
    m.mg.srv.running = false ∧ m.mg.srv.queue = [] ∧ m.up = true ∧ m.sent = [] ∧ ∀ t, (tat {} m.mg.ev t).queue = []

/-- The invariant holds at reset (R59, R42, R371). -/
def Obligations.ResetKeepsInvariant : Prop := State.reset.Inv

/-- Every step keeps the invariant: TIME_VALID is honest, the pool memory canonical (R59, R524, R371, R363). -/
def Obligations.StepKeepsInvariant : Prop :=
  (∀ s t : State, s.Inv → step s = .next t → t.Inv) ∧ (∀ (i : Instr) (s t : State), s.Inv → exec i s = .next t → t.Inv) ∧
  (∀ (s t : State), s.Inv → step s = .next t → t.m.rd Od.MT_TIME_VALID = 1 → t.m.on Od.MT_TIME_SET = true ∧ (t.m.pe0 = 2 ∨ t.m.pe0 = 3) ∧
    t.m.rdN Od.MT_UNCERTAINTY ≤ t.m.rdN Od.MT_UNC_LIMIT ∧ t.m.rd Od.SAFE_STATE ≠ 1)

/-- TIME_VALID's edges raise their events (R59, R524). -/
def Obligations.TimeValidEvents : Prop :=
  ∀ b : Block, (settle b).rd Od.MT_UNCERTAINTY = b.uncertainty ∧ (settle b).rd Od.MT_TIME_VALID = b2n (b.timeConditions b.uncertainty) ∧
    (b.on Od.MT_TIME_VALID = true → b.timeConditions b.uncertainty = false → b.told (settle b) 0x2001 0 0 ∧
      bit ((settle b).rdN Od.MT_STICKY) 0 = true) ∧
    (b.on Od.MT_TIME_VALID = false → b.timeConditions b.uncertainty = true → b.told (settle b) 0x2002 0 0) ∧
    b.within (settle b) (fun x => x = 0x2000)

/-- A time word as bytes (R40). -/
def Obligations.TimeWordBytes : Prop :=
  (∀ word < wordWrap, (timeBytes word).length = 12 ∧ ofLE (slice (timeBytes word) 0 2) = fractionOf word ∧
    ofLE (slice (timeBytes word) 2 4) = nanosOf word ∧ ofLE (slice (timeBytes word) 6 6) = secondsOf word) ∧
  (∀ word < wordWrap, encodeVal .time96 (word : Nat) = timeBytes word ∧ decodeVal .time96 (timeBytes word) = some (word : Int))

/-- The tick view (R44). -/
def Obligations.TickView : Prop :=
  ∀ b : Block, b.tick = ((secondsOf b.mer * 1000000000 + nanosOf b.mer) * 65536 + fractionOf b.mer) % 2 ^ 64 ∧
    b.tick = ((secondsOf b.mer * 1000000000 + nanosOf b.mer) % 2 ^ 48) * 65536 + fractionOf b.mer ∧ b.tick < 2 ^ 64 ∧
    nanosOf b.mer < 1000000000 ∧ fractionOf b.mer < 65536

/-- Comparing a target with the tick view (R47, R48). -/
def Obligations.DueComparison : Prop :=
  (∀ (b : Block) (word : Nat), b.mer ≤ word + 2 ^ 63 → word < b.mer + 2 ^ 63 → (b.due (tickOf word) = true ↔ word ≤ b.mer)) ∧
  (∀ (b : Block) (word : Nat), b.mer + 2 ^ 63 ≤ word → word < b.mer + 2 ^ 64 → b.due (tickOf word) = true)

/-- Pool memory: what a command stores, and what it leaves (R363, R371, R375). -/
def Obligations.PoolMemory : Prop :=
  (∀ (s : State) (b : Block) (x : Nat), s.ram.wf = true → b.safe = false → b.pw.rst.ordered = none → b.ramLost = false →
    (∀ e ∈ b.pokes, x < e.1 ∨ e.1 + e.2.length ≤ x) → ramRead (s.withBlock b).ram x = ramRead s.ram x) ∧
  (∀ (s : State) (b : Block) (before : List (Nat × Bytes)) (x : Nat) (l : Bytes) (i : Nat), s.ram.wf = true → b.safe = false →
    b.pw.rst.ordered = none → b.pokes = before ++ [(x, l)] → (hi : i < l.length) → ramRead (s.withBlock b).ram (x + i) = l[i]) ∧
  (∀ (s : State) (ch : Fin 64) (desc data raw : Bytes), s.m.up = true → s.m.dmaFree ch 0 = true → s.m.headDesc s.ram ch desc = some raw →
    let d := readDescriptor raw
    let bytes := if d.srcSpace = 0 then data else ramBytes s.ram (s.m.poolAddr d.src) d.len
    d.op = 0 → d.free = false → s.m.cp.dma.all (fun e => e.2.job.isNone) = true → s.leads (.dmaCopy ⟨ch, none⟩ desc data) fun b => b.ramLost = s.m.ramLost ∧ ∀ e ∈ b.pokes, e ∈ s.m.pokes ∨
      (d.dstSpace ≠ 0 ∧ e = (s.m.poolAddr d.dst, bytes)) ∨
      (s.m.rdN (Od.DMA_RING_SPACE ch) ≠ 0 ∧ e.1 = s.m.poolAddr (s.m.headSlot ch + 28) ∧ e.2.length = 4) ∨
      (s.m.rdN (Od.DMA_RING_SPACE ch) ≠ 0 ∧ s.m.rdN (Od.DMA_WB_ADDR ch) ≠ 0 ∧
        e = (s.m.poolAddr (s.m.rdN (Od.DMA_WB_ADDR ch)), toLE 4 ((s.m.rdN (Od.DMA_HEAD ch) + 1) % 2 ^ 32))))

/-- Frames: supply, cross-watch and pair commands (R484, R487, R462, R465, R450, R455). -/
def Obligations.FramesSupplySafetyPair : Prop :=
  (∀ (s : State) (i : Instr), s.m.up = true → (∃ v w, i = .vinBelowWarning v w) ∨ (∃ v, i = .vinReturn v) ∨ (∃ v, i = .braceExit v) ∨
      (∃ v w, i = .holdUpEntry v w) ∨ (∃ v w x, i = .holdUpRecover v w x) ∨ (∃ v, i = .vbakAboveWarning v) ∨ (∃ v, i = .holdupReadyChange v) ∨
      i = .phyResetRelease → s.leads i fun b =>
    b.pw.rst = s.m.pw.rst ∧ ∃ pw, ({ s.m with pw := pw } : Block).within b (fun x => x = 0x1300 ∨ x = 0x1301)) ∧
  (∀ (s : State) (i : Instr), s.m.up = true → (∃ c n d, i = .xwCheck c n d) ∨ (∃ t, i = .xwSelftest t) → s.leads i fun b =>
    ∃ safe, ({ s.m with mg := { s.m.mg with safe := safe } } : Block).within b (fun x => x = 0x7000 ∨ x = 0x7001 ∨ x = 0x7200)) ∧
  (∀ (s : State) (i : Instr), s.m.up = true → i ∈ [.heartbeatTx, .snapshotAgeExpiry, .switchBackTimeout] ∨
      (i = .pairStartupTimeout ∧ (s.m.pr.posB = false ∨ s.m.on Od.SWO_PARTNER_ALIVE = false)) ∨ (i = .partnerAliveFall ∧ s.m.pairState ≠ 5) → s.leads i fun b =>
    ∃ pr sent, ({ s.m with pr := pr, sent := sent } : Block).within b (fun x => 0x6000 ≤ x ∧ x < 0x6100))

/-- Frames: timing, lane, fabric and GNSS commands (R54, R110, R116, R153, R161, R203, R305). -/
def Obligations.FramesTimingAndUnits : Prop :=
  (∀ (s : State) (i : Instr), s.m.up = true → i ∈ [.oscWarmupClear, .leapApply, .hoModelSave, .linkCalSave] ∨ (∃ r, i = .refinPulseTimeout r) ∨
      (∃ r v, i = .refinFreqChange r v) ∨ (∃ n, i = .outputSquelch n) ∨ (∃ n, i = .outAlignLoss n) ∨ (∃ p, i = .reelPeerTimeout p) → s.leads i fun b =>
    ∃ tm, ({ s.m with tm := tm } : Block).within b (fun x => 0x2000 ≤ x ∧ x < 0x2A00)) ∧
  (∀ (s : State) (l : Fin 32), s.m.up = true → s.leads (.laneTrainingTimeout l) fun b =>
    ∃ ln cross, ({ s.m with ln := ln, cross := cross } : Block).within b (fun x => x = 0x3800 + l)) ∧
  (∀ s : State, s.m.up = true → s.leads .macAgePass fun b => ∃ fab, ({ s.m with fab := fab } : Block).within b (fun x => x = 0x3000)) ∧
  (∀ (s : State) (i : Instr), s.m.up = true → i = .gnssAntRetry ∨ i = .gnssKeepSave ∨ (∃ c l, i = .gnssAntChange c l) ∨ (∃ a f, i = .gnssJamDetect a f) →
    s.leads i fun b => ∃ gn cross, ({ s.m with gn := gn, cross := cross } : Block).within b (fun x => 0x4000 ≤ x ∧ x < 0x4100)) ∧
  (∀ s : State, s.m.up = true → s.leads .domainSegTimeout fun b =>
    ∃ accs snaps, b = s.m.setSrv fun x => { x with accs := accs, snaps := snaps }) ∧
  (∀ s : State, s.m.up = true → s.leads .imgConfirm fun b => ∃ images, b = s.m.setPw fun p => { p with images := images })
end

