-- ==== Sys2Proof/Laws/Table.lean ====
section
/-! SUPPORT. What a read of a sparse table finds after each operation on it. -/

namespace Sys2Proof.Machine

variable {α : Type}

theorem tget_tput (t : Table α) (k j : Nat) (v : α) : tget (tput t k v) j = if k = j then some v else tget t j := by
  induction t with
  | nil => simp [tput, tget]
  | cons e r ih =>
    obtain ⟨i, w⟩ := e
    by_cases h1 : i = k
    · subst h1
      by_cases h2 : i = j <;> simp [tput, tget, h2]
    · by_cases h2 : k < i
      · simp [tput, tget, h1, h2]
      · by_cases h3 : i = j
        · subst h3
          have h4 : ¬k = i := fun h => h1 h.symm
          simp [tput, tget, h1, h2, h4]
        · simp [tput, tget, h1, h2, h3, ih]

@[simp] theorem tget_tput_same (t : Table α) (k : Nat) (v : α) : tget (tput t k v) k = some v := by simp [tget_tput]

theorem tget_tput_ne (t : Table α) {k j : Nat} (v : α) (h : k ≠ j) : tget (tput t k v) j = tget t j := by simp [tget_tput, h]

theorem tget_filter (t : Table α) (p : Nat → Bool) (j : Nat) :
    tget (t.filter fun e => p e.1) j = if p j then tget t j else none := by
  induction t with
  | nil => simp [tget]
  | cons e r ih =>
    obtain ⟨i, w⟩ := e
    by_cases h1 : i = j
    · subst h1
      cases h2 : p i <;> simp [tget, h2, ih]
    · cases h2 : p i <;> simp [tget, h1, h2, ih]

theorem tget_tdel (t : Table α) (k j : Nat) : tget (tdel t k) j = if k = j then none else tget t j := by
  have h := tget_filter t (· != k) j
  by_cases h1 : k = j
  · subst h1; simpa [tdel] using h
  · have h2 : ¬j = k := fun e => h1 e.symm
    simpa [tdel, h1, h2] using h

@[simp] theorem tget_tdel_same (t : Table α) (k : Nat) : tget (tdel t k) k = none := by simp [tget_tdel]

theorem tget_tdel_ne (t : Table α) {k j : Nat} (h : k ≠ j) : tget (tdel t k) j = tget t j := by simp [tget_tdel, h]

theorem tget_tdrop (t : Table α) (p : Nat → Bool) (j : Nat) : tget (tdrop t p) j = if p j then none else tget t j := by
  have h := tget_filter t (fun i => !p i) j
  cases hp : p j <;> simpa [tdrop, hp] using h

theorem tat_tput (d : α) (t : Table α) (k j : Nat) (v : α) : tat d (tput t k v) j = if k = j then v else tat d t j := by
  by_cases h : k = j <;> simp [tat, tget_tput, h]

@[simp] theorem tat_tput_same (d : α) (t : Table α) (k : Nat) (v : α) : tat d (tput t k v) k = v := by simp [tat_tput]

theorem tat_tput_ne (d : α) (t : Table α) {k j : Nat} (v : α) (h : k ≠ j) : tat d (tput t k v) j = tat d t j := by simp [tat_tput, h]

theorem tat_tmod (d : α) (t : Table α) (k j : Nat) (f : α → α) :
    tat d (tmod d t k f) j = if k = j then f (tat d t k) else tat d t j := by simp [tmod, tat_tput]

@[simp] theorem tat_tmod_same (d : α) (t : Table α) (k : Nat) (f : α → α) : tat d (tmod d t k f) k = f (tat d t k) := by simp [tat_tmod]

theorem tat_tmod_ne (d : α) (t : Table α) {k j : Nat} (f : α → α) (h : k ≠ j) : tat d (tmod d t k f) j = tat d t j := by
  simp [tat_tmod, h]

theorem tat_tdel (d : α) (t : Table α) (k j : Nat) : tat d (tdel t k) j = if k = j then d else tat d t j := by
  by_cases h : k = j <;> simp [tat, tget_tdel, h]

end Sys2Proof.Machine
end

