-- ==== Sys2Proof/Laws/Ops.lean ====
section
/-! SUPPORT. What the shared operations of Machine/Ops.lean can do: each lemma says once what an operation leaves behind, so that no proof has to
unfold it. -/

namespace Sys2Proof.Machine

-- Dictionary entries

theorem Block.rd_wr (b : Block) (k j : Nat) (v : Int) : (b.wr k v).rd j = if k = j then v else b.rd j := by
  unfold Block.wr Block.rd
  by_cases h : v = odDefault k
  · by_cases hk : k = j
    · subst hk; simp [h]
    · simp [h, tget_tdel_ne _ hk, hk]
  · by_cases hk : k = j
    · subst hk; simp [h]
    · simp [h, tget_tput_ne _ _ hk, hk]

@[simp] theorem Block.rd_wr_same (b : Block) (k : Nat) (v : Int) : (b.wr k v).rd k = v := by simp [Block.rd_wr]

theorem Block.rd_wr_ne (b : Block) {k j : Nat} (v : Int) (h : k ≠ j) : (b.wr k v).rd j = b.rd j := by simp [Block.rd_wr, h]

theorem Block.blob_wrBlob (b : Block) (k j : Nat) (v : Bytes) : (b.wrBlob k v).blob j = if k = j then v else b.blob j := by
  unfold Block.wrBlob Block.blob
  by_cases h : v = blobDefault k
  · by_cases hk : k = j
    · subst hk; simp [h]
    · simp [h, tget_tdel_ne _ hk, hk]
  · by_cases hk : k = j
    · subst hk; simp [h]
    · simp [h, tget_tput_ne _ _ hk, hk]

/-- A write changes the numeric entries alone. -/
theorem Block.wr_eq (b : Block) (k : Nat) (v : Int) : ∃ od, b.wr k v = { b with od := od } := ⟨_, rfl⟩

theorem Block.rdN_wr (b : Block) (k j : Nat) (v : Int) : (b.wr k v).rdN j = if k = j then v.toNat else b.rdN j := by
  unfold Block.rdN; rw [Block.rd_wr]; split <;> rfl

theorem Block.on_wr (b : Block) (k j : Nat) (v : Int) : (b.wr k v).on j = if k = j then v == 1 else b.on j := by
  unfold Block.on; rw [Block.rd_wr]; split <;> rfl

theorem Block.rd_orBits_ne (b : Block) {k j : Nat} (m : Nat) (h : k ≠ j) : (b.orBits k m).rd j = b.rd j := b.rd_wr_ne _ h

theorem Block.rdN_orBits (b : Block) (k m : Nat) : (b.orBits k m).rdN k = b.rdN k ||| m := by
  simp [Block.orBits, Block.rdN_wr]

-- What counting and raising events leave alone

/-- The module b with other entries of the counters group, other free values and other event queues at most: the frame of every operation that only
counts or raises events. -/
def Block.sameButEvents (b c : Block) : Prop :=
  (∃ od free ev, c = { b with od := od, free := free, mg := { b.mg with ev := ev } }) ∧ (∀ k, ¬counterKey k → c.rd k = b.rd k) ∧
    ∀ t, (∀ e, e ∈ (tat {} b.mg.ev t).queue → e ∈ (tat {} c.mg.ev t).queue) ∧ (tat {} b.mg.ev t).lost ≤ (tat {} c.mg.ev t).lost

theorem Block.sameButEvents_refl (b : Block) : b.sameButEvents b := ⟨⟨b.od, b.free, b.mg.ev, rfl⟩, fun _ _ => rfl, fun _ => ⟨fun _ h => h, Nat.le_refl _⟩⟩

theorem Block.sameButEvents_trans {a b c : Block} (h : a.sameButEvents b) (g : b.sameButEvents c) : a.sameButEvents c := by
  obtain ⟨⟨_, _, _, rfl⟩, h2, h3⟩ := h
  obtain ⟨⟨_, _, _, rfl⟩, g2, g3⟩ := g
  exact ⟨⟨_, _, _, rfl⟩, fun k hk => (g2 k hk).trans (h2 k hk), fun t => ⟨fun e he => (g3 t).1 e ((h3 t).1 e he), (h3 t).2.trans (g3 t).2⟩⟩

theorem Block.sameButEvents_wr (b : Block) (k : Nat) (v : Int) (hk : counterKey k) : b.sameButEvents (b.wr k v) := by
  refine ⟨⟨_, b.free, b.mg.ev, rfl⟩, fun j hj => b.rd_wr_ne v ?_, fun _ => ⟨fun _ h => h, Nat.le_refl _⟩⟩
  rintro rfl
  exact hj hk

theorem Block.sameButEvents_draw (b : Block) (n : Nat) : b.sameButEvents (b.draw n).2 :=
  ⟨⟨b.od, _, b.mg.ev, rfl⟩, fun _ _ => rfl, fun _ => ⟨fun _ h => h, Nat.le_refl _⟩⟩

theorem Block.sameButEvents_bump (b : Block) (k n : Nat) (hk : counterKey k) : b.sameButEvents (b.bump k n) := by
  unfold Block.bump
  dsimp only
  split
  · exact b.sameButEvents_wr _ _ hk
  · exact Block.sameButEvents_trans (b.sameButEvents_draw _) (Block.sameButEvents_wr _ _ _ hk)

theorem Block.sameButEvents_queueTo (b : Block) (t num x y : Nat) : b.sameButEvents (b.queueTo t num x y) := by
  unfold Block.queueTo
  split
  · exact b.sameButEvents_refl
  · split
    · refine ⟨⟨b.od, b.free, _, rfl⟩, fun _ _ => rfl, fun u => ?_⟩
      show (∀ e, _ → e ∈ (tat {} (tmod {} b.mg.ev t (·.push num x y b.tick)) u).queue) ∧
        _ ≤ (tat {} (tmod {} b.mg.ev t (·.push num x y b.tick)) u).lost
      rw [tat_tmod]
      split
      · rename_i h
        subst h
        unfold TenantEv.push
        dsimp only
        split
        · exact ⟨fun e he => List.mem_append_left _ he, Nat.le_refl _⟩
        · exact ⟨fun e he => he, Nat.le_succ _⟩
      · exact ⟨fun e he => he, Nat.le_refl _⟩
    · exact b.sameButEvents_refl

theorem counterKey_value {n : Nat} (h : n < 64) : counterKey (Od.CNTN_VALUE n) := by
  unfold counterKey Od.CNTN_VALUE key; omega

theorem counterKey_overflows {n : Nat} (h : n < 64) : counterKey (Od.CNTN_OVERFLOWS n) := by
  unfold counterKey Od.CNTN_OVERFLOWS key; omega

theorem counterKey_events : counterKey Od.CNT_FIXED_EVENTS := by
  unfold counterKey Od.CNT_FIXED_EVENTS key; omega

theorem Block.sameButEvents_cntAdd (b : Block) {n : Nat} (k : Nat) (h : n < 64) : b.sameButEvents (b.cntAdd n k) := by
  unfold Block.cntAdd
  dsimp only
  split
  · exact b.sameButEvents_wr _ _ (counterKey_value h)
  · have h1 := Block.sameButEvents_trans
      (b.sameButEvents_wr (Od.CNTN_VALUE n) ((b.rdN (Od.CNTN_RELOAD n) + (b.rdN (Od.CNTN_VALUE n) + k - 2 ^ 48)) % 2 ^ 48 : Nat)
        (counterKey_value h)) (Block.sameButEvents_bump _ _ 1 (counterKey_overflows h))
    split
    · exact Block.sameButEvents_trans h1
        (Block.sameButEvents_trans (Block.sameButEvents_queueTo _ _ _ _ _) (Block.sameButEvents_bump _ _ _ counterKey_events))
    · exact h1

theorem Block.sameButEvents_foldl {β : Type} (f : Block → β → Block) (l : List β)
    (h : ∀ (c : Block) (e : β), c.sameButEvents (f c e)) (b : Block) :
    b.sameButEvents (l.foldl f b) := by
  induction l generalizing b with
  | nil => exact b.sameButEvents_refl
  | cons e r ih => exact Block.sameButEvents_trans (h b e) (ih (f b e))

theorem Block.sameButEvents_count (b : Block) (mode cls inst ev k : Nat) : b.sameButEvents (b.count mode cls inst ev k) := by
  unfold Block.count
  refine Block.sameButEvents_foldl _ _ (fun c e => ?_) b
  split
  · rename_i h
    exact c.sameButEvents_cntAdd k h.1
  · exact c.sameButEvents_refl

theorem Block.sameButEvents_tally (b : Block) (cls inst ev k : Nat) : b.sameButEvents (b.tally cls inst ev k) := b.sameButEvents_count ..

theorem Block.sameButEvents_countEvent (b : Block) : b.sameButEvents b.countEvent :=
  Block.sameButEvents_trans (b.sameButEvents_bump _ _ counterKey_events) (Block.sameButEvents_tally _ _ _ _ _)

theorem Block.sameButEvents_raiseTo (b : Block) (t num x y : Nat) : b.sameButEvents (b.raiseTo t num x y) :=
  Block.sameButEvents_trans (b.sameButEvents_queueTo t num x y) (Block.sameButEvents_countEvent _)

theorem Block.sameButEvents_raise (b : Block) (num x y : Nat) : b.sameButEvents (b.raise num x y) := by
  unfold Block.raise
  split
  · exact b.sameButEvents_refl
  · rename_i g _
    refine Block.sameButEvents_trans ?_ (Block.sameButEvents_countEvent _)
    refine Block.sameButEvents_foldl _ _ (fun c t => ?_) b
    split
    · exact c.sameButEvents_queueTo t num x y
    · exact c.sameButEvents_refl

/-- An event changes no entry outside the counters group. -/
theorem Block.rd_raise (b : Block) (num x y k : Nat) (h : ¬counterKey k) : (b.raise num x y).rd k = b.rd k := (b.sameButEvents_raise num x y).2.1 k h

end Sys2Proof.Machine
end

