-- ==== Sys2Proof/Laws/Events.lean ====
section
/-! SUPPORT. An event raised is told to every tenant that listens. -/

namespace Sys2Proof.Machine

/-- What was told stays told while operations only count or raise events. -/
theorem Block.told_mono {a b c : Block} {num x y : Nat} (h : a.told b num x y)
    (g : ∀ t, (∀ e, e ∈ (tat {} b.mg.ev t).queue → e ∈ (tat {} c.mg.ev t).queue) ∧ (tat {} b.mg.ev t).lost ≤ (tat {} c.mg.ev t).lost) :
    a.told c num x y := by
  intro t ht
  rcases h t ht with ⟨e, he, hx⟩ | hl
  · exact .inl ⟨e, (g t).1 e he, hx⟩
  · exact .inr (Nat.lt_of_lt_of_le hl (g t).2)

theorem Block.queueTo_told (b : Block) {t num : Nat} (x y : Nat) {g : Nat} (hg : groupOf num = some g)
    (hb : bit (b.rdN (Od.TNT_EVENT_GROUPS t)) g = true) :
    (∃ e ∈ (tat {} (b.queueTo t num x y).mg.ev t).queue, e.num = num ∧ e.argA = x ∧ e.argB = y) ∨
      (tat {} b.mg.ev t).lost < (tat {} (b.queueTo t num x y).mg.ev t).lost := by
  have he : (tat {} (b.queueTo t num x y).mg.ev t) = (tat {} b.mg.ev t).push num x y b.tick := by
    unfold Block.queueTo
    rw [hg]
    simp only [hb, if_true]
    exact tat_tmod_same ..
  rw [he]
  unfold TenantEv.push
  dsimp only
  split
  · exact .inl ⟨_, List.mem_append_right _ (List.mem_singleton.mpr rfl), rfl, rfl, rfl⟩
  · exact .inr (Nat.lt_succ_self _)

/-- An event raised on a module whose masks and losses are those of a, or more losses, is told. -/
theorem Block.told_raise {a b : Block} (num x y : Nat) (hm : ∀ t < 8, a.rdN (Od.TNT_EVENT_GROUPS t) = b.rdN (Od.TNT_EVENT_GROUPS t) ∧
      a.rdN (Od.TNT_READ_MASK t) = b.rdN (Od.TNT_READ_MASK t)) (hl : ∀ t, (tat {} a.mg.ev t).lost ≤ (tat {} b.mg.ev t).lost) :
    a.told (b.raise num x y) num x y := by
  intro t ht
  unfold Block.listens at ht
  rw [Bool.and_eq_true, decide_eq_true_eq] at ht
  obtain ⟨ht8, hg⟩ := ht
  cases hgr : groupOf num with
  | none => rw [hgr] at hg; cases hg
  | some g =>
    rw [hgr] at hg
    simp only [Bool.and_eq_true] at hg
    rw [(hm t ht8).1, (hm t ht8).2] at hg
    unfold Block.raise
    rw [hgr]
    dsimp only
    have key : ∀ (l : List Nat) (c : Block), t ∈ l → c.rdN (Od.TNT_EVENT_GROUPS t) = b.rdN (Od.TNT_EVENT_GROUPS t) →
        (tat {} b.mg.ev t).lost ≤ (tat {} c.mg.ev t).lost →
        (∃ e ∈ (tat {} (l.foldl (fun acc t => if bit (b.rdN (Od.TNT_READ_MASK t)) g then acc.queueTo t num x y else acc) c).mg.ev t).queue,
          e.num = num ∧ e.argA = x ∧ e.argB = y) ∨ (tat {} b.mg.ev t).lost <
            (tat {} (l.foldl (fun acc t => if bit (b.rdN (Od.TNT_READ_MASK t)) g then acc.queueTo t num x y else acc) c).mg.ev t).lost := by
      intro l
      induction l with
      | nil => intro c h; cases h
      | cons u r ih =>
        intro c hmem hc hlost
        have hstep : c.sameButEvents (if bit (b.rdN (Od.TNT_READ_MASK u)) g then c.queueTo u num x y else c) := by
          split
          · exact c.sameButEvents_queueTo u num x y
          · exact c.sameButEvents_refl
        have hrest := Block.sameButEvents_foldl (fun acc t => if bit (b.rdN (Od.TNT_READ_MASK t)) g then acc.queueTo t num x y else acc) r
          (fun d e => by
            split
            · exact d.sameButEvents_queueTo e num x y
            · exact d.sameButEvents_refl) (if bit (b.rdN (Od.TNT_READ_MASK u)) g then c.queueTo u num x y else c)
        by_cases hu : t = u
        · subst hu
          rw [List.foldl_cons, if_pos hg.2]
          rw [if_pos hg.2] at hrest
          rcases c.queueTo_told x y hgr (by rw [hc]; exact hg.1) with ⟨e, he, hx⟩ | hq
          · exact .inl ⟨e, (hrest.2.2 t).1 e he, hx⟩
          · exact .inr (Nat.lt_of_le_of_lt hlost (Nat.lt_of_lt_of_le hq (hrest.2.2 t).2))
        · rw [List.foldl_cons]
          refine ih _ ((List.mem_cons.mp hmem).resolve_left hu) ?_ (hlost.trans (hstep.2.2 t).2)
          rw [← hc]
          exact congrArg Int.toNat (hstep.2.1 _ (by unfold counterKey Od.TNT_EVENT_GROUPS key; omega))
    have h1 := key (List.range 8) b (List.mem_range.mpr ht8) rfl (Nat.le_refl _)
    have h2 := ((List.range 8).foldl (fun acc t => if bit (b.rdN (Od.TNT_READ_MASK t)) g then acc.queueTo t num x y else acc)
      b).sameButEvents_countEvent.2.2 t
    rcases h1 with ⟨e, he, hx⟩ | hq
    · exact .inl ⟨e, h2.1 e he, hx⟩
    · exact .inr (Nat.lt_of_le_of_lt (hl t) (Nat.lt_of_lt_of_le hq h2.2))

/-- An event sent into a crossing stands there, on its way or pending. -/
theorem Block.crosses_crossEvent (b : Block) (x : Nat) (e : Pulse) : (b.crossEvent x e).crosses x e := by
  unfold Block.crosses Block.crossEvent Block.setToggle Block.setCrossing Block.crossing
  simp only [tat_tmod_same]
  split
  · exact .inl ⟨_, rfl⟩
  · exact .inr rfl

/-- An event raised is reported, on a module whose masks and losses are those of a, or more losses. -/
theorem Block.reported_report {a b : Block} (num x y : Nat) (hm : ∀ t < 8, a.rdN (Od.TNT_EVENT_GROUPS t) = b.rdN (Od.TNT_EVENT_GROUPS t) ∧
      a.rdN (Od.TNT_READ_MASK t) = b.rdN (Od.TNT_READ_MASK t)) (hl : ∀ t, (tat {} a.mg.ev t).lost ≤ (tat {} b.mg.ev t).lost) :
    a.reported (b.report num x y) num x y := by
  unfold Block.reported Block.report
  cases eventCrossing num x with
  | none => exact Block.told_raise num x y hm hl
  | some c => exact b.crosses_crossEvent c _

end Sys2Proof.Machine
end

