-- ==== Sys2Proof/Laws/Memory.lean ====
section
/-! SUPPORT. The pool memory: every operation keeps its canonical form, and a read finds the last byte written. -/

namespace Sys2Proof.Machine

/-- A bound that a memory rises above may be lowered. -/
theorem ramRises_mono {m : Memory} {a b : Nat} (h : ramRises (some a) m = true) (hb : b ≤ a) : ramRises (some b) m = true := by
  cases m with
  | nil => rfl
  | cons e r =>
    simp only [ramRises, Bool.and_eq_true, decide_eq_true_eq] at h ⊢
    exact ⟨⟨by omega, h.1.2⟩, h.2⟩

theorem ramRises_none {m : Memory} {a : Nat} (h : ramRises (some a) m = true) : ramRises none m = true := by
  cases m with
  | nil => rfl
  | cons e r =>
    simp only [ramRises, Bool.and_eq_true] at h ⊢
    exact ⟨⟨trivial, h.1.2⟩, h.2⟩

/-- Nothing is listed at or below the bound a memory rises above. -/
theorem ramRead_low {m : Memory} {a c : Nat} (h : ramRises (some a) m = true) (hc : c ≤ a) : ramRead m c = ramFill := by
  induction m generalizing a with
  | nil => rfl
  | cons e r ih =>
    obtain ⟨k, w⟩ := e
    simp only [ramRises, Bool.and_eq_true, decide_eq_true_eq] at h
    have hk : ¬k = c := by omega
    simp only [ramRead, if_neg hk]
    exact ih h.2 (by omega)

theorem ramRead_ramWrite_aux {m : Memory} (o : Option Nat) (a : Nat) (v : Byte) (c : Nat) (h : ramRises o m = true) :
    ramRead (ramWrite m a v) c = if a = c then v else ramRead m c := by
  induction m generalizing o with
  | nil => by_cases hv : v = ramFill <;> by_cases hc : a = c <;> simp [ramWrite, ramRead, hv, hc]
  | cons e r ih =>
    obtain ⟨k, w⟩ := e
    simp only [ramRises, Bool.and_eq_true] at h
    by_cases h1 : k = a
    · subst h1
      by_cases hv : v = ramFill
      · by_cases hc : k = c
        · subst hc; simp [ramWrite, hv, ramRead_low h.2 (Nat.le_refl k)]
        · simp [ramWrite, ramRead, hv, hc]
      · by_cases hc : k = c <;> simp [ramWrite, ramRead, hv, hc]
    · by_cases h2 : a < k
      · by_cases hv : v = ramFill
        · by_cases hc : a = c
          · subst hc; simp [ramWrite, h1, h2, hv, ramRead, ramRead_low h.2 (Nat.le_of_lt h2)]
          · simp [ramWrite, h1, h2, hv, hc]
        · by_cases hc : a = c
          · subst hc; simp [ramWrite, h1, h2, hv, ramRead]
          · simp [ramWrite, h1, h2, hv, hc, ramRead]
      · have ih' := ih (some k) h.2
        by_cases hc : k = c
        · subst hc
          have hak : ¬a = k := fun e => h1 e.symm
          simp [ramWrite, h1, h2, ramRead, hak]
        · simp [ramWrite, h1, h2, ramRead, hc, ih']

/-- A read after a write finds the byte written at its address, and every other byte as it was. -/
theorem ramRead_ramWrite {m : Memory} (a : Nat) (v : Byte) (c : Nat) (h : m.wf = true) :
    ramRead (ramWrite m a v) c = if a = c then v else ramRead m c := ramRead_ramWrite_aux none a v c h

theorem ramWrite_rises {m : Memory} (o : Option Nat) (a : Nat) (v : Byte) (h : ramRises o m = true) (ho : ∀ b, o = some b → b < a) :
    ramRises o (ramWrite m a v) = true := by
  induction m generalizing o with
  | nil =>
    by_cases hv : v = ramFill
    · simp [ramWrite, hv, ramRises]
    · cases o with
      | none => simp [ramWrite, hv, ramRises]
      | some b => simp [ramWrite, hv, ramRises, ho b rfl]
  | cons e r ih =>
    obtain ⟨k, w⟩ := e
    have h' := h
    simp only [ramRises, Bool.and_eq_true] at h
    by_cases h1 : k = a
    · subst h1
      by_cases hv : v = ramFill
      · simp only [ramWrite, if_pos hv, if_true]
        cases o with
        | none => exact ramRises_none h.2
        | some b => exact ramRises_mono h.2 (Nat.le_of_lt (ho b rfl))
      · simp only [ramWrite, if_neg hv, if_true, ramRises, Bool.and_eq_true]
        exact ⟨⟨h.1.1, by simpa using hv⟩, h.2⟩
    · by_cases h2 : a < k
      · by_cases hv : v = ramFill
        · simpa [ramWrite, h1, h2, hv] using h'
        · simp only [ramWrite, if_neg h1, if_pos h2, if_neg hv, ramRises, Bool.and_eq_true, decide_eq_true_eq]
          refine ⟨⟨?_, by simpa using hv⟩, ⟨h2, h.1.2⟩, h.2⟩
          cases o with
          | none => trivial
          | some b => simpa using ho b rfl
      · simp only [ramWrite, if_neg h1, if_neg h2, ramRises, Bool.and_eq_true]
        refine ⟨h.1, ih (some k) h.2 ?_⟩
        intro b hb
        cases hb
        omega

/-- A write keeps the canonical form. -/
theorem ramWrite_wf {m : Memory} (a : Nat) (v : Byte) (h : m.wf = true) : (ramWrite m a v).wf = true :=
  ramWrite_rises none a v h (fun _ e => by cases e)

/-- A store keeps the canonical form. -/
theorem ramStore_wf {m : Memory} (a : Nat) (l : Bytes) (h : m.wf = true) : (ramStore m a l).wf = true := by
  induction l generalizing m a with
  | nil => exact h
  | cons v r ih => exact ih (a + 1) (ramWrite_wf a v h)

/-- A read outside the bytes of a store finds what was there. -/
theorem ramRead_ramStore_out {m : Memory} (a : Nat) (l : Bytes) (c : Nat) (h : m.wf = true) (hc : c < a ∨ a + l.length ≤ c) :
    ramRead (ramStore m a l) c = ramRead m c := by
  induction l generalizing m a with
  | nil => rfl
  | cons v r ih =>
    simp only [List.length_cons] at hc
    have hne : ¬a = c := by omega
    rw [ramStore, ih (a + 1) (ramWrite_wf a v h) (by omega), ramRead_ramWrite a v c h, if_neg hne]

/-- A read inside the bytes of a store finds the byte stored. -/
theorem ramRead_ramStore_in {m : Memory} (a : Nat) (l : Bytes) (i : Nat) (h : m.wf = true) (hi : i < l.length) :
    ramRead (ramStore m a l) (a + i) = l[i] := by
  induction l generalizing m a i with
  | nil => exact absurd hi (Nat.not_lt_zero i)
  | cons v r ih =>
    cases i with
    | zero =>
      show ramRead (ramStore (ramWrite m a v) (a + 1) r) a = v
      rw [ramRead_ramStore_out (a + 1) r a (ramWrite_wf a v h) (by omega), ramRead_ramWrite a v a h, if_pos rfl]
    | succ n =>
      have e : a + (n + 1) = a + 1 + n := by omega
      rw [ramStore, e, ih (a + 1) n (ramWrite_wf a v h) (by simpa using hi)]
      rfl

end Sys2Proof.Machine
end

