-- ==== Sys2Proof/Laws/Server.lean ====
section
/-! SUPPORT. The dictionary server: a request served at once is answered at its turn, and what answering it leaves alone. -/

namespace Sys2Proof.Machine

/-- A clock that runs goes on running when it is needed. -/
theorem Block.clockRuns_need {b : Block} {c : FastClock} (d : FastClock) (h : b.clockRuns c = true) : (b.need d).clockRuns c = true := by
  have hb : (tat {} b.clk c.no).phase = .running := by simpa [Block.clockRuns] using h
  unfold Block.need
  dsimp only
  by_cases hd : d.no = c.no
  · have h1 : ((b.setClock d fun x => { x with idleSince := b.cyc }).clock d).phase = .running := by
      simp [Block.clock, Block.setClock, hd, hb]
    rw [h1]
    simp [Block.clockRuns, Block.setClock, hd, hb]
  · have key : ∀ (e : Block) (f : ClockSt → ClockSt), (tat {} e.clk c.no).phase = .running →
        (tat {} (e.setClock d f).clk c.no).phase = .running := by
      intro e f he
      simpa [Block.setClock, tat_tmod_ne _ _ _ hd] using he
    have h1 := key b (fun x => { x with idleSince := b.cyc }) hb
    have hbump : ∀ (e : Block) k n, (e.bump k n).clk = e.clk := by
      intro e k n
      unfold Block.bump
      dsimp only
      split <;> rfl
    unfold Block.clockRuns
    split
    · rw [beq_iff_eq]; apply key; rw [hbump]; exact h1
    · rw [beq_iff_eq]; exact key _ _ h1
    · rw [beq_iff_eq]; exact h1
    · rw [beq_iff_eq]; exact h1

/-- Counting leaves everything but entries and free values alone. -/
theorem Block.bump_eq (b : Block) (k n : Nat) : ∃ od free, b.bump k n = { b with od := od, free := free } := by
  unfold Block.bump
  dsimp only
  split
  · exact ⟨_, b.free, rfl⟩
  · exact ⟨_, _, rfl⟩

/-- A clock needed changes clocks and the counts of starts alone. -/
theorem Block.need_eq (b : Block) (c : FastClock) : ∃ clk od free, b.need c = { b with clk := clk, od := od, free := free } := by
  unfold Block.need
  dsimp only
  split
  · obtain ⟨od, free, h⟩ := (b.setClock c fun x => { x with idleSince := b.cyc }).bump_eq (startsKey c) 1
    rw [h]
    exact ⟨_, od, free, rfl⟩
  · exact ⟨_, b.od, b.free, rfl⟩
  · exact ⟨_, b.od, b.free, rfl⟩
  · exact ⟨_, b.od, b.free, rfl⟩

@[simp] theorem Block.need_mg (b : Block) (c : FastClock) : (b.need c).mg = b.mg := by
  obtain ⟨_, _, _, h⟩ := b.need_eq c
  rw [h]

/-- The only request that waits is the next, where its tenant's boundary carries. -/
theorem Block.nextRequest_one (b : Block) (w : Waiting) (hq : b.mg.srv.queue = [w]) (ht : w.tenant < 8)
    (ha : b.agreed (Boundary.server (Fin.ofNat 8 w.tenant)).no = true) : b.nextRequest = some (w, []) := by
  unfold Block.nextRequest
  rw [hq]
  have hone : ∀ t, firstOf t [w] = if w.tenant = t then some (w, []) else none := by
    intro t
    by_cases h : w.tenant = t <;> simp [firstOf, h]
  have hfind : ∀ l : List Nat, w.tenant ∈ l →
      l.findSome? (fun t => if b.agreed (Boundary.server (Fin.ofNat 8 t)).no then firstOf t [w] else none) = some (w, []) := by
    intro l hl
    induction l with
    | nil => cases hl
    | cons a r ih =>
      rw [List.findSome?_cons, hone]
      by_cases ha' : w.tenant = a
      · subst ha'
        rw [if_pos ha, if_pos rfl]
      · simp only [if_neg ha', ite_self]
        exact ih ((List.mem_cons.mp hl).resolve_left ha')
  refine hfind _ (List.mem_map.mpr ⟨(w.tenant + 7 * (b.mg.srv.last + 1)) % 8, List.mem_range.mpr (Nat.mod_lt _ (by omega)), ?_⟩)
  omega

theorem Block.clockRuns_known (b : Block) (n : Nat) (c : Caller) (w : Waiting) (h : b.clockRuns .prixus = true) :
    ((b.known n c).queued w).clockRuns .prixus = true := Block.clockRuns_need .prixus h

theorem Block.agreed_known (b : Block) (n : Nat) (c : Caller) (w : Waiting) (x : Nat) : ((b.known n c).queued w).agreed x = b.agreed x := by
  unfold Block.queued
  obtain ⟨clk, od, free, h⟩ := ((b.known n c).setSrv fun s => { s with queue := s.queue ++ [w] }).need_eq .prixus
  rw [h]
  rfl

/-- A request served at once: it is answered on the module as the server finds it at its turn, and nothing else happens. -/
theorem Block.submit_takes {s : State} {c : Caller} {q : Request} {n : Nat} (h : s.takes c q n = true) :
    s.m.submit c q = (s.m.door c q n).answered (s.m.asked c q n) := by
  simp only [State.takes, Bool.and_eq_true, beq_iff_eq, Bool.not_eq_true'] at h
  obtain ⟨⟨⟨⟨⟨⟨⟨⟨⟨-, hp⟩, hh⟩, hr⟩, hc⟩, hq⟩, hn⟩, hf⟩, hk⟩, -⟩ := h
  have hq' : (s.m.arriving c q).mg.srv.queue = [] := by simpa using hq
  have hw : ∀ w : Waiting, w.tenant < 8 → (s.m.arriving c q).agreed (Boundary.server (Fin.ofNat 8 w.tenant)).no = true →
      ((s.m.arriving c q).known n c |>.queued w).serveWaiting
      = (((((s.m.arriving c q).known n c).queued w).setSrv fun s => { s with queue := [] })).serve w := by
    intro w hw ha
    have hq1 : (((s.m.arriving c q).known n c).queued w).mg.srv.queue = [w] := by
      simp [Block.queued, Block.known, Block.setSrv, hq']
    have hr1 : (((s.m.arriving c q).known n c).queued w).mg.srv.running = true := by
      simpa [Block.queued, Block.known, Block.setSrv] using hr
    have hc1 := (s.m.arriving c q).clockRuns_known n c w hc
    have hn1 := Block.nextRequest_one _ w hq1 hw (by rw [Block.agreed_known]; exact ha)
    unfold Block.serveWaiting
    rw [hq1]
    simp [Block.serveAll, hr1, hc1, hn1]
  have ht : ((s.m.arriving c q).waiting n c q).tenant < 8 := by
    show apTenant _ < 8
    unfold apTenant bits
    omega
  have hserve : (((((s.m.arriving c q).known n c).queued ((s.m.arriving c q).waiting n c q)).setSrv fun s => { s with queue := [] })).serve
      ((s.m.arriving c q).waiting n c q) = (s.m.door c q n).answered (s.m.asked c q n) := by
    have hk' : ((s.m.door c q n).keptFor (s.m.asked c q n)) = none := by simpa using hk
    unfold Block.serve
    simp only
    have hd : (((((s.m.arriving c q).known n c).queued ((s.m.arriving c q).waiting n c q)).setSrv fun s => { s with queue := [] })).turn
        ((s.m.arriving c q).waiting n c q).tenant = s.m.door c q n := rfl
    rw [hd]
    have ha : (s.m.arriving c q).waiting n c q = s.m.asked c q n := rfl
    rw [ha, hk']
  have hcr : (s.m.arriving c q).noCredits ((s.m.arriving c q).waiting n c q).tenant = false := by
    simp [Block.noCredits, Block.credits, hq']
  have hacc : (s.m.arriving c q).accept c q = (s.m.door c q n).answered (s.m.asked c q n) := by
    unfold Block.accept
    simp only [hr, hn, Bool.not_true]
    cases c <;> simp only [Bool.false_eq_true, if_false, hcr] <;> rw [hw _ ht hf, hserve]
  unfold Block.submit
  rw [hp, hh]
  simp only [Bool.not_true, Bool.false_eq_true, if_false]
  exact hacc

-- What answering leaves alone

theorem Block.sameButBooks_refl (b : Block) : b.sameButBooks b :=
  ⟨rfl, fun _ _ => rfl, fun _ _ => rfl, fun _ _ => rfl, fun _ => ⟨_, _, _, _, _, _, rfl⟩, fun _ => ⟨_, _, rfl⟩, fun _ h => h,
    fun _ => ⟨fun _ h => h, Nat.le_refl _⟩⟩

theorem Block.sameButBooks_trans {a b c : Block} (h : a.sameButBooks b) (g : b.sameButBooks c) : a.sameButBooks c := by
  obtain ⟨h1, h2, h3, h4, h5, h6, h7, h8⟩ := h
  obtain ⟨g1, g2, g3, g4, g5, g6, g7, g8⟩ := g
  refine ⟨?_, fun k hk => (g2 k hk).trans (h2 k hk), fun k hk => (g3 k hk).trans (h3 k hk), fun o ho => (g4 o ho).trans (h4 o ho), fun p => ?_,
    fun k => ?_, fun o ho => g7 o (h7 o ho), fun t => ⟨fun e he => (g8 t).1 e ((h8 t).1 e he), (h8 t).2.trans (g8 t).2⟩⟩
  · have e : b.withBooks c.books = a.withBooks c.books := by
      rw [h1]
      rfl
    rw [← e]
    exact g1
  · obtain ⟨_, _, _, _, _, _, e⟩ := h5 p
    obtain ⟨_, _, _, _, _, _, e'⟩ := g5 p
    exact ⟨_, _, _, _, _, _, by rw [e', e]⟩
  · obtain ⟨_, _, e⟩ := h6 k
    obtain ⟨_, _, e'⟩ := g6 k
    exact ⟨_, _, by rw [e', e]⟩

theorem Block.sameButEvents.books {a b : Block} (h : a.sameButEvents b) : a.sameButBooks b := by
  obtain ⟨⟨od, free, ev, rfl⟩, h2, h3⟩ := h
  exact ⟨rfl, fun k hk => h2 k fun hc => hk (.inl hc), fun _ _ => rfl, fun _ _ => rfl, fun _ => ⟨_, _, _, _, _, _, rfl⟩,
    fun _ => ⟨_, _, rfl⟩, fun _ h => h, h3⟩

theorem Block.sameButBooks_wr (b : Block) (k : Nat) (v : Int) (hk : bookKey k) : b.sameButBooks (b.wr k v) :=
  ⟨rfl, fun j hj => b.rd_wr_ne v (by rintro rfl; exact hj hk), fun _ _ => rfl, fun _ _ => rfl, fun _ => ⟨_, _, _, _, _, _, rfl⟩,
    fun _ => ⟨_, _, rfl⟩, fun _ h => h, fun _ => ⟨fun _ h => h, Nat.le_refl _⟩⟩

theorem Block.sameButBooks_bump (b : Block) (k n : Nat) (hk : bookKey k) : b.sameButBooks (b.bump k n) := by
  unfold Block.bump
  dsimp only
  split
  · exact b.sameButBooks_wr _ _ hk
  · exact Block.sameButBooks_trans (b.sameButEvents_draw _).books (Block.sameButBooks_wr _ _ _ hk)

theorem Block.sameButBooks_emit (b : Block) (o : Output) : b.sameButBooks (b.emit o) :=
  ⟨rfl, fun _ _ => rfl, fun _ _ => rfl, fun _ _ => rfl, fun _ => ⟨_, _, _, _, _, _, rfl⟩, fun _ => ⟨_, _, rfl⟩,
    fun _ h => List.mem_append_left _ h, fun _ => ⟨fun _ h => h, Nat.le_refl _⟩⟩

theorem Block.sameButBooks_keep (b : Block) (w : Waiting) (r : Response) : b.sameButBooks (b.keep w r) := by
  unfold Block.keep
  split
  · exact b.sameButBooks_refl
  · exact ⟨rfl, fun _ _ => rfl, fun _ _ => rfl, fun _ _ => rfl, fun _ => ⟨_, _, _, _, _, _, rfl⟩, fun _ => ⟨_, _, rfl⟩, fun _ h => h,
      fun _ => ⟨fun _ h => h, Nat.le_refl _⟩⟩

theorem Block.sameButBooks_setBox (b : Block) (fn : Nat) (f : Mailbox → Mailbox) : b.sameButBooks (b.setBox fn f) :=
  ⟨rfl, fun _ _ => rfl, fun _ _ => rfl, fun _ _ => rfl, fun _ => ⟨_, _, _, _, _, _, rfl⟩, fun _ => ⟨_, _, rfl⟩, fun _ h => h,
    fun _ => ⟨fun _ h => h, Nat.le_refl _⟩⟩

/-- Books of a port changed. -/
theorem Block.sameButBooks_setPf (b : Block) (p : Nat) (f : PortFab → PortFab)
    (h : ∃ t u o n m g, f (b.pf p) = { b.pf p with busyAt := t, wakeAt := u, own := o, tokens := n, tokensAt := m, fip := g }) :
    b.sameButBooks (b.setPf p f) := by
  refine ⟨rfl, fun _ _ => rfl, fun _ _ => rfl, fun _ _ => rfl, fun q => ?_, fun _ => ⟨_, _, rfl⟩, fun _ h => h,
    fun _ => ⟨fun _ h => h, Nat.le_refl _⟩⟩
  show ∃ t u o n m g, tat {} (tmod {} b.fab.port p f) q = _
  rw [tat_tmod]
  split
  · rename_i e
    subst e
    exact h
  · exact ⟨_, _, _, _, _, _, rfl⟩

theorem Block.sameButBooks_setFip (b : Block) (p : Nat) (f : Fip → Fip) : b.sameButBooks (b.setFip p f) :=
  b.sameButBooks_setPf p _ ⟨_, _, _, _, _, _, rfl⟩

/-- The tokens of a queue changed. -/
theorem Block.sameButBooks_setQueue (b : Block) (k : Nat) (f : Queue → Queue)
    (h : ∃ n m, f (b.queue k) = { b.queue k with tokens := n, tokensAt := m }) : b.sameButBooks (b.setQueue k f) := by
  refine ⟨rfl, fun _ _ => rfl, fun _ _ => rfl, fun _ _ => rfl, fun _ => ⟨_, _, _, _, _, _, rfl⟩, fun q => ?_, fun _ h => h,
    fun _ => ⟨fun _ h => h, Nat.le_refl _⟩⟩
  show ∃ n m, tat {} (tmod {} b.fab.queue k f) q = _
  rw [tat_tmod]
  split
  · rename_i e
    subst e
    exact h
  · exact ⟨_, _, rfl⟩

theorem Block.sameButBooks_foldl {β : Type} (f : Block → β → Block) (l : List β) (h : ∀ (c : Block), ∀ e ∈ l, c.sameButBooks (f c e)) (b : Block) :
    b.sameButBooks (l.foldl f b) := by
  induction l generalizing b with
  | nil => exact b.sameButBooks_refl
  | cons e r ih =>
    exact Block.sameButBooks_trans (h b e List.mem_cons_self) (ih (fun c d hd => h c d (List.mem_cons_of_mem _ hd)) (f b e))

theorem Block.sameButBooks_fillShapers (b : Block) (p : Nat) : b.sameButBooks (b.fillShapers p) := by
  unfold Block.fillShapers
  dsimp only
  have h : b.sameButBooks ((List.range 16).foldl (fun b q =>
      if b.rdN (Od.EQ_SHAPE_RATE p q) = 0 then b
      else b.setQueue (p * 16 + q) fun x =>
        { x with tokens := fillTokens x.tokens (b.rdN (Od.EQ_SHAPE_RATE p q)) (b.rdN (Od.EQ_SHAPE_BURST p q)) (b.cyc - x.tokensAt), tokensAt := b.cyc }) b) := by
    refine Block.sameButBooks_foldl _ _ (fun c q _ => ?_) b
    split
    · exact c.sameButBooks_refl
    · exact c.sameButBooks_setQueue _ _ ⟨_, _, rfl⟩
  split
  · exact h
  · exact Block.sameButBooks_trans h (Block.sameButBooks_setPf _ _ _ ⟨_, _, _, _, _, _, rfl⟩)

theorem Block.sameButBooks_payShapers (b : Block) (p q n : Nat) : b.sameButBooks (b.payShapers p q n) :=
  Block.sameButBooks_trans (b.sameButBooks_setQueue _ _ ⟨_, _, rfl⟩) (Block.sameButBooks_setPf _ _ _ ⟨_, _, _, _, _, _, rfl⟩)

theorem Block.sameButBooks_setClock (b : Block) (f : ClockSt → ClockSt) : b.sameButBooks (b.setClock .fabric f) := by
  refine ⟨rfl, fun _ _ => rfl, fun c hc => ?_, fun _ _ => rfl, fun _ => ⟨_, _, _, _, _, _, rfl⟩, fun _ => ⟨_, _, rfl⟩, fun _ h => h,
    fun _ => ⟨fun _ h => h, Nat.le_refl _⟩⟩
  refine tat_tmod_ne _ _ _ ?_
  cases c <;> simp_all [FastClock.no]

theorem bookKey_starts : bookKey (startsKey .fabric) :=
  .inr ⟨0x1303, rfl, .inr (.inr (.inr (.inr (.inr ⟨rfl, rfl⟩))))⟩

theorem Block.sameButBooks_need (b : Block) : b.sameButBooks (b.need .fabric) := by
  unfold Block.need
  dsimp only
  refine Block.sameButBooks_trans (b.sameButBooks_setClock fun x => { x with idleSince := b.cyc }) ?_
  split
  · exact Block.sameButBooks_trans (Block.sameButBooks_bump _ _ _ bookKey_starts)
      (Block.sameButBooks_setClock _ _)
  · exact Block.sameButBooks_setClock _ _
  · exact Block.sameButBooks_refl _
  · exact Block.sameButBooks_refl _

theorem Block.sameButBooks_wakePort (b : Block) (p : Nat) : b.sameButBooks (b.wakePort p) := by
  unfold Block.wakePort
  dsimp only
  have h := b.sameButBooks_setPf p (fun x => { x with busyAt := b.cyc }) ⟨_, _, _, _, _, _, rfl⟩
  split
  · exact Block.sameButBooks_trans h (Block.sameButBooks_trans (Block.sameButBooks_need _) (Block.sameButBooks_setPf _ _ _ ⟨_, _, _, _, _, _, rfl⟩))
  · exact h

theorem Block.sameButBooks_disarm (b : Block) (p : Fin 32) : b.sameButBooks (b.disarm (.injector p)) := by
  refine ⟨rfl, fun _ _ => rfl, fun _ _ => rfl, fun o ho => ?_, fun _ => ⟨_, _, _, _, _, _, rfl⟩, fun _ => ⟨_, _, rfl⟩, fun _ h => h,
    fun _ => ⟨fun _ h => h, Nat.le_refl _⟩⟩
  exact tget_tdel_ne _ (by show 96 + p.val ≠ o.no; omega)

theorem bookKey_fip {k p : Nat} (hp : p < 32) (h : k % 2 ^ 24 / 256 = 0x7210 + p) (g : k % 256 = 0x0E ∨ k % 256 = 0x0F ∨ k % 256 = 0x10) : bookKey k :=
  .inr ⟨_, rfl, by omega⟩

theorem Block.sameButBooks_fipEnd (b : Block) {p : Nat} (why : Nat) (hp : p < 32) : b.sameButBooks (b.fipEnd p why) := by
  unfold Block.fipEnd
  split
  · exact b.sameButBooks_refl
  · dsimp only
    refine Block.sameButBooks_trans ?_ (Block.sameButEvents_raise _ _ _ _).books
    refine Block.sameButBooks_trans ?_ (Block.sameButBooks_disarm _ _)
    refine Block.sameButBooks_trans ?_ (Block.sameButBooks_wr _ _ _ (.inr ⟨_, rfl, by unfold Od.FI_ARMED key; omega⟩))
    refine Block.sameButBooks_trans ?_ (Block.sameButBooks_wr _ _ _
      (bookKey_fip hp (by unfold Od.FIP_STATUS key; omega) (by unfold Od.FIP_STATUS key; omega)))
    exact Block.sameButBooks_setFip _ _ _

theorem Block.sameButBooks_fipAct (b : Block) {p : Nat} (hp : p < 32) : b.sameButBooks (b.fipAct p) := by
  unfold Block.fipAct
  dsimp only
  have h : b.sameButBooks (((b.bump (Od.FIP_ACTIONS p) 1).orBits (Od.FIP_STICKY p) 1).setFip p fun f => { f with acts := f.acts + 1 }) := by
    refine Block.sameButBooks_trans ?_ (Block.sameButBooks_setFip _ _ _)
    refine Block.sameButBooks_trans ?_ (Block.sameButBooks_wr _ _ _
      (bookKey_fip hp (by unfold Od.FIP_STICKY key; omega) (by unfold Od.FIP_STICKY key; omega)))
    exact Block.sameButBooks_bump _ _ _ (bookKey_fip hp (by unfold Od.FIP_ACTIONS key; omega) (by unfold Od.FIP_ACTIONS key; omega))
  split
  · exact Block.sameButBooks_trans h (Block.sameButBooks_fipEnd _ _ hp)
  · exact h

/-- An own frame in an injector changes nothing but books, and one that passes is the same frame of the module's. -/
theorem Block.sameButBooks_fipPass (b : Block) {p : Nat} (t : Tx) (hp : p < 32) (ht : t.own.isSome = true) :
    b.sameButBooks (b.fipPass p t).2 ∧ ∀ t', (b.fipPass p t).1 = some t' → t'.own = t.own := by
  let Q (x : Option Tx × Block) : Prop := b.sameButBooks x.2 ∧ ∀ t', x.1 = some t' → t'.own = t.own
  have hite : ∀ (c : Prop) [Decidable c] (x y : Option Tx × Block), Q x → Q y → Q (if c then x else y) := by
    intro c _ x y hx hy
    split
    · exact hx
    · exact hy
  have hf := fun (c : Block) f => c.sameButBooks_setFip p f
  have ha := fun (c : Block) => c.sameButBooks_fipAct hp
  show Q (b.fipPass p t)
  unfold Block.fipPass
  dsimp only
  refine hite _ _ _ ⟨b.sameButBooks_refl, by rintro _ ⟨⟩; rfl⟩ ?_
  have h := hf b fun f => { f with seen := f.seen + 1 }
  revert h
  generalize (b.setFip p fun f => { f with seen := f.seen + 1 }) = c
  intro h
  have hs : ∀ (t' : Tx) (d : Block), t'.own = t.own → c.sameButBooks d → Q (some t', d) := fun t' d e hd =>
    ⟨Block.sameButBooks_trans h hd, by rintro _ ⟨⟩; exact e⟩
  have hn : ∀ d : Block, c.sameButBooks d → Q (none, d) := fun d hd => ⟨Block.sameButBooks_trans h hd, by rintro _ ⟨⟩⟩
  have hi := hs t c rfl c.sameButBooks_refl
  split
  · rw [Block.releaseTx, if_pos ht]
    exact hite _ _ _ (hn _ (ha c)) hi
  · exact hite _ _ _ (hs _ _ rfl (ha c)) hi
  · refine hite _ _ _ (hite _ _ _ (hn _ (hf c _)) hi) (hite _ _ _ (hn _ (hf c _)) (hite _ _ _ (hs _ _ rfl ?_) (hs _ _ rfl (hf c _))))
    exact Block.sameButBooks_trans (hf c _) (Block.sameButBooks_trans (hf _ _) (ha _))
  · exact hite _ _ _ (hn _ (Block.sameButBooks_trans (hf c _) (ha _))) hi
  · exact hi

theorem bookKey_port {k p : Nat} (hp : p < 32) (h : k % 2 ^ 24 / 256 = 0x3100 + p) (g : k % 256 = 0x1D ∨ k % 256 = 0x1F) : bookKey k :=
  .inr ⟨_, rfl, .inr (.inl ⟨by omega, by omega, g⟩)⟩

theorem bookKey_queue {k p : Nat} (hp : p < 32) (h : k % 2 ^ 24 / 256 = 0x3200 + p) (g : k % 256 = 0x0A) : bookKey k :=
  .inr ⟨_, rfl, .inr (.inr (.inl ⟨by omega, by omega, g⟩))⟩

/-- A frame sent by port p counted, in the queue of t. -/
theorem Block.sameButBooks_counted (b : Block) {p : Nat} (t : Tx) (n : Nat) (hp : p < 32) :
    b.sameButBooks ((((b.bump (Od.P_TX_FRAMES p) 1).bump (Od.P_TX_OCTETS p) n).bump (Od.EQ_TX_FRAMES p t.queue) 1).bump Od.CNT_FIXED_TX_FRAMES 1) := by
  refine Block.sameButBooks_trans ?_ (Block.sameButBooks_bump _ _ _ (.inl (by unfold counterKey Od.CNT_FIXED_TX_FRAMES key; omega)))
  refine Block.sameButBooks_trans ?_ (Block.sameButBooks_bump _ _ _
    (bookKey_queue hp (by unfold Od.EQ_TX_FRAMES keyAt; omega) (by unfold Od.EQ_TX_FRAMES keyAt; omega)))
  refine Block.sameButBooks_trans ?_ (Block.sameButBooks_bump _ _ _
    (bookKey_port hp (by unfold Od.P_TX_OCTETS key; omega) (by unfold Od.P_TX_OCTETS key; omega)))
  exact Block.sameButBooks_bump _ _ _ (bookKey_port hp (by unfold Od.P_TX_FRAMES key; omega) (by unfold Od.P_TX_FRAMES key; omega))

theorem Block.sameButBooks_ownOut (b : Block) {p : Nat} (o : Own) (t : Tx) (hp : p < 32) : b.sameButBooks (b.ownOut p o t) := by
  unfold Block.ownOut
  split
  · exact b.sameButBooks_setFip _ _
  · dsimp only
    refine Block.sameButBooks_trans ?_ (Block.sameButEvents_tally _ 1 p 4 1).books
    refine Block.sameButBooks_trans ?_ (Block.sameButEvents_tally _ 1 p 1 1).books
    refine Block.sameButBooks_trans ?_ (Block.sameButBooks_setPf _ _ _ ⟨_, _, _, _, _, _, rfl⟩)
    exact Block.sameButBooks_trans (Block.sameButBooks_emit _ _) (Block.sameButBooks_counted _ _ _ hp)

/-- An own frame that leaves, or is stopped on its way, changes nothing but books. -/
theorem Block.sameButBooks_ownLeave (b : Block) {p : Nat} (o : Own) (hp : p < 32) : b.sameButBooks (b.ownLeave p o) := by
  unfold Block.ownLeave
  dsimp only
  have h0 := b.sameButBooks_payShapers p (b.ownTx p o).queue (b.ownTx p o).bytes.length
  revert h0
  generalize b.payShapers p (b.ownTx p o).queue (b.ownTx p o).bytes.length = c
  intro h0
  have h := c.sameButBooks_fipPass (b.ownTx p o) hp rfl
  revert h
  unfold Block.leave
  cases c.fipPass p (b.ownTx p o) with
  | mk t c' =>
    rintro ⟨h1, h2⟩
    cases t with
    | none => exact Block.sameButBooks_trans h0 h1
    | some t =>
      have ho : t.own = some o := h2 t rfl
      refine Block.sameButBooks_trans (Block.sameButBooks_trans h0 h1) ?_
      dsimp only
      unfold Block.sendTx
      rw [ho]
      exact c'.sameButBooks_ownOut _ _ hp

theorem Block.sameButBooks_ownSend (b : Block) {p : Nat} (o : Own) (hp : p < 32) : b.sameButBooks (b.ownSend p o) := by
  unfold Block.ownSend
  dsimp only
  refine Block.sameButBooks_trans (b.sameButBooks_fillShapers p) ?_
  split
  · exact Block.sameButBooks_ownLeave _ _ hp
  · generalize b.fillShapers p = c
    have h := c.sameButBooks_setPf p (fun x => { x with own := x.own ++ [(o, (o.bytes b).length)] }) ⟨_, _, _, _, _, _, rfl⟩
    exact Block.sameButBooks_trans h (Block.sameButBooks_wakePort _ _)

theorem Block.sameButBooks_respond (b : Block) (c : Caller) (r : Response) : b.sameButBooks (b.respond c r) := by
  cases c with
  | pcie fn =>
    unfold Block.respond
    dsimp only
    have h := b.sameButBooks_setBox fn.val fun x => { x with pending := none, response := some r }
    revert h
    generalize (b.setBox fn.val fun x => { x with pending := none, response := some r }) = d
    intro h
    exact Block.sameButBooks_trans h (Block.sameButBooks_trans (d.sameButBooks_emit _) (Block.sameButBooks_emit _ _))
  | inband p vid src =>
    unfold Block.respond
    dsimp only
    split
    · exact b.sameButBooks_ownSend _ p.isLt
    · exact b.sameButBooks_refl
  | service vid src => exact b.sameButBooks_emit _
  | can ctrl node => exact b.sameButBooks_emit _

/-- Answering a request adds to its own effect only what bookKey and sameButBooks name. -/
theorem Block.sameButBooks_answered (b : Block) (w : Waiting) (hw : w.tenant < 8) : (b.answer w).2.sameButBooks (b.answered w) := by
  unfold Block.answered
  dsimp only
  refine Block.sameButBooks_trans ?_ (Block.sameButBooks_respond _ _ _)
  refine Block.sameButBooks_trans ?_ (Block.sameButBooks_keep _ _ _)
  refine Block.sameButBooks_trans ?_ (Block.sameButEvents_tally _ _ _ _ _).books
  refine Block.sameButBooks_trans ?_ (Block.sameButEvents_bump _ _ _ (by unfold counterKey Od.CNT_FIXED_OD_REQUESTS key; omega)).books
  exact Block.sameButBooks_bump _ _ _ (.inr ⟨_, rfl, .inl (by unfold Od.TNT_REQUESTS key; omega)⟩)

theorem not_bookKey_link {p : Nat} (hp : p < 32) : ¬bookKey (Od.P_LINK p) := by
  unfold bookKey counterKey Od.P_LINK key
  rintro (h | ⟨i, hi, h⟩) <;> omega

/-- An own frame passes an injector that does not act. -/
theorem Block.fipPass_quiet (b : Block) (p : Nat) (t : Tx) (h : (b.pf p).fip.acting = false) : b.fipPass p t = (some t, b) := by
  unfold Block.fipPass
  simp [h]

/-- What has left stays among the things sent. -/
theorem Block.sent_mono {a b : Block} (h : a.sameButBooks b) {o : Output} (ho : o ∈ a.sent) : o ∈ b.sent := h.2.2.2.2.2.2.1 o ho

theorem Block.emit_mem (b : Block) (o : Output) : o ∈ (b.emit o).sent := List.mem_append_right _ (List.mem_singleton.mpr rfl)

theorem Block.need_pf (b : Block) (c : FastClock) (p : Nat) : (b.need c).pf p = b.pf p := by
  obtain ⟨_, _, _, h⟩ := b.need_eq c
  rw [h]
  rfl

/-- What waits on a port goes on waiting while the port is woken. -/
theorem Block.wakePort_own (b : Block) (p : Nat) : ((b.wakePort p).pf p).own = (b.pf p).own := by
  have h : ∀ (d : Block) (t : Nat), ((d.setPf p fun x => { x with busyAt := t }).pf p).own = (d.pf p).own := fun d t => by
    simp [Block.pf, Block.setPf, Block.setFab]
  unfold Block.wakePort
  dsimp only
  split
  · have e : ∀ (d : Block) (u : Option Nat), ((d.setPf p fun x => { x with wakeAt := u }).pf p).own = (d.pf p).own := fun d u => by
      simp [Block.pf, Block.setPf, Block.setFab]
    rw [e, Block.need_pf, h]
  · rw [h]

@[simp] theorem Block.setFip_fip (b : Block) (p : Nat) (f : Fip → Fip) : ((b.setFip p f).pf p).fip = f (b.pf p).fip := by
  simp [Block.setFip, Block.pf, Block.setPf, Block.setFab]

theorem Block.bump_fip (b : Block) (p k n : Nat) : ((b.bump k n).pf p).fip = (b.pf p).fip := by
  obtain ⟨_, _, h⟩ := b.bump_eq k n
  rw [h]
  rfl

/-- An action of an injector is counted, whether or not it is the last. -/
theorem Block.fipAct_acts (b : Block) (p : Nat) : 0 < ((b.fipAct p).pf p).fip.acts := by
  have h : ((((b.bump (Od.FIP_ACTIONS p) 1).orBits (Od.FIP_STICKY p) 1).setFip p fun f => { f with acts := f.acts + 1 }).pf p).fip.acts =
      (b.pf p).fip.acts + 1 := by
    rw [Block.setFip_fip]
    exact congrArg (fun f : Fip => f.acts + 1) (b.bump_fip p _ 1)
  unfold Block.fipAct
  dsimp only
  revert h
  generalize ((b.bump (Od.FIP_ACTIONS p) 1).orBits (Od.FIP_STICKY p) 1).setFip p (fun f => { f with acts := f.acts + 1 }) = c
  intro h
  split
  · unfold Block.fipEnd
    split
    · omega
    · dsimp only
      obtain ⟨⟨_, _, _, e⟩, -⟩ := Block.sameButEvents_raise (((((c.setFip p fun f =>
        { f with armed := false, acting := false, ready := f.ready ++ f.held, held := [] }).wr (Od.FIP_STATUS p) 0).clearBits Od.FI_ARMED (2 ^ p)).disarm
          (.injector (Fin.ofNat 32 p)))) 0x7202 p 1
      rw [e]
      have h2 : ((c.setFip p fun f => { f with armed := false, acting := false, ready := f.ready ++ f.held, held := [] }).pf p).fip.acts =
          (c.pf p).fip.acts := by rw [Block.setFip_fip]
      show 0 < ((c.setFip p fun f => { f with armed := false, acting := false, ready := f.ready ++ f.held, held := [] }).pf p).fip.acts
      omega
  · omega

/-- An injector that acts goes on acting at a frame, or has counted an action. -/
theorem Block.fipPass_acted (b : Block) (p : Nat) (t : Tx) (h : (b.pf p).fip.acting = true) :
    ((b.fipPass p t).2.pf p).fip.acting = true ∨ 0 < ((b.fipPass p t).2.pf p).fip.acts := by
  let Q (x : Option Tx × Block) : Prop := (x.2.pf p).fip.acting = true ∨ 0 < (x.2.pf p).fip.acts
  have hite : ∀ (c : Prop) [Decidable c] (x y : Option Tx × Block), Q x → Q y → Q (if c then x else y) := by
    intro c _ x y hx hy
    split
    · exact hx
    · exact hy
  have ha : ∀ (o : Option Tx) (d : Block), Q (o, d.fipAct p) := fun o d => .inr (d.fipAct_acts p)
  show Q (b.fipPass p t)
  unfold Block.fipPass
  dsimp only
  refine hite _ _ _ (.inl h) ?_
  have h1 : ((b.setFip p fun f => { f with seen := f.seen + 1 }).pf p).fip.acting = true := by rw [Block.setFip_fip]; exact h
  revert h1
  generalize (b.setFip p fun f => { f with seen := f.seen + 1 }) = c
  intro h1
  have hi : ∀ o : Option Tx, Q (o, c) := fun _ => .inl h1
  have hk : ∀ (o : Option Tx) (g : Fip → Fip), (g (c.pf p).fip).acting = (c.pf p).fip.acting → Q (o, c.setFip p g) := fun _ g e =>
    .inl ((congrArg Fip.acting (c.setFip_fip p g)).trans (e.trans h1))
  split
  · exact hite _ _ _ (ha _ _) (hi _)
  · exact hite _ _ _ (ha _ _) (hi _)
  · exact hite _ _ _ (hite _ _ _ (hk _ _ rfl) (hi _)) (hite _ _ _ (hk _ _ rfl) (hite _ _ _ (ha _ _) (hk _ _ rfl)))
  · exact hite _ _ _ (ha _ _) (hi _)
  · exact hi _

/-- Whether an own frame is one that an injector holds for a later command. -/
def Own.isHeld : Own → Bool
  | .held _ => true
  | _ => false

/-- An own frame past the injector with its bytes as they were is sent and counted. -/
theorem Block.ownOut_eq (b : Block) (p : Nat) (o : Own) (t : Tx) (ho : o.isHeld = false) (ht : t.bytes = o.bytes b) :
    ∃ c : Block, b.ownOut p o t = ((c.setPf p fun x => { x with busyAt := c.cyc }).tally 1 p 1).tally 1 p 4 ∧
      c = ((((b.emit (o.output p)).bump (Od.P_TX_FRAMES p) 1).bump (Od.P_TX_OCTETS p) t.bytes.length).bump (Od.EQ_TX_FRAMES p t.queue) 1).bump
        Od.CNT_FIXED_TX_FRAMES 1 := by
  refine ⟨_, ?_, rfl⟩
  cases o with
  | held l => cases ho
  | response c r => unfold Block.ownOut; dsimp only; rw [if_pos ht]
  | event c e => unfold Block.ownOut; dsimp only; rw [if_pos ht]
  | frame l => unfold Block.ownOut; dsimp only; rw [if_pos ht]

theorem Block.ownOut_sent (b : Block) (p : Nat) (o : Own) (t : Tx) (hp : p < 32) (ho : o.isHeld = false) (ht : t.bytes = o.bytes b) :
    o.output p ∈ (b.ownOut p o t).sent := by
  obtain ⟨c, h, hc⟩ := b.ownOut_eq p o t ho ht
  have h0 : (b.emit (o.output p)).sameButBooks c := hc ▸ Block.sameButBooks_counted _ t _ hp
  have h1 := c.sameButBooks_setPf p (fun x => { x with busyAt := c.cyc }) ⟨_, _, _, _, _, _, rfl⟩
  rw [h]
  exact Block.sent_mono (Block.sameButEvents_tally _ 1 p 4 1).books (Block.sent_mono (Block.sameButEvents_tally _ 1 p 1 1).books
    (Block.sent_mono h1 (Block.sent_mono h0 (b.emit_mem _))))

/-- An own frame past the injector leaves the injector as it stands. -/
theorem Block.ownOut_fip (b : Block) (p : Nat) (o : Own) (t : Tx) (ho : o.isHeld = false) : ((b.ownOut p o t).pf p).fip = (b.pf p).fip := by
  have key : ∀ d : Block, ((((d.setPf p fun x => { x with busyAt := d.cyc }).tally 1 p 1).tally 1 p 4).pf p).fip = (d.pf p).fip := by
    intro d
    obtain ⟨⟨_, _, _, h1⟩, -⟩ := (d.setPf p fun x => { x with busyAt := d.cyc }).sameButEvents_tally 1 p 1 1
    obtain ⟨⟨_, _, _, h2⟩, -⟩ := ((d.setPf p fun x => { x with busyAt := d.cyc }).tally 1 p 1).sameButEvents_tally 1 p 4 1
    rw [h2, h1]
    simp [Block.pf, Block.setPf, Block.setFab]
  unfold Block.ownOut
  split
  · cases ho
  · dsimp only
    rw [key, Block.bump_fip, Block.bump_fip, Block.bump_fip, Block.bump_fip]
    rfl

/-- An own frame that meets an injector which acts leaves it acting, or with an action counted. -/
theorem Block.leave_acted (b : Block) {p : Nat} {t : Tx} {o : Own} (hp : p < 32) (hh : o.isHeld = false) (ho : t.own = some o)
    (h : (b.pf p).fip.acting = true) : ¬(((b.leave p t).pf p).fip.acting = false ∧ ((b.leave p t).pf p).fip.acts = 0) := by
  have h1 := b.fipPass_acted p t h
  have h2 := (b.sameButBooks_fipPass t hp (by rw [ho]; rfl)).2
  revert h1 h2
  unfold Block.leave
  cases b.fipPass p t with
  | mk x d =>
    intro h1 h2
    cases x with
    | none =>
      rintro ⟨ha, hz⟩
      dsimp only at h1 ha hz
      rcases h1 with h1 | h1
      · rw [h1] at ha; cases ha
      · omega
    | some t' =>
      dsimp only
      unfold Block.sendTx
      rw [h2 t' rfl, ho]
      dsimp only
      rw [Block.ownOut_fip _ _ _ _ hh]
      rintro ⟨ha, hz⟩
      dsimp only at h1
      rcases h1 with h1 | h1
      · rw [h1] at ha; cases ha
      · omega

/-- The bytes of an own frame depend on the module's strings alone. -/
theorem Own.bytes_congr (o : Own) {a b : Block} (h : a.blobs = b.blobs) : o.bytes a = o.bytes b := by
  have hm : a.ownMac = b.ownMac := by
    unfold Block.ownMac Block.blob
    rw [h]
  have hf : ∀ v d k m, a.inbandFrame v d k m = b.inbandFrame v d k m := by
    intro v d k m
    unfold Block.inbandFrame
    rw [hm]
  unfold Own.bytes
  split
  · exact hf _ _ _ _
  · exact hf _ _ _ _
  · rfl
  · rfl

/-- What is sent through Block.ownSend goes out, waits for its port, or meets the injector there. -/
theorem Block.sendsOwn_ownSend (b : Block) {p : Nat} (o : Own) (hp : p < 32) (hh : o.isHeld = false) : (b.ownSend p o).sendsOwn p o := by
  intro ha hz
  unfold Block.ownSend at ha hz ⊢
  dsimp only at ha hz ⊢
  generalize (o.bytes b).length = n at ha hz ⊢
  generalize b.fillShapers p = d at ha hz ⊢
  split
  · rename_i h
    rw [if_pos h] at ha hz
    left
    unfold Block.ownLeave at ha hz ⊢
    dsimp only at ha hz ⊢
    have ht : (d.ownTx p o).bytes = o.bytes (d.payShapers p (d.ownTx p o).queue (d.ownTx p o).bytes.length) := o.bytes_congr rfl
    have ho : (d.ownTx p o).own = some o := rfl
    revert ha hz ht ho
    generalize d.payShapers p (d.ownTx p o).queue (d.ownTx p o).bytes.length = e
    generalize d.ownTx p o = t
    intro ha hz ht ho
    by_cases hq : (e.pf p).fip.acting = false
    · unfold Block.leave
      rw [e.fipPass_quiet p t hq]
      dsimp only
      unfold Block.sendTx
      rw [ho]
      exact e.ownOut_sent p o t hp hh ht
    · exact absurd (And.intro ha hz) (e.leave_acted hp hh ho (by simpa using hq))
  · right
    refine ⟨n, ?_⟩
    rw [Block.wakePort_own]
    simp [Block.pf, Block.setPf, Block.setFab]

/-- An answer sent goes out, waits for its port, or meets the injector there. -/
theorem Block.answers_respond (b : Block) (c : Caller) (r : Response) : (b.respond c r).answers c r := by
  cases c with
  | pcie fn => exact Block.sent_mono (Block.sameButBooks_emit _ _) (Block.emit_mem _ _)
  | service vid src => exact b.emit_mem _
  | can ctrl node => exact b.emit_mem _
  | inband p vid src =>
    intro hl
    unfold Block.respond at hl ⊢
    dsimp only at hl ⊢
    by_cases hc : b.on (Od.P_LINK p) = true
    · rw [if_pos hc]
      exact b.sendsOwn_ownSend _ p.isLt rfl
    · rw [if_neg hc] at hl
      exact absurd hl hc

/-- The answer goes out on the path its request came by. -/
theorem Block.replied_answered (b : Block) (w : Waiting) (status aux : Nat) (h : (b.answer w).1 = reply w.req (entryCode w.req) status aux) :
    (b.answered w).replied w status aux := by
  unfold Block.replied Block.answered
  dsimp only
  rw [h]
  exact Block.answers_respond _ _ _

/-- The answer to a write that passes its checks: the outcome of the entry's own rules. -/
theorem Block.answer_write (a : Block) (w : Waiting) (ho : w.req.op = 2) (h : a.passes w = true) :
    a.answer w = (reply w.req (entryCode w.req) (a.written w).status (a.written w).aux, (a.written w).b) := by
  simp only [Block.passes, Bool.and_eq_true, Bool.not_eq_true'] at h
  obtain ⟨hm, h2⟩ := h
  unfold Block.answer Block.written entryCode
  dsimp only
  rw [hm]
  cases hr : rowOf (key w.req.index w.req.sub) with
  | none => rw [hr] at h2; cases h2
  | some e =>
    rw [hr] at h2
    simp only [ho, Bool.and_eq_true, Option.isNone_iff_eq_none, Bool.not_eq_true'] at h2
    simp [h2.1, h2.2, ho]

/-- A write served at once: the module after it differs from the outcome of the entry's own rules by the answering alone, and the answer carries that
outcome's status. -/
theorem State.leads_write {s : State} {c : Caller} {q : Request} {n : Nat} {i : Instr} (h : s.takes c q n = true) (ho : q.op = 2)
    (hi : exec i s = s.act fun _ b => b.submit c q) :
    s.leads i fun b => ((s.m.door c q n).written (s.m.asked c q n)).b.sameButBooks b ∧
      b.replied (s.m.asked c q n) ((s.m.door c q n).written (s.m.asked c q n)).status ((s.m.door c q n).written (s.m.asked c q n)).aux := by
  have hu : s.m.up = true ∧ (s.m.door c q n).passes (s.m.asked c q n) = true := by
    simp only [State.takes, Bool.and_eq_true] at h
    exact ⟨h.1.1.1.1.1.1.1.1.1, h.2⟩
  have ha := Block.answer_write _ (s.m.asked c q n) ho hu.2
  refine ⟨(s.m.door c q n).answered (s.m.asked c q n), ?_, ?_, ?_⟩
  · rw [hi, ← Block.submit_takes h]
    simp [State.act, hu.1]
  · have ht : (s.m.asked c q n).tenant < 8 := by
      show apTenant _ < 8
      unfold apTenant bits
      omega
    have := (s.m.door c q n).sameButBooks_answered (s.m.asked c q n) ht
    rwa [ha] at this
  · exact Block.replied_answered _ _ _ _ (by rw [ha])

end Sys2Proof.Machine
end

