-- ==== Sys2Proof/Laws/State.lean ====
section
/-! SUPPORT. What each update of the module leaves as it was and what it changes: one lemma per field per update. -/

namespace Sys2Proof.Machine

-- wr

@[simp] theorem Block.wr_cyc (b : Block) (k : Nat) (v : Int) : (b.wr k v).cyc = b.cyc := rfl
@[simp] theorem Block.wr_free (b : Block) (k : Nat) (v : Int) : (b.wr k v).free = b.free := rfl
@[simp] theorem Block.wr_blobs (b : Block) (k : Nat) (v : Int) : (b.wr k v).blobs = b.blobs := rfl
@[simp] theorem Block.wr_clk (b : Block) (k : Nat) (v : Int) : (b.wr k v).clk = b.clk := rfl
@[simp] theorem Block.wr_cross (b : Block) (k : Nat) (v : Int) : (b.wr k v).cross = b.cross := rfl
@[simp] theorem Block.wr_gen (b : Block) (k : Nat) (v : Int) : (b.wr k v).gen = b.gen := rfl
@[simp] theorem Block.wr_sent (b : Block) (k : Nat) (v : Int) : (b.wr k v).sent = b.sent := rfl
@[simp] theorem Block.wr_pokes (b : Block) (k : Nat) (v : Int) : (b.wr k v).pokes = b.pokes := rfl
@[simp] theorem Block.wr_ramLost (b : Block) (k : Nat) (v : Int) : (b.wr k v).ramLost = b.ramLost := rfl
@[simp] theorem Block.wr_tm (b : Block) (k : Nat) (v : Int) : (b.wr k v).tm = b.tm := rfl
@[simp] theorem Block.wr_fab (b : Block) (k : Nat) (v : Int) : (b.wr k v).fab = b.fab := rfl
@[simp] theorem Block.wr_mg (b : Block) (k : Nat) (v : Int) : (b.wr k v).mg = b.mg := rfl
@[simp] theorem Block.wr_ln (b : Block) (k : Nat) (v : Int) : (b.wr k v).ln = b.ln := rfl
@[simp] theorem Block.wr_gn (b : Block) (k : Nat) (v : Int) : (b.wr k v).gn = b.gn := rfl
@[simp] theorem Block.wr_cp (b : Block) (k : Nat) (v : Int) : (b.wr k v).cp = b.cp := rfl
@[simp] theorem Block.wr_pr (b : Block) (k : Nat) (v : Int) : (b.wr k v).pr = b.pr := rfl
@[simp] theorem Block.wr_pw (b : Block) (k : Nat) (v : Int) : (b.wr k v).pw = b.pw := rfl

-- wrBlob

@[simp] theorem Block.wrBlob_cyc (b : Block) (k : Nat) (v : Bytes) : (b.wrBlob k v).cyc = b.cyc := rfl
@[simp] theorem Block.wrBlob_free (b : Block) (k : Nat) (v : Bytes) : (b.wrBlob k v).free = b.free := rfl
@[simp] theorem Block.wrBlob_od (b : Block) (k : Nat) (v : Bytes) : (b.wrBlob k v).od = b.od := rfl
@[simp] theorem Block.wrBlob_clk (b : Block) (k : Nat) (v : Bytes) : (b.wrBlob k v).clk = b.clk := rfl
@[simp] theorem Block.wrBlob_cross (b : Block) (k : Nat) (v : Bytes) : (b.wrBlob k v).cross = b.cross := rfl
@[simp] theorem Block.wrBlob_gen (b : Block) (k : Nat) (v : Bytes) : (b.wrBlob k v).gen = b.gen := rfl
@[simp] theorem Block.wrBlob_sent (b : Block) (k : Nat) (v : Bytes) : (b.wrBlob k v).sent = b.sent := rfl
@[simp] theorem Block.wrBlob_pokes (b : Block) (k : Nat) (v : Bytes) : (b.wrBlob k v).pokes = b.pokes := rfl
@[simp] theorem Block.wrBlob_ramLost (b : Block) (k : Nat) (v : Bytes) : (b.wrBlob k v).ramLost = b.ramLost := rfl
@[simp] theorem Block.wrBlob_tm (b : Block) (k : Nat) (v : Bytes) : (b.wrBlob k v).tm = b.tm := rfl
@[simp] theorem Block.wrBlob_fab (b : Block) (k : Nat) (v : Bytes) : (b.wrBlob k v).fab = b.fab := rfl
@[simp] theorem Block.wrBlob_mg (b : Block) (k : Nat) (v : Bytes) : (b.wrBlob k v).mg = b.mg := rfl
@[simp] theorem Block.wrBlob_ln (b : Block) (k : Nat) (v : Bytes) : (b.wrBlob k v).ln = b.ln := rfl
@[simp] theorem Block.wrBlob_gn (b : Block) (k : Nat) (v : Bytes) : (b.wrBlob k v).gn = b.gn := rfl
@[simp] theorem Block.wrBlob_cp (b : Block) (k : Nat) (v : Bytes) : (b.wrBlob k v).cp = b.cp := rfl
@[simp] theorem Block.wrBlob_pr (b : Block) (k : Nat) (v : Bytes) : (b.wrBlob k v).pr = b.pr := rfl
@[simp] theorem Block.wrBlob_pw (b : Block) (k : Nat) (v : Bytes) : (b.wrBlob k v).pw = b.pw := rfl
@[simp] theorem Block.wrBlob_rd (b : Block) (k : Nat) (v : Bytes) (key : Nat) : (b.wrBlob k v).rd key = b.rd key := rfl
@[simp] theorem Block.wrBlob_rdN (b : Block) (k : Nat) (v : Bytes) (key : Nat) : (b.wrBlob k v).rdN key = b.rdN key := rfl
@[simp] theorem Block.wrBlob_on (b : Block) (k : Nat) (v : Bytes) (key : Nat) : (b.wrBlob k v).on key = b.on key := rfl

-- emit

@[simp] theorem Block.emit_sent (b : Block) (o : Output) : (b.emit o).sent = b.sent ++ [o] := rfl
@[simp] theorem Block.emit_cyc (b : Block) (o : Output) : (b.emit o).cyc = b.cyc := rfl
@[simp] theorem Block.emit_free (b : Block) (o : Output) : (b.emit o).free = b.free := rfl
@[simp] theorem Block.emit_od (b : Block) (o : Output) : (b.emit o).od = b.od := rfl
@[simp] theorem Block.emit_blobs (b : Block) (o : Output) : (b.emit o).blobs = b.blobs := rfl
@[simp] theorem Block.emit_clk (b : Block) (o : Output) : (b.emit o).clk = b.clk := rfl
@[simp] theorem Block.emit_cross (b : Block) (o : Output) : (b.emit o).cross = b.cross := rfl
@[simp] theorem Block.emit_gen (b : Block) (o : Output) : (b.emit o).gen = b.gen := rfl
@[simp] theorem Block.emit_pokes (b : Block) (o : Output) : (b.emit o).pokes = b.pokes := rfl
@[simp] theorem Block.emit_ramLost (b : Block) (o : Output) : (b.emit o).ramLost = b.ramLost := rfl
@[simp] theorem Block.emit_tm (b : Block) (o : Output) : (b.emit o).tm = b.tm := rfl
@[simp] theorem Block.emit_fab (b : Block) (o : Output) : (b.emit o).fab = b.fab := rfl
@[simp] theorem Block.emit_mg (b : Block) (o : Output) : (b.emit o).mg = b.mg := rfl
@[simp] theorem Block.emit_ln (b : Block) (o : Output) : (b.emit o).ln = b.ln := rfl
@[simp] theorem Block.emit_gn (b : Block) (o : Output) : (b.emit o).gn = b.gn := rfl
@[simp] theorem Block.emit_cp (b : Block) (o : Output) : (b.emit o).cp = b.cp := rfl
@[simp] theorem Block.emit_pr (b : Block) (o : Output) : (b.emit o).pr = b.pr := rfl
@[simp] theorem Block.emit_pw (b : Block) (o : Output) : (b.emit o).pw = b.pw := rfl
@[simp] theorem Block.emit_rd (b : Block) (o : Output) (key : Nat) : (b.emit o).rd key = b.rd key := rfl
@[simp] theorem Block.emit_rdN (b : Block) (o : Output) (key : Nat) : (b.emit o).rdN key = b.rdN key := rfl
@[simp] theorem Block.emit_on (b : Block) (o : Output) (key : Nat) : (b.emit o).on key = b.on key := rfl

-- setClock

@[simp] theorem Block.setClock_clk (b : Block) (c : FastClock) (f : ClockSt → ClockSt) : (b.setClock c f).clk = tmod {} b.clk c.no f := rfl
@[simp] theorem Block.setClock_cyc (b : Block) (c : FastClock) (f : ClockSt → ClockSt) : (b.setClock c f).cyc = b.cyc := rfl
@[simp] theorem Block.setClock_free (b : Block) (c : FastClock) (f : ClockSt → ClockSt) : (b.setClock c f).free = b.free := rfl
@[simp] theorem Block.setClock_od (b : Block) (c : FastClock) (f : ClockSt → ClockSt) : (b.setClock c f).od = b.od := rfl
@[simp] theorem Block.setClock_blobs (b : Block) (c : FastClock) (f : ClockSt → ClockSt) : (b.setClock c f).blobs = b.blobs := rfl
@[simp] theorem Block.setClock_cross (b : Block) (c : FastClock) (f : ClockSt → ClockSt) : (b.setClock c f).cross = b.cross := rfl
@[simp] theorem Block.setClock_gen (b : Block) (c : FastClock) (f : ClockSt → ClockSt) : (b.setClock c f).gen = b.gen := rfl
@[simp] theorem Block.setClock_sent (b : Block) (c : FastClock) (f : ClockSt → ClockSt) : (b.setClock c f).sent = b.sent := rfl
@[simp] theorem Block.setClock_pokes (b : Block) (c : FastClock) (f : ClockSt → ClockSt) : (b.setClock c f).pokes = b.pokes := rfl
@[simp] theorem Block.setClock_ramLost (b : Block) (c : FastClock) (f : ClockSt → ClockSt) : (b.setClock c f).ramLost = b.ramLost := rfl
@[simp] theorem Block.setClock_tm (b : Block) (c : FastClock) (f : ClockSt → ClockSt) : (b.setClock c f).tm = b.tm := rfl
@[simp] theorem Block.setClock_fab (b : Block) (c : FastClock) (f : ClockSt → ClockSt) : (b.setClock c f).fab = b.fab := rfl
@[simp] theorem Block.setClock_mg (b : Block) (c : FastClock) (f : ClockSt → ClockSt) : (b.setClock c f).mg = b.mg := rfl
@[simp] theorem Block.setClock_ln (b : Block) (c : FastClock) (f : ClockSt → ClockSt) : (b.setClock c f).ln = b.ln := rfl
@[simp] theorem Block.setClock_gn (b : Block) (c : FastClock) (f : ClockSt → ClockSt) : (b.setClock c f).gn = b.gn := rfl
@[simp] theorem Block.setClock_cp (b : Block) (c : FastClock) (f : ClockSt → ClockSt) : (b.setClock c f).cp = b.cp := rfl
@[simp] theorem Block.setClock_pr (b : Block) (c : FastClock) (f : ClockSt → ClockSt) : (b.setClock c f).pr = b.pr := rfl
@[simp] theorem Block.setClock_pw (b : Block) (c : FastClock) (f : ClockSt → ClockSt) : (b.setClock c f).pw = b.pw := rfl
@[simp] theorem Block.setClock_rd (b : Block) (c : FastClock) (f : ClockSt → ClockSt) (key : Nat) : (b.setClock c f).rd key = b.rd key := rfl
@[simp] theorem Block.setClock_rdN (b : Block) (c : FastClock) (f : ClockSt → ClockSt) (key : Nat) : (b.setClock c f).rdN key = b.rdN key := rfl
@[simp] theorem Block.setClock_on (b : Block) (c : FastClock) (f : ClockSt → ClockSt) (key : Nat) : (b.setClock c f).on key = b.on key := rfl

-- setCrossing

@[simp] theorem Block.setCrossing_cross (b : Block) (x : Nat) (f : Crossing → Crossing) : (b.setCrossing x f).cross = tmod {} b.cross x f := rfl
@[simp] theorem Block.setCrossing_cyc (b : Block) (x : Nat) (f : Crossing → Crossing) : (b.setCrossing x f).cyc = b.cyc := rfl
@[simp] theorem Block.setCrossing_free (b : Block) (x : Nat) (f : Crossing → Crossing) : (b.setCrossing x f).free = b.free := rfl
@[simp] theorem Block.setCrossing_od (b : Block) (x : Nat) (f : Crossing → Crossing) : (b.setCrossing x f).od = b.od := rfl
@[simp] theorem Block.setCrossing_blobs (b : Block) (x : Nat) (f : Crossing → Crossing) : (b.setCrossing x f).blobs = b.blobs := rfl
@[simp] theorem Block.setCrossing_clk (b : Block) (x : Nat) (f : Crossing → Crossing) : (b.setCrossing x f).clk = b.clk := rfl
@[simp] theorem Block.setCrossing_gen (b : Block) (x : Nat) (f : Crossing → Crossing) : (b.setCrossing x f).gen = b.gen := rfl
@[simp] theorem Block.setCrossing_sent (b : Block) (x : Nat) (f : Crossing → Crossing) : (b.setCrossing x f).sent = b.sent := rfl
@[simp] theorem Block.setCrossing_pokes (b : Block) (x : Nat) (f : Crossing → Crossing) : (b.setCrossing x f).pokes = b.pokes := rfl
@[simp] theorem Block.setCrossing_ramLost (b : Block) (x : Nat) (f : Crossing → Crossing) : (b.setCrossing x f).ramLost = b.ramLost := rfl
@[simp] theorem Block.setCrossing_tm (b : Block) (x : Nat) (f : Crossing → Crossing) : (b.setCrossing x f).tm = b.tm := rfl
@[simp] theorem Block.setCrossing_fab (b : Block) (x : Nat) (f : Crossing → Crossing) : (b.setCrossing x f).fab = b.fab := rfl
@[simp] theorem Block.setCrossing_mg (b : Block) (x : Nat) (f : Crossing → Crossing) : (b.setCrossing x f).mg = b.mg := rfl
@[simp] theorem Block.setCrossing_ln (b : Block) (x : Nat) (f : Crossing → Crossing) : (b.setCrossing x f).ln = b.ln := rfl
@[simp] theorem Block.setCrossing_gn (b : Block) (x : Nat) (f : Crossing → Crossing) : (b.setCrossing x f).gn = b.gn := rfl
@[simp] theorem Block.setCrossing_cp (b : Block) (x : Nat) (f : Crossing → Crossing) : (b.setCrossing x f).cp = b.cp := rfl
@[simp] theorem Block.setCrossing_pr (b : Block) (x : Nat) (f : Crossing → Crossing) : (b.setCrossing x f).pr = b.pr := rfl
@[simp] theorem Block.setCrossing_pw (b : Block) (x : Nat) (f : Crossing → Crossing) : (b.setCrossing x f).pw = b.pw := rfl
@[simp] theorem Block.setCrossing_rd (b : Block) (x : Nat) (f : Crossing → Crossing) (key : Nat) : (b.setCrossing x f).rd key = b.rd key := rfl
@[simp] theorem Block.setCrossing_rdN (b : Block) (x : Nat) (f : Crossing → Crossing) (key : Nat) : (b.setCrossing x f).rdN key = b.rdN key := rfl
@[simp] theorem Block.setCrossing_on (b : Block) (x : Nat) (f : Crossing → Crossing) (key : Nat) : (b.setCrossing x f).on key = b.on key := rfl

-- setTm

@[simp] theorem Block.setTm_tm (b : Block) (f : Timing → Timing) : (b.setTm f).tm = f b.tm := rfl
@[simp] theorem Block.setTm_cyc (b : Block) (f : Timing → Timing) : (b.setTm f).cyc = b.cyc := rfl
@[simp] theorem Block.setTm_free (b : Block) (f : Timing → Timing) : (b.setTm f).free = b.free := rfl
@[simp] theorem Block.setTm_od (b : Block) (f : Timing → Timing) : (b.setTm f).od = b.od := rfl
@[simp] theorem Block.setTm_blobs (b : Block) (f : Timing → Timing) : (b.setTm f).blobs = b.blobs := rfl
@[simp] theorem Block.setTm_clk (b : Block) (f : Timing → Timing) : (b.setTm f).clk = b.clk := rfl
@[simp] theorem Block.setTm_cross (b : Block) (f : Timing → Timing) : (b.setTm f).cross = b.cross := rfl
@[simp] theorem Block.setTm_gen (b : Block) (f : Timing → Timing) : (b.setTm f).gen = b.gen := rfl
@[simp] theorem Block.setTm_sent (b : Block) (f : Timing → Timing) : (b.setTm f).sent = b.sent := rfl
@[simp] theorem Block.setTm_pokes (b : Block) (f : Timing → Timing) : (b.setTm f).pokes = b.pokes := rfl
@[simp] theorem Block.setTm_ramLost (b : Block) (f : Timing → Timing) : (b.setTm f).ramLost = b.ramLost := rfl
@[simp] theorem Block.setTm_fab (b : Block) (f : Timing → Timing) : (b.setTm f).fab = b.fab := rfl
@[simp] theorem Block.setTm_mg (b : Block) (f : Timing → Timing) : (b.setTm f).mg = b.mg := rfl
@[simp] theorem Block.setTm_ln (b : Block) (f : Timing → Timing) : (b.setTm f).ln = b.ln := rfl
@[simp] theorem Block.setTm_gn (b : Block) (f : Timing → Timing) : (b.setTm f).gn = b.gn := rfl
@[simp] theorem Block.setTm_cp (b : Block) (f : Timing → Timing) : (b.setTm f).cp = b.cp := rfl
@[simp] theorem Block.setTm_pr (b : Block) (f : Timing → Timing) : (b.setTm f).pr = b.pr := rfl
@[simp] theorem Block.setTm_pw (b : Block) (f : Timing → Timing) : (b.setTm f).pw = b.pw := rfl
@[simp] theorem Block.setTm_rd (b : Block) (f : Timing → Timing) (key : Nat) : (b.setTm f).rd key = b.rd key := rfl
@[simp] theorem Block.setTm_rdN (b : Block) (f : Timing → Timing) (key : Nat) : (b.setTm f).rdN key = b.rdN key := rfl
@[simp] theorem Block.setTm_on (b : Block) (f : Timing → Timing) (key : Nat) : (b.setTm f).on key = b.on key := rfl

-- setMt

@[simp] theorem Block.setMt_tm_mt (b : Block) (f : Meridian → Meridian) : (b.setMt f).tm.mt = f b.tm.mt := rfl
@[simp] theorem Block.setMt_cyc (b : Block) (f : Meridian → Meridian) : (b.setMt f).cyc = b.cyc := rfl
@[simp] theorem Block.setMt_free (b : Block) (f : Meridian → Meridian) : (b.setMt f).free = b.free := rfl
@[simp] theorem Block.setMt_od (b : Block) (f : Meridian → Meridian) : (b.setMt f).od = b.od := rfl
@[simp] theorem Block.setMt_blobs (b : Block) (f : Meridian → Meridian) : (b.setMt f).blobs = b.blobs := rfl
@[simp] theorem Block.setMt_clk (b : Block) (f : Meridian → Meridian) : (b.setMt f).clk = b.clk := rfl
@[simp] theorem Block.setMt_cross (b : Block) (f : Meridian → Meridian) : (b.setMt f).cross = b.cross := rfl
@[simp] theorem Block.setMt_gen (b : Block) (f : Meridian → Meridian) : (b.setMt f).gen = b.gen := rfl
@[simp] theorem Block.setMt_sent (b : Block) (f : Meridian → Meridian) : (b.setMt f).sent = b.sent := rfl
@[simp] theorem Block.setMt_pokes (b : Block) (f : Meridian → Meridian) : (b.setMt f).pokes = b.pokes := rfl
@[simp] theorem Block.setMt_ramLost (b : Block) (f : Meridian → Meridian) : (b.setMt f).ramLost = b.ramLost := rfl
@[simp] theorem Block.setMt_fab (b : Block) (f : Meridian → Meridian) : (b.setMt f).fab = b.fab := rfl
@[simp] theorem Block.setMt_mg (b : Block) (f : Meridian → Meridian) : (b.setMt f).mg = b.mg := rfl
@[simp] theorem Block.setMt_ln (b : Block) (f : Meridian → Meridian) : (b.setMt f).ln = b.ln := rfl
@[simp] theorem Block.setMt_gn (b : Block) (f : Meridian → Meridian) : (b.setMt f).gn = b.gn := rfl
@[simp] theorem Block.setMt_cp (b : Block) (f : Meridian → Meridian) : (b.setMt f).cp = b.cp := rfl
@[simp] theorem Block.setMt_pr (b : Block) (f : Meridian → Meridian) : (b.setMt f).pr = b.pr := rfl
@[simp] theorem Block.setMt_pw (b : Block) (f : Meridian → Meridian) : (b.setMt f).pw = b.pw := rfl
@[simp] theorem Block.setMt_tm_reel (b : Block) (f : Meridian → Meridian) : (b.setMt f).tm.reel = b.tm.reel := rfl
@[simp] theorem Block.setMt_tm_esmc (b : Block) (f : Meridian → Meridian) : (b.setMt f).tm.esmc = b.tm.esmc := rfl
@[simp] theorem Block.setMt_tm_ptp (b : Block) (f : Meridian → Meridian) : (b.setMt f).tm.ptp = b.tm.ptp := rfl
@[simp] theorem Block.setMt_tm_pe (b : Block) (f : Meridian → Meridian) : (b.setMt f).tm.pe = b.tm.pe := rfl
@[simp] theorem Block.setMt_tm_out (b : Block) (f : Meridian → Meridian) : (b.setMt f).tm.out = b.tm.out := rfl
@[simp] theorem Block.setMt_tm_commit (b : Block) (f : Meridian → Meridian) : (b.setMt f).tm.commit = b.tm.commit := rfl
@[simp] theorem Block.setMt_tm_refin (b : Block) (f : Meridian → Meridian) : (b.setMt f).tm.refin = b.tm.refin := rfl
@[simp] theorem Block.setMt_tm_slot (b : Block) (f : Meridian → Meridian) : (b.setMt f).tm.slot = b.tm.slot := rfl
@[simp] theorem Block.setMt_tm_sel (b : Block) (f : Meridian → Meridian) : (b.setMt f).tm.sel = b.tm.sel := rfl
@[simp] theorem Block.setMt_tm_osc (b : Block) (f : Meridian → Meridian) : (b.setMt f).tm.osc = b.tm.osc := rfl
@[simp] theorem Block.setMt_tm_ho (b : Block) (f : Meridian → Meridian) : (b.setMt f).tm.ho = b.tm.ho := rfl
@[simp] theorem Block.setMt_tm_cal (b : Block) (f : Meridian → Meridian) : (b.setMt f).tm.cal = b.tm.cal := rfl
@[simp] theorem Block.setMt_tm_tic (b : Block) (f : Meridian → Meridian) : (b.setMt f).tm.tic = b.tm.tic := rfl
@[simp] theorem Block.setMt_tm_ticRing (b : Block) (f : Meridian → Meridian) : (b.setMt f).tm.ticRing = b.tm.ticRing := rfl
@[simp] theorem Block.setMt_tm_ticNext (b : Block) (f : Meridian → Meridian) : (b.setMt f).tm.ticNext = b.tm.ticNext := rfl
@[simp] theorem Block.setMt_rd (b : Block) (f : Meridian → Meridian) (key : Nat) : (b.setMt f).rd key = b.rd key := rfl
@[simp] theorem Block.setMt_rdN (b : Block) (f : Meridian → Meridian) (key : Nat) : (b.setMt f).rdN key = b.rdN key := rfl
@[simp] theorem Block.setMt_on (b : Block) (f : Meridian → Meridian) (key : Nat) : (b.setMt f).on key = b.on key := rfl

-- setSel

@[simp] theorem Block.setSel_tm_sel (b : Block) (f : Selector → Selector) : (b.setSel f).tm.sel = f b.tm.sel := rfl
@[simp] theorem Block.setSel_cyc (b : Block) (f : Selector → Selector) : (b.setSel f).cyc = b.cyc := rfl
@[simp] theorem Block.setSel_free (b : Block) (f : Selector → Selector) : (b.setSel f).free = b.free := rfl
@[simp] theorem Block.setSel_od (b : Block) (f : Selector → Selector) : (b.setSel f).od = b.od := rfl
@[simp] theorem Block.setSel_blobs (b : Block) (f : Selector → Selector) : (b.setSel f).blobs = b.blobs := rfl
@[simp] theorem Block.setSel_clk (b : Block) (f : Selector → Selector) : (b.setSel f).clk = b.clk := rfl
@[simp] theorem Block.setSel_cross (b : Block) (f : Selector → Selector) : (b.setSel f).cross = b.cross := rfl
@[simp] theorem Block.setSel_gen (b : Block) (f : Selector → Selector) : (b.setSel f).gen = b.gen := rfl
@[simp] theorem Block.setSel_sent (b : Block) (f : Selector → Selector) : (b.setSel f).sent = b.sent := rfl
@[simp] theorem Block.setSel_pokes (b : Block) (f : Selector → Selector) : (b.setSel f).pokes = b.pokes := rfl
@[simp] theorem Block.setSel_ramLost (b : Block) (f : Selector → Selector) : (b.setSel f).ramLost = b.ramLost := rfl
@[simp] theorem Block.setSel_fab (b : Block) (f : Selector → Selector) : (b.setSel f).fab = b.fab := rfl
@[simp] theorem Block.setSel_mg (b : Block) (f : Selector → Selector) : (b.setSel f).mg = b.mg := rfl
@[simp] theorem Block.setSel_ln (b : Block) (f : Selector → Selector) : (b.setSel f).ln = b.ln := rfl
@[simp] theorem Block.setSel_gn (b : Block) (f : Selector → Selector) : (b.setSel f).gn = b.gn := rfl
@[simp] theorem Block.setSel_cp (b : Block) (f : Selector → Selector) : (b.setSel f).cp = b.cp := rfl
@[simp] theorem Block.setSel_pr (b : Block) (f : Selector → Selector) : (b.setSel f).pr = b.pr := rfl
@[simp] theorem Block.setSel_pw (b : Block) (f : Selector → Selector) : (b.setSel f).pw = b.pw := rfl
@[simp] theorem Block.setSel_tm_mt (b : Block) (f : Selector → Selector) : (b.setSel f).tm.mt = b.tm.mt := rfl
@[simp] theorem Block.setSel_tm_reel (b : Block) (f : Selector → Selector) : (b.setSel f).tm.reel = b.tm.reel := rfl
@[simp] theorem Block.setSel_tm_esmc (b : Block) (f : Selector → Selector) : (b.setSel f).tm.esmc = b.tm.esmc := rfl
@[simp] theorem Block.setSel_tm_ptp (b : Block) (f : Selector → Selector) : (b.setSel f).tm.ptp = b.tm.ptp := rfl
@[simp] theorem Block.setSel_tm_pe (b : Block) (f : Selector → Selector) : (b.setSel f).tm.pe = b.tm.pe := rfl
@[simp] theorem Block.setSel_tm_out (b : Block) (f : Selector → Selector) : (b.setSel f).tm.out = b.tm.out := rfl
@[simp] theorem Block.setSel_tm_commit (b : Block) (f : Selector → Selector) : (b.setSel f).tm.commit = b.tm.commit := rfl
@[simp] theorem Block.setSel_tm_refin (b : Block) (f : Selector → Selector) : (b.setSel f).tm.refin = b.tm.refin := rfl
@[simp] theorem Block.setSel_tm_slot (b : Block) (f : Selector → Selector) : (b.setSel f).tm.slot = b.tm.slot := rfl
@[simp] theorem Block.setSel_tm_osc (b : Block) (f : Selector → Selector) : (b.setSel f).tm.osc = b.tm.osc := rfl
@[simp] theorem Block.setSel_tm_ho (b : Block) (f : Selector → Selector) : (b.setSel f).tm.ho = b.tm.ho := rfl
@[simp] theorem Block.setSel_tm_cal (b : Block) (f : Selector → Selector) : (b.setSel f).tm.cal = b.tm.cal := rfl
@[simp] theorem Block.setSel_tm_tic (b : Block) (f : Selector → Selector) : (b.setSel f).tm.tic = b.tm.tic := rfl
@[simp] theorem Block.setSel_tm_ticRing (b : Block) (f : Selector → Selector) : (b.setSel f).tm.ticRing = b.tm.ticRing := rfl
@[simp] theorem Block.setSel_tm_ticNext (b : Block) (f : Selector → Selector) : (b.setSel f).tm.ticNext = b.tm.ticNext := rfl
@[simp] theorem Block.setSel_rd (b : Block) (f : Selector → Selector) (key : Nat) : (b.setSel f).rd key = b.rd key := rfl
@[simp] theorem Block.setSel_rdN (b : Block) (f : Selector → Selector) (key : Nat) : (b.setSel f).rdN key = b.rdN key := rfl
@[simp] theorem Block.setSel_on (b : Block) (f : Selector → Selector) (key : Nat) : (b.setSel f).on key = b.on key := rfl

-- setHo

@[simp] theorem Block.setHo_tm_ho (b : Block) (f : Holdover → Holdover) : (b.setHo f).tm.ho = f b.tm.ho := rfl
@[simp] theorem Block.setHo_cyc (b : Block) (f : Holdover → Holdover) : (b.setHo f).cyc = b.cyc := rfl
@[simp] theorem Block.setHo_free (b : Block) (f : Holdover → Holdover) : (b.setHo f).free = b.free := rfl
@[simp] theorem Block.setHo_od (b : Block) (f : Holdover → Holdover) : (b.setHo f).od = b.od := rfl
@[simp] theorem Block.setHo_blobs (b : Block) (f : Holdover → Holdover) : (b.setHo f).blobs = b.blobs := rfl
@[simp] theorem Block.setHo_clk (b : Block) (f : Holdover → Holdover) : (b.setHo f).clk = b.clk := rfl
@[simp] theorem Block.setHo_cross (b : Block) (f : Holdover → Holdover) : (b.setHo f).cross = b.cross := rfl
@[simp] theorem Block.setHo_gen (b : Block) (f : Holdover → Holdover) : (b.setHo f).gen = b.gen := rfl
@[simp] theorem Block.setHo_sent (b : Block) (f : Holdover → Holdover) : (b.setHo f).sent = b.sent := rfl
@[simp] theorem Block.setHo_pokes (b : Block) (f : Holdover → Holdover) : (b.setHo f).pokes = b.pokes := rfl
@[simp] theorem Block.setHo_ramLost (b : Block) (f : Holdover → Holdover) : (b.setHo f).ramLost = b.ramLost := rfl
@[simp] theorem Block.setHo_fab (b : Block) (f : Holdover → Holdover) : (b.setHo f).fab = b.fab := rfl
@[simp] theorem Block.setHo_mg (b : Block) (f : Holdover → Holdover) : (b.setHo f).mg = b.mg := rfl
@[simp] theorem Block.setHo_ln (b : Block) (f : Holdover → Holdover) : (b.setHo f).ln = b.ln := rfl
@[simp] theorem Block.setHo_gn (b : Block) (f : Holdover → Holdover) : (b.setHo f).gn = b.gn := rfl
@[simp] theorem Block.setHo_cp (b : Block) (f : Holdover → Holdover) : (b.setHo f).cp = b.cp := rfl
@[simp] theorem Block.setHo_pr (b : Block) (f : Holdover → Holdover) : (b.setHo f).pr = b.pr := rfl
@[simp] theorem Block.setHo_pw (b : Block) (f : Holdover → Holdover) : (b.setHo f).pw = b.pw := rfl
@[simp] theorem Block.setHo_tm_mt (b : Block) (f : Holdover → Holdover) : (b.setHo f).tm.mt = b.tm.mt := rfl
@[simp] theorem Block.setHo_tm_reel (b : Block) (f : Holdover → Holdover) : (b.setHo f).tm.reel = b.tm.reel := rfl
@[simp] theorem Block.setHo_tm_esmc (b : Block) (f : Holdover → Holdover) : (b.setHo f).tm.esmc = b.tm.esmc := rfl
@[simp] theorem Block.setHo_tm_ptp (b : Block) (f : Holdover → Holdover) : (b.setHo f).tm.ptp = b.tm.ptp := rfl
@[simp] theorem Block.setHo_tm_pe (b : Block) (f : Holdover → Holdover) : (b.setHo f).tm.pe = b.tm.pe := rfl
@[simp] theorem Block.setHo_tm_out (b : Block) (f : Holdover → Holdover) : (b.setHo f).tm.out = b.tm.out := rfl
@[simp] theorem Block.setHo_tm_commit (b : Block) (f : Holdover → Holdover) : (b.setHo f).tm.commit = b.tm.commit := rfl
@[simp] theorem Block.setHo_tm_refin (b : Block) (f : Holdover → Holdover) : (b.setHo f).tm.refin = b.tm.refin := rfl
@[simp] theorem Block.setHo_tm_slot (b : Block) (f : Holdover → Holdover) : (b.setHo f).tm.slot = b.tm.slot := rfl
@[simp] theorem Block.setHo_tm_sel (b : Block) (f : Holdover → Holdover) : (b.setHo f).tm.sel = b.tm.sel := rfl
@[simp] theorem Block.setHo_tm_osc (b : Block) (f : Holdover → Holdover) : (b.setHo f).tm.osc = b.tm.osc := rfl
@[simp] theorem Block.setHo_tm_cal (b : Block) (f : Holdover → Holdover) : (b.setHo f).tm.cal = b.tm.cal := rfl
@[simp] theorem Block.setHo_tm_tic (b : Block) (f : Holdover → Holdover) : (b.setHo f).tm.tic = b.tm.tic := rfl
@[simp] theorem Block.setHo_tm_ticRing (b : Block) (f : Holdover → Holdover) : (b.setHo f).tm.ticRing = b.tm.ticRing := rfl
@[simp] theorem Block.setHo_tm_ticNext (b : Block) (f : Holdover → Holdover) : (b.setHo f).tm.ticNext = b.tm.ticNext := rfl
@[simp] theorem Block.setHo_rd (b : Block) (f : Holdover → Holdover) (key : Nat) : (b.setHo f).rd key = b.rd key := rfl
@[simp] theorem Block.setHo_rdN (b : Block) (f : Holdover → Holdover) (key : Nat) : (b.setHo f).rdN key = b.rdN key := rfl
@[simp] theorem Block.setHo_on (b : Block) (f : Holdover → Holdover) (key : Nat) : (b.setHo f).on key = b.on key := rfl

-- setOsc

@[simp] theorem Block.setOsc_tm_osc (b : Block) (f : Osc → Osc) : (b.setOsc f).tm.osc = f b.tm.osc := rfl
@[simp] theorem Block.setOsc_cyc (b : Block) (f : Osc → Osc) : (b.setOsc f).cyc = b.cyc := rfl
@[simp] theorem Block.setOsc_free (b : Block) (f : Osc → Osc) : (b.setOsc f).free = b.free := rfl
@[simp] theorem Block.setOsc_od (b : Block) (f : Osc → Osc) : (b.setOsc f).od = b.od := rfl
@[simp] theorem Block.setOsc_blobs (b : Block) (f : Osc → Osc) : (b.setOsc f).blobs = b.blobs := rfl
@[simp] theorem Block.setOsc_clk (b : Block) (f : Osc → Osc) : (b.setOsc f).clk = b.clk := rfl
@[simp] theorem Block.setOsc_cross (b : Block) (f : Osc → Osc) : (b.setOsc f).cross = b.cross := rfl
@[simp] theorem Block.setOsc_gen (b : Block) (f : Osc → Osc) : (b.setOsc f).gen = b.gen := rfl
@[simp] theorem Block.setOsc_sent (b : Block) (f : Osc → Osc) : (b.setOsc f).sent = b.sent := rfl
@[simp] theorem Block.setOsc_pokes (b : Block) (f : Osc → Osc) : (b.setOsc f).pokes = b.pokes := rfl
@[simp] theorem Block.setOsc_ramLost (b : Block) (f : Osc → Osc) : (b.setOsc f).ramLost = b.ramLost := rfl
@[simp] theorem Block.setOsc_fab (b : Block) (f : Osc → Osc) : (b.setOsc f).fab = b.fab := rfl
@[simp] theorem Block.setOsc_mg (b : Block) (f : Osc → Osc) : (b.setOsc f).mg = b.mg := rfl
@[simp] theorem Block.setOsc_ln (b : Block) (f : Osc → Osc) : (b.setOsc f).ln = b.ln := rfl
@[simp] theorem Block.setOsc_gn (b : Block) (f : Osc → Osc) : (b.setOsc f).gn = b.gn := rfl
@[simp] theorem Block.setOsc_cp (b : Block) (f : Osc → Osc) : (b.setOsc f).cp = b.cp := rfl
@[simp] theorem Block.setOsc_pr (b : Block) (f : Osc → Osc) : (b.setOsc f).pr = b.pr := rfl
@[simp] theorem Block.setOsc_pw (b : Block) (f : Osc → Osc) : (b.setOsc f).pw = b.pw := rfl
@[simp] theorem Block.setOsc_tm_mt (b : Block) (f : Osc → Osc) : (b.setOsc f).tm.mt = b.tm.mt := rfl
@[simp] theorem Block.setOsc_tm_reel (b : Block) (f : Osc → Osc) : (b.setOsc f).tm.reel = b.tm.reel := rfl
@[simp] theorem Block.setOsc_tm_esmc (b : Block) (f : Osc → Osc) : (b.setOsc f).tm.esmc = b.tm.esmc := rfl
@[simp] theorem Block.setOsc_tm_ptp (b : Block) (f : Osc → Osc) : (b.setOsc f).tm.ptp = b.tm.ptp := rfl
@[simp] theorem Block.setOsc_tm_pe (b : Block) (f : Osc → Osc) : (b.setOsc f).tm.pe = b.tm.pe := rfl
@[simp] theorem Block.setOsc_tm_out (b : Block) (f : Osc → Osc) : (b.setOsc f).tm.out = b.tm.out := rfl
@[simp] theorem Block.setOsc_tm_commit (b : Block) (f : Osc → Osc) : (b.setOsc f).tm.commit = b.tm.commit := rfl
@[simp] theorem Block.setOsc_tm_refin (b : Block) (f : Osc → Osc) : (b.setOsc f).tm.refin = b.tm.refin := rfl
@[simp] theorem Block.setOsc_tm_slot (b : Block) (f : Osc → Osc) : (b.setOsc f).tm.slot = b.tm.slot := rfl
@[simp] theorem Block.setOsc_tm_sel (b : Block) (f : Osc → Osc) : (b.setOsc f).tm.sel = b.tm.sel := rfl
@[simp] theorem Block.setOsc_tm_ho (b : Block) (f : Osc → Osc) : (b.setOsc f).tm.ho = b.tm.ho := rfl
@[simp] theorem Block.setOsc_tm_cal (b : Block) (f : Osc → Osc) : (b.setOsc f).tm.cal = b.tm.cal := rfl
@[simp] theorem Block.setOsc_tm_tic (b : Block) (f : Osc → Osc) : (b.setOsc f).tm.tic = b.tm.tic := rfl
@[simp] theorem Block.setOsc_tm_ticRing (b : Block) (f : Osc → Osc) : (b.setOsc f).tm.ticRing = b.tm.ticRing := rfl
@[simp] theorem Block.setOsc_tm_ticNext (b : Block) (f : Osc → Osc) : (b.setOsc f).tm.ticNext = b.tm.ticNext := rfl
@[simp] theorem Block.setOsc_rd (b : Block) (f : Osc → Osc) (key : Nat) : (b.setOsc f).rd key = b.rd key := rfl
@[simp] theorem Block.setOsc_rdN (b : Block) (f : Osc → Osc) (key : Nat) : (b.setOsc f).rdN key = b.rdN key := rfl
@[simp] theorem Block.setOsc_on (b : Block) (f : Osc → Osc) (key : Nat) : (b.setOsc f).on key = b.on key := rfl

-- setCal

@[simp] theorem Block.setCal_tm_cal (b : Block) (f : Cal → Cal) : (b.setCal f).tm.cal = f b.tm.cal := rfl
@[simp] theorem Block.setCal_cyc (b : Block) (f : Cal → Cal) : (b.setCal f).cyc = b.cyc := rfl
@[simp] theorem Block.setCal_free (b : Block) (f : Cal → Cal) : (b.setCal f).free = b.free := rfl
@[simp] theorem Block.setCal_od (b : Block) (f : Cal → Cal) : (b.setCal f).od = b.od := rfl
@[simp] theorem Block.setCal_blobs (b : Block) (f : Cal → Cal) : (b.setCal f).blobs = b.blobs := rfl
@[simp] theorem Block.setCal_clk (b : Block) (f : Cal → Cal) : (b.setCal f).clk = b.clk := rfl
@[simp] theorem Block.setCal_cross (b : Block) (f : Cal → Cal) : (b.setCal f).cross = b.cross := rfl
@[simp] theorem Block.setCal_gen (b : Block) (f : Cal → Cal) : (b.setCal f).gen = b.gen := rfl
@[simp] theorem Block.setCal_sent (b : Block) (f : Cal → Cal) : (b.setCal f).sent = b.sent := rfl
@[simp] theorem Block.setCal_pokes (b : Block) (f : Cal → Cal) : (b.setCal f).pokes = b.pokes := rfl
@[simp] theorem Block.setCal_ramLost (b : Block) (f : Cal → Cal) : (b.setCal f).ramLost = b.ramLost := rfl
@[simp] theorem Block.setCal_fab (b : Block) (f : Cal → Cal) : (b.setCal f).fab = b.fab := rfl
@[simp] theorem Block.setCal_mg (b : Block) (f : Cal → Cal) : (b.setCal f).mg = b.mg := rfl
@[simp] theorem Block.setCal_ln (b : Block) (f : Cal → Cal) : (b.setCal f).ln = b.ln := rfl
@[simp] theorem Block.setCal_gn (b : Block) (f : Cal → Cal) : (b.setCal f).gn = b.gn := rfl
@[simp] theorem Block.setCal_cp (b : Block) (f : Cal → Cal) : (b.setCal f).cp = b.cp := rfl
@[simp] theorem Block.setCal_pr (b : Block) (f : Cal → Cal) : (b.setCal f).pr = b.pr := rfl
@[simp] theorem Block.setCal_pw (b : Block) (f : Cal → Cal) : (b.setCal f).pw = b.pw := rfl
@[simp] theorem Block.setCal_tm_mt (b : Block) (f : Cal → Cal) : (b.setCal f).tm.mt = b.tm.mt := rfl
@[simp] theorem Block.setCal_tm_reel (b : Block) (f : Cal → Cal) : (b.setCal f).tm.reel = b.tm.reel := rfl
@[simp] theorem Block.setCal_tm_esmc (b : Block) (f : Cal → Cal) : (b.setCal f).tm.esmc = b.tm.esmc := rfl
@[simp] theorem Block.setCal_tm_ptp (b : Block) (f : Cal → Cal) : (b.setCal f).tm.ptp = b.tm.ptp := rfl
@[simp] theorem Block.setCal_tm_pe (b : Block) (f : Cal → Cal) : (b.setCal f).tm.pe = b.tm.pe := rfl
@[simp] theorem Block.setCal_tm_out (b : Block) (f : Cal → Cal) : (b.setCal f).tm.out = b.tm.out := rfl
@[simp] theorem Block.setCal_tm_commit (b : Block) (f : Cal → Cal) : (b.setCal f).tm.commit = b.tm.commit := rfl
@[simp] theorem Block.setCal_tm_refin (b : Block) (f : Cal → Cal) : (b.setCal f).tm.refin = b.tm.refin := rfl
@[simp] theorem Block.setCal_tm_slot (b : Block) (f : Cal → Cal) : (b.setCal f).tm.slot = b.tm.slot := rfl
@[simp] theorem Block.setCal_tm_sel (b : Block) (f : Cal → Cal) : (b.setCal f).tm.sel = b.tm.sel := rfl
@[simp] theorem Block.setCal_tm_osc (b : Block) (f : Cal → Cal) : (b.setCal f).tm.osc = b.tm.osc := rfl
@[simp] theorem Block.setCal_tm_ho (b : Block) (f : Cal → Cal) : (b.setCal f).tm.ho = b.tm.ho := rfl
@[simp] theorem Block.setCal_tm_tic (b : Block) (f : Cal → Cal) : (b.setCal f).tm.tic = b.tm.tic := rfl
@[simp] theorem Block.setCal_tm_ticRing (b : Block) (f : Cal → Cal) : (b.setCal f).tm.ticRing = b.tm.ticRing := rfl
@[simp] theorem Block.setCal_tm_ticNext (b : Block) (f : Cal → Cal) : (b.setCal f).tm.ticNext = b.tm.ticNext := rfl
@[simp] theorem Block.setCal_rd (b : Block) (f : Cal → Cal) (key : Nat) : (b.setCal f).rd key = b.rd key := rfl
@[simp] theorem Block.setCal_rdN (b : Block) (f : Cal → Cal) (key : Nat) : (b.setCal f).rdN key = b.rdN key := rfl
@[simp] theorem Block.setCal_on (b : Block) (f : Cal → Cal) (key : Nat) : (b.setCal f).on key = b.on key := rfl

-- setSlot

@[simp] theorem Block.setSlot_tm_slot (b : Block) (k : Nat) (f : Slot → Slot) : (b.setSlot k f).tm.slot = tmod {} b.tm.slot k f := rfl
@[simp] theorem Block.setSlot_cyc (b : Block) (k : Nat) (f : Slot → Slot) : (b.setSlot k f).cyc = b.cyc := rfl
@[simp] theorem Block.setSlot_free (b : Block) (k : Nat) (f : Slot → Slot) : (b.setSlot k f).free = b.free := rfl
@[simp] theorem Block.setSlot_od (b : Block) (k : Nat) (f : Slot → Slot) : (b.setSlot k f).od = b.od := rfl
@[simp] theorem Block.setSlot_blobs (b : Block) (k : Nat) (f : Slot → Slot) : (b.setSlot k f).blobs = b.blobs := rfl
@[simp] theorem Block.setSlot_clk (b : Block) (k : Nat) (f : Slot → Slot) : (b.setSlot k f).clk = b.clk := rfl
@[simp] theorem Block.setSlot_cross (b : Block) (k : Nat) (f : Slot → Slot) : (b.setSlot k f).cross = b.cross := rfl
@[simp] theorem Block.setSlot_gen (b : Block) (k : Nat) (f : Slot → Slot) : (b.setSlot k f).gen = b.gen := rfl
@[simp] theorem Block.setSlot_sent (b : Block) (k : Nat) (f : Slot → Slot) : (b.setSlot k f).sent = b.sent := rfl
@[simp] theorem Block.setSlot_pokes (b : Block) (k : Nat) (f : Slot → Slot) : (b.setSlot k f).pokes = b.pokes := rfl
@[simp] theorem Block.setSlot_ramLost (b : Block) (k : Nat) (f : Slot → Slot) : (b.setSlot k f).ramLost = b.ramLost := rfl
@[simp] theorem Block.setSlot_fab (b : Block) (k : Nat) (f : Slot → Slot) : (b.setSlot k f).fab = b.fab := rfl
@[simp] theorem Block.setSlot_mg (b : Block) (k : Nat) (f : Slot → Slot) : (b.setSlot k f).mg = b.mg := rfl
@[simp] theorem Block.setSlot_ln (b : Block) (k : Nat) (f : Slot → Slot) : (b.setSlot k f).ln = b.ln := rfl
@[simp] theorem Block.setSlot_gn (b : Block) (k : Nat) (f : Slot → Slot) : (b.setSlot k f).gn = b.gn := rfl
@[simp] theorem Block.setSlot_cp (b : Block) (k : Nat) (f : Slot → Slot) : (b.setSlot k f).cp = b.cp := rfl
@[simp] theorem Block.setSlot_pr (b : Block) (k : Nat) (f : Slot → Slot) : (b.setSlot k f).pr = b.pr := rfl
@[simp] theorem Block.setSlot_pw (b : Block) (k : Nat) (f : Slot → Slot) : (b.setSlot k f).pw = b.pw := rfl
@[simp] theorem Block.setSlot_tm_mt (b : Block) (k : Nat) (f : Slot → Slot) : (b.setSlot k f).tm.mt = b.tm.mt := rfl
@[simp] theorem Block.setSlot_tm_reel (b : Block) (k : Nat) (f : Slot → Slot) : (b.setSlot k f).tm.reel = b.tm.reel := rfl
@[simp] theorem Block.setSlot_tm_esmc (b : Block) (k : Nat) (f : Slot → Slot) : (b.setSlot k f).tm.esmc = b.tm.esmc := rfl
@[simp] theorem Block.setSlot_tm_ptp (b : Block) (k : Nat) (f : Slot → Slot) : (b.setSlot k f).tm.ptp = b.tm.ptp := rfl
@[simp] theorem Block.setSlot_tm_pe (b : Block) (k : Nat) (f : Slot → Slot) : (b.setSlot k f).tm.pe = b.tm.pe := rfl
@[simp] theorem Block.setSlot_tm_out (b : Block) (k : Nat) (f : Slot → Slot) : (b.setSlot k f).tm.out = b.tm.out := rfl
@[simp] theorem Block.setSlot_tm_commit (b : Block) (k : Nat) (f : Slot → Slot) : (b.setSlot k f).tm.commit = b.tm.commit := rfl
@[simp] theorem Block.setSlot_tm_refin (b : Block) (k : Nat) (f : Slot → Slot) : (b.setSlot k f).tm.refin = b.tm.refin := rfl
@[simp] theorem Block.setSlot_tm_sel (b : Block) (k : Nat) (f : Slot → Slot) : (b.setSlot k f).tm.sel = b.tm.sel := rfl
@[simp] theorem Block.setSlot_tm_osc (b : Block) (k : Nat) (f : Slot → Slot) : (b.setSlot k f).tm.osc = b.tm.osc := rfl
@[simp] theorem Block.setSlot_tm_ho (b : Block) (k : Nat) (f : Slot → Slot) : (b.setSlot k f).tm.ho = b.tm.ho := rfl
@[simp] theorem Block.setSlot_tm_cal (b : Block) (k : Nat) (f : Slot → Slot) : (b.setSlot k f).tm.cal = b.tm.cal := rfl
@[simp] theorem Block.setSlot_tm_tic (b : Block) (k : Nat) (f : Slot → Slot) : (b.setSlot k f).tm.tic = b.tm.tic := rfl
@[simp] theorem Block.setSlot_tm_ticRing (b : Block) (k : Nat) (f : Slot → Slot) : (b.setSlot k f).tm.ticRing = b.tm.ticRing := rfl
@[simp] theorem Block.setSlot_tm_ticNext (b : Block) (k : Nat) (f : Slot → Slot) : (b.setSlot k f).tm.ticNext = b.tm.ticNext := rfl
@[simp] theorem Block.setSlot_rd (b : Block) (k : Nat) (f : Slot → Slot) (key : Nat) : (b.setSlot k f).rd key = b.rd key := rfl
@[simp] theorem Block.setSlot_rdN (b : Block) (k : Nat) (f : Slot → Slot) (key : Nat) : (b.setSlot k f).rdN key = b.rdN key := rfl
@[simp] theorem Block.setSlot_on (b : Block) (k : Nat) (f : Slot → Slot) (key : Nat) : (b.setSlot k f).on key = b.on key := rfl

-- setPe

@[simp] theorem Block.setPe_tm_pe (b : Block) (e : Nat) (f : Engine → Engine) : (b.setPe e f).tm.pe = tmod {} b.tm.pe e f := rfl
@[simp] theorem Block.setPe_cyc (b : Block) (e : Nat) (f : Engine → Engine) : (b.setPe e f).cyc = b.cyc := rfl
@[simp] theorem Block.setPe_free (b : Block) (e : Nat) (f : Engine → Engine) : (b.setPe e f).free = b.free := rfl
@[simp] theorem Block.setPe_od (b : Block) (e : Nat) (f : Engine → Engine) : (b.setPe e f).od = b.od := rfl
@[simp] theorem Block.setPe_blobs (b : Block) (e : Nat) (f : Engine → Engine) : (b.setPe e f).blobs = b.blobs := rfl
@[simp] theorem Block.setPe_clk (b : Block) (e : Nat) (f : Engine → Engine) : (b.setPe e f).clk = b.clk := rfl
@[simp] theorem Block.setPe_cross (b : Block) (e : Nat) (f : Engine → Engine) : (b.setPe e f).cross = b.cross := rfl
@[simp] theorem Block.setPe_gen (b : Block) (e : Nat) (f : Engine → Engine) : (b.setPe e f).gen = b.gen := rfl
@[simp] theorem Block.setPe_sent (b : Block) (e : Nat) (f : Engine → Engine) : (b.setPe e f).sent = b.sent := rfl
@[simp] theorem Block.setPe_pokes (b : Block) (e : Nat) (f : Engine → Engine) : (b.setPe e f).pokes = b.pokes := rfl
@[simp] theorem Block.setPe_ramLost (b : Block) (e : Nat) (f : Engine → Engine) : (b.setPe e f).ramLost = b.ramLost := rfl
@[simp] theorem Block.setPe_fab (b : Block) (e : Nat) (f : Engine → Engine) : (b.setPe e f).fab = b.fab := rfl
@[simp] theorem Block.setPe_mg (b : Block) (e : Nat) (f : Engine → Engine) : (b.setPe e f).mg = b.mg := rfl
@[simp] theorem Block.setPe_ln (b : Block) (e : Nat) (f : Engine → Engine) : (b.setPe e f).ln = b.ln := rfl
@[simp] theorem Block.setPe_gn (b : Block) (e : Nat) (f : Engine → Engine) : (b.setPe e f).gn = b.gn := rfl
@[simp] theorem Block.setPe_cp (b : Block) (e : Nat) (f : Engine → Engine) : (b.setPe e f).cp = b.cp := rfl
@[simp] theorem Block.setPe_pr (b : Block) (e : Nat) (f : Engine → Engine) : (b.setPe e f).pr = b.pr := rfl
@[simp] theorem Block.setPe_pw (b : Block) (e : Nat) (f : Engine → Engine) : (b.setPe e f).pw = b.pw := rfl
@[simp] theorem Block.setPe_tm_mt (b : Block) (e : Nat) (f : Engine → Engine) : (b.setPe e f).tm.mt = b.tm.mt := rfl
@[simp] theorem Block.setPe_tm_reel (b : Block) (e : Nat) (f : Engine → Engine) : (b.setPe e f).tm.reel = b.tm.reel := rfl
@[simp] theorem Block.setPe_tm_esmc (b : Block) (e : Nat) (f : Engine → Engine) : (b.setPe e f).tm.esmc = b.tm.esmc := rfl
@[simp] theorem Block.setPe_tm_ptp (b : Block) (e : Nat) (f : Engine → Engine) : (b.setPe e f).tm.ptp = b.tm.ptp := rfl
@[simp] theorem Block.setPe_tm_out (b : Block) (e : Nat) (f : Engine → Engine) : (b.setPe e f).tm.out = b.tm.out := rfl
@[simp] theorem Block.setPe_tm_commit (b : Block) (e : Nat) (f : Engine → Engine) : (b.setPe e f).tm.commit = b.tm.commit := rfl
@[simp] theorem Block.setPe_tm_refin (b : Block) (e : Nat) (f : Engine → Engine) : (b.setPe e f).tm.refin = b.tm.refin := rfl
@[simp] theorem Block.setPe_tm_slot (b : Block) (e : Nat) (f : Engine → Engine) : (b.setPe e f).tm.slot = b.tm.slot := rfl
@[simp] theorem Block.setPe_tm_sel (b : Block) (e : Nat) (f : Engine → Engine) : (b.setPe e f).tm.sel = b.tm.sel := rfl
@[simp] theorem Block.setPe_tm_osc (b : Block) (e : Nat) (f : Engine → Engine) : (b.setPe e f).tm.osc = b.tm.osc := rfl
@[simp] theorem Block.setPe_tm_ho (b : Block) (e : Nat) (f : Engine → Engine) : (b.setPe e f).tm.ho = b.tm.ho := rfl
@[simp] theorem Block.setPe_tm_cal (b : Block) (e : Nat) (f : Engine → Engine) : (b.setPe e f).tm.cal = b.tm.cal := rfl
@[simp] theorem Block.setPe_tm_tic (b : Block) (e : Nat) (f : Engine → Engine) : (b.setPe e f).tm.tic = b.tm.tic := rfl
@[simp] theorem Block.setPe_tm_ticRing (b : Block) (e : Nat) (f : Engine → Engine) : (b.setPe e f).tm.ticRing = b.tm.ticRing := rfl
@[simp] theorem Block.setPe_tm_ticNext (b : Block) (e : Nat) (f : Engine → Engine) : (b.setPe e f).tm.ticNext = b.tm.ticNext := rfl
@[simp] theorem Block.setPe_rd (b : Block) (e : Nat) (f : Engine → Engine) (key : Nat) : (b.setPe e f).rd key = b.rd key := rfl
@[simp] theorem Block.setPe_rdN (b : Block) (e : Nat) (f : Engine → Engine) (key : Nat) : (b.setPe e f).rdN key = b.rdN key := rfl
@[simp] theorem Block.setPe_on (b : Block) (e : Nat) (f : Engine → Engine) (key : Nat) : (b.setPe e f).on key = b.on key := rfl

-- setOut

@[simp] theorem Block.setOut_tm_out (b : Block) (n : Nat) (f : OutSt → OutSt) : (b.setOut n f).tm.out = tmod {} b.tm.out n f := rfl
@[simp] theorem Block.setOut_cyc (b : Block) (n : Nat) (f : OutSt → OutSt) : (b.setOut n f).cyc = b.cyc := rfl
@[simp] theorem Block.setOut_free (b : Block) (n : Nat) (f : OutSt → OutSt) : (b.setOut n f).free = b.free := rfl
@[simp] theorem Block.setOut_od (b : Block) (n : Nat) (f : OutSt → OutSt) : (b.setOut n f).od = b.od := rfl
@[simp] theorem Block.setOut_blobs (b : Block) (n : Nat) (f : OutSt → OutSt) : (b.setOut n f).blobs = b.blobs := rfl
@[simp] theorem Block.setOut_clk (b : Block) (n : Nat) (f : OutSt → OutSt) : (b.setOut n f).clk = b.clk := rfl
@[simp] theorem Block.setOut_cross (b : Block) (n : Nat) (f : OutSt → OutSt) : (b.setOut n f).cross = b.cross := rfl
@[simp] theorem Block.setOut_gen (b : Block) (n : Nat) (f : OutSt → OutSt) : (b.setOut n f).gen = b.gen := rfl
@[simp] theorem Block.setOut_sent (b : Block) (n : Nat) (f : OutSt → OutSt) : (b.setOut n f).sent = b.sent := rfl
@[simp] theorem Block.setOut_pokes (b : Block) (n : Nat) (f : OutSt → OutSt) : (b.setOut n f).pokes = b.pokes := rfl
@[simp] theorem Block.setOut_ramLost (b : Block) (n : Nat) (f : OutSt → OutSt) : (b.setOut n f).ramLost = b.ramLost := rfl
@[simp] theorem Block.setOut_fab (b : Block) (n : Nat) (f : OutSt → OutSt) : (b.setOut n f).fab = b.fab := rfl
@[simp] theorem Block.setOut_mg (b : Block) (n : Nat) (f : OutSt → OutSt) : (b.setOut n f).mg = b.mg := rfl
@[simp] theorem Block.setOut_ln (b : Block) (n : Nat) (f : OutSt → OutSt) : (b.setOut n f).ln = b.ln := rfl
@[simp] theorem Block.setOut_gn (b : Block) (n : Nat) (f : OutSt → OutSt) : (b.setOut n f).gn = b.gn := rfl
@[simp] theorem Block.setOut_cp (b : Block) (n : Nat) (f : OutSt → OutSt) : (b.setOut n f).cp = b.cp := rfl
@[simp] theorem Block.setOut_pr (b : Block) (n : Nat) (f : OutSt → OutSt) : (b.setOut n f).pr = b.pr := rfl
@[simp] theorem Block.setOut_pw (b : Block) (n : Nat) (f : OutSt → OutSt) : (b.setOut n f).pw = b.pw := rfl
@[simp] theorem Block.setOut_tm_mt (b : Block) (n : Nat) (f : OutSt → OutSt) : (b.setOut n f).tm.mt = b.tm.mt := rfl
@[simp] theorem Block.setOut_tm_reel (b : Block) (n : Nat) (f : OutSt → OutSt) : (b.setOut n f).tm.reel = b.tm.reel := rfl
@[simp] theorem Block.setOut_tm_esmc (b : Block) (n : Nat) (f : OutSt → OutSt) : (b.setOut n f).tm.esmc = b.tm.esmc := rfl
@[simp] theorem Block.setOut_tm_ptp (b : Block) (n : Nat) (f : OutSt → OutSt) : (b.setOut n f).tm.ptp = b.tm.ptp := rfl
@[simp] theorem Block.setOut_tm_pe (b : Block) (n : Nat) (f : OutSt → OutSt) : (b.setOut n f).tm.pe = b.tm.pe := rfl
@[simp] theorem Block.setOut_tm_commit (b : Block) (n : Nat) (f : OutSt → OutSt) : (b.setOut n f).tm.commit = b.tm.commit := rfl
@[simp] theorem Block.setOut_tm_refin (b : Block) (n : Nat) (f : OutSt → OutSt) : (b.setOut n f).tm.refin = b.tm.refin := rfl
@[simp] theorem Block.setOut_tm_slot (b : Block) (n : Nat) (f : OutSt → OutSt) : (b.setOut n f).tm.slot = b.tm.slot := rfl
@[simp] theorem Block.setOut_tm_sel (b : Block) (n : Nat) (f : OutSt → OutSt) : (b.setOut n f).tm.sel = b.tm.sel := rfl
@[simp] theorem Block.setOut_tm_osc (b : Block) (n : Nat) (f : OutSt → OutSt) : (b.setOut n f).tm.osc = b.tm.osc := rfl
@[simp] theorem Block.setOut_tm_ho (b : Block) (n : Nat) (f : OutSt → OutSt) : (b.setOut n f).tm.ho = b.tm.ho := rfl
@[simp] theorem Block.setOut_tm_cal (b : Block) (n : Nat) (f : OutSt → OutSt) : (b.setOut n f).tm.cal = b.tm.cal := rfl
@[simp] theorem Block.setOut_tm_tic (b : Block) (n : Nat) (f : OutSt → OutSt) : (b.setOut n f).tm.tic = b.tm.tic := rfl
@[simp] theorem Block.setOut_tm_ticRing (b : Block) (n : Nat) (f : OutSt → OutSt) : (b.setOut n f).tm.ticRing = b.tm.ticRing := rfl
@[simp] theorem Block.setOut_tm_ticNext (b : Block) (n : Nat) (f : OutSt → OutSt) : (b.setOut n f).tm.ticNext = b.tm.ticNext := rfl
@[simp] theorem Block.setOut_rd (b : Block) (n : Nat) (f : OutSt → OutSt) (key : Nat) : (b.setOut n f).rd key = b.rd key := rfl
@[simp] theorem Block.setOut_rdN (b : Block) (n : Nat) (f : OutSt → OutSt) (key : Nat) : (b.setOut n f).rdN key = b.rdN key := rfl
@[simp] theorem Block.setOut_on (b : Block) (n : Nat) (f : OutSt → OutSt) (key : Nat) : (b.setOut n f).on key = b.on key := rfl

-- setTic

@[simp] theorem Block.setTic_tm_tic (b : Block) (c : Nat) (f : Tic → Tic) : (b.setTic c f).tm.tic = tmod {} b.tm.tic c f := rfl
@[simp] theorem Block.setTic_cyc (b : Block) (c : Nat) (f : Tic → Tic) : (b.setTic c f).cyc = b.cyc := rfl
@[simp] theorem Block.setTic_free (b : Block) (c : Nat) (f : Tic → Tic) : (b.setTic c f).free = b.free := rfl
@[simp] theorem Block.setTic_od (b : Block) (c : Nat) (f : Tic → Tic) : (b.setTic c f).od = b.od := rfl
@[simp] theorem Block.setTic_blobs (b : Block) (c : Nat) (f : Tic → Tic) : (b.setTic c f).blobs = b.blobs := rfl
@[simp] theorem Block.setTic_clk (b : Block) (c : Nat) (f : Tic → Tic) : (b.setTic c f).clk = b.clk := rfl
@[simp] theorem Block.setTic_cross (b : Block) (c : Nat) (f : Tic → Tic) : (b.setTic c f).cross = b.cross := rfl
@[simp] theorem Block.setTic_gen (b : Block) (c : Nat) (f : Tic → Tic) : (b.setTic c f).gen = b.gen := rfl
@[simp] theorem Block.setTic_sent (b : Block) (c : Nat) (f : Tic → Tic) : (b.setTic c f).sent = b.sent := rfl
@[simp] theorem Block.setTic_pokes (b : Block) (c : Nat) (f : Tic → Tic) : (b.setTic c f).pokes = b.pokes := rfl
@[simp] theorem Block.setTic_ramLost (b : Block) (c : Nat) (f : Tic → Tic) : (b.setTic c f).ramLost = b.ramLost := rfl
@[simp] theorem Block.setTic_fab (b : Block) (c : Nat) (f : Tic → Tic) : (b.setTic c f).fab = b.fab := rfl
@[simp] theorem Block.setTic_mg (b : Block) (c : Nat) (f : Tic → Tic) : (b.setTic c f).mg = b.mg := rfl
@[simp] theorem Block.setTic_ln (b : Block) (c : Nat) (f : Tic → Tic) : (b.setTic c f).ln = b.ln := rfl
@[simp] theorem Block.setTic_gn (b : Block) (c : Nat) (f : Tic → Tic) : (b.setTic c f).gn = b.gn := rfl
@[simp] theorem Block.setTic_cp (b : Block) (c : Nat) (f : Tic → Tic) : (b.setTic c f).cp = b.cp := rfl
@[simp] theorem Block.setTic_pr (b : Block) (c : Nat) (f : Tic → Tic) : (b.setTic c f).pr = b.pr := rfl
@[simp] theorem Block.setTic_pw (b : Block) (c : Nat) (f : Tic → Tic) : (b.setTic c f).pw = b.pw := rfl
@[simp] theorem Block.setTic_tm_mt (b : Block) (c : Nat) (f : Tic → Tic) : (b.setTic c f).tm.mt = b.tm.mt := rfl
@[simp] theorem Block.setTic_tm_reel (b : Block) (c : Nat) (f : Tic → Tic) : (b.setTic c f).tm.reel = b.tm.reel := rfl
@[simp] theorem Block.setTic_tm_esmc (b : Block) (c : Nat) (f : Tic → Tic) : (b.setTic c f).tm.esmc = b.tm.esmc := rfl
@[simp] theorem Block.setTic_tm_ptp (b : Block) (c : Nat) (f : Tic → Tic) : (b.setTic c f).tm.ptp = b.tm.ptp := rfl
@[simp] theorem Block.setTic_tm_pe (b : Block) (c : Nat) (f : Tic → Tic) : (b.setTic c f).tm.pe = b.tm.pe := rfl
@[simp] theorem Block.setTic_tm_out (b : Block) (c : Nat) (f : Tic → Tic) : (b.setTic c f).tm.out = b.tm.out := rfl
@[simp] theorem Block.setTic_tm_commit (b : Block) (c : Nat) (f : Tic → Tic) : (b.setTic c f).tm.commit = b.tm.commit := rfl
@[simp] theorem Block.setTic_tm_refin (b : Block) (c : Nat) (f : Tic → Tic) : (b.setTic c f).tm.refin = b.tm.refin := rfl
@[simp] theorem Block.setTic_tm_slot (b : Block) (c : Nat) (f : Tic → Tic) : (b.setTic c f).tm.slot = b.tm.slot := rfl
@[simp] theorem Block.setTic_tm_sel (b : Block) (c : Nat) (f : Tic → Tic) : (b.setTic c f).tm.sel = b.tm.sel := rfl
@[simp] theorem Block.setTic_tm_osc (b : Block) (c : Nat) (f : Tic → Tic) : (b.setTic c f).tm.osc = b.tm.osc := rfl
@[simp] theorem Block.setTic_tm_ho (b : Block) (c : Nat) (f : Tic → Tic) : (b.setTic c f).tm.ho = b.tm.ho := rfl
@[simp] theorem Block.setTic_tm_cal (b : Block) (c : Nat) (f : Tic → Tic) : (b.setTic c f).tm.cal = b.tm.cal := rfl
@[simp] theorem Block.setTic_tm_ticRing (b : Block) (c : Nat) (f : Tic → Tic) : (b.setTic c f).tm.ticRing = b.tm.ticRing := rfl
@[simp] theorem Block.setTic_tm_ticNext (b : Block) (c : Nat) (f : Tic → Tic) : (b.setTic c f).tm.ticNext = b.tm.ticNext := rfl
@[simp] theorem Block.setTic_rd (b : Block) (c : Nat) (f : Tic → Tic) (key : Nat) : (b.setTic c f).rd key = b.rd key := rfl
@[simp] theorem Block.setTic_rdN (b : Block) (c : Nat) (f : Tic → Tic) (key : Nat) : (b.setTic c f).rdN key = b.rdN key := rfl
@[simp] theorem Block.setTic_on (b : Block) (c : Nat) (f : Tic → Tic) (key : Nat) : (b.setTic c f).on key = b.on key := rfl

-- setReel

@[simp] theorem Block.setReel_tm_reel (b : Block) (p : Nat) (f : Reel → Reel) : (b.setReel p f).tm.reel = tmod {} b.tm.reel p f := rfl
@[simp] theorem Block.setReel_cyc (b : Block) (p : Nat) (f : Reel → Reel) : (b.setReel p f).cyc = b.cyc := rfl
@[simp] theorem Block.setReel_free (b : Block) (p : Nat) (f : Reel → Reel) : (b.setReel p f).free = b.free := rfl
@[simp] theorem Block.setReel_od (b : Block) (p : Nat) (f : Reel → Reel) : (b.setReel p f).od = b.od := rfl
@[simp] theorem Block.setReel_blobs (b : Block) (p : Nat) (f : Reel → Reel) : (b.setReel p f).blobs = b.blobs := rfl
@[simp] theorem Block.setReel_clk (b : Block) (p : Nat) (f : Reel → Reel) : (b.setReel p f).clk = b.clk := rfl
@[simp] theorem Block.setReel_cross (b : Block) (p : Nat) (f : Reel → Reel) : (b.setReel p f).cross = b.cross := rfl
@[simp] theorem Block.setReel_gen (b : Block) (p : Nat) (f : Reel → Reel) : (b.setReel p f).gen = b.gen := rfl
@[simp] theorem Block.setReel_sent (b : Block) (p : Nat) (f : Reel → Reel) : (b.setReel p f).sent = b.sent := rfl
@[simp] theorem Block.setReel_pokes (b : Block) (p : Nat) (f : Reel → Reel) : (b.setReel p f).pokes = b.pokes := rfl
@[simp] theorem Block.setReel_ramLost (b : Block) (p : Nat) (f : Reel → Reel) : (b.setReel p f).ramLost = b.ramLost := rfl
@[simp] theorem Block.setReel_fab (b : Block) (p : Nat) (f : Reel → Reel) : (b.setReel p f).fab = b.fab := rfl
@[simp] theorem Block.setReel_mg (b : Block) (p : Nat) (f : Reel → Reel) : (b.setReel p f).mg = b.mg := rfl
@[simp] theorem Block.setReel_ln (b : Block) (p : Nat) (f : Reel → Reel) : (b.setReel p f).ln = b.ln := rfl
@[simp] theorem Block.setReel_gn (b : Block) (p : Nat) (f : Reel → Reel) : (b.setReel p f).gn = b.gn := rfl
@[simp] theorem Block.setReel_cp (b : Block) (p : Nat) (f : Reel → Reel) : (b.setReel p f).cp = b.cp := rfl
@[simp] theorem Block.setReel_pr (b : Block) (p : Nat) (f : Reel → Reel) : (b.setReel p f).pr = b.pr := rfl
@[simp] theorem Block.setReel_pw (b : Block) (p : Nat) (f : Reel → Reel) : (b.setReel p f).pw = b.pw := rfl
@[simp] theorem Block.setReel_tm_mt (b : Block) (p : Nat) (f : Reel → Reel) : (b.setReel p f).tm.mt = b.tm.mt := rfl
@[simp] theorem Block.setReel_tm_esmc (b : Block) (p : Nat) (f : Reel → Reel) : (b.setReel p f).tm.esmc = b.tm.esmc := rfl
@[simp] theorem Block.setReel_tm_ptp (b : Block) (p : Nat) (f : Reel → Reel) : (b.setReel p f).tm.ptp = b.tm.ptp := rfl
@[simp] theorem Block.setReel_tm_pe (b : Block) (p : Nat) (f : Reel → Reel) : (b.setReel p f).tm.pe = b.tm.pe := rfl
@[simp] theorem Block.setReel_tm_out (b : Block) (p : Nat) (f : Reel → Reel) : (b.setReel p f).tm.out = b.tm.out := rfl
@[simp] theorem Block.setReel_tm_commit (b : Block) (p : Nat) (f : Reel → Reel) : (b.setReel p f).tm.commit = b.tm.commit := rfl
@[simp] theorem Block.setReel_tm_refin (b : Block) (p : Nat) (f : Reel → Reel) : (b.setReel p f).tm.refin = b.tm.refin := rfl
@[simp] theorem Block.setReel_tm_slot (b : Block) (p : Nat) (f : Reel → Reel) : (b.setReel p f).tm.slot = b.tm.slot := rfl
@[simp] theorem Block.setReel_tm_sel (b : Block) (p : Nat) (f : Reel → Reel) : (b.setReel p f).tm.sel = b.tm.sel := rfl
@[simp] theorem Block.setReel_tm_osc (b : Block) (p : Nat) (f : Reel → Reel) : (b.setReel p f).tm.osc = b.tm.osc := rfl
@[simp] theorem Block.setReel_tm_ho (b : Block) (p : Nat) (f : Reel → Reel) : (b.setReel p f).tm.ho = b.tm.ho := rfl
@[simp] theorem Block.setReel_tm_cal (b : Block) (p : Nat) (f : Reel → Reel) : (b.setReel p f).tm.cal = b.tm.cal := rfl
@[simp] theorem Block.setReel_tm_tic (b : Block) (p : Nat) (f : Reel → Reel) : (b.setReel p f).tm.tic = b.tm.tic := rfl
@[simp] theorem Block.setReel_tm_ticRing (b : Block) (p : Nat) (f : Reel → Reel) : (b.setReel p f).tm.ticRing = b.tm.ticRing := rfl
@[simp] theorem Block.setReel_tm_ticNext (b : Block) (p : Nat) (f : Reel → Reel) : (b.setReel p f).tm.ticNext = b.tm.ticNext := rfl
@[simp] theorem Block.setReel_rd (b : Block) (p : Nat) (f : Reel → Reel) (key : Nat) : (b.setReel p f).rd key = b.rd key := rfl
@[simp] theorem Block.setReel_rdN (b : Block) (p : Nat) (f : Reel → Reel) (key : Nat) : (b.setReel p f).rdN key = b.rdN key := rfl
@[simp] theorem Block.setReel_on (b : Block) (p : Nat) (f : Reel → Reel) (key : Nat) : (b.setReel p f).on key = b.on key := rfl

-- setEsmc

@[simp] theorem Block.setEsmc_tm_esmc (b : Block) (p : Nat) (f : Esmc → Esmc) : (b.setEsmc p f).tm.esmc = tmod {} b.tm.esmc p f := rfl
@[simp] theorem Block.setEsmc_cyc (b : Block) (p : Nat) (f : Esmc → Esmc) : (b.setEsmc p f).cyc = b.cyc := rfl
@[simp] theorem Block.setEsmc_free (b : Block) (p : Nat) (f : Esmc → Esmc) : (b.setEsmc p f).free = b.free := rfl
@[simp] theorem Block.setEsmc_od (b : Block) (p : Nat) (f : Esmc → Esmc) : (b.setEsmc p f).od = b.od := rfl
@[simp] theorem Block.setEsmc_blobs (b : Block) (p : Nat) (f : Esmc → Esmc) : (b.setEsmc p f).blobs = b.blobs := rfl
@[simp] theorem Block.setEsmc_clk (b : Block) (p : Nat) (f : Esmc → Esmc) : (b.setEsmc p f).clk = b.clk := rfl
@[simp] theorem Block.setEsmc_cross (b : Block) (p : Nat) (f : Esmc → Esmc) : (b.setEsmc p f).cross = b.cross := rfl
@[simp] theorem Block.setEsmc_gen (b : Block) (p : Nat) (f : Esmc → Esmc) : (b.setEsmc p f).gen = b.gen := rfl
@[simp] theorem Block.setEsmc_sent (b : Block) (p : Nat) (f : Esmc → Esmc) : (b.setEsmc p f).sent = b.sent := rfl
@[simp] theorem Block.setEsmc_pokes (b : Block) (p : Nat) (f : Esmc → Esmc) : (b.setEsmc p f).pokes = b.pokes := rfl
@[simp] theorem Block.setEsmc_ramLost (b : Block) (p : Nat) (f : Esmc → Esmc) : (b.setEsmc p f).ramLost = b.ramLost := rfl
@[simp] theorem Block.setEsmc_fab (b : Block) (p : Nat) (f : Esmc → Esmc) : (b.setEsmc p f).fab = b.fab := rfl
@[simp] theorem Block.setEsmc_mg (b : Block) (p : Nat) (f : Esmc → Esmc) : (b.setEsmc p f).mg = b.mg := rfl
@[simp] theorem Block.setEsmc_ln (b : Block) (p : Nat) (f : Esmc → Esmc) : (b.setEsmc p f).ln = b.ln := rfl
@[simp] theorem Block.setEsmc_gn (b : Block) (p : Nat) (f : Esmc → Esmc) : (b.setEsmc p f).gn = b.gn := rfl
@[simp] theorem Block.setEsmc_cp (b : Block) (p : Nat) (f : Esmc → Esmc) : (b.setEsmc p f).cp = b.cp := rfl
@[simp] theorem Block.setEsmc_pr (b : Block) (p : Nat) (f : Esmc → Esmc) : (b.setEsmc p f).pr = b.pr := rfl
@[simp] theorem Block.setEsmc_pw (b : Block) (p : Nat) (f : Esmc → Esmc) : (b.setEsmc p f).pw = b.pw := rfl
@[simp] theorem Block.setEsmc_tm_mt (b : Block) (p : Nat) (f : Esmc → Esmc) : (b.setEsmc p f).tm.mt = b.tm.mt := rfl
@[simp] theorem Block.setEsmc_tm_reel (b : Block) (p : Nat) (f : Esmc → Esmc) : (b.setEsmc p f).tm.reel = b.tm.reel := rfl
@[simp] theorem Block.setEsmc_tm_ptp (b : Block) (p : Nat) (f : Esmc → Esmc) : (b.setEsmc p f).tm.ptp = b.tm.ptp := rfl
@[simp] theorem Block.setEsmc_tm_pe (b : Block) (p : Nat) (f : Esmc → Esmc) : (b.setEsmc p f).tm.pe = b.tm.pe := rfl
@[simp] theorem Block.setEsmc_tm_out (b : Block) (p : Nat) (f : Esmc → Esmc) : (b.setEsmc p f).tm.out = b.tm.out := rfl
@[simp] theorem Block.setEsmc_tm_commit (b : Block) (p : Nat) (f : Esmc → Esmc) : (b.setEsmc p f).tm.commit = b.tm.commit := rfl
@[simp] theorem Block.setEsmc_tm_refin (b : Block) (p : Nat) (f : Esmc → Esmc) : (b.setEsmc p f).tm.refin = b.tm.refin := rfl
@[simp] theorem Block.setEsmc_tm_slot (b : Block) (p : Nat) (f : Esmc → Esmc) : (b.setEsmc p f).tm.slot = b.tm.slot := rfl
@[simp] theorem Block.setEsmc_tm_sel (b : Block) (p : Nat) (f : Esmc → Esmc) : (b.setEsmc p f).tm.sel = b.tm.sel := rfl
@[simp] theorem Block.setEsmc_tm_osc (b : Block) (p : Nat) (f : Esmc → Esmc) : (b.setEsmc p f).tm.osc = b.tm.osc := rfl
@[simp] theorem Block.setEsmc_tm_ho (b : Block) (p : Nat) (f : Esmc → Esmc) : (b.setEsmc p f).tm.ho = b.tm.ho := rfl
@[simp] theorem Block.setEsmc_tm_cal (b : Block) (p : Nat) (f : Esmc → Esmc) : (b.setEsmc p f).tm.cal = b.tm.cal := rfl
@[simp] theorem Block.setEsmc_tm_tic (b : Block) (p : Nat) (f : Esmc → Esmc) : (b.setEsmc p f).tm.tic = b.tm.tic := rfl
@[simp] theorem Block.setEsmc_tm_ticRing (b : Block) (p : Nat) (f : Esmc → Esmc) : (b.setEsmc p f).tm.ticRing = b.tm.ticRing := rfl
@[simp] theorem Block.setEsmc_tm_ticNext (b : Block) (p : Nat) (f : Esmc → Esmc) : (b.setEsmc p f).tm.ticNext = b.tm.ticNext := rfl
@[simp] theorem Block.setEsmc_rd (b : Block) (p : Nat) (f : Esmc → Esmc) (key : Nat) : (b.setEsmc p f).rd key = b.rd key := rfl
@[simp] theorem Block.setEsmc_rdN (b : Block) (p : Nat) (f : Esmc → Esmc) (key : Nat) : (b.setEsmc p f).rdN key = b.rdN key := rfl
@[simp] theorem Block.setEsmc_on (b : Block) (p : Nat) (f : Esmc → Esmc) (key : Nat) : (b.setEsmc p f).on key = b.on key := rfl

-- setPtp

@[simp] theorem Block.setPtp_tm_ptp (b : Block) (p : Nat) (f : PtpPort → PtpPort) : (b.setPtp p f).tm.ptp = tmod {} b.tm.ptp p f := rfl
@[simp] theorem Block.setPtp_cyc (b : Block) (p : Nat) (f : PtpPort → PtpPort) : (b.setPtp p f).cyc = b.cyc := rfl
@[simp] theorem Block.setPtp_free (b : Block) (p : Nat) (f : PtpPort → PtpPort) : (b.setPtp p f).free = b.free := rfl
@[simp] theorem Block.setPtp_od (b : Block) (p : Nat) (f : PtpPort → PtpPort) : (b.setPtp p f).od = b.od := rfl
@[simp] theorem Block.setPtp_blobs (b : Block) (p : Nat) (f : PtpPort → PtpPort) : (b.setPtp p f).blobs = b.blobs := rfl
@[simp] theorem Block.setPtp_clk (b : Block) (p : Nat) (f : PtpPort → PtpPort) : (b.setPtp p f).clk = b.clk := rfl
@[simp] theorem Block.setPtp_cross (b : Block) (p : Nat) (f : PtpPort → PtpPort) : (b.setPtp p f).cross = b.cross := rfl
@[simp] theorem Block.setPtp_gen (b : Block) (p : Nat) (f : PtpPort → PtpPort) : (b.setPtp p f).gen = b.gen := rfl
@[simp] theorem Block.setPtp_sent (b : Block) (p : Nat) (f : PtpPort → PtpPort) : (b.setPtp p f).sent = b.sent := rfl
@[simp] theorem Block.setPtp_pokes (b : Block) (p : Nat) (f : PtpPort → PtpPort) : (b.setPtp p f).pokes = b.pokes := rfl
@[simp] theorem Block.setPtp_ramLost (b : Block) (p : Nat) (f : PtpPort → PtpPort) : (b.setPtp p f).ramLost = b.ramLost := rfl
@[simp] theorem Block.setPtp_fab (b : Block) (p : Nat) (f : PtpPort → PtpPort) : (b.setPtp p f).fab = b.fab := rfl
@[simp] theorem Block.setPtp_mg (b : Block) (p : Nat) (f : PtpPort → PtpPort) : (b.setPtp p f).mg = b.mg := rfl
@[simp] theorem Block.setPtp_ln (b : Block) (p : Nat) (f : PtpPort → PtpPort) : (b.setPtp p f).ln = b.ln := rfl
@[simp] theorem Block.setPtp_gn (b : Block) (p : Nat) (f : PtpPort → PtpPort) : (b.setPtp p f).gn = b.gn := rfl
@[simp] theorem Block.setPtp_cp (b : Block) (p : Nat) (f : PtpPort → PtpPort) : (b.setPtp p f).cp = b.cp := rfl
@[simp] theorem Block.setPtp_pr (b : Block) (p : Nat) (f : PtpPort → PtpPort) : (b.setPtp p f).pr = b.pr := rfl
@[simp] theorem Block.setPtp_pw (b : Block) (p : Nat) (f : PtpPort → PtpPort) : (b.setPtp p f).pw = b.pw := rfl
@[simp] theorem Block.setPtp_tm_mt (b : Block) (p : Nat) (f : PtpPort → PtpPort) : (b.setPtp p f).tm.mt = b.tm.mt := rfl
@[simp] theorem Block.setPtp_tm_reel (b : Block) (p : Nat) (f : PtpPort → PtpPort) : (b.setPtp p f).tm.reel = b.tm.reel := rfl
@[simp] theorem Block.setPtp_tm_esmc (b : Block) (p : Nat) (f : PtpPort → PtpPort) : (b.setPtp p f).tm.esmc = b.tm.esmc := rfl
@[simp] theorem Block.setPtp_tm_pe (b : Block) (p : Nat) (f : PtpPort → PtpPort) : (b.setPtp p f).tm.pe = b.tm.pe := rfl
@[simp] theorem Block.setPtp_tm_out (b : Block) (p : Nat) (f : PtpPort → PtpPort) : (b.setPtp p f).tm.out = b.tm.out := rfl
@[simp] theorem Block.setPtp_tm_commit (b : Block) (p : Nat) (f : PtpPort → PtpPort) : (b.setPtp p f).tm.commit = b.tm.commit := rfl
@[simp] theorem Block.setPtp_tm_refin (b : Block) (p : Nat) (f : PtpPort → PtpPort) : (b.setPtp p f).tm.refin = b.tm.refin := rfl
@[simp] theorem Block.setPtp_tm_slot (b : Block) (p : Nat) (f : PtpPort → PtpPort) : (b.setPtp p f).tm.slot = b.tm.slot := rfl
@[simp] theorem Block.setPtp_tm_sel (b : Block) (p : Nat) (f : PtpPort → PtpPort) : (b.setPtp p f).tm.sel = b.tm.sel := rfl
@[simp] theorem Block.setPtp_tm_osc (b : Block) (p : Nat) (f : PtpPort → PtpPort) : (b.setPtp p f).tm.osc = b.tm.osc := rfl
@[simp] theorem Block.setPtp_tm_ho (b : Block) (p : Nat) (f : PtpPort → PtpPort) : (b.setPtp p f).tm.ho = b.tm.ho := rfl
@[simp] theorem Block.setPtp_tm_cal (b : Block) (p : Nat) (f : PtpPort → PtpPort) : (b.setPtp p f).tm.cal = b.tm.cal := rfl
@[simp] theorem Block.setPtp_tm_tic (b : Block) (p : Nat) (f : PtpPort → PtpPort) : (b.setPtp p f).tm.tic = b.tm.tic := rfl
@[simp] theorem Block.setPtp_tm_ticRing (b : Block) (p : Nat) (f : PtpPort → PtpPort) : (b.setPtp p f).tm.ticRing = b.tm.ticRing := rfl
@[simp] theorem Block.setPtp_tm_ticNext (b : Block) (p : Nat) (f : PtpPort → PtpPort) : (b.setPtp p f).tm.ticNext = b.tm.ticNext := rfl
@[simp] theorem Block.setPtp_rd (b : Block) (p : Nat) (f : PtpPort → PtpPort) (key : Nat) : (b.setPtp p f).rd key = b.rd key := rfl
@[simp] theorem Block.setPtp_rdN (b : Block) (p : Nat) (f : PtpPort → PtpPort) (key : Nat) : (b.setPtp p f).rdN key = b.rdN key := rfl
@[simp] theorem Block.setPtp_on (b : Block) (p : Nat) (f : PtpPort → PtpPort) (key : Nat) : (b.setPtp p f).on key = b.on key := rfl

-- setFab

@[simp] theorem Block.setFab_fab (b : Block) (f : Fabric → Fabric) : (b.setFab f).fab = f b.fab := rfl
@[simp] theorem Block.setFab_cyc (b : Block) (f : Fabric → Fabric) : (b.setFab f).cyc = b.cyc := rfl
@[simp] theorem Block.setFab_free (b : Block) (f : Fabric → Fabric) : (b.setFab f).free = b.free := rfl
@[simp] theorem Block.setFab_od (b : Block) (f : Fabric → Fabric) : (b.setFab f).od = b.od := rfl
@[simp] theorem Block.setFab_blobs (b : Block) (f : Fabric → Fabric) : (b.setFab f).blobs = b.blobs := rfl
@[simp] theorem Block.setFab_clk (b : Block) (f : Fabric → Fabric) : (b.setFab f).clk = b.clk := rfl
@[simp] theorem Block.setFab_cross (b : Block) (f : Fabric → Fabric) : (b.setFab f).cross = b.cross := rfl
@[simp] theorem Block.setFab_gen (b : Block) (f : Fabric → Fabric) : (b.setFab f).gen = b.gen := rfl
@[simp] theorem Block.setFab_sent (b : Block) (f : Fabric → Fabric) : (b.setFab f).sent = b.sent := rfl
@[simp] theorem Block.setFab_pokes (b : Block) (f : Fabric → Fabric) : (b.setFab f).pokes = b.pokes := rfl
@[simp] theorem Block.setFab_ramLost (b : Block) (f : Fabric → Fabric) : (b.setFab f).ramLost = b.ramLost := rfl
@[simp] theorem Block.setFab_tm (b : Block) (f : Fabric → Fabric) : (b.setFab f).tm = b.tm := rfl
@[simp] theorem Block.setFab_mg (b : Block) (f : Fabric → Fabric) : (b.setFab f).mg = b.mg := rfl
@[simp] theorem Block.setFab_ln (b : Block) (f : Fabric → Fabric) : (b.setFab f).ln = b.ln := rfl
@[simp] theorem Block.setFab_gn (b : Block) (f : Fabric → Fabric) : (b.setFab f).gn = b.gn := rfl
@[simp] theorem Block.setFab_cp (b : Block) (f : Fabric → Fabric) : (b.setFab f).cp = b.cp := rfl
@[simp] theorem Block.setFab_pr (b : Block) (f : Fabric → Fabric) : (b.setFab f).pr = b.pr := rfl
@[simp] theorem Block.setFab_pw (b : Block) (f : Fabric → Fabric) : (b.setFab f).pw = b.pw := rfl
@[simp] theorem Block.setFab_rd (b : Block) (f : Fabric → Fabric) (key : Nat) : (b.setFab f).rd key = b.rd key := rfl
@[simp] theorem Block.setFab_rdN (b : Block) (f : Fabric → Fabric) (key : Nat) : (b.setFab f).rdN key = b.rdN key := rfl
@[simp] theorem Block.setFab_on (b : Block) (f : Fabric → Fabric) (key : Nat) : (b.setFab f).on key = b.on key := rfl

-- setPf

@[simp] theorem Block.setPf_fab_port (b : Block) (p : Nat) (f : PortFab → PortFab) : (b.setPf p f).fab.port = tmod {} b.fab.port p f := rfl
@[simp] theorem Block.setPf_cyc (b : Block) (p : Nat) (f : PortFab → PortFab) : (b.setPf p f).cyc = b.cyc := rfl
@[simp] theorem Block.setPf_free (b : Block) (p : Nat) (f : PortFab → PortFab) : (b.setPf p f).free = b.free := rfl
@[simp] theorem Block.setPf_od (b : Block) (p : Nat) (f : PortFab → PortFab) : (b.setPf p f).od = b.od := rfl
@[simp] theorem Block.setPf_blobs (b : Block) (p : Nat) (f : PortFab → PortFab) : (b.setPf p f).blobs = b.blobs := rfl
@[simp] theorem Block.setPf_clk (b : Block) (p : Nat) (f : PortFab → PortFab) : (b.setPf p f).clk = b.clk := rfl
@[simp] theorem Block.setPf_cross (b : Block) (p : Nat) (f : PortFab → PortFab) : (b.setPf p f).cross = b.cross := rfl
@[simp] theorem Block.setPf_gen (b : Block) (p : Nat) (f : PortFab → PortFab) : (b.setPf p f).gen = b.gen := rfl
@[simp] theorem Block.setPf_sent (b : Block) (p : Nat) (f : PortFab → PortFab) : (b.setPf p f).sent = b.sent := rfl
@[simp] theorem Block.setPf_pokes (b : Block) (p : Nat) (f : PortFab → PortFab) : (b.setPf p f).pokes = b.pokes := rfl
@[simp] theorem Block.setPf_ramLost (b : Block) (p : Nat) (f : PortFab → PortFab) : (b.setPf p f).ramLost = b.ramLost := rfl
@[simp] theorem Block.setPf_tm (b : Block) (p : Nat) (f : PortFab → PortFab) : (b.setPf p f).tm = b.tm := rfl
@[simp] theorem Block.setPf_mg (b : Block) (p : Nat) (f : PortFab → PortFab) : (b.setPf p f).mg = b.mg := rfl
@[simp] theorem Block.setPf_ln (b : Block) (p : Nat) (f : PortFab → PortFab) : (b.setPf p f).ln = b.ln := rfl
@[simp] theorem Block.setPf_gn (b : Block) (p : Nat) (f : PortFab → PortFab) : (b.setPf p f).gn = b.gn := rfl
@[simp] theorem Block.setPf_cp (b : Block) (p : Nat) (f : PortFab → PortFab) : (b.setPf p f).cp = b.cp := rfl
@[simp] theorem Block.setPf_pr (b : Block) (p : Nat) (f : PortFab → PortFab) : (b.setPf p f).pr = b.pr := rfl
@[simp] theorem Block.setPf_pw (b : Block) (p : Nat) (f : PortFab → PortFab) : (b.setPf p f).pw = b.pw := rfl
@[simp] theorem Block.setPf_rd (b : Block) (p : Nat) (f : PortFab → PortFab) (key : Nat) : (b.setPf p f).rd key = b.rd key := rfl
@[simp] theorem Block.setPf_rdN (b : Block) (p : Nat) (f : PortFab → PortFab) (key : Nat) : (b.setPf p f).rdN key = b.rdN key := rfl
@[simp] theorem Block.setPf_on (b : Block) (p : Nat) (f : PortFab → PortFab) (key : Nat) : (b.setPf p f).on key = b.on key := rfl

-- setQueue

@[simp] theorem Block.setQueue_fab_queue (b : Block) (q : Nat) (f : Queue → Queue) : (b.setQueue q f).fab.queue = tmod {} b.fab.queue q f := rfl
@[simp] theorem Block.setQueue_cyc (b : Block) (q : Nat) (f : Queue → Queue) : (b.setQueue q f).cyc = b.cyc := rfl
@[simp] theorem Block.setQueue_free (b : Block) (q : Nat) (f : Queue → Queue) : (b.setQueue q f).free = b.free := rfl
@[simp] theorem Block.setQueue_od (b : Block) (q : Nat) (f : Queue → Queue) : (b.setQueue q f).od = b.od := rfl
@[simp] theorem Block.setQueue_blobs (b : Block) (q : Nat) (f : Queue → Queue) : (b.setQueue q f).blobs = b.blobs := rfl
@[simp] theorem Block.setQueue_clk (b : Block) (q : Nat) (f : Queue → Queue) : (b.setQueue q f).clk = b.clk := rfl
@[simp] theorem Block.setQueue_cross (b : Block) (q : Nat) (f : Queue → Queue) : (b.setQueue q f).cross = b.cross := rfl
@[simp] theorem Block.setQueue_gen (b : Block) (q : Nat) (f : Queue → Queue) : (b.setQueue q f).gen = b.gen := rfl
@[simp] theorem Block.setQueue_sent (b : Block) (q : Nat) (f : Queue → Queue) : (b.setQueue q f).sent = b.sent := rfl
@[simp] theorem Block.setQueue_pokes (b : Block) (q : Nat) (f : Queue → Queue) : (b.setQueue q f).pokes = b.pokes := rfl
@[simp] theorem Block.setQueue_ramLost (b : Block) (q : Nat) (f : Queue → Queue) : (b.setQueue q f).ramLost = b.ramLost := rfl
@[simp] theorem Block.setQueue_tm (b : Block) (q : Nat) (f : Queue → Queue) : (b.setQueue q f).tm = b.tm := rfl
@[simp] theorem Block.setQueue_mg (b : Block) (q : Nat) (f : Queue → Queue) : (b.setQueue q f).mg = b.mg := rfl
@[simp] theorem Block.setQueue_ln (b : Block) (q : Nat) (f : Queue → Queue) : (b.setQueue q f).ln = b.ln := rfl
@[simp] theorem Block.setQueue_gn (b : Block) (q : Nat) (f : Queue → Queue) : (b.setQueue q f).gn = b.gn := rfl
@[simp] theorem Block.setQueue_cp (b : Block) (q : Nat) (f : Queue → Queue) : (b.setQueue q f).cp = b.cp := rfl
@[simp] theorem Block.setQueue_pr (b : Block) (q : Nat) (f : Queue → Queue) : (b.setQueue q f).pr = b.pr := rfl
@[simp] theorem Block.setQueue_pw (b : Block) (q : Nat) (f : Queue → Queue) : (b.setQueue q f).pw = b.pw := rfl
@[simp] theorem Block.setQueue_rd (b : Block) (q : Nat) (f : Queue → Queue) (key : Nat) : (b.setQueue q f).rd key = b.rd key := rfl
@[simp] theorem Block.setQueue_rdN (b : Block) (q : Nat) (f : Queue → Queue) (key : Nat) : (b.setQueue q f).rdN key = b.rdN key := rfl
@[simp] theorem Block.setQueue_on (b : Block) (q : Nat) (f : Queue → Queue) (key : Nat) : (b.setQueue q f).on key = b.on key := rfl

-- setLag

@[simp] theorem Block.setLag_fab_lag (b : Block) (g : Nat) (f : Lag → Lag) : (b.setLag g f).fab.lag = tmod {} b.fab.lag g f := rfl
@[simp] theorem Block.setLag_cyc (b : Block) (g : Nat) (f : Lag → Lag) : (b.setLag g f).cyc = b.cyc := rfl
@[simp] theorem Block.setLag_free (b : Block) (g : Nat) (f : Lag → Lag) : (b.setLag g f).free = b.free := rfl
@[simp] theorem Block.setLag_od (b : Block) (g : Nat) (f : Lag → Lag) : (b.setLag g f).od = b.od := rfl
@[simp] theorem Block.setLag_blobs (b : Block) (g : Nat) (f : Lag → Lag) : (b.setLag g f).blobs = b.blobs := rfl
@[simp] theorem Block.setLag_clk (b : Block) (g : Nat) (f : Lag → Lag) : (b.setLag g f).clk = b.clk := rfl
@[simp] theorem Block.setLag_cross (b : Block) (g : Nat) (f : Lag → Lag) : (b.setLag g f).cross = b.cross := rfl
@[simp] theorem Block.setLag_gen (b : Block) (g : Nat) (f : Lag → Lag) : (b.setLag g f).gen = b.gen := rfl
@[simp] theorem Block.setLag_sent (b : Block) (g : Nat) (f : Lag → Lag) : (b.setLag g f).sent = b.sent := rfl
@[simp] theorem Block.setLag_pokes (b : Block) (g : Nat) (f : Lag → Lag) : (b.setLag g f).pokes = b.pokes := rfl
@[simp] theorem Block.setLag_ramLost (b : Block) (g : Nat) (f : Lag → Lag) : (b.setLag g f).ramLost = b.ramLost := rfl
@[simp] theorem Block.setLag_tm (b : Block) (g : Nat) (f : Lag → Lag) : (b.setLag g f).tm = b.tm := rfl
@[simp] theorem Block.setLag_mg (b : Block) (g : Nat) (f : Lag → Lag) : (b.setLag g f).mg = b.mg := rfl
@[simp] theorem Block.setLag_ln (b : Block) (g : Nat) (f : Lag → Lag) : (b.setLag g f).ln = b.ln := rfl
@[simp] theorem Block.setLag_gn (b : Block) (g : Nat) (f : Lag → Lag) : (b.setLag g f).gn = b.gn := rfl
@[simp] theorem Block.setLag_cp (b : Block) (g : Nat) (f : Lag → Lag) : (b.setLag g f).cp = b.cp := rfl
@[simp] theorem Block.setLag_pr (b : Block) (g : Nat) (f : Lag → Lag) : (b.setLag g f).pr = b.pr := rfl
@[simp] theorem Block.setLag_pw (b : Block) (g : Nat) (f : Lag → Lag) : (b.setLag g f).pw = b.pw := rfl
@[simp] theorem Block.setLag_rd (b : Block) (g : Nat) (f : Lag → Lag) (key : Nat) : (b.setLag g f).rd key = b.rd key := rfl
@[simp] theorem Block.setLag_rdN (b : Block) (g : Nat) (f : Lag → Lag) (key : Nat) : (b.setLag g f).rdN key = b.rdN key := rfl
@[simp] theorem Block.setLag_on (b : Block) (g : Nat) (f : Lag → Lag) (key : Nat) : (b.setLag g f).on key = b.on key := rfl

-- setSrv

@[simp] theorem Block.setSrv_mg_srv (b : Block) (f : Server → Server) : (b.setSrv f).mg.srv = f b.mg.srv := rfl
@[simp] theorem Block.setSrv_cyc (b : Block) (f : Server → Server) : (b.setSrv f).cyc = b.cyc := rfl
@[simp] theorem Block.setSrv_free (b : Block) (f : Server → Server) : (b.setSrv f).free = b.free := rfl
@[simp] theorem Block.setSrv_od (b : Block) (f : Server → Server) : (b.setSrv f).od = b.od := rfl
@[simp] theorem Block.setSrv_blobs (b : Block) (f : Server → Server) : (b.setSrv f).blobs = b.blobs := rfl
@[simp] theorem Block.setSrv_clk (b : Block) (f : Server → Server) : (b.setSrv f).clk = b.clk := rfl
@[simp] theorem Block.setSrv_cross (b : Block) (f : Server → Server) : (b.setSrv f).cross = b.cross := rfl
@[simp] theorem Block.setSrv_gen (b : Block) (f : Server → Server) : (b.setSrv f).gen = b.gen := rfl
@[simp] theorem Block.setSrv_sent (b : Block) (f : Server → Server) : (b.setSrv f).sent = b.sent := rfl
@[simp] theorem Block.setSrv_pokes (b : Block) (f : Server → Server) : (b.setSrv f).pokes = b.pokes := rfl
@[simp] theorem Block.setSrv_ramLost (b : Block) (f : Server → Server) : (b.setSrv f).ramLost = b.ramLost := rfl
@[simp] theorem Block.setSrv_tm (b : Block) (f : Server → Server) : (b.setSrv f).tm = b.tm := rfl
@[simp] theorem Block.setSrv_fab (b : Block) (f : Server → Server) : (b.setSrv f).fab = b.fab := rfl
@[simp] theorem Block.setSrv_ln (b : Block) (f : Server → Server) : (b.setSrv f).ln = b.ln := rfl
@[simp] theorem Block.setSrv_gn (b : Block) (f : Server → Server) : (b.setSrv f).gn = b.gn := rfl
@[simp] theorem Block.setSrv_cp (b : Block) (f : Server → Server) : (b.setSrv f).cp = b.cp := rfl
@[simp] theorem Block.setSrv_pr (b : Block) (f : Server → Server) : (b.setSrv f).pr = b.pr := rfl
@[simp] theorem Block.setSrv_pw (b : Block) (f : Server → Server) : (b.setSrv f).pw = b.pw := rfl
@[simp] theorem Block.setSrv_mg_ev (b : Block) (f : Server → Server) : (b.setSrv f).mg.ev = b.mg.ev := rfl
@[simp] theorem Block.setSrv_mg_from_ (b : Block) (f : Server → Server) : (b.setSrv f).mg.from_ = b.mg.from_ := rfl
@[simp] theorem Block.setSrv_mg_lim (b : Block) (f : Server → Server) : (b.setSrv f).mg.lim = b.mg.lim := rfl
@[simp] theorem Block.setSrv_mg_fn (b : Block) (f : Server → Server) : (b.setSrv f).mg.fn = b.mg.fn := rfl
@[simp] theorem Block.setSrv_mg_job (b : Block) (f : Server → Server) : (b.setSrv f).mg.job = b.mg.job := rfl
@[simp] theorem Block.setSrv_mg_nextJob (b : Block) (f : Server → Server) : (b.setSrv f).mg.nextJob = b.mg.nextJob := rfl
@[simp] theorem Block.setSrv_mg_cnt (b : Block) (f : Server → Server) : (b.setSrv f).mg.cnt = b.mg.cnt := rfl
@[simp] theorem Block.setSrv_mg_safe (b : Block) (f : Server → Server) : (b.setSrv f).mg.safe = b.mg.safe := rfl
@[simp] theorem Block.setSrv_mg_boot (b : Block) (f : Server → Server) : (b.setSrv f).mg.boot = b.mg.boot := rfl
@[simp] theorem Block.setSrv_mg_cfg (b : Block) (f : Server → Server) : (b.setSrv f).mg.cfg = b.mg.cfg := rfl
@[simp] theorem Block.setSrv_rd (b : Block) (f : Server → Server) (key : Nat) : (b.setSrv f).rd key = b.rd key := rfl
@[simp] theorem Block.setSrv_rdN (b : Block) (f : Server → Server) (key : Nat) : (b.setSrv f).rdN key = b.rdN key := rfl
@[simp] theorem Block.setSrv_on (b : Block) (f : Server → Server) (key : Nat) : (b.setSrv f).on key = b.on key := rfl

-- setJob

@[simp] theorem Block.setJob_mg_job (b : Block) (j : Nat) (f : Job → Job) : (b.setJob j f).mg.job = tmod {} b.mg.job j f := rfl
@[simp] theorem Block.setJob_cyc (b : Block) (j : Nat) (f : Job → Job) : (b.setJob j f).cyc = b.cyc := rfl
@[simp] theorem Block.setJob_free (b : Block) (j : Nat) (f : Job → Job) : (b.setJob j f).free = b.free := rfl
@[simp] theorem Block.setJob_od (b : Block) (j : Nat) (f : Job → Job) : (b.setJob j f).od = b.od := rfl
@[simp] theorem Block.setJob_blobs (b : Block) (j : Nat) (f : Job → Job) : (b.setJob j f).blobs = b.blobs := rfl
@[simp] theorem Block.setJob_clk (b : Block) (j : Nat) (f : Job → Job) : (b.setJob j f).clk = b.clk := rfl
@[simp] theorem Block.setJob_cross (b : Block) (j : Nat) (f : Job → Job) : (b.setJob j f).cross = b.cross := rfl
@[simp] theorem Block.setJob_gen (b : Block) (j : Nat) (f : Job → Job) : (b.setJob j f).gen = b.gen := rfl
@[simp] theorem Block.setJob_sent (b : Block) (j : Nat) (f : Job → Job) : (b.setJob j f).sent = b.sent := rfl
@[simp] theorem Block.setJob_pokes (b : Block) (j : Nat) (f : Job → Job) : (b.setJob j f).pokes = b.pokes := rfl
@[simp] theorem Block.setJob_ramLost (b : Block) (j : Nat) (f : Job → Job) : (b.setJob j f).ramLost = b.ramLost := rfl
@[simp] theorem Block.setJob_tm (b : Block) (j : Nat) (f : Job → Job) : (b.setJob j f).tm = b.tm := rfl
@[simp] theorem Block.setJob_fab (b : Block) (j : Nat) (f : Job → Job) : (b.setJob j f).fab = b.fab := rfl
@[simp] theorem Block.setJob_ln (b : Block) (j : Nat) (f : Job → Job) : (b.setJob j f).ln = b.ln := rfl
@[simp] theorem Block.setJob_gn (b : Block) (j : Nat) (f : Job → Job) : (b.setJob j f).gn = b.gn := rfl
@[simp] theorem Block.setJob_cp (b : Block) (j : Nat) (f : Job → Job) : (b.setJob j f).cp = b.cp := rfl
@[simp] theorem Block.setJob_pr (b : Block) (j : Nat) (f : Job → Job) : (b.setJob j f).pr = b.pr := rfl
@[simp] theorem Block.setJob_pw (b : Block) (j : Nat) (f : Job → Job) : (b.setJob j f).pw = b.pw := rfl
@[simp] theorem Block.setJob_mg_ev (b : Block) (j : Nat) (f : Job → Job) : (b.setJob j f).mg.ev = b.mg.ev := rfl
@[simp] theorem Block.setJob_mg_from_ (b : Block) (j : Nat) (f : Job → Job) : (b.setJob j f).mg.from_ = b.mg.from_ := rfl
@[simp] theorem Block.setJob_mg_lim (b : Block) (j : Nat) (f : Job → Job) : (b.setJob j f).mg.lim = b.mg.lim := rfl
@[simp] theorem Block.setJob_mg_srv (b : Block) (j : Nat) (f : Job → Job) : (b.setJob j f).mg.srv = b.mg.srv := rfl
@[simp] theorem Block.setJob_mg_fn (b : Block) (j : Nat) (f : Job → Job) : (b.setJob j f).mg.fn = b.mg.fn := rfl
@[simp] theorem Block.setJob_mg_nextJob (b : Block) (j : Nat) (f : Job → Job) : (b.setJob j f).mg.nextJob = b.mg.nextJob := rfl
@[simp] theorem Block.setJob_mg_cnt (b : Block) (j : Nat) (f : Job → Job) : (b.setJob j f).mg.cnt = b.mg.cnt := rfl
@[simp] theorem Block.setJob_mg_safe (b : Block) (j : Nat) (f : Job → Job) : (b.setJob j f).mg.safe = b.mg.safe := rfl
@[simp] theorem Block.setJob_mg_boot (b : Block) (j : Nat) (f : Job → Job) : (b.setJob j f).mg.boot = b.mg.boot := rfl
@[simp] theorem Block.setJob_mg_cfg (b : Block) (j : Nat) (f : Job → Job) : (b.setJob j f).mg.cfg = b.mg.cfg := rfl
@[simp] theorem Block.setJob_rd (b : Block) (j : Nat) (f : Job → Job) (key : Nat) : (b.setJob j f).rd key = b.rd key := rfl
@[simp] theorem Block.setJob_rdN (b : Block) (j : Nat) (f : Job → Job) (key : Nat) : (b.setJob j f).rdN key = b.rdN key := rfl
@[simp] theorem Block.setJob_on (b : Block) (j : Nat) (f : Job → Job) (key : Nat) : (b.setJob j f).on key = b.on key := rfl

-- setFnSt

@[simp] theorem Block.setFnSt_mg_fn (b : Block) (i : Nat) (f : FnSt → FnSt) : (b.setFnSt i f).mg.fn = tmod {} b.mg.fn i f := rfl
@[simp] theorem Block.setFnSt_cyc (b : Block) (i : Nat) (f : FnSt → FnSt) : (b.setFnSt i f).cyc = b.cyc := rfl
@[simp] theorem Block.setFnSt_free (b : Block) (i : Nat) (f : FnSt → FnSt) : (b.setFnSt i f).free = b.free := rfl
@[simp] theorem Block.setFnSt_od (b : Block) (i : Nat) (f : FnSt → FnSt) : (b.setFnSt i f).od = b.od := rfl
@[simp] theorem Block.setFnSt_blobs (b : Block) (i : Nat) (f : FnSt → FnSt) : (b.setFnSt i f).blobs = b.blobs := rfl
@[simp] theorem Block.setFnSt_clk (b : Block) (i : Nat) (f : FnSt → FnSt) : (b.setFnSt i f).clk = b.clk := rfl
@[simp] theorem Block.setFnSt_cross (b : Block) (i : Nat) (f : FnSt → FnSt) : (b.setFnSt i f).cross = b.cross := rfl
@[simp] theorem Block.setFnSt_gen (b : Block) (i : Nat) (f : FnSt → FnSt) : (b.setFnSt i f).gen = b.gen := rfl
@[simp] theorem Block.setFnSt_sent (b : Block) (i : Nat) (f : FnSt → FnSt) : (b.setFnSt i f).sent = b.sent := rfl
@[simp] theorem Block.setFnSt_pokes (b : Block) (i : Nat) (f : FnSt → FnSt) : (b.setFnSt i f).pokes = b.pokes := rfl
@[simp] theorem Block.setFnSt_ramLost (b : Block) (i : Nat) (f : FnSt → FnSt) : (b.setFnSt i f).ramLost = b.ramLost := rfl
@[simp] theorem Block.setFnSt_tm (b : Block) (i : Nat) (f : FnSt → FnSt) : (b.setFnSt i f).tm = b.tm := rfl
@[simp] theorem Block.setFnSt_fab (b : Block) (i : Nat) (f : FnSt → FnSt) : (b.setFnSt i f).fab = b.fab := rfl
@[simp] theorem Block.setFnSt_ln (b : Block) (i : Nat) (f : FnSt → FnSt) : (b.setFnSt i f).ln = b.ln := rfl
@[simp] theorem Block.setFnSt_gn (b : Block) (i : Nat) (f : FnSt → FnSt) : (b.setFnSt i f).gn = b.gn := rfl
@[simp] theorem Block.setFnSt_cp (b : Block) (i : Nat) (f : FnSt → FnSt) : (b.setFnSt i f).cp = b.cp := rfl
@[simp] theorem Block.setFnSt_pr (b : Block) (i : Nat) (f : FnSt → FnSt) : (b.setFnSt i f).pr = b.pr := rfl
@[simp] theorem Block.setFnSt_pw (b : Block) (i : Nat) (f : FnSt → FnSt) : (b.setFnSt i f).pw = b.pw := rfl
@[simp] theorem Block.setFnSt_mg_ev (b : Block) (i : Nat) (f : FnSt → FnSt) : (b.setFnSt i f).mg.ev = b.mg.ev := rfl
@[simp] theorem Block.setFnSt_mg_from_ (b : Block) (i : Nat) (f : FnSt → FnSt) : (b.setFnSt i f).mg.from_ = b.mg.from_ := rfl
@[simp] theorem Block.setFnSt_mg_lim (b : Block) (i : Nat) (f : FnSt → FnSt) : (b.setFnSt i f).mg.lim = b.mg.lim := rfl
@[simp] theorem Block.setFnSt_mg_srv (b : Block) (i : Nat) (f : FnSt → FnSt) : (b.setFnSt i f).mg.srv = b.mg.srv := rfl
@[simp] theorem Block.setFnSt_mg_job (b : Block) (i : Nat) (f : FnSt → FnSt) : (b.setFnSt i f).mg.job = b.mg.job := rfl
@[simp] theorem Block.setFnSt_mg_nextJob (b : Block) (i : Nat) (f : FnSt → FnSt) : (b.setFnSt i f).mg.nextJob = b.mg.nextJob := rfl
@[simp] theorem Block.setFnSt_mg_cnt (b : Block) (i : Nat) (f : FnSt → FnSt) : (b.setFnSt i f).mg.cnt = b.mg.cnt := rfl
@[simp] theorem Block.setFnSt_mg_safe (b : Block) (i : Nat) (f : FnSt → FnSt) : (b.setFnSt i f).mg.safe = b.mg.safe := rfl
@[simp] theorem Block.setFnSt_mg_boot (b : Block) (i : Nat) (f : FnSt → FnSt) : (b.setFnSt i f).mg.boot = b.mg.boot := rfl
@[simp] theorem Block.setFnSt_mg_cfg (b : Block) (i : Nat) (f : FnSt → FnSt) : (b.setFnSt i f).mg.cfg = b.mg.cfg := rfl
@[simp] theorem Block.setFnSt_rd (b : Block) (i : Nat) (f : FnSt → FnSt) (key : Nat) : (b.setFnSt i f).rd key = b.rd key := rfl
@[simp] theorem Block.setFnSt_rdN (b : Block) (i : Nat) (f : FnSt → FnSt) (key : Nat) : (b.setFnSt i f).rdN key = b.rdN key := rfl
@[simp] theorem Block.setFnSt_on (b : Block) (i : Nat) (f : FnSt → FnSt) (key : Nat) : (b.setFnSt i f).on key = b.on key := rfl

-- setSafe

@[simp] theorem Block.setSafe_mg_safe (b : Block) (f : SafeSt → SafeSt) : (b.setSafe f).mg.safe = f b.mg.safe := rfl
@[simp] theorem Block.setSafe_cyc (b : Block) (f : SafeSt → SafeSt) : (b.setSafe f).cyc = b.cyc := rfl
@[simp] theorem Block.setSafe_free (b : Block) (f : SafeSt → SafeSt) : (b.setSafe f).free = b.free := rfl
@[simp] theorem Block.setSafe_od (b : Block) (f : SafeSt → SafeSt) : (b.setSafe f).od = b.od := rfl
@[simp] theorem Block.setSafe_blobs (b : Block) (f : SafeSt → SafeSt) : (b.setSafe f).blobs = b.blobs := rfl
@[simp] theorem Block.setSafe_clk (b : Block) (f : SafeSt → SafeSt) : (b.setSafe f).clk = b.clk := rfl
@[simp] theorem Block.setSafe_cross (b : Block) (f : SafeSt → SafeSt) : (b.setSafe f).cross = b.cross := rfl
@[simp] theorem Block.setSafe_gen (b : Block) (f : SafeSt → SafeSt) : (b.setSafe f).gen = b.gen := rfl
@[simp] theorem Block.setSafe_sent (b : Block) (f : SafeSt → SafeSt) : (b.setSafe f).sent = b.sent := rfl
@[simp] theorem Block.setSafe_pokes (b : Block) (f : SafeSt → SafeSt) : (b.setSafe f).pokes = b.pokes := rfl
@[simp] theorem Block.setSafe_ramLost (b : Block) (f : SafeSt → SafeSt) : (b.setSafe f).ramLost = b.ramLost := rfl
@[simp] theorem Block.setSafe_tm (b : Block) (f : SafeSt → SafeSt) : (b.setSafe f).tm = b.tm := rfl
@[simp] theorem Block.setSafe_fab (b : Block) (f : SafeSt → SafeSt) : (b.setSafe f).fab = b.fab := rfl
@[simp] theorem Block.setSafe_ln (b : Block) (f : SafeSt → SafeSt) : (b.setSafe f).ln = b.ln := rfl
@[simp] theorem Block.setSafe_gn (b : Block) (f : SafeSt → SafeSt) : (b.setSafe f).gn = b.gn := rfl
@[simp] theorem Block.setSafe_cp (b : Block) (f : SafeSt → SafeSt) : (b.setSafe f).cp = b.cp := rfl
@[simp] theorem Block.setSafe_pr (b : Block) (f : SafeSt → SafeSt) : (b.setSafe f).pr = b.pr := rfl
@[simp] theorem Block.setSafe_pw (b : Block) (f : SafeSt → SafeSt) : (b.setSafe f).pw = b.pw := rfl
@[simp] theorem Block.setSafe_mg_ev (b : Block) (f : SafeSt → SafeSt) : (b.setSafe f).mg.ev = b.mg.ev := rfl
@[simp] theorem Block.setSafe_mg_from_ (b : Block) (f : SafeSt → SafeSt) : (b.setSafe f).mg.from_ = b.mg.from_ := rfl
@[simp] theorem Block.setSafe_mg_lim (b : Block) (f : SafeSt → SafeSt) : (b.setSafe f).mg.lim = b.mg.lim := rfl
@[simp] theorem Block.setSafe_mg_srv (b : Block) (f : SafeSt → SafeSt) : (b.setSafe f).mg.srv = b.mg.srv := rfl
@[simp] theorem Block.setSafe_mg_fn (b : Block) (f : SafeSt → SafeSt) : (b.setSafe f).mg.fn = b.mg.fn := rfl
@[simp] theorem Block.setSafe_mg_job (b : Block) (f : SafeSt → SafeSt) : (b.setSafe f).mg.job = b.mg.job := rfl
@[simp] theorem Block.setSafe_mg_nextJob (b : Block) (f : SafeSt → SafeSt) : (b.setSafe f).mg.nextJob = b.mg.nextJob := rfl
@[simp] theorem Block.setSafe_mg_cnt (b : Block) (f : SafeSt → SafeSt) : (b.setSafe f).mg.cnt = b.mg.cnt := rfl
@[simp] theorem Block.setSafe_mg_boot (b : Block) (f : SafeSt → SafeSt) : (b.setSafe f).mg.boot = b.mg.boot := rfl
@[simp] theorem Block.setSafe_mg_cfg (b : Block) (f : SafeSt → SafeSt) : (b.setSafe f).mg.cfg = b.mg.cfg := rfl
@[simp] theorem Block.setSafe_rd (b : Block) (f : SafeSt → SafeSt) (key : Nat) : (b.setSafe f).rd key = b.rd key := rfl
@[simp] theorem Block.setSafe_rdN (b : Block) (f : SafeSt → SafeSt) (key : Nat) : (b.setSafe f).rdN key = b.rdN key := rfl
@[simp] theorem Block.setSafe_on (b : Block) (f : SafeSt → SafeSt) (key : Nat) : (b.setSafe f).on key = b.on key := rfl

-- setLn

@[simp] theorem Block.setLn_ln (b : Block) (f : Lanes → Lanes) : (b.setLn f).ln = f b.ln := rfl
@[simp] theorem Block.setLn_cyc (b : Block) (f : Lanes → Lanes) : (b.setLn f).cyc = b.cyc := rfl
@[simp] theorem Block.setLn_free (b : Block) (f : Lanes → Lanes) : (b.setLn f).free = b.free := rfl
@[simp] theorem Block.setLn_od (b : Block) (f : Lanes → Lanes) : (b.setLn f).od = b.od := rfl
@[simp] theorem Block.setLn_blobs (b : Block) (f : Lanes → Lanes) : (b.setLn f).blobs = b.blobs := rfl
@[simp] theorem Block.setLn_clk (b : Block) (f : Lanes → Lanes) : (b.setLn f).clk = b.clk := rfl
@[simp] theorem Block.setLn_cross (b : Block) (f : Lanes → Lanes) : (b.setLn f).cross = b.cross := rfl
@[simp] theorem Block.setLn_gen (b : Block) (f : Lanes → Lanes) : (b.setLn f).gen = b.gen := rfl
@[simp] theorem Block.setLn_sent (b : Block) (f : Lanes → Lanes) : (b.setLn f).sent = b.sent := rfl
@[simp] theorem Block.setLn_pokes (b : Block) (f : Lanes → Lanes) : (b.setLn f).pokes = b.pokes := rfl
@[simp] theorem Block.setLn_ramLost (b : Block) (f : Lanes → Lanes) : (b.setLn f).ramLost = b.ramLost := rfl
@[simp] theorem Block.setLn_tm (b : Block) (f : Lanes → Lanes) : (b.setLn f).tm = b.tm := rfl
@[simp] theorem Block.setLn_fab (b : Block) (f : Lanes → Lanes) : (b.setLn f).fab = b.fab := rfl
@[simp] theorem Block.setLn_mg (b : Block) (f : Lanes → Lanes) : (b.setLn f).mg = b.mg := rfl
@[simp] theorem Block.setLn_gn (b : Block) (f : Lanes → Lanes) : (b.setLn f).gn = b.gn := rfl
@[simp] theorem Block.setLn_cp (b : Block) (f : Lanes → Lanes) : (b.setLn f).cp = b.cp := rfl
@[simp] theorem Block.setLn_pr (b : Block) (f : Lanes → Lanes) : (b.setLn f).pr = b.pr := rfl
@[simp] theorem Block.setLn_pw (b : Block) (f : Lanes → Lanes) : (b.setLn f).pw = b.pw := rfl
@[simp] theorem Block.setLn_rd (b : Block) (f : Lanes → Lanes) (key : Nat) : (b.setLn f).rd key = b.rd key := rfl
@[simp] theorem Block.setLn_rdN (b : Block) (f : Lanes → Lanes) (key : Nat) : (b.setLn f).rdN key = b.rdN key := rfl
@[simp] theorem Block.setLn_on (b : Block) (f : Lanes → Lanes) (key : Nat) : (b.setLn f).on key = b.on key := rfl

-- setLane

@[simp] theorem Block.setLane_ln_lane (b : Block) (l : Nat) (f : Lane → Lane) : (b.setLane l f).ln.lane = tmod {} b.ln.lane l f := rfl
@[simp] theorem Block.setLane_cyc (b : Block) (l : Nat) (f : Lane → Lane) : (b.setLane l f).cyc = b.cyc := rfl
@[simp] theorem Block.setLane_free (b : Block) (l : Nat) (f : Lane → Lane) : (b.setLane l f).free = b.free := rfl
@[simp] theorem Block.setLane_od (b : Block) (l : Nat) (f : Lane → Lane) : (b.setLane l f).od = b.od := rfl
@[simp] theorem Block.setLane_blobs (b : Block) (l : Nat) (f : Lane → Lane) : (b.setLane l f).blobs = b.blobs := rfl
@[simp] theorem Block.setLane_clk (b : Block) (l : Nat) (f : Lane → Lane) : (b.setLane l f).clk = b.clk := rfl
@[simp] theorem Block.setLane_cross (b : Block) (l : Nat) (f : Lane → Lane) : (b.setLane l f).cross = b.cross := rfl
@[simp] theorem Block.setLane_gen (b : Block) (l : Nat) (f : Lane → Lane) : (b.setLane l f).gen = b.gen := rfl
@[simp] theorem Block.setLane_sent (b : Block) (l : Nat) (f : Lane → Lane) : (b.setLane l f).sent = b.sent := rfl
@[simp] theorem Block.setLane_pokes (b : Block) (l : Nat) (f : Lane → Lane) : (b.setLane l f).pokes = b.pokes := rfl
@[simp] theorem Block.setLane_ramLost (b : Block) (l : Nat) (f : Lane → Lane) : (b.setLane l f).ramLost = b.ramLost := rfl
@[simp] theorem Block.setLane_tm (b : Block) (l : Nat) (f : Lane → Lane) : (b.setLane l f).tm = b.tm := rfl
@[simp] theorem Block.setLane_fab (b : Block) (l : Nat) (f : Lane → Lane) : (b.setLane l f).fab = b.fab := rfl
@[simp] theorem Block.setLane_mg (b : Block) (l : Nat) (f : Lane → Lane) : (b.setLane l f).mg = b.mg := rfl
@[simp] theorem Block.setLane_gn (b : Block) (l : Nat) (f : Lane → Lane) : (b.setLane l f).gn = b.gn := rfl
@[simp] theorem Block.setLane_cp (b : Block) (l : Nat) (f : Lane → Lane) : (b.setLane l f).cp = b.cp := rfl
@[simp] theorem Block.setLane_pr (b : Block) (l : Nat) (f : Lane → Lane) : (b.setLane l f).pr = b.pr := rfl
@[simp] theorem Block.setLane_pw (b : Block) (l : Nat) (f : Lane → Lane) : (b.setLane l f).pw = b.pw := rfl
@[simp] theorem Block.setLane_rd (b : Block) (l : Nat) (f : Lane → Lane) (key : Nat) : (b.setLane l f).rd key = b.rd key := rfl
@[simp] theorem Block.setLane_rdN (b : Block) (l : Nat) (f : Lane → Lane) (key : Nat) : (b.setLane l f).rdN key = b.rdN key := rfl
@[simp] theorem Block.setLane_on (b : Block) (l : Nat) (f : Lane → Lane) (key : Nat) : (b.setLane l f).on key = b.on key := rfl

-- setGn

@[simp] theorem Block.setGn_gn (b : Block) (f : Gnss → Gnss) : (b.setGn f).gn = f b.gn := rfl
@[simp] theorem Block.setGn_cyc (b : Block) (f : Gnss → Gnss) : (b.setGn f).cyc = b.cyc := rfl
@[simp] theorem Block.setGn_free (b : Block) (f : Gnss → Gnss) : (b.setGn f).free = b.free := rfl
@[simp] theorem Block.setGn_od (b : Block) (f : Gnss → Gnss) : (b.setGn f).od = b.od := rfl
@[simp] theorem Block.setGn_blobs (b : Block) (f : Gnss → Gnss) : (b.setGn f).blobs = b.blobs := rfl
@[simp] theorem Block.setGn_clk (b : Block) (f : Gnss → Gnss) : (b.setGn f).clk = b.clk := rfl
@[simp] theorem Block.setGn_cross (b : Block) (f : Gnss → Gnss) : (b.setGn f).cross = b.cross := rfl
@[simp] theorem Block.setGn_gen (b : Block) (f : Gnss → Gnss) : (b.setGn f).gen = b.gen := rfl
@[simp] theorem Block.setGn_sent (b : Block) (f : Gnss → Gnss) : (b.setGn f).sent = b.sent := rfl
@[simp] theorem Block.setGn_pokes (b : Block) (f : Gnss → Gnss) : (b.setGn f).pokes = b.pokes := rfl
@[simp] theorem Block.setGn_ramLost (b : Block) (f : Gnss → Gnss) : (b.setGn f).ramLost = b.ramLost := rfl
@[simp] theorem Block.setGn_tm (b : Block) (f : Gnss → Gnss) : (b.setGn f).tm = b.tm := rfl
@[simp] theorem Block.setGn_fab (b : Block) (f : Gnss → Gnss) : (b.setGn f).fab = b.fab := rfl
@[simp] theorem Block.setGn_mg (b : Block) (f : Gnss → Gnss) : (b.setGn f).mg = b.mg := rfl
@[simp] theorem Block.setGn_ln (b : Block) (f : Gnss → Gnss) : (b.setGn f).ln = b.ln := rfl
@[simp] theorem Block.setGn_cp (b : Block) (f : Gnss → Gnss) : (b.setGn f).cp = b.cp := rfl
@[simp] theorem Block.setGn_pr (b : Block) (f : Gnss → Gnss) : (b.setGn f).pr = b.pr := rfl
@[simp] theorem Block.setGn_pw (b : Block) (f : Gnss → Gnss) : (b.setGn f).pw = b.pw := rfl
@[simp] theorem Block.setGn_rd (b : Block) (f : Gnss → Gnss) (key : Nat) : (b.setGn f).rd key = b.rd key := rfl
@[simp] theorem Block.setGn_rdN (b : Block) (f : Gnss → Gnss) (key : Nat) : (b.setGn f).rdN key = b.rdN key := rfl
@[simp] theorem Block.setGn_on (b : Block) (f : Gnss → Gnss) (key : Nat) : (b.setGn f).on key = b.on key := rfl

-- setCp

@[simp] theorem Block.setCp_cp (b : Block) (f : Compute → Compute) : (b.setCp f).cp = f b.cp := rfl
@[simp] theorem Block.setCp_cyc (b : Block) (f : Compute → Compute) : (b.setCp f).cyc = b.cyc := rfl
@[simp] theorem Block.setCp_free (b : Block) (f : Compute → Compute) : (b.setCp f).free = b.free := rfl
@[simp] theorem Block.setCp_od (b : Block) (f : Compute → Compute) : (b.setCp f).od = b.od := rfl
@[simp] theorem Block.setCp_blobs (b : Block) (f : Compute → Compute) : (b.setCp f).blobs = b.blobs := rfl
@[simp] theorem Block.setCp_clk (b : Block) (f : Compute → Compute) : (b.setCp f).clk = b.clk := rfl
@[simp] theorem Block.setCp_cross (b : Block) (f : Compute → Compute) : (b.setCp f).cross = b.cross := rfl
@[simp] theorem Block.setCp_gen (b : Block) (f : Compute → Compute) : (b.setCp f).gen = b.gen := rfl
@[simp] theorem Block.setCp_sent (b : Block) (f : Compute → Compute) : (b.setCp f).sent = b.sent := rfl
@[simp] theorem Block.setCp_pokes (b : Block) (f : Compute → Compute) : (b.setCp f).pokes = b.pokes := rfl
@[simp] theorem Block.setCp_ramLost (b : Block) (f : Compute → Compute) : (b.setCp f).ramLost = b.ramLost := rfl
@[simp] theorem Block.setCp_tm (b : Block) (f : Compute → Compute) : (b.setCp f).tm = b.tm := rfl
@[simp] theorem Block.setCp_fab (b : Block) (f : Compute → Compute) : (b.setCp f).fab = b.fab := rfl
@[simp] theorem Block.setCp_mg (b : Block) (f : Compute → Compute) : (b.setCp f).mg = b.mg := rfl
@[simp] theorem Block.setCp_ln (b : Block) (f : Compute → Compute) : (b.setCp f).ln = b.ln := rfl
@[simp] theorem Block.setCp_gn (b : Block) (f : Compute → Compute) : (b.setCp f).gn = b.gn := rfl
@[simp] theorem Block.setCp_pr (b : Block) (f : Compute → Compute) : (b.setCp f).pr = b.pr := rfl
@[simp] theorem Block.setCp_pw (b : Block) (f : Compute → Compute) : (b.setCp f).pw = b.pw := rfl
@[simp] theorem Block.setCp_rd (b : Block) (f : Compute → Compute) (key : Nat) : (b.setCp f).rd key = b.rd key := rfl
@[simp] theorem Block.setCp_rdN (b : Block) (f : Compute → Compute) (key : Nat) : (b.setCp f).rdN key = b.rdN key := rfl
@[simp] theorem Block.setCp_on (b : Block) (f : Compute → Compute) (key : Nat) : (b.setCp f).on key = b.on key := rfl

-- setDma

@[simp] theorem Block.setDma_cp_dma (b : Block) (c : Nat) (f : DmaCh → DmaCh) : (b.setDma c f).cp.dma = tmod {} b.cp.dma c f := rfl
@[simp] theorem Block.setDma_cyc (b : Block) (c : Nat) (f : DmaCh → DmaCh) : (b.setDma c f).cyc = b.cyc := rfl
@[simp] theorem Block.setDma_free (b : Block) (c : Nat) (f : DmaCh → DmaCh) : (b.setDma c f).free = b.free := rfl
@[simp] theorem Block.setDma_od (b : Block) (c : Nat) (f : DmaCh → DmaCh) : (b.setDma c f).od = b.od := rfl
@[simp] theorem Block.setDma_blobs (b : Block) (c : Nat) (f : DmaCh → DmaCh) : (b.setDma c f).blobs = b.blobs := rfl
@[simp] theorem Block.setDma_clk (b : Block) (c : Nat) (f : DmaCh → DmaCh) : (b.setDma c f).clk = b.clk := rfl
@[simp] theorem Block.setDma_cross (b : Block) (c : Nat) (f : DmaCh → DmaCh) : (b.setDma c f).cross = b.cross := rfl
@[simp] theorem Block.setDma_gen (b : Block) (c : Nat) (f : DmaCh → DmaCh) : (b.setDma c f).gen = b.gen := rfl
@[simp] theorem Block.setDma_sent (b : Block) (c : Nat) (f : DmaCh → DmaCh) : (b.setDma c f).sent = b.sent := rfl
@[simp] theorem Block.setDma_pokes (b : Block) (c : Nat) (f : DmaCh → DmaCh) : (b.setDma c f).pokes = b.pokes := rfl
@[simp] theorem Block.setDma_ramLost (b : Block) (c : Nat) (f : DmaCh → DmaCh) : (b.setDma c f).ramLost = b.ramLost := rfl
@[simp] theorem Block.setDma_tm (b : Block) (c : Nat) (f : DmaCh → DmaCh) : (b.setDma c f).tm = b.tm := rfl
@[simp] theorem Block.setDma_fab (b : Block) (c : Nat) (f : DmaCh → DmaCh) : (b.setDma c f).fab = b.fab := rfl
@[simp] theorem Block.setDma_mg (b : Block) (c : Nat) (f : DmaCh → DmaCh) : (b.setDma c f).mg = b.mg := rfl
@[simp] theorem Block.setDma_ln (b : Block) (c : Nat) (f : DmaCh → DmaCh) : (b.setDma c f).ln = b.ln := rfl
@[simp] theorem Block.setDma_gn (b : Block) (c : Nat) (f : DmaCh → DmaCh) : (b.setDma c f).gn = b.gn := rfl
@[simp] theorem Block.setDma_pr (b : Block) (c : Nat) (f : DmaCh → DmaCh) : (b.setDma c f).pr = b.pr := rfl
@[simp] theorem Block.setDma_pw (b : Block) (c : Nat) (f : DmaCh → DmaCh) : (b.setDma c f).pw = b.pw := rfl
@[simp] theorem Block.setDma_rd (b : Block) (c : Nat) (f : DmaCh → DmaCh) (key : Nat) : (b.setDma c f).rd key = b.rd key := rfl
@[simp] theorem Block.setDma_rdN (b : Block) (c : Nat) (f : DmaCh → DmaCh) (key : Nat) : (b.setDma c f).rdN key = b.rdN key := rfl
@[simp] theorem Block.setDma_on (b : Block) (c : Nat) (f : DmaCh → DmaCh) (key : Nat) : (b.setDma c f).on key = b.on key := rfl

-- setPr

@[simp] theorem Block.setPr_pr (b : Block) (f : Pair → Pair) : (b.setPr f).pr = f b.pr := rfl
@[simp] theorem Block.setPr_cyc (b : Block) (f : Pair → Pair) : (b.setPr f).cyc = b.cyc := rfl
@[simp] theorem Block.setPr_free (b : Block) (f : Pair → Pair) : (b.setPr f).free = b.free := rfl
@[simp] theorem Block.setPr_od (b : Block) (f : Pair → Pair) : (b.setPr f).od = b.od := rfl
@[simp] theorem Block.setPr_blobs (b : Block) (f : Pair → Pair) : (b.setPr f).blobs = b.blobs := rfl
@[simp] theorem Block.setPr_clk (b : Block) (f : Pair → Pair) : (b.setPr f).clk = b.clk := rfl
@[simp] theorem Block.setPr_cross (b : Block) (f : Pair → Pair) : (b.setPr f).cross = b.cross := rfl
@[simp] theorem Block.setPr_gen (b : Block) (f : Pair → Pair) : (b.setPr f).gen = b.gen := rfl
@[simp] theorem Block.setPr_sent (b : Block) (f : Pair → Pair) : (b.setPr f).sent = b.sent := rfl
@[simp] theorem Block.setPr_pokes (b : Block) (f : Pair → Pair) : (b.setPr f).pokes = b.pokes := rfl
@[simp] theorem Block.setPr_ramLost (b : Block) (f : Pair → Pair) : (b.setPr f).ramLost = b.ramLost := rfl
@[simp] theorem Block.setPr_tm (b : Block) (f : Pair → Pair) : (b.setPr f).tm = b.tm := rfl
@[simp] theorem Block.setPr_fab (b : Block) (f : Pair → Pair) : (b.setPr f).fab = b.fab := rfl
@[simp] theorem Block.setPr_mg (b : Block) (f : Pair → Pair) : (b.setPr f).mg = b.mg := rfl
@[simp] theorem Block.setPr_ln (b : Block) (f : Pair → Pair) : (b.setPr f).ln = b.ln := rfl
@[simp] theorem Block.setPr_gn (b : Block) (f : Pair → Pair) : (b.setPr f).gn = b.gn := rfl
@[simp] theorem Block.setPr_cp (b : Block) (f : Pair → Pair) : (b.setPr f).cp = b.cp := rfl
@[simp] theorem Block.setPr_pw (b : Block) (f : Pair → Pair) : (b.setPr f).pw = b.pw := rfl
@[simp] theorem Block.setPr_rd (b : Block) (f : Pair → Pair) (key : Nat) : (b.setPr f).rd key = b.rd key := rfl
@[simp] theorem Block.setPr_rdN (b : Block) (f : Pair → Pair) (key : Nat) : (b.setPr f).rdN key = b.rdN key := rfl
@[simp] theorem Block.setPr_on (b : Block) (f : Pair → Pair) (key : Nat) : (b.setPr f).on key = b.on key := rfl

-- setPw

@[simp] theorem Block.setPw_pw (b : Block) (f : Power → Power) : (b.setPw f).pw = f b.pw := rfl
@[simp] theorem Block.setPw_cyc (b : Block) (f : Power → Power) : (b.setPw f).cyc = b.cyc := rfl
@[simp] theorem Block.setPw_free (b : Block) (f : Power → Power) : (b.setPw f).free = b.free := rfl
@[simp] theorem Block.setPw_od (b : Block) (f : Power → Power) : (b.setPw f).od = b.od := rfl
@[simp] theorem Block.setPw_blobs (b : Block) (f : Power → Power) : (b.setPw f).blobs = b.blobs := rfl
@[simp] theorem Block.setPw_clk (b : Block) (f : Power → Power) : (b.setPw f).clk = b.clk := rfl
@[simp] theorem Block.setPw_cross (b : Block) (f : Power → Power) : (b.setPw f).cross = b.cross := rfl
@[simp] theorem Block.setPw_gen (b : Block) (f : Power → Power) : (b.setPw f).gen = b.gen := rfl
@[simp] theorem Block.setPw_sent (b : Block) (f : Power → Power) : (b.setPw f).sent = b.sent := rfl
@[simp] theorem Block.setPw_pokes (b : Block) (f : Power → Power) : (b.setPw f).pokes = b.pokes := rfl
@[simp] theorem Block.setPw_ramLost (b : Block) (f : Power → Power) : (b.setPw f).ramLost = b.ramLost := rfl
@[simp] theorem Block.setPw_tm (b : Block) (f : Power → Power) : (b.setPw f).tm = b.tm := rfl
@[simp] theorem Block.setPw_fab (b : Block) (f : Power → Power) : (b.setPw f).fab = b.fab := rfl
@[simp] theorem Block.setPw_mg (b : Block) (f : Power → Power) : (b.setPw f).mg = b.mg := rfl
@[simp] theorem Block.setPw_ln (b : Block) (f : Power → Power) : (b.setPw f).ln = b.ln := rfl
@[simp] theorem Block.setPw_gn (b : Block) (f : Power → Power) : (b.setPw f).gn = b.gn := rfl
@[simp] theorem Block.setPw_cp (b : Block) (f : Power → Power) : (b.setPw f).cp = b.cp := rfl
@[simp] theorem Block.setPw_pr (b : Block) (f : Power → Power) : (b.setPw f).pr = b.pr := rfl
@[simp] theorem Block.setPw_rd (b : Block) (f : Power → Power) (key : Nat) : (b.setPw f).rd key = b.rd key := rfl
@[simp] theorem Block.setPw_rdN (b : Block) (f : Power → Power) (key : Nat) : (b.setPw f).rdN key = b.rdN key := rfl
@[simp] theorem Block.setPw_on (b : Block) (f : Power → Power) (key : Nat) : (b.setPw f).on key = b.on key := rfl

-- setRst

@[simp] theorem Block.setRst_pw_rst (b : Block) (f : ResetSt → ResetSt) : (b.setRst f).pw.rst = f b.pw.rst := rfl
@[simp] theorem Block.setRst_cyc (b : Block) (f : ResetSt → ResetSt) : (b.setRst f).cyc = b.cyc := rfl
@[simp] theorem Block.setRst_free (b : Block) (f : ResetSt → ResetSt) : (b.setRst f).free = b.free := rfl
@[simp] theorem Block.setRst_od (b : Block) (f : ResetSt → ResetSt) : (b.setRst f).od = b.od := rfl
@[simp] theorem Block.setRst_blobs (b : Block) (f : ResetSt → ResetSt) : (b.setRst f).blobs = b.blobs := rfl
@[simp] theorem Block.setRst_clk (b : Block) (f : ResetSt → ResetSt) : (b.setRst f).clk = b.clk := rfl
@[simp] theorem Block.setRst_cross (b : Block) (f : ResetSt → ResetSt) : (b.setRst f).cross = b.cross := rfl
@[simp] theorem Block.setRst_gen (b : Block) (f : ResetSt → ResetSt) : (b.setRst f).gen = b.gen := rfl
@[simp] theorem Block.setRst_sent (b : Block) (f : ResetSt → ResetSt) : (b.setRst f).sent = b.sent := rfl
@[simp] theorem Block.setRst_pokes (b : Block) (f : ResetSt → ResetSt) : (b.setRst f).pokes = b.pokes := rfl
@[simp] theorem Block.setRst_ramLost (b : Block) (f : ResetSt → ResetSt) : (b.setRst f).ramLost = b.ramLost := rfl
@[simp] theorem Block.setRst_tm (b : Block) (f : ResetSt → ResetSt) : (b.setRst f).tm = b.tm := rfl
@[simp] theorem Block.setRst_fab (b : Block) (f : ResetSt → ResetSt) : (b.setRst f).fab = b.fab := rfl
@[simp] theorem Block.setRst_mg (b : Block) (f : ResetSt → ResetSt) : (b.setRst f).mg = b.mg := rfl
@[simp] theorem Block.setRst_ln (b : Block) (f : ResetSt → ResetSt) : (b.setRst f).ln = b.ln := rfl
@[simp] theorem Block.setRst_gn (b : Block) (f : ResetSt → ResetSt) : (b.setRst f).gn = b.gn := rfl
@[simp] theorem Block.setRst_cp (b : Block) (f : ResetSt → ResetSt) : (b.setRst f).cp = b.cp := rfl
@[simp] theorem Block.setRst_pr (b : Block) (f : ResetSt → ResetSt) : (b.setRst f).pr = b.pr := rfl
@[simp] theorem Block.setRst_rd (b : Block) (f : ResetSt → ResetSt) (key : Nat) : (b.setRst f).rd key = b.rd key := rfl
@[simp] theorem Block.setRst_rdN (b : Block) (f : ResetSt → ResetSt) (key : Nat) : (b.setRst f).rdN key = b.rdN key := rfl
@[simp] theorem Block.setRst_on (b : Block) (f : ResetSt → ResetSt) (key : Nat) : (b.setRst f).on key = b.on key := rfl

-- setFip

@[simp] theorem Block.setFip_cyc (b : Block) (p : Nat) (f : Fip → Fip) : (b.setFip p f).cyc = b.cyc := rfl
@[simp] theorem Block.setFip_free (b : Block) (p : Nat) (f : Fip → Fip) : (b.setFip p f).free = b.free := rfl
@[simp] theorem Block.setFip_od (b : Block) (p : Nat) (f : Fip → Fip) : (b.setFip p f).od = b.od := rfl
@[simp] theorem Block.setFip_blobs (b : Block) (p : Nat) (f : Fip → Fip) : (b.setFip p f).blobs = b.blobs := rfl
@[simp] theorem Block.setFip_clk (b : Block) (p : Nat) (f : Fip → Fip) : (b.setFip p f).clk = b.clk := rfl
@[simp] theorem Block.setFip_cross (b : Block) (p : Nat) (f : Fip → Fip) : (b.setFip p f).cross = b.cross := rfl
@[simp] theorem Block.setFip_gen (b : Block) (p : Nat) (f : Fip → Fip) : (b.setFip p f).gen = b.gen := rfl
@[simp] theorem Block.setFip_sent (b : Block) (p : Nat) (f : Fip → Fip) : (b.setFip p f).sent = b.sent := rfl
@[simp] theorem Block.setFip_pokes (b : Block) (p : Nat) (f : Fip → Fip) : (b.setFip p f).pokes = b.pokes := rfl
@[simp] theorem Block.setFip_ramLost (b : Block) (p : Nat) (f : Fip → Fip) : (b.setFip p f).ramLost = b.ramLost := rfl
@[simp] theorem Block.setFip_tm (b : Block) (p : Nat) (f : Fip → Fip) : (b.setFip p f).tm = b.tm := rfl
@[simp] theorem Block.setFip_mg (b : Block) (p : Nat) (f : Fip → Fip) : (b.setFip p f).mg = b.mg := rfl
@[simp] theorem Block.setFip_ln (b : Block) (p : Nat) (f : Fip → Fip) : (b.setFip p f).ln = b.ln := rfl
@[simp] theorem Block.setFip_gn (b : Block) (p : Nat) (f : Fip → Fip) : (b.setFip p f).gn = b.gn := rfl
@[simp] theorem Block.setFip_cp (b : Block) (p : Nat) (f : Fip → Fip) : (b.setFip p f).cp = b.cp := rfl
@[simp] theorem Block.setFip_pr (b : Block) (p : Nat) (f : Fip → Fip) : (b.setFip p f).pr = b.pr := rfl
@[simp] theorem Block.setFip_pw (b : Block) (p : Nat) (f : Fip → Fip) : (b.setFip p f).pw = b.pw := rfl
@[simp] theorem Block.setFip_rd (b : Block) (p : Nat) (f : Fip → Fip) (key : Nat) : (b.setFip p f).rd key = b.rd key := rfl
@[simp] theorem Block.setFip_rdN (b : Block) (p : Nat) (f : Fip → Fip) (key : Nat) : (b.setFip p f).rdN key = b.rdN key := rfl
@[simp] theorem Block.setFip_on (b : Block) (p : Nat) (f : Fip → Fip) (key : Nat) : (b.setFip p f).on key = b.on key := rfl

-- setConv

@[simp] theorem Block.setConv_cyc (b : Block) (c : Nat) (f : Conv → Conv) : (b.setConv c f).cyc = b.cyc := rfl
@[simp] theorem Block.setConv_free (b : Block) (c : Nat) (f : Conv → Conv) : (b.setConv c f).free = b.free := rfl
@[simp] theorem Block.setConv_od (b : Block) (c : Nat) (f : Conv → Conv) : (b.setConv c f).od = b.od := rfl
@[simp] theorem Block.setConv_blobs (b : Block) (c : Nat) (f : Conv → Conv) : (b.setConv c f).blobs = b.blobs := rfl
@[simp] theorem Block.setConv_clk (b : Block) (c : Nat) (f : Conv → Conv) : (b.setConv c f).clk = b.clk := rfl
@[simp] theorem Block.setConv_cross (b : Block) (c : Nat) (f : Conv → Conv) : (b.setConv c f).cross = b.cross := rfl
@[simp] theorem Block.setConv_gen (b : Block) (c : Nat) (f : Conv → Conv) : (b.setConv c f).gen = b.gen := rfl
@[simp] theorem Block.setConv_sent (b : Block) (c : Nat) (f : Conv → Conv) : (b.setConv c f).sent = b.sent := rfl
@[simp] theorem Block.setConv_pokes (b : Block) (c : Nat) (f : Conv → Conv) : (b.setConv c f).pokes = b.pokes := rfl
@[simp] theorem Block.setConv_ramLost (b : Block) (c : Nat) (f : Conv → Conv) : (b.setConv c f).ramLost = b.ramLost := rfl
@[simp] theorem Block.setConv_fab (b : Block) (c : Nat) (f : Conv → Conv) : (b.setConv c f).fab = b.fab := rfl
@[simp] theorem Block.setConv_mg (b : Block) (c : Nat) (f : Conv → Conv) : (b.setConv c f).mg = b.mg := rfl
@[simp] theorem Block.setConv_ln (b : Block) (c : Nat) (f : Conv → Conv) : (b.setConv c f).ln = b.ln := rfl
@[simp] theorem Block.setConv_gn (b : Block) (c : Nat) (f : Conv → Conv) : (b.setConv c f).gn = b.gn := rfl
@[simp] theorem Block.setConv_cp (b : Block) (c : Nat) (f : Conv → Conv) : (b.setConv c f).cp = b.cp := rfl
@[simp] theorem Block.setConv_pr (b : Block) (c : Nat) (f : Conv → Conv) : (b.setConv c f).pr = b.pr := rfl
@[simp] theorem Block.setConv_pw (b : Block) (c : Nat) (f : Conv → Conv) : (b.setConv c f).pw = b.pw := rfl
@[simp] theorem Block.setConv_tm_mt (b : Block) (c : Nat) (f : Conv → Conv) : (b.setConv c f).tm.mt = b.tm.mt := rfl
@[simp] theorem Block.setConv_tm_reel (b : Block) (c : Nat) (f : Conv → Conv) : (b.setConv c f).tm.reel = b.tm.reel := rfl
@[simp] theorem Block.setConv_tm_esmc (b : Block) (c : Nat) (f : Conv → Conv) : (b.setConv c f).tm.esmc = b.tm.esmc := rfl
@[simp] theorem Block.setConv_tm_ptp (b : Block) (c : Nat) (f : Conv → Conv) : (b.setConv c f).tm.ptp = b.tm.ptp := rfl
@[simp] theorem Block.setConv_tm_pe (b : Block) (c : Nat) (f : Conv → Conv) : (b.setConv c f).tm.pe = b.tm.pe := rfl
@[simp] theorem Block.setConv_tm_out (b : Block) (c : Nat) (f : Conv → Conv) : (b.setConv c f).tm.out = b.tm.out := rfl
@[simp] theorem Block.setConv_tm_commit (b : Block) (c : Nat) (f : Conv → Conv) : (b.setConv c f).tm.commit = b.tm.commit := rfl
@[simp] theorem Block.setConv_tm_refin (b : Block) (c : Nat) (f : Conv → Conv) : (b.setConv c f).tm.refin = b.tm.refin := rfl
@[simp] theorem Block.setConv_tm_slot (b : Block) (c : Nat) (f : Conv → Conv) : (b.setConv c f).tm.slot = b.tm.slot := rfl
@[simp] theorem Block.setConv_tm_sel (b : Block) (c : Nat) (f : Conv → Conv) : (b.setConv c f).tm.sel = b.tm.sel := rfl
@[simp] theorem Block.setConv_tm_osc (b : Block) (c : Nat) (f : Conv → Conv) : (b.setConv c f).tm.osc = b.tm.osc := rfl
@[simp] theorem Block.setConv_tm_ho (b : Block) (c : Nat) (f : Conv → Conv) : (b.setConv c f).tm.ho = b.tm.ho := rfl
@[simp] theorem Block.setConv_tm_tic (b : Block) (c : Nat) (f : Conv → Conv) : (b.setConv c f).tm.tic = b.tm.tic := rfl
@[simp] theorem Block.setConv_tm_ticRing (b : Block) (c : Nat) (f : Conv → Conv) : (b.setConv c f).tm.ticRing = b.tm.ticRing := rfl
@[simp] theorem Block.setConv_tm_ticNext (b : Block) (c : Nat) (f : Conv → Conv) : (b.setConv c f).tm.ticNext = b.tm.ticNext := rfl
@[simp] theorem Block.setConv_rd (b : Block) (c : Nat) (f : Conv → Conv) (key : Nat) : (b.setConv c f).rd key = b.rd key := rfl
@[simp] theorem Block.setConv_rdN (b : Block) (c : Nat) (f : Conv → Conv) (key : Nat) : (b.setConv c f).rdN key = b.rdN key := rfl
@[simp] theorem Block.setConv_on (b : Block) (c : Nat) (f : Conv → Conv) (key : Nat) : (b.setConv c f).on key = b.on key := rfl

-- setAsy

@[simp] theorem Block.setAsy_cyc (b : Block) (i : Nat) (f : Asy → Asy) : (b.setAsy i f).cyc = b.cyc := rfl
@[simp] theorem Block.setAsy_free (b : Block) (i : Nat) (f : Asy → Asy) : (b.setAsy i f).free = b.free := rfl
@[simp] theorem Block.setAsy_od (b : Block) (i : Nat) (f : Asy → Asy) : (b.setAsy i f).od = b.od := rfl
@[simp] theorem Block.setAsy_blobs (b : Block) (i : Nat) (f : Asy → Asy) : (b.setAsy i f).blobs = b.blobs := rfl
@[simp] theorem Block.setAsy_clk (b : Block) (i : Nat) (f : Asy → Asy) : (b.setAsy i f).clk = b.clk := rfl
@[simp] theorem Block.setAsy_cross (b : Block) (i : Nat) (f : Asy → Asy) : (b.setAsy i f).cross = b.cross := rfl
@[simp] theorem Block.setAsy_gen (b : Block) (i : Nat) (f : Asy → Asy) : (b.setAsy i f).gen = b.gen := rfl
@[simp] theorem Block.setAsy_sent (b : Block) (i : Nat) (f : Asy → Asy) : (b.setAsy i f).sent = b.sent := rfl
@[simp] theorem Block.setAsy_pokes (b : Block) (i : Nat) (f : Asy → Asy) : (b.setAsy i f).pokes = b.pokes := rfl
@[simp] theorem Block.setAsy_ramLost (b : Block) (i : Nat) (f : Asy → Asy) : (b.setAsy i f).ramLost = b.ramLost := rfl
@[simp] theorem Block.setAsy_fab (b : Block) (i : Nat) (f : Asy → Asy) : (b.setAsy i f).fab = b.fab := rfl
@[simp] theorem Block.setAsy_mg (b : Block) (i : Nat) (f : Asy → Asy) : (b.setAsy i f).mg = b.mg := rfl
@[simp] theorem Block.setAsy_ln (b : Block) (i : Nat) (f : Asy → Asy) : (b.setAsy i f).ln = b.ln := rfl
@[simp] theorem Block.setAsy_gn (b : Block) (i : Nat) (f : Asy → Asy) : (b.setAsy i f).gn = b.gn := rfl
@[simp] theorem Block.setAsy_cp (b : Block) (i : Nat) (f : Asy → Asy) : (b.setAsy i f).cp = b.cp := rfl
@[simp] theorem Block.setAsy_pr (b : Block) (i : Nat) (f : Asy → Asy) : (b.setAsy i f).pr = b.pr := rfl
@[simp] theorem Block.setAsy_pw (b : Block) (i : Nat) (f : Asy → Asy) : (b.setAsy i f).pw = b.pw := rfl
@[simp] theorem Block.setAsy_tm_mt (b : Block) (i : Nat) (f : Asy → Asy) : (b.setAsy i f).tm.mt = b.tm.mt := rfl
@[simp] theorem Block.setAsy_tm_reel (b : Block) (i : Nat) (f : Asy → Asy) : (b.setAsy i f).tm.reel = b.tm.reel := rfl
@[simp] theorem Block.setAsy_tm_esmc (b : Block) (i : Nat) (f : Asy → Asy) : (b.setAsy i f).tm.esmc = b.tm.esmc := rfl
@[simp] theorem Block.setAsy_tm_ptp (b : Block) (i : Nat) (f : Asy → Asy) : (b.setAsy i f).tm.ptp = b.tm.ptp := rfl
@[simp] theorem Block.setAsy_tm_pe (b : Block) (i : Nat) (f : Asy → Asy) : (b.setAsy i f).tm.pe = b.tm.pe := rfl
@[simp] theorem Block.setAsy_tm_out (b : Block) (i : Nat) (f : Asy → Asy) : (b.setAsy i f).tm.out = b.tm.out := rfl
@[simp] theorem Block.setAsy_tm_commit (b : Block) (i : Nat) (f : Asy → Asy) : (b.setAsy i f).tm.commit = b.tm.commit := rfl
@[simp] theorem Block.setAsy_tm_refin (b : Block) (i : Nat) (f : Asy → Asy) : (b.setAsy i f).tm.refin = b.tm.refin := rfl
@[simp] theorem Block.setAsy_tm_slot (b : Block) (i : Nat) (f : Asy → Asy) : (b.setAsy i f).tm.slot = b.tm.slot := rfl
@[simp] theorem Block.setAsy_tm_sel (b : Block) (i : Nat) (f : Asy → Asy) : (b.setAsy i f).tm.sel = b.tm.sel := rfl
@[simp] theorem Block.setAsy_tm_osc (b : Block) (i : Nat) (f : Asy → Asy) : (b.setAsy i f).tm.osc = b.tm.osc := rfl
@[simp] theorem Block.setAsy_tm_ho (b : Block) (i : Nat) (f : Asy → Asy) : (b.setAsy i f).tm.ho = b.tm.ho := rfl
@[simp] theorem Block.setAsy_tm_tic (b : Block) (i : Nat) (f : Asy → Asy) : (b.setAsy i f).tm.tic = b.tm.tic := rfl
@[simp] theorem Block.setAsy_tm_ticRing (b : Block) (i : Nat) (f : Asy → Asy) : (b.setAsy i f).tm.ticRing = b.tm.ticRing := rfl
@[simp] theorem Block.setAsy_tm_ticNext (b : Block) (i : Nat) (f : Asy → Asy) : (b.setAsy i f).tm.ticNext = b.tm.ticNext := rfl
@[simp] theorem Block.setAsy_rd (b : Block) (i : Nat) (f : Asy → Asy) (key : Nat) : (b.setAsy i f).rd key = b.rd key := rfl
@[simp] theorem Block.setAsy_rdN (b : Block) (i : Nat) (f : Asy → Asy) (key : Nat) : (b.setAsy i f).rdN key = b.rdN key := rfl
@[simp] theorem Block.setAsy_on (b : Block) (i : Nat) (f : Asy → Asy) (key : Nat) : (b.setAsy i f).on key = b.on key := rfl

-- setPtpDom

@[simp] theorem Block.setPtpDom_cyc (b : Block) (p dom : Nat) (f : PtpDom → PtpDom) : (b.setPtpDom p dom f).cyc = b.cyc := rfl
@[simp] theorem Block.setPtpDom_free (b : Block) (p dom : Nat) (f : PtpDom → PtpDom) : (b.setPtpDom p dom f).free = b.free := rfl
@[simp] theorem Block.setPtpDom_od (b : Block) (p dom : Nat) (f : PtpDom → PtpDom) : (b.setPtpDom p dom f).od = b.od := rfl
@[simp] theorem Block.setPtpDom_blobs (b : Block) (p dom : Nat) (f : PtpDom → PtpDom) : (b.setPtpDom p dom f).blobs = b.blobs := rfl
@[simp] theorem Block.setPtpDom_clk (b : Block) (p dom : Nat) (f : PtpDom → PtpDom) : (b.setPtpDom p dom f).clk = b.clk := rfl
@[simp] theorem Block.setPtpDom_cross (b : Block) (p dom : Nat) (f : PtpDom → PtpDom) : (b.setPtpDom p dom f).cross = b.cross := rfl
@[simp] theorem Block.setPtpDom_gen (b : Block) (p dom : Nat) (f : PtpDom → PtpDom) : (b.setPtpDom p dom f).gen = b.gen := rfl
@[simp] theorem Block.setPtpDom_sent (b : Block) (p dom : Nat) (f : PtpDom → PtpDom) : (b.setPtpDom p dom f).sent = b.sent := rfl
@[simp] theorem Block.setPtpDom_pokes (b : Block) (p dom : Nat) (f : PtpDom → PtpDom) : (b.setPtpDom p dom f).pokes = b.pokes := rfl
@[simp] theorem Block.setPtpDom_ramLost (b : Block) (p dom : Nat) (f : PtpDom → PtpDom) : (b.setPtpDom p dom f).ramLost = b.ramLost := rfl
@[simp] theorem Block.setPtpDom_fab (b : Block) (p dom : Nat) (f : PtpDom → PtpDom) : (b.setPtpDom p dom f).fab = b.fab := rfl
@[simp] theorem Block.setPtpDom_mg (b : Block) (p dom : Nat) (f : PtpDom → PtpDom) : (b.setPtpDom p dom f).mg = b.mg := rfl
@[simp] theorem Block.setPtpDom_ln (b : Block) (p dom : Nat) (f : PtpDom → PtpDom) : (b.setPtpDom p dom f).ln = b.ln := rfl
@[simp] theorem Block.setPtpDom_gn (b : Block) (p dom : Nat) (f : PtpDom → PtpDom) : (b.setPtpDom p dom f).gn = b.gn := rfl
@[simp] theorem Block.setPtpDom_cp (b : Block) (p dom : Nat) (f : PtpDom → PtpDom) : (b.setPtpDom p dom f).cp = b.cp := rfl
@[simp] theorem Block.setPtpDom_pr (b : Block) (p dom : Nat) (f : PtpDom → PtpDom) : (b.setPtpDom p dom f).pr = b.pr := rfl
@[simp] theorem Block.setPtpDom_pw (b : Block) (p dom : Nat) (f : PtpDom → PtpDom) : (b.setPtpDom p dom f).pw = b.pw := rfl
@[simp] theorem Block.setPtpDom_tm_mt (b : Block) (p dom : Nat) (f : PtpDom → PtpDom) : (b.setPtpDom p dom f).tm.mt = b.tm.mt := rfl
@[simp] theorem Block.setPtpDom_tm_reel (b : Block) (p dom : Nat) (f : PtpDom → PtpDom) : (b.setPtpDom p dom f).tm.reel = b.tm.reel := rfl
@[simp] theorem Block.setPtpDom_tm_esmc (b : Block) (p dom : Nat) (f : PtpDom → PtpDom) : (b.setPtpDom p dom f).tm.esmc = b.tm.esmc := rfl
@[simp] theorem Block.setPtpDom_tm_pe (b : Block) (p dom : Nat) (f : PtpDom → PtpDom) : (b.setPtpDom p dom f).tm.pe = b.tm.pe := rfl
@[simp] theorem Block.setPtpDom_tm_out (b : Block) (p dom : Nat) (f : PtpDom → PtpDom) : (b.setPtpDom p dom f).tm.out = b.tm.out := rfl
@[simp] theorem Block.setPtpDom_tm_commit (b : Block) (p dom : Nat) (f : PtpDom → PtpDom) : (b.setPtpDom p dom f).tm.commit = b.tm.commit := rfl
@[simp] theorem Block.setPtpDom_tm_refin (b : Block) (p dom : Nat) (f : PtpDom → PtpDom) : (b.setPtpDom p dom f).tm.refin = b.tm.refin := rfl
@[simp] theorem Block.setPtpDom_tm_slot (b : Block) (p dom : Nat) (f : PtpDom → PtpDom) : (b.setPtpDom p dom f).tm.slot = b.tm.slot := rfl
@[simp] theorem Block.setPtpDom_tm_sel (b : Block) (p dom : Nat) (f : PtpDom → PtpDom) : (b.setPtpDom p dom f).tm.sel = b.tm.sel := rfl
@[simp] theorem Block.setPtpDom_tm_osc (b : Block) (p dom : Nat) (f : PtpDom → PtpDom) : (b.setPtpDom p dom f).tm.osc = b.tm.osc := rfl
@[simp] theorem Block.setPtpDom_tm_ho (b : Block) (p dom : Nat) (f : PtpDom → PtpDom) : (b.setPtpDom p dom f).tm.ho = b.tm.ho := rfl
@[simp] theorem Block.setPtpDom_tm_cal (b : Block) (p dom : Nat) (f : PtpDom → PtpDom) : (b.setPtpDom p dom f).tm.cal = b.tm.cal := rfl
@[simp] theorem Block.setPtpDom_tm_tic (b : Block) (p dom : Nat) (f : PtpDom → PtpDom) : (b.setPtpDom p dom f).tm.tic = b.tm.tic := rfl
@[simp] theorem Block.setPtpDom_tm_ticRing (b : Block) (p dom : Nat) (f : PtpDom → PtpDom) : (b.setPtpDom p dom f).tm.ticRing = b.tm.ticRing := rfl
@[simp] theorem Block.setPtpDom_tm_ticNext (b : Block) (p dom : Nat) (f : PtpDom → PtpDom) : (b.setPtpDom p dom f).tm.ticNext = b.tm.ticNext := rfl
@[simp] theorem Block.setPtpDom_rd (b : Block) (p dom : Nat) (f : PtpDom → PtpDom) (key : Nat) : (b.setPtpDom p dom f).rd key = b.rd key := rfl
@[simp] theorem Block.setPtpDom_rdN (b : Block) (p dom : Nat) (f : PtpDom → PtpDom) (key : Nat) : (b.setPtpDom p dom f).rdN key = b.rdN key := rfl
@[simp] theorem Block.setPtpDom_on (b : Block) (p dom : Nat) (f : PtpDom → PtpDom) (key : Nat) : (b.setPtpDom p dom f).on key = b.on key := rfl

-- setBox

@[simp] theorem Block.setBox_cyc (b : Block) (fn : Nat) (f : Mailbox → Mailbox) : (b.setBox fn f).cyc = b.cyc := rfl
@[simp] theorem Block.setBox_free (b : Block) (fn : Nat) (f : Mailbox → Mailbox) : (b.setBox fn f).free = b.free := rfl
@[simp] theorem Block.setBox_od (b : Block) (fn : Nat) (f : Mailbox → Mailbox) : (b.setBox fn f).od = b.od := rfl
@[simp] theorem Block.setBox_blobs (b : Block) (fn : Nat) (f : Mailbox → Mailbox) : (b.setBox fn f).blobs = b.blobs := rfl
@[simp] theorem Block.setBox_clk (b : Block) (fn : Nat) (f : Mailbox → Mailbox) : (b.setBox fn f).clk = b.clk := rfl
@[simp] theorem Block.setBox_cross (b : Block) (fn : Nat) (f : Mailbox → Mailbox) : (b.setBox fn f).cross = b.cross := rfl
@[simp] theorem Block.setBox_gen (b : Block) (fn : Nat) (f : Mailbox → Mailbox) : (b.setBox fn f).gen = b.gen := rfl
@[simp] theorem Block.setBox_sent (b : Block) (fn : Nat) (f : Mailbox → Mailbox) : (b.setBox fn f).sent = b.sent := rfl
@[simp] theorem Block.setBox_pokes (b : Block) (fn : Nat) (f : Mailbox → Mailbox) : (b.setBox fn f).pokes = b.pokes := rfl
@[simp] theorem Block.setBox_ramLost (b : Block) (fn : Nat) (f : Mailbox → Mailbox) : (b.setBox fn f).ramLost = b.ramLost := rfl
@[simp] theorem Block.setBox_tm (b : Block) (fn : Nat) (f : Mailbox → Mailbox) : (b.setBox fn f).tm = b.tm := rfl
@[simp] theorem Block.setBox_fab (b : Block) (fn : Nat) (f : Mailbox → Mailbox) : (b.setBox fn f).fab = b.fab := rfl
@[simp] theorem Block.setBox_ln (b : Block) (fn : Nat) (f : Mailbox → Mailbox) : (b.setBox fn f).ln = b.ln := rfl
@[simp] theorem Block.setBox_gn (b : Block) (fn : Nat) (f : Mailbox → Mailbox) : (b.setBox fn f).gn = b.gn := rfl
@[simp] theorem Block.setBox_cp (b : Block) (fn : Nat) (f : Mailbox → Mailbox) : (b.setBox fn f).cp = b.cp := rfl
@[simp] theorem Block.setBox_pr (b : Block) (fn : Nat) (f : Mailbox → Mailbox) : (b.setBox fn f).pr = b.pr := rfl
@[simp] theorem Block.setBox_pw (b : Block) (fn : Nat) (f : Mailbox → Mailbox) : (b.setBox fn f).pw = b.pw := rfl
@[simp] theorem Block.setBox_mg_ev (b : Block) (fn : Nat) (f : Mailbox → Mailbox) : (b.setBox fn f).mg.ev = b.mg.ev := rfl
@[simp] theorem Block.setBox_mg_from_ (b : Block) (fn : Nat) (f : Mailbox → Mailbox) : (b.setBox fn f).mg.from_ = b.mg.from_ := rfl
@[simp] theorem Block.setBox_mg_lim (b : Block) (fn : Nat) (f : Mailbox → Mailbox) : (b.setBox fn f).mg.lim = b.mg.lim := rfl
@[simp] theorem Block.setBox_mg_fn (b : Block) (fn : Nat) (f : Mailbox → Mailbox) : (b.setBox fn f).mg.fn = b.mg.fn := rfl
@[simp] theorem Block.setBox_mg_job (b : Block) (fn : Nat) (f : Mailbox → Mailbox) : (b.setBox fn f).mg.job = b.mg.job := rfl
@[simp] theorem Block.setBox_mg_nextJob (b : Block) (fn : Nat) (f : Mailbox → Mailbox) : (b.setBox fn f).mg.nextJob = b.mg.nextJob := rfl
@[simp] theorem Block.setBox_mg_cnt (b : Block) (fn : Nat) (f : Mailbox → Mailbox) : (b.setBox fn f).mg.cnt = b.mg.cnt := rfl
@[simp] theorem Block.setBox_mg_safe (b : Block) (fn : Nat) (f : Mailbox → Mailbox) : (b.setBox fn f).mg.safe = b.mg.safe := rfl
@[simp] theorem Block.setBox_mg_boot (b : Block) (fn : Nat) (f : Mailbox → Mailbox) : (b.setBox fn f).mg.boot = b.mg.boot := rfl
@[simp] theorem Block.setBox_mg_cfg (b : Block) (fn : Nat) (f : Mailbox → Mailbox) : (b.setBox fn f).mg.cfg = b.mg.cfg := rfl
@[simp] theorem Block.setBox_rd (b : Block) (fn : Nat) (f : Mailbox → Mailbox) (key : Nat) : (b.setBox fn f).rd key = b.rd key := rfl
@[simp] theorem Block.setBox_rdN (b : Block) (fn : Nat) (f : Mailbox → Mailbox) (key : Nat) : (b.setBox fn f).rdN key = b.rdN key := rfl
@[simp] theorem Block.setBox_on (b : Block) (fn : Nat) (f : Mailbox → Mailbox) (key : Nat) : (b.setBox fn f).on key = b.on key := rfl

-- setKeep

@[simp] theorem Block.setKeep_cyc (b : Block) (f : Keep → Keep) : (b.setKeep f).cyc = b.cyc := rfl
@[simp] theorem Block.setKeep_free (b : Block) (f : Keep → Keep) : (b.setKeep f).free = b.free := rfl
@[simp] theorem Block.setKeep_od (b : Block) (f : Keep → Keep) : (b.setKeep f).od = b.od := rfl
@[simp] theorem Block.setKeep_blobs (b : Block) (f : Keep → Keep) : (b.setKeep f).blobs = b.blobs := rfl
@[simp] theorem Block.setKeep_clk (b : Block) (f : Keep → Keep) : (b.setKeep f).clk = b.clk := rfl
@[simp] theorem Block.setKeep_cross (b : Block) (f : Keep → Keep) : (b.setKeep f).cross = b.cross := rfl
@[simp] theorem Block.setKeep_gen (b : Block) (f : Keep → Keep) : (b.setKeep f).gen = b.gen := rfl
@[simp] theorem Block.setKeep_sent (b : Block) (f : Keep → Keep) : (b.setKeep f).sent = b.sent := rfl
@[simp] theorem Block.setKeep_pokes (b : Block) (f : Keep → Keep) : (b.setKeep f).pokes = b.pokes := rfl
@[simp] theorem Block.setKeep_ramLost (b : Block) (f : Keep → Keep) : (b.setKeep f).ramLost = b.ramLost := rfl
@[simp] theorem Block.setKeep_tm (b : Block) (f : Keep → Keep) : (b.setKeep f).tm = b.tm := rfl
@[simp] theorem Block.setKeep_fab (b : Block) (f : Keep → Keep) : (b.setKeep f).fab = b.fab := rfl
@[simp] theorem Block.setKeep_mg (b : Block) (f : Keep → Keep) : (b.setKeep f).mg = b.mg := rfl
@[simp] theorem Block.setKeep_ln (b : Block) (f : Keep → Keep) : (b.setKeep f).ln = b.ln := rfl
@[simp] theorem Block.setKeep_cp (b : Block) (f : Keep → Keep) : (b.setKeep f).cp = b.cp := rfl
@[simp] theorem Block.setKeep_pr (b : Block) (f : Keep → Keep) : (b.setKeep f).pr = b.pr := rfl
@[simp] theorem Block.setKeep_pw (b : Block) (f : Keep → Keep) : (b.setKeep f).pw = b.pw := rfl
@[simp] theorem Block.setKeep_rd (b : Block) (f : Keep → Keep) (key : Nat) : (b.setKeep f).rd key = b.rd key := rfl
@[simp] theorem Block.setKeep_rdN (b : Block) (f : Keep → Keep) (key : Nat) : (b.setKeep f).rdN key = b.rdN key := rfl
@[simp] theorem Block.setKeep_on (b : Block) (f : Keep → Keep) (key : Nat) : (b.setKeep f).on key = b.on key := rfl

-- setGnssCh

@[simp] theorem Block.setGnssCh_cyc (b : Block) (c : Nat) (f : GnssCh → GnssCh) : (b.setGnssCh c f).cyc = b.cyc := rfl
@[simp] theorem Block.setGnssCh_free (b : Block) (c : Nat) (f : GnssCh → GnssCh) : (b.setGnssCh c f).free = b.free := rfl
@[simp] theorem Block.setGnssCh_od (b : Block) (c : Nat) (f : GnssCh → GnssCh) : (b.setGnssCh c f).od = b.od := rfl
@[simp] theorem Block.setGnssCh_blobs (b : Block) (c : Nat) (f : GnssCh → GnssCh) : (b.setGnssCh c f).blobs = b.blobs := rfl
@[simp] theorem Block.setGnssCh_clk (b : Block) (c : Nat) (f : GnssCh → GnssCh) : (b.setGnssCh c f).clk = b.clk := rfl
@[simp] theorem Block.setGnssCh_cross (b : Block) (c : Nat) (f : GnssCh → GnssCh) : (b.setGnssCh c f).cross = b.cross := rfl
@[simp] theorem Block.setGnssCh_gen (b : Block) (c : Nat) (f : GnssCh → GnssCh) : (b.setGnssCh c f).gen = b.gen := rfl
@[simp] theorem Block.setGnssCh_sent (b : Block) (c : Nat) (f : GnssCh → GnssCh) : (b.setGnssCh c f).sent = b.sent := rfl
@[simp] theorem Block.setGnssCh_pokes (b : Block) (c : Nat) (f : GnssCh → GnssCh) : (b.setGnssCh c f).pokes = b.pokes := rfl
@[simp] theorem Block.setGnssCh_ramLost (b : Block) (c : Nat) (f : GnssCh → GnssCh) : (b.setGnssCh c f).ramLost = b.ramLost := rfl
@[simp] theorem Block.setGnssCh_tm (b : Block) (c : Nat) (f : GnssCh → GnssCh) : (b.setGnssCh c f).tm = b.tm := rfl
@[simp] theorem Block.setGnssCh_fab (b : Block) (c : Nat) (f : GnssCh → GnssCh) : (b.setGnssCh c f).fab = b.fab := rfl
@[simp] theorem Block.setGnssCh_mg (b : Block) (c : Nat) (f : GnssCh → GnssCh) : (b.setGnssCh c f).mg = b.mg := rfl
@[simp] theorem Block.setGnssCh_ln (b : Block) (c : Nat) (f : GnssCh → GnssCh) : (b.setGnssCh c f).ln = b.ln := rfl
@[simp] theorem Block.setGnssCh_cp (b : Block) (c : Nat) (f : GnssCh → GnssCh) : (b.setGnssCh c f).cp = b.cp := rfl
@[simp] theorem Block.setGnssCh_pr (b : Block) (c : Nat) (f : GnssCh → GnssCh) : (b.setGnssCh c f).pr = b.pr := rfl
@[simp] theorem Block.setGnssCh_pw (b : Block) (c : Nat) (f : GnssCh → GnssCh) : (b.setGnssCh c f).pw = b.pw := rfl
@[simp] theorem Block.setGnssCh_rd (b : Block) (c : Nat) (f : GnssCh → GnssCh) (key : Nat) : (b.setGnssCh c f).rd key = b.rd key := rfl
@[simp] theorem Block.setGnssCh_rdN (b : Block) (c : Nat) (f : GnssCh → GnssCh) (key : Nat) : (b.setGnssCh c f).rdN key = b.rdN key := rfl
@[simp] theorem Block.setGnssCh_on (b : Block) (c : Nat) (f : GnssCh → GnssCh) (key : Nat) : (b.setGnssCh c f).on key = b.on key := rfl

-- setArc

@[simp] theorem Block.setArc_cyc (b : Block) (f : Arc → Arc) : (b.setArc f).cyc = b.cyc := rfl
@[simp] theorem Block.setArc_free (b : Block) (f : Arc → Arc) : (b.setArc f).free = b.free := rfl
@[simp] theorem Block.setArc_od (b : Block) (f : Arc → Arc) : (b.setArc f).od = b.od := rfl
@[simp] theorem Block.setArc_blobs (b : Block) (f : Arc → Arc) : (b.setArc f).blobs = b.blobs := rfl
@[simp] theorem Block.setArc_clk (b : Block) (f : Arc → Arc) : (b.setArc f).clk = b.clk := rfl
@[simp] theorem Block.setArc_cross (b : Block) (f : Arc → Arc) : (b.setArc f).cross = b.cross := rfl
@[simp] theorem Block.setArc_gen (b : Block) (f : Arc → Arc) : (b.setArc f).gen = b.gen := rfl
@[simp] theorem Block.setArc_sent (b : Block) (f : Arc → Arc) : (b.setArc f).sent = b.sent := rfl
@[simp] theorem Block.setArc_pokes (b : Block) (f : Arc → Arc) : (b.setArc f).pokes = b.pokes := rfl
@[simp] theorem Block.setArc_ramLost (b : Block) (f : Arc → Arc) : (b.setArc f).ramLost = b.ramLost := rfl
@[simp] theorem Block.setArc_tm (b : Block) (f : Arc → Arc) : (b.setArc f).tm = b.tm := rfl
@[simp] theorem Block.setArc_fab (b : Block) (f : Arc → Arc) : (b.setArc f).fab = b.fab := rfl
@[simp] theorem Block.setArc_mg (b : Block) (f : Arc → Arc) : (b.setArc f).mg = b.mg := rfl
@[simp] theorem Block.setArc_ln (b : Block) (f : Arc → Arc) : (b.setArc f).ln = b.ln := rfl
@[simp] theorem Block.setArc_gn (b : Block) (f : Arc → Arc) : (b.setArc f).gn = b.gn := rfl
@[simp] theorem Block.setArc_pr (b : Block) (f : Arc → Arc) : (b.setArc f).pr = b.pr := rfl
@[simp] theorem Block.setArc_pw (b : Block) (f : Arc → Arc) : (b.setArc f).pw = b.pw := rfl
@[simp] theorem Block.setArc_rd (b : Block) (f : Arc → Arc) (key : Nat) : (b.setArc f).rd key = b.rd key := rfl
@[simp] theorem Block.setArc_rdN (b : Block) (f : Arc → Arc) (key : Nat) : (b.setArc f).rdN key = b.rdN key := rfl
@[simp] theorem Block.setArc_on (b : Block) (f : Arc → Arc) (key : Nat) : (b.setArc f).on key = b.on key := rfl

-- setGraph

@[simp] theorem Block.setGraph_cyc (b : Block) (g : Nat) (f : Graph → Graph) : (b.setGraph g f).cyc = b.cyc := rfl
@[simp] theorem Block.setGraph_free (b : Block) (g : Nat) (f : Graph → Graph) : (b.setGraph g f).free = b.free := rfl
@[simp] theorem Block.setGraph_od (b : Block) (g : Nat) (f : Graph → Graph) : (b.setGraph g f).od = b.od := rfl
@[simp] theorem Block.setGraph_blobs (b : Block) (g : Nat) (f : Graph → Graph) : (b.setGraph g f).blobs = b.blobs := rfl
@[simp] theorem Block.setGraph_clk (b : Block) (g : Nat) (f : Graph → Graph) : (b.setGraph g f).clk = b.clk := rfl
@[simp] theorem Block.setGraph_cross (b : Block) (g : Nat) (f : Graph → Graph) : (b.setGraph g f).cross = b.cross := rfl
@[simp] theorem Block.setGraph_gen (b : Block) (g : Nat) (f : Graph → Graph) : (b.setGraph g f).gen = b.gen := rfl
@[simp] theorem Block.setGraph_sent (b : Block) (g : Nat) (f : Graph → Graph) : (b.setGraph g f).sent = b.sent := rfl
@[simp] theorem Block.setGraph_pokes (b : Block) (g : Nat) (f : Graph → Graph) : (b.setGraph g f).pokes = b.pokes := rfl
@[simp] theorem Block.setGraph_ramLost (b : Block) (g : Nat) (f : Graph → Graph) : (b.setGraph g f).ramLost = b.ramLost := rfl
@[simp] theorem Block.setGraph_tm (b : Block) (g : Nat) (f : Graph → Graph) : (b.setGraph g f).tm = b.tm := rfl
@[simp] theorem Block.setGraph_fab (b : Block) (g : Nat) (f : Graph → Graph) : (b.setGraph g f).fab = b.fab := rfl
@[simp] theorem Block.setGraph_mg (b : Block) (g : Nat) (f : Graph → Graph) : (b.setGraph g f).mg = b.mg := rfl
@[simp] theorem Block.setGraph_ln (b : Block) (g : Nat) (f : Graph → Graph) : (b.setGraph g f).ln = b.ln := rfl
@[simp] theorem Block.setGraph_gn (b : Block) (g : Nat) (f : Graph → Graph) : (b.setGraph g f).gn = b.gn := rfl
@[simp] theorem Block.setGraph_pr (b : Block) (g : Nat) (f : Graph → Graph) : (b.setGraph g f).pr = b.pr := rfl
@[simp] theorem Block.setGraph_pw (b : Block) (g : Nat) (f : Graph → Graph) : (b.setGraph g f).pw = b.pw := rfl
@[simp] theorem Block.setGraph_rd (b : Block) (g : Nat) (f : Graph → Graph) (key : Nat) : (b.setGraph g f).rd key = b.rd key := rfl
@[simp] theorem Block.setGraph_rdN (b : Block) (g : Nat) (f : Graph → Graph) (key : Nat) : (b.setGraph g f).rdN key = b.rdN key := rfl
@[simp] theorem Block.setGraph_on (b : Block) (g : Nat) (f : Graph → Graph) (key : Nat) : (b.setGraph g f).on key = b.on key := rfl

-- setStream

@[simp] theorem Block.setStream_cyc (b : Block) (i : Nat) (f : Stream → Stream) : (b.setStream i f).cyc = b.cyc := rfl
@[simp] theorem Block.setStream_free (b : Block) (i : Nat) (f : Stream → Stream) : (b.setStream i f).free = b.free := rfl
@[simp] theorem Block.setStream_od (b : Block) (i : Nat) (f : Stream → Stream) : (b.setStream i f).od = b.od := rfl
@[simp] theorem Block.setStream_blobs (b : Block) (i : Nat) (f : Stream → Stream) : (b.setStream i f).blobs = b.blobs := rfl
@[simp] theorem Block.setStream_clk (b : Block) (i : Nat) (f : Stream → Stream) : (b.setStream i f).clk = b.clk := rfl
@[simp] theorem Block.setStream_cross (b : Block) (i : Nat) (f : Stream → Stream) : (b.setStream i f).cross = b.cross := rfl
@[simp] theorem Block.setStream_gen (b : Block) (i : Nat) (f : Stream → Stream) : (b.setStream i f).gen = b.gen := rfl
@[simp] theorem Block.setStream_sent (b : Block) (i : Nat) (f : Stream → Stream) : (b.setStream i f).sent = b.sent := rfl
@[simp] theorem Block.setStream_pokes (b : Block) (i : Nat) (f : Stream → Stream) : (b.setStream i f).pokes = b.pokes := rfl
@[simp] theorem Block.setStream_ramLost (b : Block) (i : Nat) (f : Stream → Stream) : (b.setStream i f).ramLost = b.ramLost := rfl
@[simp] theorem Block.setStream_tm (b : Block) (i : Nat) (f : Stream → Stream) : (b.setStream i f).tm = b.tm := rfl
@[simp] theorem Block.setStream_fab (b : Block) (i : Nat) (f : Stream → Stream) : (b.setStream i f).fab = b.fab := rfl
@[simp] theorem Block.setStream_mg (b : Block) (i : Nat) (f : Stream → Stream) : (b.setStream i f).mg = b.mg := rfl
@[simp] theorem Block.setStream_ln (b : Block) (i : Nat) (f : Stream → Stream) : (b.setStream i f).ln = b.ln := rfl
@[simp] theorem Block.setStream_gn (b : Block) (i : Nat) (f : Stream → Stream) : (b.setStream i f).gn = b.gn := rfl
@[simp] theorem Block.setStream_pr (b : Block) (i : Nat) (f : Stream → Stream) : (b.setStream i f).pr = b.pr := rfl
@[simp] theorem Block.setStream_pw (b : Block) (i : Nat) (f : Stream → Stream) : (b.setStream i f).pw = b.pw := rfl
@[simp] theorem Block.setStream_rd (b : Block) (i : Nat) (f : Stream → Stream) (key : Nat) : (b.setStream i f).rd key = b.rd key := rfl
@[simp] theorem Block.setStream_rdN (b : Block) (i : Nat) (f : Stream → Stream) (key : Nat) : (b.setStream i f).rdN key = b.rdN key := rfl
@[simp] theorem Block.setStream_on (b : Block) (i : Nat) (f : Stream → Stream) (key : Nat) : (b.setStream i f).on key = b.on key := rfl

-- setImage

@[simp] theorem Block.setImage_cyc (b : Block) (i : Nat) (f : ImageSlot → ImageSlot) : (b.setImage i f).cyc = b.cyc := rfl
@[simp] theorem Block.setImage_free (b : Block) (i : Nat) (f : ImageSlot → ImageSlot) : (b.setImage i f).free = b.free := rfl
@[simp] theorem Block.setImage_od (b : Block) (i : Nat) (f : ImageSlot → ImageSlot) : (b.setImage i f).od = b.od := rfl
@[simp] theorem Block.setImage_blobs (b : Block) (i : Nat) (f : ImageSlot → ImageSlot) : (b.setImage i f).blobs = b.blobs := rfl
@[simp] theorem Block.setImage_clk (b : Block) (i : Nat) (f : ImageSlot → ImageSlot) : (b.setImage i f).clk = b.clk := rfl
@[simp] theorem Block.setImage_cross (b : Block) (i : Nat) (f : ImageSlot → ImageSlot) : (b.setImage i f).cross = b.cross := rfl
@[simp] theorem Block.setImage_gen (b : Block) (i : Nat) (f : ImageSlot → ImageSlot) : (b.setImage i f).gen = b.gen := rfl
@[simp] theorem Block.setImage_sent (b : Block) (i : Nat) (f : ImageSlot → ImageSlot) : (b.setImage i f).sent = b.sent := rfl
@[simp] theorem Block.setImage_pokes (b : Block) (i : Nat) (f : ImageSlot → ImageSlot) : (b.setImage i f).pokes = b.pokes := rfl
@[simp] theorem Block.setImage_ramLost (b : Block) (i : Nat) (f : ImageSlot → ImageSlot) : (b.setImage i f).ramLost = b.ramLost := rfl
@[simp] theorem Block.setImage_tm (b : Block) (i : Nat) (f : ImageSlot → ImageSlot) : (b.setImage i f).tm = b.tm := rfl
@[simp] theorem Block.setImage_fab (b : Block) (i : Nat) (f : ImageSlot → ImageSlot) : (b.setImage i f).fab = b.fab := rfl
@[simp] theorem Block.setImage_mg (b : Block) (i : Nat) (f : ImageSlot → ImageSlot) : (b.setImage i f).mg = b.mg := rfl
@[simp] theorem Block.setImage_ln (b : Block) (i : Nat) (f : ImageSlot → ImageSlot) : (b.setImage i f).ln = b.ln := rfl
@[simp] theorem Block.setImage_gn (b : Block) (i : Nat) (f : ImageSlot → ImageSlot) : (b.setImage i f).gn = b.gn := rfl
@[simp] theorem Block.setImage_cp (b : Block) (i : Nat) (f : ImageSlot → ImageSlot) : (b.setImage i f).cp = b.cp := rfl
@[simp] theorem Block.setImage_pr (b : Block) (i : Nat) (f : ImageSlot → ImageSlot) : (b.setImage i f).pr = b.pr := rfl
@[simp] theorem Block.setImage_rd (b : Block) (i : Nat) (f : ImageSlot → ImageSlot) (key : Nat) : (b.setImage i f).rd key = b.rd key := rfl
@[simp] theorem Block.setImage_rdN (b : Block) (i : Nat) (f : ImageSlot → ImageSlot) (key : Nat) : (b.setImage i f).rdN key = b.rdN key := rfl
@[simp] theorem Block.setImage_on (b : Block) (i : Nat) (f : ImageSlot → ImageSlot) (key : Nat) : (b.setImage i f).on key = b.on key := rfl

-- The state around the module

@[simp] theorem State.withBlock_pending (s : State) (b : Block) : (s.withBlock b).pending = s.pending := rfl
@[simp] theorem State.withBlock_ram (s : State) (b : Block) : (s.withBlock b).ram = b.react.ramAfter s.ram := rfl
@[simp] theorem State.withBlock_m (s : State) (b : Block) : (s.withBlock b).m = settle { b.react with pokes := [], ramLost := false } := rfl
@[simp] theorem State.idle_pending (s : State) : s.idle.pending = s.pending := rfl

/-- A command answers what State.act says: on a module that is up. -/
theorem State.act_up (s : State) (f : Memory → Block → Block) (h : s.m.up = true) : s.act f = .next (s.withBlock (f s.ram s.m)) := by
  simp [State.act, h]

/-- A command does nothing on a module that is held or unpowered. -/
theorem State.act_held (s : State) (f : Memory → Block → Block) (h : s.m.up = false) : s.act f = .next s := by simp [State.act, h]

/-- A command answers a next state with the same queue. -/
theorem State.act_next (s : State) (f : Memory → Block → Block) : ∃ t, s.act f = .next t ∧ t.pending = s.pending := by
  unfold State.act
  split
  · exact ⟨_, rfl, rfl⟩
  · exact ⟨_, rfl, rfl⟩

/-- What a command leads to on a module that is up. -/
theorem State.leads_act (s : State) (i : Instr) (f : Memory → Block → Block) (P : Block → Prop) (hi : exec i s = s.act f) (h : s.m.up = true)
    (hp : P (f s.ram s.m)) : s.leads i P := ⟨_, hi.trans (s.act_up f h), hp⟩

end Sys2Proof.Machine
end

