-- ==== Sys2Proof/WellFormed.lean ====
section
/-! DEFINITION. Which commands are well formed: each operand within the width of the field that carries it, and within what its row describes. -/

namespace Sys2Proof

open Sys2Proof.Machine

namespace Machine

/-- A requester: a VID of 12 bits, a MAC address of 48, a CAN node address of 8 (R404 to R407). -/
def Caller.wf : Caller → Bool
  | .inband _ vid src => decide (vid < 4096) && decide (src < 2 ^ 48)
  | .service vid src => decide (vid < 4096) && decide (src < 2 ^ 48)
  | .can _ node => decide (node < 256)
  | .pcie _ => true

/-- A request whose fields fit Table 15.2. What else is wrong with a request is the server's to answer (R527). -/
def Request.wf (q : Request) : Bool :=
  decide (q.op < 256) && decide (q.flags < 256) && decide (q.token < 65536) && decide (q.index < 65536) && decide (q.sub < 256) && decide (q.ty < 256)
    && decide (q.offset < 2 ^ 32) && decide (q.length < 65536) && decide (q.resv < 65536)

/-- A doorbell. -/
def Bell.wf : Bell → Bool
  | .bar2 _ => true
  | .entry c token => c.wf && decide (token < 65536)

/-- The three codes of a coefficient request: 0 hold, 1 increment, 2 decrement (R299). -/
def codesOk (t : Nat × Nat × Nat) : Bool := decide (t.1 ≤ 2) && decide (t.2.1 ≤ 2) && decide (t.2.2 ≤ 2)

/-- The bytes that a read of a descriptor in PCIe space returns: all 32, or none where the ring is in POOL space (R382). -/
def descOk (l : Bytes) : Bool := l.isEmpty || l.length == 32

/-- A memory that scrubbing reads, by its number (R466). -/
def memOk (m : Nat) : Bool := decide (1 ≤ m) && decide (m ≤ 5)

end Machine

/-- Whether a command is well formed. -/
def Instr.wf (i : Instr) : Bool :=
  match i with
  | .clockStartRequest _ => true
  | .clockStartComplete _ => true
  | .sleepDelayExpiry _ => true
  | .resetFenceAgree _ => true
  | .mtSetTime c token word => c.wf && decide (token < 65536) && decide (word < 2 ^ 48 * 65536000000000)
  | .secondsWrap => true
  | .mtStateRead c token _ => c.wf && decide (token < 65536)
  | .targetDue _ => true
  | .leapApply => true
  | .domainObserverChange _ _ _ => true
  | .domResidualZero => true
  | .reelPeriod _ => true
  | .reelMarkerTx _ stamp => stamp.ok
  | .reelTMarkerRx _ _ stamp => stamp.ok
  | .reelReportRx _ _ _ _ _ => true
  | .reelSlowWordRx _ _ => true
  | .reelAvgTimeExpiry _ => true
  | .reelPeerTimeout _ => true
  | .esmcPduRx _ pdu => decide (pdu.ql < 16)
  | .esmcInfoTx _ => true
  | .esmcEventTx _ => true
  | .esmcRxTimeout _ => true
  | .ptpSyncRx _ _ _ _ _ stamp => stamp.ok
  | .ptpFollowUpRx _ _ _ => true
  | .ptpDelayReqRx _ _ stamp => stamp.ok
  | .ptpDelayRespRx _ _ _ => true
  | .ptpPdelayReqRx _ _ stamp sent => stamp.ok && sent.ok
  | .ptpPdelayRespRx _ _ _ _ stamp => stamp.ok
  | .ptpPdelayRespFollowUpRx _ _ _ => true
  | .ptpAnnounceRx _ _ _ => true
  | .ptpSyncTx _ stamp => stamp.ok
  | .ptpDelayReqTx _ stamp => stamp.ok
  | .ptpAnnounceTx _ => true
  | .ptpAnnounceTimeout _ => true
  | .pePhaseSample _ => true
  | .outCommit c token => c.wf && decide (token < 65536)
  | .outCommitCancel c token => c.wf && decide (token < 65536)
  | .outCommitApply => true
  | .refinPulse _ frac => decide (0 ≤ frac) && decide (frac < 655360)
  | .refinPulseTimeout _ => true
  | .refinFreqChange _ _ => true
  | .outAlignLoss _ => true
  | .outputSquelch _ => true
  | .outputUnsquelch _ => true
  | .slotConfigWrite c token _ _ v => c.wf && decide (token < 65536) && decide (v < 256)
  | .slotLockoutWrite c token _ v => c.wf && decide (token < 65536) && decide (v < 256)
  | .slotSourceActive _ => true
  | .slotSourceInactive _ => true
  | .slotMonitorTick means => (means.map (·.1)).Nodup
  | .slotWtrExpiry _ => true
  | .slotWtrClear c token _ => c.wf && decide (token < 65536)
  | .selectorEvaluate => true
  | .transferHandover _ => true
  | .switchResidualZero => true
  | .selPhaseWrite c token v => c.wf && decide (token < 65536) && decide (v < 256)
  | .selForceWrite c token v => c.wf && decide (token < 65536) && decide (v < 256)
  | .selSettleExpiry => true
  | .oscWarmupClear => true
  | .oscTempExcursion => true
  | .steerWrite c token v => c.wf && decide (token < 65536) && decide (-2 ^ 31 ≤ v) && decide (v < 2 ^ 31)
  | .hoModelRecord _ => true
  | .hoModelValidCheck => true
  | .hoModelSave => true
  | .holdoverTick _ => true
  | .hoBudgetExceeded => true
  | .returnStep => true
  | .returnComplete => true
  | .codeDensityStart c token => c.wf && decide (token < 65536)
  | .converterRunComplete _ _ _ => true
  | .twinSwap _ _ => true
  | .calAutoTrigger => true
  | .calTempUpdate _ => true
  | .linkCalStart c token _ => c.wf && decide (token < 65536)
  | .linkCalComplete loops txs => loops.length == txs.length
  | .linkCalSave => true
  | .asySolverTick _ => true
  | .ticEdge _ _ _ => true
  | .ticEncode _ => true
  | .ticRecordWrite => true
  | .ticGateEnd _ => true
  | .ticOverflow _ => true
  | .ticArm c token _ => c.wf && decide (token < 65536)
  | .ticDisarm c token _ => c.wf && decide (token < 65536)
  | .ticRingRead c token n => c.wf && decide (token < 65536) && decide (n < 65536)
  | .linkUp _ _ => true
  | .linkDown _ _ => true
  | .linkdownHoldExpiry _ => true
  | .frameRx _ f _ stamp _ => !f.isEmpty && stamp.ok
  | .egressSchedule _ _ => true
  | .frameTxDone seen => seen.stamp.ok
  | .portIdleEntry _ => true
  | .portIdleWake _ => true
  | .macAgePass => true
  | .fdbRead c token => c.wf && decide (token < 65536)
  | .fdbWriteStatic c token => c.wf && decide (token < 65536)
  | .fdbDelete c token => c.wf && decide (token < 65536)
  | .fdbFlush c token => c.wf && decide (token < 65536)
  | .fdbFlushComplete => true
  | .bankWindow _ => true
  | .swReseed c token => c.wf && decide (token < 65536)
  | .wredAvgUpdate => true
  | .gclChange c token _ => c.wf && decide (token < 65536)
  | .gclChangeCancel c token _ => c.wf && decide (token < 65536)
  | .gclChangeApply _ => true
  | .gateEntry _ => true
  | .cqCopy => true
  | .laneTrainingFrameRx _ t => codesOk t.request && codesOk t.wish
  | .laneTrainingTimeout _ => true
  | .laneTrainingRetry _ => true
  | .prbsLockLoss _ errs => decide (256 ≤ errs) && decide (errs ≤ 1024)
  | .prbsClear c token _ => c.wf && decide (token < 65536)
  | .laneInjArm c token _ => c.wf && decide (token < 65536)
  | .laneInjDisarm c token _ => c.wf && decide (token < 65536)
  | .laneInjAct _ => true
  | .sidebandScan inputs => inputs.length == 32 && inputs.all fun v => decide (v < 256)
  | .i2cRead c token _ => c.wf && decide (token < 65536)
  | .i2cWrite c token _ => c.wf && decide (token < 65536)
  | .i2cTransactionDone _ _ _ data => decide (data.length ≤ 256)
  | .gnssDwell e _ _ elev azim _ => decide (e < 8) && decide (-90 ≤ elev) && decide (elev ≤ 90) && decide (azim < 360)
  | .gnssEpochLatch seen _ => (seen.map (·.channel)).Nodup
  | .gnssAntChange _ _ => true
  | .gnssAntRetry => true
  | .gnssJamDetect l1 l5 => decide (l1 < 65536) && decide (l5 < 65536)
  | .gnssDutySleep => true
  | .gnssDutyWake => true
  | .gnssKeepClear c token => c.wf && decide (token < 65536)
  | .gnssKeepSave => true
  | .gnssRingRead c token n => c.wf && decide (token < 65536) && decide (n < 65536)
  | .sensorFrameIngest => true
  | .operatorBlock _ _ => true
  | .alignWaitExpiry _ _ => true
  | .archiveFlashWrite => true
  | .archiveNvmeWrite _ => true
  | .archiveNvmeFlush _ => true
  | .arcSeek c token => c.wf && decide (token < 65536)
  | .arcSeekComplete => true
  | .arcRead c token n => c.wf && decide (token < 65536) && decide (n < 65536)
  | .dmaCopy _ desc _ => descOk desc
  | .dmaGather _ desc _ => descOk desc
  | .dmaAlloc _ desc => descOk desc
  | .dmaRef _ desc => descOk desc
  | .dmaRelease _ desc => descOk desc
  | .dmaBusError _ cause _ _ addr _ => decide (1 ≤ cause) && decide (cause ≤ 7) && decide (addr < 2 ^ 64)
  | .dmaRetry _ => true
  | .dmaResumeRetry c token _ => c.wf && decide (token < 65536)
  | .dmaResumeSkip c token _ => c.wf && decide (token < 65536)
  | .dmaDoorbell bell _ v => bell.wf && decide (v < 2 ^ 32)
  | .dmaCqRxFrame _ desc => descOk desc
  | .dmaRingFollowRecord _ => true
  | .dmaIrqHoldoffExpiry _ => true
  | .odRead c q => c.wf && q.wf && q.op != 2 && q.op != 3 && q.op != 4
  | .odWrite c q => c.wf && q.wf
  | .odReadSeg c q => c.wf && q.wf
  | .odWriteSeg c q => c.wf && q.wf
  | .stickyClearWrite c token index sub v => c.wf && decide (token < 65536) && decide (index < 65536) && decide (sub < 256) && decide (v < 2 ^ 64)
  | .domainSegTimeout => true
  | .canFragmentRx _ dest src ctl data => decide (dest < 256) && decide (src < 256) && decide (ctl < 256) && decide (data.length ≤ 63)
  | .canFragmentTimeout => true
  | .mbDoorbell _ q => q.wf
  | .mbAck _ => true
  | .mbEvqTailWrite _ tail _ => decide (tail < 2 ^ 32)
  | .apEntryWrite c token _ v => c.wf && decide (token < 65536) && decide (v < 2 ^ 64)
  | .eventDeliver _ _ => true
  | .tntEventNext c token _ => c.wf && decide (token < 65536)
  | .watchdogExpiry => true
  | .functionStart c token _ => c.wf && decide (token < 65536)
  | .functionStop c token _ => c.wf && decide (token < 65536)
  | .functionRun _ => true
  | .functionStopped _ => true
  | .jobStep _ _ => true
  | .jobPause c token _ => c.wf && decide (token < 65536)
  | .jobResume c token _ => c.wf && decide (token < 65536)
  | .jobAbort c token _ => c.wf && decide (token < 65536)
  | .imgCommit c token => c.wf && decide (token < 65536)
  | .imgBootSelect c token slot => c.wf && decide (token < 65536) && decide (slot < 256)
  | .imgConfirm => true
  | .cfgSave c token => c.wf && decide (token < 65536)
  | .cfgClear c token => c.wf && decide (token < 65536)
  | .configRestore => true
  | .heartbeatTx => true
  | .heartbeatRx h => h.carried.all fun x => match x with | .commit c => c.cfgs.length == 8 | .gate p _ => decide (p < 32)
  | .heartbeatMiss => true
  | .handoverNFall => true
  | .partnerAliveFall => true
  | .switchoverTablesLoaded => true
  | .stateExport => true
  | .snapshotRx _ _ _ => true
  | .snapshotAgeExpiry => true
  | .pairStartupTimeout => true
  | .pairSwitchBack c token => c.wf && decide (token < 65536)
  | .switchBackTimeout => true
  | .xwCheck code inst _ => decide (1 ≤ code) && decide (code ≤ 5) && decide (inst < 52)
  | .xwSelftest _ => true
  | .safeForce c token => c.wf && decide (token < 65536)
  | .safeClear c token => c.wf && decide (token < 65536)
  | .scrubPass fixed bad _ => fixed.all memOk && bad.all fun e => memOk e.1
  | .cntOverflow _ => true
  | .cntDump => true
  | .cntSnapshot c token => c.wf && decide (token < 65536)
  | .cntRingRead c token n => c.wf && decide (token < 65536) && decide (n < 65536)
  | .fipArm c token _ => c.wf && decide (token < 65536)
  | .fipDisarm c token _ => c.wf && decide (token < 65536)
  | .fipReorderTimeout _ => true
  | .fipDelayExpiry _ => true
  | .fiXwTest c token check => c.wf && decide (token < 65536) && decide (check < 256)
  | .fiEccTestSingle c token => c.wf && decide (token < 65536)
  | .fiEccTestDouble c token => c.wf && decide (token < 65536)
  | .vinBelowWarning vin vbak => decide (vin < 2 ^ 32) && decide (vbak < 2 ^ 32)
  | .vinReturn vin => decide (vin < 2 ^ 32)
  | .braceExit input => decide (input < 2 ^ 32)
  | .holdUpEntry vin vbak => decide (vin < 2 ^ 32) && decide (vbak < 2 ^ 32)
  | .holdUpRecover vin vbak vhold => decide (vin < 2 ^ 32) && decide (vbak < 2 ^ 32) && decide (vhold < 2 ^ 32)
  | .supplyFailReset vhold => decide (vhold < 2 ^ 32)
  | .powerOn vin vbak => decide (vin < 2 ^ 32) && decide (vbak < 2 ^ 32)
  | .warmPinReset => true
  | .coldPinReset => true
  | .rstWarm c token => c.wf && decide (token < 65536)
  | .rstFwRestart c token => c.wf && decide (token < 65536)
  | .rstFunction c token f => c.wf && decide (token < 65536) && decide (f < 256)
  | .resetRelease => true
  | .firmwareStart => true
  | .thermalTrip => true
  | .prbsLock _ => true
  | .gnssCoherentIntegration _ m => m.corr.length == 9 && decide (m.pli ≤ 1000) && decide (-90 ≤ m.elev) && decide (m.elev ≤ 90) && decide (m.azim < 360)
  | .ptpSyncTimeout _ => true
  | .pcieLinkChange gen width => decide (gen ≤ 4) && [0, 1, 2, 4].contains width && (gen == 0) == (width == 0)
  | .vbakAboveWarning vbak => decide (vbak < 2 ^ 32)
  | .holdupReadyChange vhold => decide (vhold < 2 ^ 32)
  | .partnerAliveRise => true
  | .phyResetRelease => true

end Sys2Proof
end

