-- ==== Sys2Proof/Tests/Slice0.lean ====
section
/-! SUPPORT. Tests: states that meet the hypotheses of each obligation, ill-formed commands, the worked examples of the spec. -/

namespace Sys2Proof.Tests

open Sys2Proof Sys2Proof.Machine

set_option Elab.async false

/-- A module that is up, with its server and every fast clock running. -/
def base : Block :=
  { mg := { srv := { running := true } }, clk := [(0, { phase := .running }), (1, { phase := .running }), (2, { phase := .running }), (3, { phase := .running })] }
/-- A module with entries at values. -/
def od (l : List (Nat × Int)) (b : Block := base) : Block := { b with od := l.foldl (fun (t : Table Int) (e : Nat × Int) => tput t e.1 e.2) b.od }
/-- A requester that the arrival-point table matches after reset: the service port, as tenant 0. -/
def me : Caller := .service 0 7
/-- The number of events numbered num with its arguments in tenant 0's queue. -/
def heard (b : Block) (num x y : Nat) : Nat := ((tat {} b.mg.ev 0).queue.filter fun e => e.num == num && e.argA == x && e.argB == y).length

/-- States and operands that meet the hypotheses of Obligations.ClocksAndCrossings, clause by clause. -/
theorem witness_ClocksAndCrossings :
    (let c : FastClock := .lpddr; let s : State := { m := { base with clk := [] } }; s.m.up = true ∧ (s.m.clock c).phase = .stopped ∧ s.m.rdN (startsKey c) + 1 < 2 ^ 64) ∧
    (let c : FastClock := .prixus; let s : State := { m := { base with clk := [(2, { phase := .starting 5 })], cyc := 5 } }; s.m.up = true ∧ s.m.clockReady c = true ∧ s.m.mg.srv.queue = []) ∧
    (let w : Waiting := ⟨0, 0, true, me, writeKey 1 Od.SAFE_FORCE 1, []⟩; let s : State := { m := { base with clk := [(2, { phase := .starting 5 })], cyc := 5, mg := { base.mg with srv := { base.mg.srv with queue := [w] } } } }; s.m.up = true ∧ s.m.clockReady .prixus = true ∧ s.m.mg.srv.running = true ∧ s.m.mg.srv.queue = [w] ∧ w.tenant < 8 ∧ s.m.agreed (Boundary.server (Fin.ofNat 8 w.tenant)).no = true) ∧
    (let c : FastClock := .evorvo; let s : State := { m := { base with cyc := 10 ^ 9 } }; s.m.up = true ∧ s.m.clockRuns c = true ∧ s.m.busyClock c = false ∧ s.m.sleepDelay c ≠ 0 ∧ (s.m.clock c).idleSince + s.m.sleepDelay c ≤ s.m.cyc) := by decide +kernel
theorem witness_ClocksAndCrossings_2 :
    (let s : State := { m := od [(Od.SLP_EVORVO_DELAY, 0)] }; s.m.up = true ∧ s.m.sleepDelay .evorvo = 0) ∧
    (let x : Boundary := .portEvents 3; let e : Pulse := { num := 0x3101, argA := 3, argB := 1 }; let s : State := { m := { base with cross := [(3, { srcEpoch := true, settled := false, toggles := [(e.source, ⟨0, none, some e⟩)] })] } }; s.m.up = true ∧ s.m.sideHeld x = false ∧ (s.m.crossing x.no).toggles = [(e.source, ⟨0, none, some e⟩)] ∧ 0 ≤ s.m.cyc) ∧
    (let x : Boundary := .ingress 3; let s : State := { m := { base with cross := [((Boundary.ingress 3).no, { srcEpoch := true, settled := false, used := 5 })] } }; s.m.up = true ∧ s.m.sideHeld x = false ∧ (s.m.crossing x.no).settled = false) := by decide +kernel

/-- States and operands that meet the hypotheses of Obligations.TimeOfDay, clause by clause. -/
theorem witness_TimeOfDay :
    (let word : Nat := wordWrap - 1; let q := writeKey 1 Od.MT_SET_TIME word; let s : State := { m := base }; s.grants me q 0 = true ∧ word < wordWrap ∧ (s.m.door me q 0).selected = none) ∧
    (let s : State := { m := base.setMt fun m => { m with mer := wordWrap - 655360 } }; s.m.up = true ∧ s.m.mer < wordWrap ∧ wordWrap ≤ s.m.mer + 655360) ∧
    (let o : Owner := .tic 7; let s : State := { m := base.setMt fun m => { m with mer := 1000, targets := [(23, ⟨1000, false⟩)] } }; s.m.up = true ∧ s.m.target o = some ⟨1000, false⟩ ∧ s.m.due 1000 = true ∧ o ≠ .outCommit) ∧
    (let s : State := { m := (od [(Od.MT_LEAP_PENDING, 2), (Od.MT_LEAP_TAI, 1000)]).setMt fun m => { m with mer := 1000 } }; s.m.up = true ∧ s.m.rdN Od.MT_LEAP_PENDING ≠ 0 ∧ s.m.reached (s.m.rdN Od.MT_LEAP_TAI) = true) := by decide +kernel
theorem witness_TimeOfDay_2 :
    (let s : State := { m := { base with cyc := 10 ^ 8 }.setMt fun m => { m with dom := ⟨1, 0, 10 ^ 12, 0⟩ } }; s.m.up = true ∧ s.m.tm.mt.dom.start ≠ 0 ∧ s.m.tm.mt.dom.rate ≠ 0 ∧ s.m.domResidual = 0) := by decide +kernel

/-- States and operands that meet the hypotheses of Obligations.StateReadAndObservers, clause by clause. -/
theorem witness_StateReadAndObservers :
    (let sub : Fin 8 := 7; let q := readRequest 1 0x2000 sub; let s : State := { m := od [(Od.MT_STICKY, 8)] }; s.takes me q 0 = true ∧ (rowOf (key 0x2000 sub)).isSome = true ∧ ((s.m.arriving me q).latchMt)[sub.val - 1]? = some 8 ∧ 0 < sub.val) ∧
    (let d : Fin 2 := 1; let s : State := { m := od [(Od.FN_STATE 39, 2), (Od.DOMX_KIND 1, 1)] }; s.m.up = true ∧ s.m.fnRuns (38 + d) = true ∧ s.m.rdN (Od.DOMX_KIND d) ≠ 0 ∧ ((List.range 24).all fun k => s.m.slotKind k == 0 && s.m.rdN (Od.SLOT_RANK k) == 15) = true ∧ s.m.selected = none) := by decide +kernel

/-- States and operands that meet the hypotheses of Obligations.ReelExchange, clause by clause. -/
theorem witness_ReelExchange :
    (let p : Fin 32 := 31; let s : State := { m := od [(Od.FN_STATE 31, 2), (Od.LT_MODE 31, 1), (Od.P_MODE 31, 3), (Od.P_LINK 31, 1)] }; s.m.up = true ∧ s.m.reelRuns p = true ∧ (s.m.reel p).period = none) ∧
    (let p : Fin 32 := 0; let s : State := { m := (od [(Od.FN_STATE 0, 2), (Od.LT_MODE 0, 1), (Od.P_MODE 0, 3), (Od.P_LINK 0, 1)]).setReel p fun r => { r with due := [5, 6], period := some 1 } }; s.m.up = true ∧ (s.m.reel p).due = [5, 6] ∧ (s.m.pf p).sending = none) ∧
    (let p : Fin 32 := 0; let pay : Nat := 9 * 2 ^ 24 + 2 ^ 16; let s : State := { m := od [(Od.FN_STATE 0, 2), (Od.LT_MODE 0, 1), (Od.P_MODE 0, 3), (Od.P_LINK 0, 1), (Od.LT_STATE 0, 2)] }; s.m.up = true ∧ s.m.reelRuns p = true ∧ readMarker (mkMarker 1 pay) = some (1, pay) ∧ bits pay 16 4 = 1 ∧ s.m.rdN (Od.LT_STATE p) = 2) ∧
    (let p : Fin 32 := 0; let s : State := { m := od [(Od.FN_STATE 0, 2), (Od.LT_MODE 0, 1), (Od.P_MODE 0, 3), (Od.P_LINK 0, 1), (Od.LT_STATE 0, 2)] }; s.m.up = true ∧ s.m.reelRuns p = true ∧ readMarker 0 = none ∧ s.m.rdN (Od.LT_MARKER_ERRORS p) + 1 < keySize (Od.LT_MARKER_ERRORS p)) := by decide +kernel
theorem witness_ReelExchange_2 :
    (let p : Fin 32 := 0; let s : State := { m := (od [(Od.FN_STATE 0, 2), (Od.LT_MODE 0, 1), (Od.P_MODE 0, 3), (Od.P_LINK 0, 1), (Od.LT_STATE 0, 3)]).setReel p fun r => { r with sent := [(4, 1000)], rx := some (6, 9000) } }; let d (k v : Nat) : Word64 := mkMarker k v; s.m.up = true ∧ s.m.reelRuns p = true ∧ (s.m.reel p).lost = false ∧ readMarker (d 2 3000) = some (2, 3000) ∧ readMarker (d 3 4) = some (3, 4) ∧ readMarker (d 4 5000) = some (4, 5000) ∧ readMarker (d 5 32768) = some (5, 32768) ∧ bit (32768 % 2 ^ 16) 15 = true ∧ (s.m.reel p).sent.find? (·.1 == 4 % 2 ^ 16) = some (4, 1000) ∧ (s.m.reel p).rx = some (6, 9000) ∧ (s.m.reel p).pair ≠ some (4, 6)) ∧
    (let p : Fin 32 := 0; let s : State := { m := (od [(Od.FN_STATE 0, 2), (Od.LT_MODE 0, 1), (Od.P_MODE 0, 3), (Od.P_LINK 0, 1), (Od.LT_STATE 0, 3)]).setReel p fun r => { r with sent := [(4, 1000)], rx := some (6, 500) } }; s.m.up = true ∧ s.m.reelRuns p = true ∧ tickDiff 500 1000 - tickDiff 3000 2000 < 0) ∧
    (let p : Fin 32 := 0; let pay : Nat := 7 * 2 ^ 36 + 5; let s : State := { m := (od [(Od.FN_STATE 0, 2), (Od.LT_MODE 0, 1), (Od.P_MODE 0, 3), (Od.P_LINK 0, 1)]).setReel p fun r => { r with words := [(6, 8)] } }; s.m.up = true ∧ s.m.reelRuns p = true ∧ readMarker (mkMarker 6 pay) = some (6, pay) ∧ bits pay 36 4 = 7 ∧ tget (s.m.reel p).words 6 = some 8) ∧
    (let p : Fin 32 := 0; let pay : Nat := 2 * 2 ^ 36 + 5; let s : State := { m := od [(Od.FN_STATE 0, 2), (Od.LT_MODE 0, 1), (Od.P_MODE 0, 3), (Od.P_LINK 0, 1), (Od.SLOT_KIND 23, 1), (Od.SLOT_PORT 23, 0), (Od.LT_OFFSET_UNC 0, 100)] }; s.m.up = true ∧ s.m.reelRuns p = true ∧ bits pay 36 4 = 2 ∧ s.m.slotKind 23 = 1 ∧ s.m.rdN (Od.SLOT_PORT 23) = p.val) := by decide +kernel
theorem witness_ReelExchange_3 :
    (let p : Fin 32 := 0; let s : State := { m := ((od [(Od.LT_STATE 0, 3)] { base with cyc := 10 ^ 10 }).setReel p fun r => { r with since := some 0 }) }; s.m.up = true ∧ s.m.rdN (Od.LT_STATE p) = 3 ∧ (s.m.reel p).since = some 0 ∧ 0 + ms (s.m.rdN (Od.LT_AVG_TIME p)) ≤ s.m.cyc) ∧
    (let p : Fin 32 := 0; let s : State := { m := ((od [(Od.LT_STATE 0, 5)] { base with cyc := secs 2 }).setReel p fun r => { r with lastT := some 0 }) }; s.m.up = true ∧ s.m.rdN (Od.LT_STATE p) ∈ [3, 4, 5] ∧ (s.m.reel p).lastT = some 0 ∧ 0 + secs 2 ≤ s.m.cyc) := by decide +kernel

/-- States and operands that meet the hypotheses of Obligations.EsmcLevels, clause by clause. -/
theorem witness_EsmcLevels :
    (let p : Fin 32 := 2; let s : State := { m := od [(Od.FN_STATE 2, 2), (Od.LT_SYNCE_ESMC 2, 1)] }; s.m.up = true ∧ s.m.rdN (Od.LT_SYNCE_ESMC p) ≠ 0 ∧ s.m.fnRuns p = true ∧ s.m.inTest p = false ∧ s.m.rdN (Od.LT_QL_RX p) ≠ 4) ∧
    (let p : Fin 32 := 2; let s : State := { m := od [(Od.FN_STATE 2, 2), (Od.P_LINK 2, 1), (Od.LT_SYNCE_ESMC 2, 2)] }; s.m.up = true ∧ s.m.esmcSends p = true ∧ s.m.esmcDue p = true) ∧
    (let p : Fin 32 := 2; let s : State := { m := od [(Od.FN_STATE 2, 2), (Od.P_LINK 2, 1), (Od.LT_SYNCE_ESMC 2, 2), (Od.LT_QL_TX 2, 4)] }; s.m.up = true ∧ s.m.esmcSends p = true ∧ s.m.rdN (Od.LT_QL_TX p) ≠ s.m.qlSend p) ∧
    (let p : Fin 32 := 2; let s : State := { m := ({ base with cyc := secs 5 }).setEsmc p fun e => { e with lastRx := some 0 } }; s.m.up = true ∧ (tat {} s.m.tm.esmc p).lastRx = some 0 ∧ 0 + secs 5 ≤ s.m.cyc) := by decide +kernel

/-- States and operands that meet the hypotheses of Obligations.PtpReceived, clause by clause. -/
theorem witness_PtpReceived :
    (let p : Nat := 31; let b := base.setPtpDom p 7 fun q => { q with t1 := some 500, meanDelay := some 70, t2 := 20 }; (b.ptpDom p 7).t1 = some 500 ∧ b.ptpDelay p 7 = some 70) ∧
    (let p : Fin 32 := 31; let h : PtpMsg := { domain := 24, seq := 65535, src := 3, corr := 11 }; let s : State := { m := od [(Od.FN_STATE 31, 2), (Od.LT_MODE 31, 2), (Od.P_LINK 31, 1), (Od.DOMX_KIND 0, 1), (Od.DOMX_PTP_DOMAIN 0, 24)] }; s.m.up = true ∧ s.m.ptpTakes p h = true ∧ s.m.ptpDomain h.domain = true) ∧
    (let p : Fin 32 := 0; let h : PtpMsg := { domain := 24, seq := 9, src := 3, corr := 11 }; let s : State := { m := (od [(Od.FN_STATE 0, 2), (Od.LT_MODE 0, 2), (Od.P_LINK 0, 1)]).setPtpDom p 24 fun q => { q with syncWait := some (9, 3, 4) } }; s.m.up = true ∧ s.m.ptpTakes p h = true ∧ (s.m.ptpDom p h.domain).syncWait = some (h.seq, h.src, 4)) ∧
    (let p : Fin 32 := 0; let h : PtpMsg := { domain := 24, seq := 9, src := 3, corr := 11 }; let s : State := { m := od [(Od.FN_STATE 0, 2), (Od.LT_MODE 0, 2), (Od.P_LINK 0, 1), (Od.LT_PTP_PORT_STATE 0, 6), (Od.LT_PTP_DOMAIN 0, 24), (Od.LT_PTP_DELAY_MECH 0, 0)] }; s.m.up = true ∧ s.m.ptpTakes p h = true ∧ s.m.rdN (Od.LT_PTP_PORT_STATE p) = 6 ∧ s.m.rdN (Od.LT_PTP_DELAY_MECH p) = 0 ∧ h.domain = s.m.rdN (Od.LT_PTP_DOMAIN p)) := by decide +kernel
theorem witness_PtpReceived_2 :
    (let p : Fin 32 := 0; let h : PtpMsg := { domain := 24, seq := 9, src := 3, corr := 11 }; let s : State := { m := (od [(Od.FN_STATE 0, 2), (Od.LT_MODE 0, 2), (Od.P_LINK 0, 1)]).setPtpDom p 24 fun q => { q with t3 := some (9, 200), t1 := some 100, t2 := 150 } }; s.m.up = true ∧ s.m.ptpTakes p h = true ∧ (s.m.ptpDom p h.domain).t3 = some (h.seq, 200) ∧ (s.m.ptpDom p h.domain).t1 = some 100) ∧
    (let p : Fin 32 := 0; let h : PtpMsg := { domain := 24, seq := 9, src := 3, corr := 11 }; let s : State := { m := od [(Od.FN_STATE 0, 2), (Od.LT_MODE 0, 2), (Od.P_LINK 0, 1), (Od.LT_PTP_DELAY_MECH 0, 1), (Od.LT_PTP_ONE_STEP 0, 0), (Od.LT_PTP_DOMAIN 0, 24)] }; s.m.up = true ∧ s.m.ptpTakes p h = true ∧ s.m.ptpOwn p h.domain = true ∧ s.m.rdN (Od.LT_PTP_DELAY_MECH p) = 1 ∧ s.m.on (Od.LT_PTP_ONE_STEP p) = false ∧ s.m.eventLeaves p 100 = true) ∧
    (let p : Fin 32 := 0; let h : PtpMsg := { domain := 24, seq := 9, src := 3, corr := 11 }; let s : State := { m := od [(Od.FN_STATE 0, 2), (Od.LT_MODE 0, 2), (Od.P_LINK 0, 1), (Od.LT_PTP_DELAY_MECH 0, 1), (Od.LT_PTP_ONE_STEP 0, 1), (Od.LT_PTP_DOMAIN 0, 24)] }; s.m.up = true ∧ s.m.ptpTakes p h = true ∧ s.m.ptpOwn p h.domain = true ∧ s.m.rdN (Od.LT_PTP_DELAY_MECH p) = 1 ∧ s.m.on (Od.LT_PTP_ONE_STEP p) = true ∧ s.m.eventLeaves p 100 = true) ∧
    (let p : Fin 32 := 0; let h : PtpMsg := { domain := 24, seq := 9, src := 3, corr := 11 }; let s : State := { m := (od [(Od.FN_STATE 0, 2), (Od.LT_MODE 0, 2), (Od.P_LINK 0, 1)]).setPtp p fun q => { q with pdelayT1 := some (9, 500) } }; s.m.up = true ∧ s.m.ptpTakes p h = true ∧ (s.m.ptp p).pdelayT1 = some (h.seq, 500)) := by decide +kernel
theorem witness_PtpReceived_3 :
    (let p : Fin 32 := 0; let h : PtpMsg := { domain := 24, seq := 9, src := 3, corr := 11 }; let s : State := { m := (od [(Od.FN_STATE 0, 2), (Od.LT_MODE 0, 2), (Od.P_LINK 0, 1)]).setPtp p fun q => { q with pdelayT1 := some (9, 500), pdelayWait := some (9, 600, 90000, 4) } }; s.m.up = true ∧ s.m.ptpTakes p h = true ∧ (s.m.ptp p).pdelayWait = some (h.seq, 600, 90000, 4) ∧ (s.m.ptp p).pdelayT1 = some (9, 500)) := by decide +kernel

/-- States and operands that meet the hypotheses of Obligations.PtpAnnounceAndSent, clause by clause. -/
theorem witness_PtpAnnounceAndSent :
    (let p : Fin 32 := 31; let h : PtpMsg := { domain := 24, seq := 9, src := 3, corr := 0 }; let s : State := { m := od ([(Od.FN_STATE 31, 2), (Od.LT_MODE 31, 2), (Od.P_LINK 31, 1), (Od.DOMX_KIND 0, 1), (Od.DOMX_PTP_DOMAIN 0, 24), (Od.SEL_SELECTED, 255)] ++ (List.range 24).map fun k => (Od.SLOT_KIND k, 0)) }; s.m.up = true ∧ s.m.ptpTakes p h = true ∧ s.m.ptpDomain h.domain = true ∧ ((List.range 24).all fun k => s.m.slotKind k == 0 && s.m.rdN (Od.SLOT_RANK k) == 15) = true ∧ s.m.selected = none) ∧
    (let p : Fin 32 := 0; let s : State := { m := ((od [(Od.LT_PTP_PORT_STATE 0, 9)] { base with cyc := secs 100 }).setPtpDom p 24 fun q => { q with lastAnnounce := some 0, logAnnounce := 1, parent := some {} }) }; s.m.up = true ∧ s.m.announceLate p 24 = true) ∧
    (let p : Fin 32 := 0; let s : State := { m := (((od [(Od.LT_PTP_PORT_STATE 0, 9)] { base with cyc := secs 100 }).setPtpDom p 24 fun q => { q with lastAnnounce := some 0, logAnnounce := 1, parent := some {} })).setPtpDom p 25 fun q => { q with lastAnnounce := some (secs 99), logAnnounce := 1, parent := some {} } }; s.m.up = true ∧ s.m.announceLate p 24 = true ∧ s.m.announceLate p 25 = false) ∧
    (let p : Fin 32 := 0; let s : State := { m := ((od [(Od.SLOT_KIND 23, 2), (Od.SLOT_PORT 23, 0), (Od.SLOT_STATE 23, 3), (Od.SLOT_PTP_DOMAIN 23, 1), (Od.DOMX_PTP_DOMAIN 0, 24)] { base with cyc := 3 * logCycles (-3) }).setPtpDom p 24 fun q => { q with lastSync := some 0, logSync := -3 }) }; s.m.up = true ∧ s.m.syncLate p 24 = true) := by decide +kernel
theorem witness_PtpAnnounceAndSent_2 :
    (let p : Fin 32 := 0; let s : State := { m := od [(Od.FN_STATE 0, 2), (Od.LT_MODE 0, 2), (Od.P_LINK 0, 1), (Od.LT_PTP_PORT_STATE 0, 6), (Od.LT_PTP_DOMAIN 0, 24), (Od.LT_PTP_ONE_STEP 0, 0)] }; s.m.up = true ∧ s.m.ptpMaster p = true ∧ s.m.intervalDue (s.m.ptp p).syncSentAt (s.m.rd (Od.LT_PTP_LOG_SYNC p)) = true ∧ s.m.on (Od.LT_PTP_ONE_STEP p) = false ∧ s.m.eventLeaves p 100 = true) ∧
    (let p : Fin 32 := 0; let s : State := { m := od [(Od.FN_STATE 0, 2), (Od.LT_MODE 0, 2), (Od.P_LINK 0, 1), (Od.LT_PTP_PORT_STATE 0, 6), (Od.LT_PTP_DOMAIN 0, 24), (Od.LT_PTP_ONE_STEP 0, 1)] }; s.m.up = true ∧ s.m.ptpMaster p = true ∧ s.m.intervalDue (s.m.ptp p).syncSentAt (s.m.rd (Od.LT_PTP_LOG_SYNC p)) = true ∧ s.m.on (Od.LT_PTP_ONE_STEP p) = true ∧ s.m.eventLeaves p 100 = true) ∧
    (let p : Fin 32 := 0; let s : State := { m := (od [(Od.FN_STATE 0, 2), (Od.LT_MODE 0, 2), (Od.P_LINK 0, 1), (Od.LT_PTP_PORT_STATE 0, 9), (Od.LT_PTP_DELAY_MECH 0, 1), (Od.LT_PTP_DOMAIN 0, 24)]).setPtp p fun q => { q with delaySeq := 65535 } }; let l := s.m.ptpTimed p 2 (s.m.rdN (Od.LT_PTP_DOMAIN p)) 65535 false 0 0 0 none; s.m.up = true ∧ s.m.ptpRuns p = true ∧ s.m.rdN (Od.LT_PTP_DELAY_MECH p) = 1 ∧ s.m.intervalDue (s.m.ptp p).delaySentAt (s.m.rd (Od.LT_PTP_LOG_DELAY p)) = true ∧ (s.m.ptp p).delaySeq = 65535 ∧ s.m.eventLeaves p l.length = true) ∧
    (let p : Fin 32 := 0; let s : State := { m := (od [(Od.FN_STATE 0, 2), (Od.LT_MODE 0, 2), (Od.P_LINK 0, 1), (Od.LT_PTP_PORT_STATE 0, 8), (Od.LT_PTP_DELAY_MECH 0, 0), (Od.DOMX_KIND 1, 1), (Od.DOMX_PTP_DOMAIN 1, 24)]).setPtpDom p 24 fun q => { q with lastSync := some 0 } }; let l := s.m.ptpTimed p 1 24 0 false 0 0 0 none; s.m.up = true ∧ s.m.ptpRuns p = true ∧ s.m.rdN (Od.LT_PTP_DELAY_MECH p) = 0 ∧ s.m.rdN (Od.LT_PTP_PORT_STATE p) ∈ [8, 9] ∧ s.m.delayDomain p = some 24 ∧ (s.m.ptp p).delaySeq = 0 ∧ s.m.eventLeaves p l.length = true) := by decide +kernel
theorem witness_PtpAnnounceAndSent_3 :
    (let p : Fin 32 := 0; let s : State := { m := od [(Od.FN_STATE 0, 2), (Od.LT_MODE 0, 2), (Od.P_LINK 0, 1), (Od.LT_PTP_PORT_STATE 0, 6), (Od.LT_PTP_DOMAIN 0, 24)] }; s.m.up = true ∧ s.m.ptpMaster p = true ∧ s.m.intervalDue (s.m.ptp p).announceSentAt (s.m.rd (Od.LT_PTP_LOG_ANNOUNCE p)) = true) := by decide +kernel

/-- States and operands that meet the hypotheses of Obligations.SamplesAndCommits, clause by clause. -/
theorem witness_SamplesAndCommits :
    (let e : Fin 3 := 2; let s : State := { m := od [(Od.FN_STATE 35, 2)] }; s.m.up = true ∧ s.m.fnRuns (33 + e) = true) ∧
    (let k : Fin 24 := 23; let s : State := { m := od [(Od.SLOT_STATE 23, 4), (Od.SEL_SELECTED, 23), (Od.SLOT_KIND 23, 4)] }; s.m.up = true ∧ s.m.slotState k ≠ 0 ∧ (s.m.slot k).last = none ∧ s.m.tm.sel.transfer = none ∧ s.m.selected = some k.val) ∧
    (let s : State := { m := base }; let q := writeKey 1 Od.OUT_COMMIT 1; let a := s.m.door me q 0; let shadows := (List.range 8).map a.shadow; let tick := if a.rdN Od.OUT_COMMIT_AT = 0 then tickOf a.nextCommitSecond else a.rdN Od.OUT_COMMIT_AT; s.grants me q 0 = true ∧ firstOffence a shadows (List.range 8) = none ∧ a.pairCommits = false ∧ a.rdN Od.OUT_COMMIT_STATUS ≠ 1 ∧ a.due tick = false) ∧
    (let s : State := { m := (base.submit me (writeKey 1 Od.OUT_COMMIT 1)) }; let q := writeKey 2 Od.OUT_COMMIT 2; s.grants me q 0 = true ∧ (s.m.door me q 0).tm.commit.isSome = true) := by decide +kernel
theorem witness_SamplesAndCommits_2 :
    (let y := od [(Od.OUT_MODE 7, 1), (Od.OUT_COMMIT_AT, 1000)]; let s : State := { m := (y.submit me (writeKey 1 Od.OUT_COMMIT 1)).setMt fun m => { m with mer := 1000 * 65536 } }; let t : Target := (s.m.target .outCommit).getD {}; let c : Commit := s.m.tm.commit.getD {}; s.m.up = true ∧ s.m.target .outCommit = some t ∧ s.m.due t.tick = true ∧ s.m.tm.commit = some c) ∧
    (let k : Fin 24 := 23; let s : State := { m := (od [(Od.SLOT_STATE 23, 4), (Od.SEL_SELECTED, 23), (Od.SLOT_KIND 23, 3)]) }; s.m.up = true ∧ s.m.slotState k ≠ 0 ∧ (s.m.slot k).last = none ∧ s.m.tm.sel.transfer = none ∧ s.m.selected = some k.val ∧ s.m.timeCapable k = false) := by decide +kernel

/-- States and operands that meet the hypotheses of Obligations.ReferencesAndOutputs, clause by clause. -/
theorem witness_ReferencesAndOutputs :
    (let r : Fin 2 := 1; let s : State := { m := od [(Od.FN_STATE 37, 2), (Od.REFIN_PULSE 1, 1)] }; s.m.up = true ∧ s.m.fnRuns (36 + r) = true ∧ s.m.on (Od.REFIN_PULSE r) = true) ∧
    (let r : Fin 2 := 0; let s : State := { m := (od [(Od.REFIN_STATUS 0, 3)] { base with cyc := ms 2050 }).setTm fun t => { t with refin := tput t.refin 0 ⟨some 0, []⟩ } }; s.m.up = true ∧ (tat {} s.m.tm.refin r).lastAt = some 0 ∧ 0 + ms 2050 ≤ s.m.cyc) ∧
    (let r : Fin 2 := 0; let s : State := { m := od [(Od.FN_STATE 36, 2), (Od.REFIN_FREQ 0, 2)] }; s.m.up = true ∧ s.m.fnRuns (36 + r) = true ∧ s.m.rdN (Od.REFIN_FREQ r) ≠ 0) ∧
    (let n : Fin 8 := 7; let s : State := { m := base.setOut 7 fun o => { o with cfg := { o.cfg with mode := 1, align := 2 } } }; s.m.up = true ∧ (s.m.out n).cfg.mode ≠ 0 ∧ (s.m.out n).cfg.align ≠ 0 ∧ (s.m.out n).flywheel = false ∧ s.m.alignLost n = true) := by decide +kernel
theorem witness_ReferencesAndOutputs_2 :
    (let n : Fin 8 := 0; let s : State := { m := (base.setOut 0 fun o => { o with cfg := { o.cfg with mode := 1, squelch := 1 } }) }; s.m.up = true ∧ (s.m.out n).cfg.mode ≠ 0 ∧ (s.m.out n).squelched = false ∧ s.m.squelchNow n = true) ∧
    (let n : Fin 8 := 0; let s : State := { m := (base.setOut 0 fun o => { o with cfg := { o.cfg with mode := 1, squelch := 0 }, squelched := true }) }; s.m.up = true ∧ (s.m.out n).squelched = true ∧ s.m.squelchNow n = false) := by decide +kernel

/-- States and operands that meet the hypotheses of Obligations.CandidateSlots, clause by clause. -/
theorem witness_CandidateSlots :
    (let k : Fin 24 := 23; let s : State := { m := base }; let q := writeKey 1 (SlotField.kind.key k) 9; let a := s.m.door me q 0; s.grants me q 0 = true ∧ a.rd (SlotField.kind.key k) ≠ 9) ∧
    (let k : Fin 24 := 0; let s : State := { m := base }; let q := writeKey 1 (SlotField.port.key k) 31; let a := s.m.door me q 0; s.grants me q 0 = true ∧ a.rd (SlotField.port.key k) ≠ 31) ∧
    (let k : Fin 24 := 0; let s : State := { m := base }; let q := writeKey 1 (SlotField.ptpDomain.key k) 2; let a := s.m.door me q 0; s.grants me q 0 = true ∧ a.rd (SlotField.ptpDomain.key k) ≠ 2) ∧
    (let k : Fin 24 := 5; let s : State := { m := od [(Od.SLOT_STATE 5, 3)] }; let q := writeKey 1 (Od.SLOT_LOCKOUT k) 1; s.grants me q 0 = true) := by decide +kernel
theorem witness_CandidateSlots_2 :
    (let k : Fin 24 := 23; let s : State := { m := od [(Od.SLOT_KIND 23, 3), (Od.SLOT_PORT 23, 31), (Od.P_LINK 31, 1)] }; s.m.up = true ∧ s.m.sourceActive k = true ∧ (s.m.slot k).active = false) ∧
    (let k : Fin 24 := 23; let s : State := { m := (od [(Od.SLOT_KIND 23, 3), (Od.SLOT_STATE 23, 1)]).setSlot 23 fun s => { s with active := true } }; s.m.up = true ∧ (s.m.slot k).active = true ∧ s.m.sourceActive k = false) ∧
    (let k : Fin 24 := 23; let s : State := { m := (od [(Od.SLOT_KIND 23, 3), (Od.SLOT_STATE 23, 1)]).setSlot 23 fun s => { s with active := true } }; let means : List (Fin 24 × Int) := [(23, -7)]; s.m.up = true ∧ s.m.slotState k ≠ 0 ∧ means.find? (fun e => e.1.val == k.val) = some (k, -7)) ∧
    (let k : Fin 24 := 23; let s : State := { m := (od [(Od.SLOT_KIND 23, 3), (Od.SLOT_STATE 23, 2)] { base with cyc := 9 }).setSlot 23 fun s => { s with active := true, wtrEnd := some 9 } }; s.m.up = true ∧ (s.m.slot k).wtrEnd = some 9 ∧ 9 ≤ s.m.cyc ∧ s.m.slotState k = 2 ∧ s.m.domainTracks k = true) := by decide +kernel
theorem witness_CandidateSlots_3 :
    (let k : Fin 24 := 23; let s : State := { m := (od [(Od.SLOT_KIND 23, 3), (Od.SLOT_STATE 23, 2)] { base with cyc := 9 }).setSlot 23 fun s => { s with active := true, wtrEnd := some 900 } }; let q := writeKey 1 (Od.SLOT_WTR_CLEAR k) 1; s.grants me q 0 = true ∧ (s.m.door me q 0).slotState k = 2 ∧ (s.m.door me q 0).domainTracks k = true) := by decide +kernel

/-- States and operands that meet the hypotheses of Obligations.SelectorCommands, clause by clause. -/
theorem witness_SelectorCommands :
    (let s : State := { m := od [(Od.SLOT_KIND 23, 4), (Od.SLOT_STATE 23, 3), (Od.SLOT_PRIORITY 23, 1), (Od.SEL_FORCE, 255), (Od.SEL_SELECTED, 255)] }; s.m.up = true ∧ s.m.standby = false ∧ 24 ≤ s.m.rdN Od.SEL_FORCE ∧ s.m.tm.sel.transfer = none ∧ s.m.best ((s.m.slotsWhere fun st => st == 3 || st == 4).filter fun k => s.m.rdN (Od.SLOT_PRIORITY k) != 0) = some 23 ∧ s.m.selected ≠ some 23) ∧
    (let t : Transfer := { target := 23, startAt := 0, n := 15, sum := 150 }; let s : State := { m := (od [(Od.SLOT_KIND 23, 4), (Od.SLOT_STATE 23, 3), (Od.SEL_SELECTED, 255), (Od.PE_LOCK_STATUS 0, 1)] { base with cyc := secs 100 }).setSel fun x => { x with transfer := some t } }; let u := s.m.transferTake t 33; s.m.up = true ∧ s.m.tm.sel.transfer = some t ∧ s.m.slotState t.target ≠ 0 ∧ t.startAt + ms (s.m.rdN Od.SEL_TRANSFER_TIME) ≤ s.m.cyc ∧ 16 ≤ u.n ∧ (s.m.slot t.target).last = none) ∧
    (let s : State := { m := ({ base with cyc := secs 100 }).setSel fun x => { x with residual := ⟨1, 0, 1000, 0⟩ } }; s.m.up = true ∧ s.m.tm.sel.residual.start ≠ 0 ∧ s.m.switchResidual = 0) ∧
    (let s : State := { m := base }; let q := writeKey 1 Od.SEL_PHASE 3; let a := s.m.door me q 0; s.grants me q 0 = true ∧ a.rd Od.SEL_PHASE ≠ 3) := by decide +kernel
theorem witness_SelectorCommands_2 :
    (let s : State := { m := base }; let q := writeKey 1 Od.SEL_FORCE 23; s.grants me q 0 = true) ∧
    (let s : State := { m := base }; let q := writeKey 1 Od.SEL_FORCE 255; s.grants me q 0 = true) ∧
    (let s : State := { m := (od [(Od.SEL_AUTO, 1), (Od.SEL_PHASE, 1), (Od.SEL_SETTLE_TIME, 100)] { base with cyc := secs 100 }).setSel fun x => { x with lockedAt := some 0 } }; s.m.up = true ∧ s.m.tm.sel.lockedAt = some 0 ∧ bit (s.m.rdN Od.SEL_AUTO) 0 = true ∧ s.m.rdN Od.SEL_PHASE ∈ [1, 3] ∧ max 0 s.m.tm.sel.phaseAt + secs (s.m.rdN Od.SEL_SETTLE_TIME) ≤ s.m.cyc) := by decide +kernel

/-- States and operands that meet the hypotheses of Obligations.OscillatorAndHoldover, clause by clause. -/
theorem witness_OscillatorAndHoldover :
    (let s : State := { m := od [(Od.OSC_WARMUP, 1)] { base with cyc := secs 30 } }; s.m.up = true ∧ s.m.on Od.OSC_WARMUP = true ∧ max s.m.tm.osc.startAt (s.m.tm.osc.outAt.getD 0) + secs 30 ≤ s.m.cyc) ∧
    (let s : State := { m := od [(Od.OSC_WARMUP, 0), (Od.SEL_PE0_STATE, 3)] }; s.m.up = true ∧ s.m.on Od.OSC_WARMUP = false) ∧
    (let s : State := { m := base }; let q := writeKey 1 Od.STEER_PPT (-10000000); s.grants me q 0 = true) ∧
    (let s : State := { m := (od [(Od.OSC_WARMUP, 0), (Od.SEL_PE0_STATE, 2)]).setHo fun h => { h with secY := 100, secN := 7 } }; s.m.up = true ∧ s.m.pe0 = 2 ∧ s.m.on Od.OSC_WARMUP = false) := by decide +kernel
theorem witness_OscillatorAndHoldover_2 :
    (let s : State := { m := od [(Od.OSC_WARMUP, 0), (Od.HO_MODEL_VALID, 0), (Od.HO_MIN_LOCK, 0)] }; let b := s.m.modelCheck; s.m.up = true ∧ s.m.on Od.HO_MODEL_VALID = false ∧ b.on Od.HO_MODEL_VALID = true) ∧
    (let s : State := { m := od [(Od.OSC_WARMUP, 1), (Od.HO_MODEL_VALID, 1)] }; let b := s.m.modelCheck; s.m.up = true ∧ s.m.on Od.HO_MODEL_VALID = true ∧ b.on Od.HO_MODEL_VALID = false) ∧
    (let s : State := { m := od [(Od.HO_AGEING, -5)] { base with cyc := secs 3600 } }; s.m.up = true ∧ s.m.rdN Od.BRACE_STATE = 0 ∧ s.m.mg.srv.running = true ∧ s.m.tm.ho.savedAt + secs 3600 ≤ s.m.cyc) ∧
    (let s : State := { m := (od [(Od.SEL_PE0_STATE, 4)] { base with cyc := secs 9 }).setHo fun h => { h with startAt := some (secs 2), tempE := 50000 } }; s.m.up = true ∧ s.m.pe0 ∈ [3, 4] ∧ s.m.tm.ho.startAt = some (secs 2)) := by decide +kernel
theorem witness_OscillatorAndHoldover_3 :
    (let s : State := { m := od [(Od.SEL_PE0_STATE, 3), (Od.HO_BUDGET, 100), (Od.HO_TERM, 100), (Od.SEL_AUTO, 0)] }; s.m.up = true ∧ s.m.pe0 = 3 ∧ s.m.rdN Od.HO_BUDGET ≤ s.m.rdN Od.HO_TERM ∧ bit (s.m.rdN Od.SEL_AUTO) 1 = false) ∧
    (let s : State := { m := ((od [(Od.RET_STATE, 2), (Od.RET_WINDOW_LEN, 86400)]).setHo fun h => { h with ret := ⟨-5, -5, 0, 0⟩ }).setMt fun m => { m with mer := 7 * ticksPerSec } }; s.m.up = true ∧ s.m.rdN Od.RET_STATE = 2 ∧ s.m.mer % ticksPerSec < 655360 ∧ s.m.inWindow s.m.mer = true) ∧
    (let s : State := { m := (od [(Od.RET_STATE, 1), (Od.SEL_PE0_STATE, 1)]).setHo fun h => { h with fromSpec := true } }; s.m.up = true ∧ s.m.rdN Od.RET_STATE = 1 ∧ s.m.retResidual = 0 ∧ s.m.tm.ho.fromSpec = true) := by decide +kernel

/-- States and operands that meet the hypotheses of Obligations.CalibrationCommands, clause by clause. -/
theorem witness_CalibrationCommands :
    (let s : State := { m := od [(Od.CAL_CD_MASK, 2 ^ 51 + 1)] }; let q := writeKey 1 Od.CAL_CD_START 1; let a := s.m.door me q 0; s.grants me q 0 = true ∧ ((maskBits 52 (a.rdN Od.CAL_CD_MASK)).all fun v => decide (36 ≤ v → v < 44 → a.fnState (40 + (v - 36)) = 0)) = true ∧ a.calBusy = false ∧ a.jobObject 1 = some 0) ∧
    (let v : Fin 52 := 51; let s : State := { m := base.setConv 51 fun v => { v with run := 1, need := 20 } }; let r := s.m.runCounts v [10, 0] [10, 0] [] []; s.m.up = true ∧ (s.m.conv v).run ≠ 0 ∧ (s.m.conv v).waits = false ∧ r.complete (s.m.conv v).need = true ∧ r.verdict ≠ 1) ∧
    (let v : Fin 52 := 0; let s : State := { m := base.setConv 0 fun v => { v with run := 1, need := 3200 } }; let h := List.replicate 1600 1; let r := s.m.runCounts v h h [] []; s.m.up = true ∧ (s.m.conv v).run ≠ 0 ∧ (s.m.conv v).waits = false ∧ r.complete (s.m.conv v).need = true ∧ r.verdict = 1 ∧ hasTwin v = true) ∧
    (let v : Fin 52 := 36; let s : State := { m := base.setConv 36 fun v => { v with run := 2, need := 12500 } }; let h := List.replicate 6250 1; let r := s.m.runCounts v h h [] []; s.m.up = true ∧ (s.m.conv v).run ≠ 0 ∧ (s.m.conv v).waits = false ∧ r.complete (s.m.conv v).need = true ∧ r.verdict = 1 ∧ hasTwin v = false) := by decide +kernel
theorem witness_CalibrationCommands_2 :
    (let v : Fin 52 := 0; let s : State := { m := { base with cyc := secs 1 }.setConv 0 fun v => { v with run := 1, waits := true, pend := ⟨[5, 6], 11, 7⟩ } }; s.m.up = true ∧ (s.m.conv v).waits = true ∧ (s.m.conv v).acceptedAt + secs 1 ≤ s.m.cyc ∧ s.m.convRuns v = false) ∧
    (let v : Fin 52 := 0; let s : State := { m := (od [(Od.FN_STATE 0, 2)] { base with cyc := secs 1 }).setConv 0 fun v => { v with run := 1, waits := true, pend := ⟨[5, 6], 11, 7⟩ } }; s.m.up = true ∧ (s.m.conv v).waits = true ∧ (s.m.conv v).acceptedAt + secs 1 ≤ s.m.cyc ∧ s.m.convRuns v = true) ∧
    (let v : Fin 52 := 51; let s : State := { m := od [(Od.CAL_AUTO_PERIOD, 60)] { base with cyc := secs 60 } }; s.m.up = true ∧ s.m.rdN Od.CAL_AUTO_PERIOD ≠ 0 ∧ hasTwin v = true ∧ (s.m.conv v).run = 0 ∧ (s.m.conv v).acceptedAt + secs (s.m.rdN Od.CAL_AUTO_PERIOD) ≤ s.m.cyc) ∧
    (let s : State := { m := base }; s.m.up = true) := by decide +kernel
theorem witness_CalibrationCommands_3 :
    (let p : Fin 32 := 31; let s : State := { m := base }; let q := writeKey 1 (Od.LC_START p) 1; let a := s.m.door me q 0; s.grants me q 0 = true ∧ a.fnState p = 0 ∧ ((lanesOf (a.pMode p) p).all fun l => a.rdN (Od.LANE_TEST l) == 0) = true ∧ a.calBusy = false ∧ a.jobObject 2 = some 0) ∧
    (let s : State := { m := (base.submit me (writeKey 1 (Od.LC_START 31) 1)).setJob 0 fun x => { x with temp := (base.submit me (writeKey 1 (Od.LC_START 31) 1)).rd Od.CAL_DIE_TEMP - 501 } }; s.m.up = true ∧ s.m.liveJob 2 = some 0 ∧ (s.m.job 0).arg = 31 ∧ 500 < (s.m.rd Od.CAL_DIE_TEMP - (s.m.job 0).temp).natAbs) ∧
    (let s : State := { m := (od [(Od.CAL_SETS_VALID, 0)]).submit me (writeKey 1 (Od.LC_START 31) 1) }; let p := 31; let tx := (s.m.portCorrections p).2.2.1 * 1000 + s.m.setNow (s.m.residItem p 31 0) + 300000; let rx := (s.m.portCorrections p).2.2.2 * 1000 + s.m.setNow (s.m.residItem p 31 1) - 300000; let loop := rx + tx - s.m.setNow (loopItem 31); let off := s.m.portOffsets p [(loop, tx)]; s.m.up = true ∧ s.m.liveJob 2 = some 0 ∧ (s.m.job 0).arg = 31 ∧ s.m.tm.cal.moved = false ∧ (s.m.rd Od.CAL_DIE_TEMP - (s.m.job 0).temp).natAbs ≤ 500 ∧ off.1.natAbs ≤ 300 ∧ off.2.natAbs ≤ 300) ∧
    (let s : State := { m := base.setCal fun x => { x with dirty := [31] } }; s.m.up = true ∧ s.m.nandHeld = false ∧ s.m.mg.srv.running = true ∧ s.m.tm.cal.dirty = [31]) := by decide +kernel
theorem witness_CalibrationCommands_4 :
    (let i : Fin 16 := 15; let s : State := { m := od [(Od.FN_STATE 84, 2), (Od.ASY_STATE 15, 1), (Od.ASY_PORT_P 15, 0), (Od.ASY_PORT_Q 15, 31), (Od.ASY_WL_P_TX 15, 1310000), (Od.ASY_WL_P_RX 15, 1270000), (Od.ASY_WL_Q_TX 15, 1550000), (Od.ASY_WL_Q_RX 15, 1490000), (Od.LT_STATE 0, 4), (Od.LT_STATE 31, 4), (Od.LT_CAL_STATE 0, 1), (Od.LT_CAL_STATE 31, 1)] }; s.m.up = true ∧ s.m.fnRuns (69 + i) = true ∧ s.m.rdN (Od.ASY_STATE i) = 1 ∧ s.m.asyWrong i = 0 ∧ s.m.asyReady i = true) := by decide +kernel

/-- States and operands that meet the hypotheses of Obligations.MeasurementInputs, clause by clause. -/
theorem witness_MeasurementInputs :
    (let c : Fin 8 := 7; let s : State := { m := (od [(Od.FN_STATE 47, 2), (Od.TIC_MODE 7, 2)]).setTic 7 fun t => { t with armed := true } }; s.m.up = true ∧ s.m.ticMeasures c = true ∧ true = (s.m.rdN (Od.TIC_SLOPE c) == 0) ∧ (s.m.tic c).lastAt = none ∧ (s.m.tic c).queue.length < 16) ∧
    (let c : Fin 8 := 7; let e : TicEdge := ⟨5, 3, 100, [], 0, 0, false, 0, true, []⟩; let s : State := { m := (od [(Od.FN_STATE 47, 2), (Od.TIC_MODE 7, 2)]).setTic 7 fun t => { t with armed := true, queue := [e] } }; s.m.up = true ∧ (s.m.tic c).queue = e :: [] ∧ s.m.ticMeasures c = true ∧ s.m.rdN (Od.TIC_MODE c) = 2 ∧ e.deaf.contains c.val = false ∧ (s.m.tic c).prev = none) ∧
    (let c : Fin 8 := 7; let e : TicEdge := ⟨5, 3, 100, [], 0, 0, false, 0, true, []⟩; let p : TicEdge := ⟨2, 4, 50, [], 0, 0, false, 0, true, []⟩; let s : State := { m := (od [(Od.FN_STATE 47, 2), (Od.TIC_MODE 7, 2)]).setTic 7 fun t => { t with armed := true, queue := [e], prev := some p } }; s.m.up = true ∧ (s.m.tic c).queue = e :: [] ∧ s.m.ticMeasures c = true ∧ s.m.rdN (Od.TIC_MODE c) = 2 ∧ e.deaf.contains c.val = false ∧ (s.m.tic c).prev = some p) ∧
    (let c : Fin 8 := 7; let s : State := { m := { (base.setTic 7 fun t => { t with records := [[1], [2]] }) with tm := { (base.setTic 7 fun t => { t with records := [[1], [2]] }).tm with ticNext := 7 } } }; s.m.up = true ∧ s.m.clockRuns .lpddr = true ∧ s.m.tm.ticNext = c ∧ (s.m.tic c).records = [1] :: [[2]]) := by decide +kernel
theorem witness_MeasurementInputs_2 :
    (let c : Fin 8 := 7; let s : State := { m := ((od [(Od.FN_STATE 47, 2), (Od.TIC_MODE 7, 3), (Od.TIC_GATE 7, 1)]).setTic 7 fun t => { t with armed := true }).setMt fun m => { m with mer := 65536000000 } }; s.m.up = true ∧ s.m.ticMeasures c = true ∧ s.m.rdN (Od.TIC_MODE c) = 3 ∧ ((s.m.tic c).gate + 1) * s.m.gateTicks c ≤ s.m.mer ∧ (s.m.tic c).queue = [] ∧ (s.m.tic c).first = none) ∧
    (let c : Fin 8 := 7; let f : TicEdge := ⟨2, 4, 50, [], 0, 0, false, 0, true, []⟩; let l : TicEdge := ⟨9, 4, 90, [], 0, 0, false, 0, true, []⟩; let s : State := { m := ((od [(Od.FN_STATE 47, 2), (Od.TIC_MODE 7, 3), (Od.TIC_GATE 7, 1)]).setTic 7 fun t => { t with armed := true, first := some f, last := some l, count := 3 }).setMt fun m => { m with mer := 65536000000 } }; s.m.up = true ∧ s.m.ticMeasures c = true ∧ s.m.rdN (Od.TIC_MODE c) = 3 ∧ ((s.m.tic c).gate + 1) * s.m.gateTicks c ≤ s.m.mer ∧ (s.m.tic c).queue = [] ∧ (s.m.tic c).first = some f ∧ (s.m.tic c).last = some l ∧ (s.m.tic c).count ≠ 0) ∧
    (let c : Fin 8 := 7; let f : TicEdge := ⟨2, 4, 50, [], 0, 0, false, 0, true, []⟩; let s : State := { m := (od [(Od.FN_STATE 47, 2), (Od.TIC_MODE 7, 2)] { base with cyc := 2 + 2 ^ 40 }).setTic 7 fun t => { t with armed := true, prev := some f } }; s.m.up = true ∧ s.m.ticMeasures c = true ∧ s.m.rdN (Od.TIC_MODE c) = 2 ∧ (s.m.tic c).prev = some f ∧ f.cyc + 2 ^ 40 ≤ s.m.cyc) ∧
    (let ch : Fin 8 := 7; let s : State := { m := od [(Od.FN_STATE 47, 2), (Od.TIC_MODE 7, 4)] }; let q := writeKey 1 (Od.TIC_ARM ch) 1; let a := s.m.door me q 0; s.grants me q 0 = true ∧ a.fnRuns (40 + ch) = true ∧ a.rdN (Od.TIC_ARM_AT ch) = 0 ∧ a.rdN (Od.TIC_MODE ch) ≠ 0) := by decide +kernel
theorem witness_MeasurementInputs_3 :
    (let ch : Fin 8 := 0; let s : State := { m := od [(Od.FN_STATE 40, 2), (Od.TIC_MODE 0, 4)] }; let q := writeKey 1 (Od.TIC_ARM ch) 2; let a := s.m.door me q 0; s.grants me q 0 = true ∧ a.fnRuns (40 + ch) = true) ∧
    (let s : State := { m := { (od [(Od.TIC_RING_WR, 2)]) with tm := { (od [(Od.TIC_RING_WR, 2)]).tm with ticRing := [List.replicate 40 1, List.replicate 40 2] } } }; let q := ringKey 1 Od.TIC_RING_DATA 65535; s.takes me q 0 = true) := by decide +kernel

/-- States and operands that meet the hypotheses of Obligations.PortLinks, clause by clause. -/
theorem witness_PortLinks :
    (let p : Fin 32 := 31; let s : State := { m := base.setPf 31 fun x => { x with modeInForce := 3 } }; s.m.up = true ∧ s.m.modeNow p ≠ 0 ∧ s.m.on (Od.P_LINK p) = false ∧ s.m.testAllowsLink p = true ∧ s.m.lanesTrained p = true) ∧
    (let p : Fin 32 := 31; let s : State := { m := od [(Od.P_LINK 31, 1), (Od.P_LINKDOWN_HOLD 31, 100)] }; s.m.up = true ∧ s.m.on (Od.P_LINK p) = true ∧ s.m.rdN (Od.P_LINKDOWN_HOLD p) ≠ 0) ∧
    (let p : Fin 32 := 31; let s : State := { m := (({ base with cyc := 9 }).setPf 31 fun x => { x with holdEnd := some 9 }).setMac [(7, ⟨0, false, 0, 0, 31⟩), (8, ⟨0, false, 0, 0, 30⟩)] }; s.m.up = true ∧ (s.m.pf p).holdEnd = some 9 ∧ 9 ≤ s.m.cyc ∧ s.m.on (Od.P_LINK p) = false) ∧
    (let p : Fin 32 := 31; let s : State := { m := od [(Od.FN_STATE 31, 2), (Od.P_IDLE_TIME 31, 10)] { base with cyc := us 10 } }; s.m.up = true ∧ s.m.idleDue p = true ∧ s.m.rdN (Od.P_IDLE_ENTRIES p) + 1 < keySize (Od.P_IDLE_ENTRIES p)) := by decide +kernel
theorem witness_PortLinks_2 :
    (let p : Fin 32 := 31; let s : State := { m := od [(Od.P_IDLE 31, 1)] }; s.m.up = true ∧ s.m.on (Od.P_IDLE p) = true ∧ (s.m.pf p).wakeAt = none) ∧
    (let p : Fin 32 := 31; let s : State := { m := (od [(Od.P_IDLE 31, 1)] { base with cyc := us 2 }).setPf 31 fun x => { x with wakeAt := some (us 2) } }; s.m.up = true ∧ s.m.wakeReady p = true ∧ (s.m.pf p).ingress = [] ∧ (s.m.pf p).own = []) := by decide +kernel

/-- States and operands that meet the hypotheses of Obligations.FrameReceived, clause by clause. -/
theorem witness_FrameReceived :
    (let p : Fin 32 := 3; let f : Bytes := List.replicate 64 0; let s : State := { m := od [(Od.P_LINK 3, 1)] }; s.m.up = true ∧ s.m.partHeld 1 = false ∧ s.m.on (Od.P_LINK p) = true ∧ s.m.inTest p = false ∧ s.m.partner p = false ∧ s.m.fnRuns p = false ∧ s.m.ptpAt p f (header f) = none ∧ isEsmc f (header f) = false ∧ s.m.laneOwner p = p ∧ s.m.rdN (Od.P_DROP_STOPPED p) + 1 < keySize (Od.P_DROP_STOPPED p)) ∧
    (let p : Fin 32 := 3; let f : Bytes := toBE 6 0x0180C2000002 ++ toBE 6 1 ++ toBE 2 0x8809 ++ toBE 1 10 ++ List.replicate 49 0; let s : State := { m := od [(Od.P_LINK 3, 1)] }; s.m.up = true ∧ s.m.partHeld 1 = false ∧ s.m.on (Od.P_LINK p) = true ∧ s.m.inTest p = false ∧ s.m.partner p = false ∧ s.m.fnRuns p = false ∧ isEsmc f (header f) = true) ∧
    (let p : Fin 32 := 3; let f : Bytes := List.replicate 64 0; let s : State := { m := (od [(Od.P_LINK 3, 1), (Od.FN_STATE 3, 2), (Od.P_IDLE 3, 1)]).setPf 3 fun x => { x with modeInForce := 3 } }; s.m.up = true ∧ s.m.partHeld 1 = false ∧ s.m.on (Od.P_LINK p) = true ∧ s.m.inTest p = false ∧ s.m.partner p = false ∧ s.m.fnRuns p = true ∧ s.m.pathRuns p = false ∧ s.m.waitingBytes p + f.length ≤ s.m.ingressSize p) ∧
    (let p : Fin 32 := 3; let f : Bytes := List.replicate 64 0; let s : State := { m := (od [(Od.P_LINK 3, 1), (Od.FN_STATE 3, 2), (Od.P_IDLE 3, 1)]).setPf 3 fun x => { x with modeInForce := 3, ingress := List.replicate 192 { bytes := List.replicate 256 0, pcs := true, stamp := 0 } } }; s.m.up = true ∧ s.m.partHeld 1 = false ∧ s.m.on (Od.P_LINK p) = true ∧ s.m.inTest p = false ∧ s.m.partner p = false ∧ s.m.fnRuns p = true ∧ (s.m.pf p).ingress ≠ [] ∧ s.m.ingressSize p < s.m.waitingBytes p + f.length ∧ s.m.laneOwner p = p ∧ s.m.rdN (Od.P_DROP_OVERRUN p) + 1 < keySize (Od.P_DROP_OVERRUN p)) := by decide +kernel
theorem witness_FrameReceived_2 :
    (let p : Fin 32 := 3; let f : Bytes := List.replicate 63 0; let s : State := { m := od [(Od.P_LINK 3, 1), (Od.FN_STATE 3, 2), (Od.P_CUT_THROUGH 3, 0)] }; s.m.up = true ∧ s.m.partHeld 1 = false ∧ s.m.on (Od.P_LINK p) = true ∧ s.m.inTest p = false ∧ s.m.partner p = false ∧ s.m.fnRuns p = true ∧ s.m.pathRuns p = true ∧ (s.m.pf p).ingress = [] ∧ s.m.laneOwner p = p ∧ f.length < 64 ∧ s.m.on (Od.P_CUT_THROUGH p) = false ∧ ((List.range 4).all fun i => !s.m.on (Od.MIR_BAD i)) = true ∧ s.m.rdN (Od.P_RX_RUNT p) + 1 < keySize (Od.P_RX_RUNT p)) ∧
    (let p : Fin 32 := 3; let f : Bytes := withStomp (List.replicate 60 0); let s : State := { m := od [(Od.P_LINK 3, 1), (Od.FN_STATE 3, 2), (Od.P_CUT_THROUGH 3, 0)] }; s.m.up = true ∧ s.m.partHeld 1 = false ∧ s.m.on (Od.P_LINK p) = true ∧ s.m.inTest p = false ∧ s.m.partner p = false ∧ s.m.fnRuns p = true ∧ s.m.pathRuns p = true ∧ (s.m.pf p).ingress = [] ∧ s.m.laneOwner p = p ∧ 64 ≤ f.length ∧ s.m.rxFault p f true = some (Od.P_RX_STOMPED p) ∧ s.m.on (Od.P_CUT_THROUGH p) = false ∧ ((List.range 4).all fun i => !s.m.on (Od.MIR_BAD i)) = true ∧ s.m.rdN (Od.P_RX_STOMPED p) + 1 < keySize (Od.P_RX_STOMPED p)) ∧
    (let p : Fin 32 := 3; let f : Bytes := withFcs (toBE 6 0x020000000001 ++ toBE 6 0x020000000002 ++ toBE 2 0x1234 ++ List.replicate 46 0); let s : State := { m := od [(Od.P_LINK 3, 1), (Od.FN_STATE 3, 2), (Od.P_VLAN 3, 3 * 2 ^ 15 + 2 ^ 12 + 5)] }; s.m.up = true ∧ s.m.partHeld 1 = false ∧ s.m.on (Od.P_LINK p) = true ∧ s.m.inTest p = false ∧ s.m.partner p = false ∧ s.m.fnRuns p = true ∧ s.m.pathRuns p = true ∧ (s.m.pf p).ingress = [] ∧ s.m.laneOwner p = p ∧ 64 ≤ f.length ∧ s.m.rxFault p f true = none ∧ (s.m.trap p f (header f)).isNone = true ∧ s.m.vlanIn p (header f) = none ∧ s.m.rdN (Od.P_DROP_VLAN p) + 1 < keySize (Od.P_DROP_VLAN p)) := by decide +kernel
theorem witness_FrameReceived_3 :
    (let p : Fin 32 := 3; let f : Bytes := withFcs (toBE 6 0x020000000001 ++ toBE 6 0x020000000002 ++ toBE 2 0x1234 ++ List.replicate 46 0); let e : Mac := ⟨0, true, 0, 0, 31⟩; let s : State := { m := (od [(Od.P_LINK 3, 1), (Od.FN_STATE 3, 2), (Od.P_CUT_THROUGH 3, 0), (Od.P_LINK 31, 1), (Od.FN_STATE 31, 2), (Od.P_VLAN 3, 3 * 2 ^ 15 + 5), (Od.P_VLAN 31, 3 * 2 ^ 15 + 5), (Od.VLAN_MEMBERS 5, 2 ^ 31 + 8), (Od.SW_CELLS_FREE, 1000), (Od.SW_CELL_RESERVE, 999), (Od.EQ_LIMIT 31 0, 1)]).setMac [(macKey 5 0x020000000001, e)] }; let h := header f; let c := (s.m.classify p 5 h).1; let k := e.dest * 16 + s.m.queueAt e.dest h c; s.m.up = true ∧ s.m.partHeld 1 = false ∧ s.m.on (Od.P_LINK p) = true ∧ s.m.inTest p = false ∧ s.m.partner p = false ∧ s.m.fnRuns p = true ∧ s.m.pathRuns p = true ∧ (s.m.pf p).ingress = [] ∧ 64 ≤ f.length ∧ s.m.rxFault p f true = none ∧ (s.m.trap p f h).isNone = true ∧ s.m.vlanIn p h = some 5 ∧ s.m.fwdState p = 3 ∧ h.da ≠ 0xFFFFFFFFFFFF ∧ tget s.m.fab.mac (macKey 5 h.da) = some e ∧ e.dtype = 0 ∧ e.dest < 32 ∧ s.m.mayTake p 5 e.dest = true ∧ s.m.fnRuns e.dest = true ∧ s.m.gone e.dest = false ∧ c.policer = none ∧ c.cq = none ∧ ((List.range 4).all fun i => !s.m.fnRuns (49 + i)) = true ∧ s.m.roomFor f = true ∧ s.m.on (Od.P_CUT_THROUGH p) = false ∧ s.m.rdN (depthKey k) + cellsOf f ≤ s.m.rdN (limitKey k) ∧ bits (s.m.rdN (wredKey k)) (4 * c.colour) 4 = 0) := by decide +kernel

/-- States and operands that meet the hypotheses of Obligations.EgressAndDone, clause by clause. -/
theorem witness_EgressAndDone :
    (let p : Fin 32 := 3; let f : Bytes := withFcs (toBE 6 0x020000000001 ++ toBE 6 0x020000000002 ++ toBE 2 0x1234 ++ List.replicate 46 0); let d : Desc := ⟨0, 0, 0, 1, 0, none⟩; let s : State := { m := ((od [(Od.P_LINK 3, 1), (Od.FN_STATE 3, 2), (Od.P_MODE 3, 3)]).setFab fun x => { x with chains := [(0, ⟨f, 5, false, [], 1, 0, [], false⟩)] }).setQueue 63 fun q => { q with frames := [d] } }; let a := (s.m.dropAged p).fillShapers p; s.m.up = true ∧ s.m.canSend p = true ∧ (s.m.pf p).fip.ready = [] ∧ (s.m.pf p).fip.acting = false ∧ a.ownFirst p = false ∧ (a.pick p).1 = some 15 ∧ (a.queue (p * 16 + 15)).frames = d :: [] ∧ (a.readEcc d.chain).1 ≠ 2) ∧
    (let p : Fin 32 := 3; let t : Tx := ⟨⟨0, 0, 0, 1, 0, none⟩, 2, [1], false, false, none⟩; let s : State := { m := (od [(Od.P_LINK 3, 1), (Od.FN_STATE 3, 2)]).setFip 3 fun f => { f with ready := [t] } }; s.m.up = true ∧ s.m.canSend p = true ∧ (s.m.pf p).fip.ready = t :: []) ∧
    (let p : Fin 32 := 3; let t : Tx := ⟨⟨0, 0, 0, 1, 0, none⟩, 2, [1], true, false, none⟩; let s : State := { m := (od [(Od.P_LINK 3, 1), (Od.FN_STATE 3, 2)]).setPf 3 fun f => { f with sending := some t } }; s.m.up = true ∧ (s.m.pf p).sending = some t ∧ (s.m.pf p).testInForce ≠ 2 ∧ (s.m.pf p).testInForce ≠ 4 ∧ s.m.lostCell t = false ∧ s.m.rdN (Od.P_TX_FRAMES p) + 1 < keySize (Od.P_TX_FRAMES p) ∧ s.m.rdN (Od.P_TX_OCTETS p) + t.bytes.length < keySize (Od.P_TX_OCTETS p)) ∧
    (let p : Fin 32 := 3; let f : Bytes := withFcs (List.replicate 60 0); let t : Tx := ⟨⟨0, 0, 0, 1, 0, none⟩, 2, f, false, false, none⟩; let s : State := { m := (od [(Od.P_LINK 3, 1), (Od.FN_STATE 3, 2)]).setPf 3 fun f => { f with sending := some t } }; let l := withStomp (body t.bytes); s.m.up = true ∧ (s.m.pf p).sending = some t ∧ (s.m.pf p).testInForce ≠ 2 ∧ (s.m.pf p).testInForce ≠ 4 ∧ s.m.rdN (Od.P_TX_FRAMES p) + 1 < keySize (Od.P_TX_FRAMES p) ∧ s.m.rdN (Od.P_TX_OCTETS p) + l.length < keySize (Od.P_TX_OCTETS p)) := by decide +kernel
theorem witness_EgressAndDone_2 :
    (let p : Fin 32 := 3; let f : Bytes := withFcs (List.replicate 60 0); let t : Tx := ⟨⟨0, 0, 0, 1, 0, none⟩, 2, f, false, false, none⟩; let s : State := { m := ((od [(Od.P_LINK 3, 1), (Od.FN_STATE 3, 2)]).setPf 3 fun f => { f with sending := some t }).setFab fun x => { x with chains := [(0, ⟨f, 5, false, [], 1, 3, [], false⟩)] } }; let l := withStomp (body t.bytes); s.m.up = true ∧ (s.m.pf p).sending = some t ∧ (s.m.pf p).testInForce ≠ 2 ∧ (s.m.pf p).testInForce ≠ 4 ∧ s.m.lostCell t = true ∧ s.m.rdN (Od.P_TX_FRAMES p) + 1 < keySize (Od.P_TX_FRAMES p) ∧ s.m.rdN (Od.P_TX_OCTETS p) + l.length < keySize (Od.P_TX_OCTETS p)) ∧
    (let p : Fin 32 := 3; let t : Tx := ⟨⟨0, 0, 0, 1, 0, none⟩, 2, [1], false, false, none⟩; let s : State := { m := (od [(Od.P_LINK 3, 1), (Od.FN_STATE 3, 2)]).setPf 3 fun f => { f with sending := some t, testInForce := 4 } }; s.m.up = true ∧ (s.m.pf p).sending = some t ∧ (s.m.pf p).testInForce ∈ [2, 4] ∧ s.m.lostCell t = false) := by decide +kernel

/-- States and operands that meet the hypotheses of Obligations.MacTable, clause by clause. -/
theorem witness_MacTable :
    (let s : State := { m := (od [(Od.SW_MAC_AGE_TIME, 300)] { base with cyc := secs 150 }).setMac [(5, ⟨0, true, 0, 0, 1⟩), (6, ⟨0, false, 1, 0, 1⟩), (7, ⟨0, false, 2, 0, 1⟩)] }; s.m.up = true ∧ s.m.rdN Od.SW_MAC_AGE_TIME ≠ 0 ∧ s.m.fab.agedAt + secs (s.m.rdN Od.SW_MAC_AGE_TIME) / 2 ≤ s.m.cyc ∧ (5, ⟨0, true, 0, 0, 1⟩) ∈ s.m.fab.mac ∧ (6, ⟨0, false, 1, 0, 1⟩) ∈ s.m.fab.mac) ∧
    (let s : State := { m := base }; let q := writeKey 1 Od.FDB_OP 1; s.grants me q 0 = true) ∧
    (let s : State := { m := (od [(Od.FDB_ENTRY 0, 31)]).wrBlob (Od.FDB_KEY 0) (toBE 6 5 ++ toLE 2 4095) }; let q := writeKey 1 Od.FDB_OP 2; let a := s.m.door me q 0; let k := fdbKey (a.blob (Od.FDB_KEY 0)); s.grants me q 0 = true ∧ (s.m.asked me q 0).tenant = 0 ∧ k / 2 ^ 48 < 4096 ∧ fdbDestOk (a.rdN (Od.FDB_ENTRY 0)) = true ∧ (freeWay (a.bucket (a.bucketOf k))).isSome = true) ∧
    (let s : State := { m := base }; let q := writeKey 1 Od.FDB_OP 3; s.grants me q 0 = true) := by decide +kernel
theorem witness_MacTable_2 :
    (let s : State := { m := base }; let q := writeKey 1 Od.FDB_OP 4; let a := s.m.door me q 0; s.grants me q 0 = true ∧ a.jobObject 3 = some 0) ∧
    (let s : State := { m := (base.submit me (writeKey 1 Od.FDB_OP 4)).setMac [(5, ⟨0, true, 0, 0, 1⟩), (6, ⟨0, false, 1, 0, 1⟩)] }; s.m.up = true ∧ s.m.liveJob 3 = some 0) := by decide +kernel

/-- States and operands that meet the hypotheses of Obligations.BanksAndCopies, clause by clause. -/
theorem witness_BanksAndCopies :
    (let s : State := { m := base.setFab fun x => { x with skew := true, banks := { x.banks with ended := [193, 7] } } }; s.m.up = true ∧ s.m.fab.banks.ended = 193 :: [7] ∧ s.m.fab.skew = true) ∧
    (let s : State := { m := base.setFab fun x => { x with banks := { x.banks with ended := [193] } } }; s.m.up = true ∧ s.m.fab.banks.ended = 193 :: [] ∧ s.m.fab.skew = false) ∧
    (let s : State := { m := base.setFab fun x => { x with skew := true, banks := { x.banks with ended := [192] } } }; s.m.up = true ∧ s.m.fab.banks.ended = 192 :: []) ∧
    (let s : State := { m := base }; let q := writeKey 1 Od.SW_RESEED 1; let a := s.m.door me q 0; s.grants me q 0 = true ∧ a.rdN Od.SW_RESEEDS + 1 < keySize Od.SW_RESEEDS) := by decide +kernel
theorem witness_BanksAndCopies_2 :
    (let s : State := { m := (od [(depthKey 575, 3)]).setQueue 575 fun q => { q with avg := 65536 } }; s.m.up = true ∧ tget s.m.fab.queue 575 = some { avg := 65536 }) ∧
    (let f : Bytes := withFcs (toBE 6 0x020000000001 ++ toBE 6 0x020000000002 ++ toBE 2 0x1234 ++ List.replicate 46 0); let d : Desc := ⟨0, 0, 0, 1, 0, none⟩; let s : State := { m := ((od [(Od.FN_STATE 102, 2), (Od.STR_KIND 255, 1), (Od.STR_CQ 255, 63), (Od.POOLP_FREE 0, 1)]).setFab fun x => { x with chains := [(0, ⟨f, 5, false, [], 1, 0, [], false⟩)] }).setQueue 575 fun q => { q with frames := [d] } }; let pk := s.m.cqPick 4096 ((List.range 64).filter s.m.cqTakes); let a := pk.2; let rq := a.request (64 + 63) (32 + (a.cqBytes d).length) (if a.streamOn 63 then 0 else match a.cqChannel 63 with | some c => a.rdN (Od.DMA_TENANT c) | none => 0); s.m.up = true ∧ s.m.fnRuns 102 = true ∧ s.m.clockRuns .lpddr = true ∧ s.m.clockRuns .fabric = true ∧ (List.range 64).filter s.m.cqTakes ≠ [] ∧ pk.1 = some 63 ∧ (a.queue (512 + 63)).frames = d :: [] ∧ tget a.cp.grant 63 = none ∧ (a.readEcc d.chain).1 = 0 ∧ (match rq.1 with | .buffer _ => true | _ => false) = true ∧ (rq.2.queue (512 + 63)).frames = d :: []) := by decide +kernel

/-- States and operands that meet the hypotheses of Obligations.GateLists, clause by clause. -/
theorem witness_GateLists :
    (let p : Fin 32 := 31; let s : State := { m := ((od [(Od.GCL_ENABLE 31, 1), (Od.GCL_CYCLE_TIME 31, 1000), (Od.MT_TIME_SET, 1)]).setMt fun m => { m with mer := 5 * ticksPerSec }).wrBlob (Od.GCL_LIST 31) (toLE 8 (32 * 2 ^ 32 + 0x8001)) }; let q := writeKey 1 (Od.GCL_CHANGE p) 1; let a := s.m.door me q 0; let t := changeTime (a.rdN (Od.GCL_BASE_TIME p)) (1000 * 65536) a.mer; s.grants me q 0 = true ∧ gclEntries 256 (a.blob (Od.GCL_LIST p)) = some [(32 * 65536, 0x8001)] ∧ a.rdN (Od.GCL_CYCLE_TIME p) = 1000 ∧ a.armable t = true ∧ a.rdN (Od.GCL_CHANGE_STATUS p) ≠ 1) ∧
    (let p : Fin 32 := 31; let s : State := { m := od [(Od.GCL_CHANGE_STATUS 31, 1)] }; let q := writeKey 1 (Od.GCL_CHANGE p) 2; let a := s.m.door me q 0; s.grants me q 0 = true ∧ a.rdN (Od.GCL_CHANGE_STATUS p) = 1) ∧
    (let p : Fin 32 := 31; let g : GatePend := ⟨true, [(32 * 65536, 0x8001)], 1000 * 65536, 7, 0, 0⟩; let s : State := { m := base.setPf 31 fun x => { x with gate := { x.gate with pend := some g } } }; s.m.up = true ∧ (s.m.pf p).gate.pend = some g ∧ upTo g.at_ s.m.mer = true) ∧
    (let p : Fin 32 := 31; let s : State := { m := (base.setPf 31 fun x => { x with gate := { x.gate with on := true, list := [(10, 1), (20, 2)], cycle := 40, cend := 40, until_ := some 10 } }).setMt fun m => { m with mer := 12 } }; let g := (s.m.pf p).gate; s.m.up = true ∧ g.until_ = some 10 ∧ upTo 10 s.m.mer = true ∧ g.pend = none ∧ upTo g.cend 10 = false ∧ g.list[g.idx + 1]? = some (20, 2)) := by decide +kernel
theorem witness_GateLists_2 :
    (let p : Fin 32 := 31; let s : State := { m := (base.setPf 31 fun x => { x with gate := { x.gate with on := true, list := [(10, 1), (20, 2)], cycle := 40, cend := 40, idx := 2, until_ := some 40 } }).setMt fun m => { m with mer := 45 } }; let g := (s.m.pf p).gate; s.m.up = true ∧ g.until_ = some 40 ∧ upTo 40 s.m.mer = true ∧ g.pend = none ∧ upTo g.cend 40 = true ∧ g.list[0]? = some (10, 1)) := by decide +kernel

/-- States and operands that meet the hypotheses of Obligations.LaneTraining, clause by clause. -/
theorem witness_LaneTraining :
    (let l : Fin 32 := 31; let t : Training := { request := (2, 0, 0), preset := false, initialize_ := false, ready := true, converged := true, wish := (0, 0, 0) }; let s : State := { m := od [(Od.LANE_TRAIN_STATE 31, 1), (Od.LANE_TAPS_IN_USE 31, tapWord (-3) 42 (-17))] }; s.m.up = true ∧ s.m.rdN (Od.LANE_TRAIN_STATE l) = 1 ∧ t.request = (2, 0, 0) ∧ tapsOk (tapStep 2 (s.m.taps l).1, (s.m.taps l).2) = true) ∧
    (let l : Fin 32 := 31; let t : Training := { request := (1, 0, 0), preset := false, initialize_ := false, ready := false, converged := false, wish := (0, 0, 0) }; let s : State := { m := od [(Od.LANE_TRAIN_STATE 31, 1), (Od.LANE_TAPS_IN_USE 31, tapWord 0 64 0)] }; s.m.up = true ∧ s.m.rdN (Od.LANE_TRAIN_STATE l) = 1 ∧ t.request = (1, 0, 0) ∧ tapsOk (tapStep 1 (s.m.taps l).1, (s.m.taps l).2) = false) ∧
    (let l : Fin 32 := 0; let t : Training := { request := (1, 1, 1), preset := true, initialize_ := false, ready := false, converged := false, wish := (0, 0, 0) }; let s : State := { m := od [(Od.LANE_TRAIN_STATE 0, 1)] }; s.m.up = true ∧ s.m.rdN (Od.LANE_TRAIN_STATE l) = 1 ∧ t.preset = true) ∧
    (let l : Fin 32 := 31; let s : State := { m := od [(Od.LANE_TRAIN_STATE 31, 1)] { base with cyc := ms 500 } }; s.m.up = true ∧ s.m.rdN (Od.LANE_TRAIN_STATE l) = 1 ∧ (s.m.lane l).trainAt + ms 500 ≤ s.m.cyc ∧ (s.m.lane l).failed = false) := by decide +kernel
theorem witness_LaneTraining_2 :
    (let l : Fin 32 := 31; let s : State := { m := od [(Od.LANE_TRAIN_STATE 31, 3), (Od.LANE_SIGNAL 31, 1)] { base with cyc := ms 100 } }; s.m.up = true ∧ s.m.rdN (Od.LANE_TRAIN_STATE l) = 3 ∧ (s.m.lane l).failAt + ms 100 ≤ s.m.cyc ∧ s.m.on (Od.LANE_SIGNAL l) = true) := by decide +kernel

/-- States and operands that meet the hypotheses of Obligations.PrbsAndInjector, clause by clause. -/
theorem witness_PrbsAndInjector :
    (let l : Fin 32 := 31; let s : State := { m := (od [(Od.FN_STATE 31, 2), (Od.LANE_PRBS_CHK 31, 1)]).setPf 31 fun x => { x with testInForce := 1 } }; s.m.up = true ∧ s.m.checks l = true ∧ s.m.on (Od.LANE_PRBS_LOCK l) = false) ∧
    (let l : Fin 32 := 31; let s : State := { m := (od [(Od.LANE_PRBS_LOCK 31, 1)] { base with cyc := 1000 }).setLane 31 fun x => { x with lockAt := some 200, base := 7 } }; s.m.up = true ∧ s.m.on (Od.LANE_PRBS_LOCK l) = true ∧ s.m.rdN (Od.LANE_PRBS_ERRORS l) + 1024 < keySize (Od.LANE_PRBS_ERRORS l)) ∧
    (let l : Fin 32 := 31; let s : State := { m := (od [(Od.LANE_PRBS_LOCK 31, 1), (Od.LANE_PRBS_ERRORS 31, 3)] { base with cyc := 1000 }).setLane 31 fun x => { x with lockAt := some 200, base := 7 } }; let q := writeKey 1 (Od.LANE_PRBS_CLEAR l) 1; s.grants me q 0 = true) ∧
    (let l : Fin 32 := 31; let s : State := { m := base }; let q := writeKey 1 (Od.LANE_INJ_ARM l) 1; let a := s.m.door me q 0; s.grants me q 0 = true ∧ a.fnRuns (a.laneOwner l) = false) := by decide +kernel
theorem witness_PrbsAndInjector_2 :
    (let l : Fin 32 := 31; let s : State := { m := od [(Od.FN_STATE 31, 2), (Od.LANE_PRBS_GEN 31, 1), (Od.LANE_INJ_MODE 31, 1)] }; let q := writeKey 1 (Od.LANE_INJ_ARM l) 1; let a := s.m.door me q 0; s.grants me q 0 = true ∧ a.fnRuns (a.laneOwner l) = true ∧ a.rdN (Od.LANE_PRBS_GEN l) ≠ 0 ∧ a.rdN (Od.LANE_INJ_AT l) = 0) ∧
    (let l : Fin 32 := 31; let s : State := { m := od [(Od.FN_STATE 31, 2), (Od.LANE_PRBS_GEN 31, 1), (Od.LANE_INJ_AT 31, 65536000), (Od.MT_TIME_SET, 1)] }; let q := writeKey 1 (Od.LANE_INJ_ARM l) 1; let a := s.m.door me q 0; s.grants me q 0 = true ∧ a.fnRuns (a.laneOwner l) = true ∧ a.rdN (Od.LANE_PRBS_GEN l) ≠ 0 ∧ a.mer < 65536000 ∧ a.rdN (Od.LANE_INJ_AT l) = 65536000 ∧ a.armable 65536000 = true) ∧
    (let l : Fin 32 := 31; let s : State := { m := od [(Od.FN_STATE 31, 2), (Od.LANE_PRBS_GEN 31, 1), (Od.LANE_INJ_AT 31, 100000 * ticksPerSec)] }; let q := writeKey 1 (Od.LANE_INJ_ARM l) 1; let a := s.m.door me q 0; s.grants me q 0 = true ∧ a.fnRuns (a.laneOwner l) = true ∧ a.rdN (Od.LANE_PRBS_GEN l) ≠ 0 ∧ a.armable (a.rdN (Od.LANE_INJ_AT l)) = false) ∧
    (let l : Fin 32 := 0; let s : State := { m := base }; let q := writeKey 1 (Od.LANE_INJ_ARM l) 2; s.grants me q 0 = true) := by decide +kernel
theorem witness_PrbsAndInjector_3 :
    (let l : Fin 32 := 31; let s : State := { m := (od [(Od.LANE_TEST 31, 2), (Od.LANE_PRBS_LOCK 31, 1)]).setLane 31 (fun x => { x with injActing := true, injMode := 1 }) |>.setPf 31 fun x => { x with testInForce := 5 } }; s.m.up = true ∧ (s.m.lane l).injActing = true ∧ (s.m.lane l).injMode = 1 ∧ s.m.rdN (Od.LANE_INJ_COUNT l) + 1 < keySize (Od.LANE_INJ_COUNT l) ∧ s.m.looped l = true ∧ s.m.on (Od.LANE_PRBS_LOCK l) = true ∧ s.m.rdN (Od.LANE_PRBS_ERRORS l) + 1 < keySize (Od.LANE_PRBS_ERRORS l)) ∧
    (let l : Fin 32 := 31; let s : State := { m := ({ base with cyc := 100 }).setLane 31 fun x => { x with injActing := true, injMode := 2, injPeriod := 10, injActs := 3 } }; s.m.up = true ∧ (s.m.lane l).injActing = true ∧ (s.m.lane l).injMode = 2 ∧ (s.m.lane l).injActs * (s.m.lane l).injPeriod ≤ s.m.laneBits l (s.m.cyc - (s.m.lane l).injSince)) := by decide +kernel

/-- States and operands that meet the hypotheses of Obligations.SidebandAndI2c, clause by clause. -/
theorem witness_SidebandAndI2c :
    (let inputs : List Nat := List.replicate 31 0 ++ [128]; let s : State := { m := (od [(Od.LANE_SB_IN 31, 0), (Od.LANE_SB_IN 30, 128)]).setLane 31 (fun x => { x with sbLast := some 128 }) |>.setLane 30 (fun x => { x with sbLast := some 0 }) }; s.m.up = true ∧ inputs.length = 32 ∧ inputs[31]? = some 128 ∧ (s.m.lane 31).sbLast = some 128 ∧ bit (s.m.rdN (Od.LANE_SB_IN 31)) 7 = false ∧ inputs[30]? = some 0 ∧ (s.m.lane 30).sbLast = some 0 ∧ bit (s.m.rdN (Od.LANE_SB_IN 30)) 7 = true) ∧
    (let l : Fin 32 := 31; let s : State := { m := od [(Od.LANE_I2C_STATUS 31 0, 2)] }; let q := writeKey 1 (Od.LANE_I2C_OP l) 1; let a := s.m.door me q 0; s.grants me q 0 = true ∧ (s.m.asked me q 0).tenant = 0 ∧ a.rdN (Od.LANE_I2C_STATUS l 0) ∈ [1, 2]) ∧
    (let l : Fin 32 := 31; let s : State := { m := base }; let q := writeKey 1 (Od.LANE_I2C_OP l) 1; let a := s.m.door me q 0; s.grants me q 0 = true ∧ (s.m.asked me q 0).tenant = 0 ∧ a.rdN (Od.LANE_I2C_STATUS l 0) ∉ [1, 2] ∧ (tat [] a.ln.i2c (l / 8)).length < 16) ∧
    (let l : Fin 32 := 0; let s : State := { m := od [(Od.LANE_I2C_LEN 0 0, 9)] }; let q := writeKey 1 (Od.LANE_I2C_OP l) 2; let a := s.m.door me q 0; s.grants me q 0 = true ∧ (s.m.asked me q 0).tenant = 0 ∧ 8 < a.rdN (Od.LANE_I2C_LEN l 0)) := by decide +kernel
theorem witness_SidebandAndI2c_2 :
    (let l : Fin 32 := 0; let s : State := { m := od [(Od.LANE_I2C_LEN 0 0, 8)] }; let q := writeKey 1 (Od.LANE_I2C_OP l) 2; let a := s.m.door me q 0; s.grants me q 0 = true ∧ (s.m.asked me q 0).tenant = 0 ∧ a.rdN (Od.LANE_I2C_LEN l 0) ≤ 8 ∧ a.rdN (Od.LANE_I2C_STATUS l 0) ∉ [1, 2] ∧ (tat [] a.ln.i2c (l / 8)).length < 16) ∧
    (let i : Fin 4 := 3; let t : I2cTx := ⟨0, 31, 1, 80, 0, 0, 2, [], true, true⟩; let s : State := { m := (od [(Od.LANE_SB_IN 31, 0)]).setLn fun x => { x with i2c := [(3, [t])] } }; s.m.up = true ∧ tat [] s.m.ln.i2c i = t :: [] ∧ t.busy = true ∧ bit (s.m.rdN (Od.LANE_SB_IN t.lane)) 7 = false) ∧
    (let i : Fin 4 := 3; let t : I2cTx := ⟨0, 31, 1, 80, 0, 0, 2, [], true, false⟩; let s : State := { m := (od [(Od.LANE_SB_IN 31, 128)]).setLn fun x => { x with i2c := [(3, [t])] } }; s.m.up = true ∧ tat [] s.m.ln.i2c i = t :: [] ∧ bit (s.m.rdN (Od.LANE_SB_IN t.lane)) 7 = true) := by decide +kernel

/-- States and operands that meet the hypotheses of Obligations.GnssChannels, clause by clause. -/
theorem witness_GnssChannels :
    (let s : State := { m := (od [(Od.FN_STATE 85, 2), (Od.GNSS_SYSTEMS, 7), (Od.GNSS_SIGNALS, 63)] { base with cyc := ms 2 }).setGn fun x => { x with awake := true, engine := [(7, (3, 63))] } }; s.m.up = true ∧ s.m.gnssAwake = true ∧ s.m.sigOn 3 63 = true ∧ s.m.tracks 3 63 = none ∧ tget s.m.gn.engine 7 = some (3, 63) ∧ s.m.rd Od.GNSS_ELEV_MASK < 90 ∧ ((List.range 80).find? fun c => s.m.chState c == 0) = some 0) ∧
    (let s : State := { m := (od [(Od.FN_STATE 85, 2), (Od.GNSS_SYSTEMS, 7), (Od.GNSS_SIGNALS, 63)] { base with cyc := ms 2 }).setGn fun x => { x with awake := true } }; s.m.up = true ∧ s.m.gnssAwake = true ∧ s.m.sigOn 1 1 = true ∧ s.m.tracks 1 1 = none ∧ tget s.m.gn.engine 0 ≠ some (1, 1)) ∧
    (let c : Fin 80 := 79; let x : Coherent := { codeLock := true, pli := 900, step := 0, cn0 := 4500, elev := 0, azim := 0, corr := List.replicate 9 1 }; let s : State := { m := (od [(Od.FN_STATE 85, 2), (Od.GNSS_CH_STATE 79, 3), (Od.GNSS_ELEV_MASK, 2)] { base with cyc := ms 2 }).setGn fun x => { x with awake := true } }; s.m.up = true ∧ s.m.gnssAwake = true ∧ s.m.chState c ≠ 0 ∧ x.elev + 2 ≤ s.m.rd Od.GNSS_ELEV_MASK) ∧
    (let c : Fin 80 := 79; let x : Coherent := { codeLock := false, pli := 900, step := 0, cn0 := 4500, elev := 1, azim := 0, corr := List.replicate 9 1 }; let s : State := { m := (od [(Od.FN_STATE 85, 2), (Od.GNSS_CH_STATE 79, 3), (Od.GNSS_ELEV_MASK, 2)] { base with cyc := ms 2 }).setGn fun x => { x with awake := true } }; s.m.up = true ∧ s.m.gnssAwake = true ∧ s.m.chState c ≠ 0 ∧ s.m.rd Od.GNSS_ELEV_MASK < x.elev + 2 ∧ x.codeLock = false) := by decide +kernel
theorem witness_GnssChannels_2 :
    (let c : Fin 80 := 79; let x : Coherent := { codeLock := true, pli := 500, step := -250, cn0 := 4500, elev := 50, azim := 0, corr := List.replicate 9 1 }; let s : State := { m := ((od [(Od.FN_STATE 85, 2), (Od.GNSS_CH_STATE 79, 2), (Od.GNSS_CH_SIGNAL 79, 1), (Od.GNSS_CH_SVID 79, 4), (Od.GNSS_SYSTEMS, 7), (Od.GNSS_SIGNALS, 63)] { base with cyc := ms 2 }).setGn fun x => { x with awake := true }).setGnssCh 79 fun x => { x with lockAt := some 7, slips := 255 } }; s.m.up = true ∧ s.m.gnssAwake = true ∧ s.m.chState c ≠ 0 ∧ s.m.rd Od.GNSS_ELEV_MASK < x.elev + 2 ∧ x.codeLock = true ∧ (s.m.gnssCh c).lockAt = some 7) ∧
    (let e : ChannelEpoch := { channel := 79, tx := 0, resolved := true, carrier := -1, doppler := -1, prNoise := 70000, phaseNoise := 1 }; let s : State := { m := (od [(Od.FN_STATE 85, 2), (Od.GNSS_CH_STATE 79, 2), (Od.GNSS_MEAS_RATE, 1)] { base with cyc := ms 2 }).setGn fun x => { x with awake := true } }; let tm := epochInstant (max 1 (s.m.rdN Od.GNSS_MEAS_RATE)) s.m.mer; let kept := (List.range 80).filterMap fun c => if 2 ≤ s.m.chState c then [e].find? fun e => e.channel.val == c else none; let a := s.m.solve tm ((kept.filter s.m.prUsed).map fun e => s.m.chSat e.channel).dedup.length none; s.m.up = true ∧ s.m.gnssAwake = true ∧ s.m.gn.lastAt = none ∧ s.m.tm.mt.landed ≤ tm ∧ a.rdN Od.GNSS_EPOCHS + 1 < keySize Od.GNSS_EPOCHS) := by decide +kernel

/-- States and operands that meet the hypotheses of Obligations.GnssReceiver, clause by clause. -/
theorem witness_GnssReceiver :
    (let s : State := { m := od [(Od.GNSS_ANT_POWER, 0), (Od.GNSS_ANT_STATE, 1)] }; s.m.up = true ∧ s.m.antFed = false) ∧
    (let s : State := { m := od [(Od.GNSS_ANT_POWER, 1), (Od.CAP_GNSS_RF, 1)] }; s.m.up = true ∧ s.m.antFed = true ∧ s.m.gn.cut = false ∧ s.m.gn.shortAt = none) ∧
    (let s : State := { m := (od [(Od.GNSS_ANT_POWER, 1), (Od.CAP_GNSS_RF, 1)] { base with cyc := ms 10 }).setGn fun x => { x with shortAt := some 0 } }; s.m.up = true ∧ s.m.antFed = true ∧ s.m.gn.cut = false ∧ s.m.gn.shortAt = some 0 ∧ 0 + ms 10 ≤ s.m.cyc ∧ s.m.rdN Od.GNSS_ANT_STATE ≠ 3) ∧
    (let s : State := { m := (od [(Od.GNSS_ANT_POWER, 1), (Od.CAP_GNSS_RF, 1)] { base with cyc := 10 }).setGn fun x => { x with cut := true, retryAt := 10 } }; s.m.up = true ∧ s.m.antFed = true ∧ s.m.gn.cut = true ∧ s.m.gn.retryAt ≤ s.m.cyc) := by decide +kernel
theorem witness_GnssReceiver_2 :
    (let s : State := { m := (od [(Od.FN_STATE 85, 2)] { base with cyc := ms 2 }).setGn fun x => { x with awake := true, gains := [(0, 5000, 40)] } }; s.m.up = true ∧ s.m.gnssAwake = true ∧ s.m.gn.jamAt = none ∧ gainFall [(s.m.cyc, 3000, 40), (0, 5000, 40)] 3000 40 = 10 ∧ gainFall [(s.m.cyc, 3001, 40), (0, 5000, 40)] 3001 40 = 9) ∧
    (let s : State := { m := (od [(Od.FN_STATE 85, 2)] { base with cyc := secs 1 }).setGn fun x => { x with awake := true, jamAt := some 0, gains := [(0, 60000, 40)] } }; s.m.up = true ∧ s.m.gnssAwake = true ∧ s.m.gn.jamAt = some 0 ∧ 0 + secs 1 ≤ s.m.cyc ∧ s.m.gn.jamRaised = false ∧ 10 ≤ gainFall [(s.m.cyc, 0, 40), (0, 60000, 40)] 0 40) ∧
    (let s : State := { m := (od [(Od.FN_STATE 85, 2), (Od.GNSS_DUTY_PERIOD, 3600), (Od.GNSS_DUTY_ON, 60), (Od.GNSS_DUTY_PHASE, 1)]).setGn fun x => { x with awake := true } }; s.m.up = true ∧ s.m.fnRuns 85 = true ∧ s.m.gn.awake = true ∧ s.m.dutyOn = false) ∧
    (let s : State := { m := (od [(Od.FN_STATE 85, 2), (Od.GNSS_DUTY_PERIOD, 3600), (Od.GNSS_DUTY_ON, 60), (Od.GNSS_DUTY_PHASE, 0)]) }; s.m.up = true ∧ s.m.fnRuns 85 = true ∧ s.m.gn.awake = false ∧ s.m.dutyOn = true) := by decide +kernel
theorem witness_GnssReceiver_3 :
    (let s : State := { m := od [(Od.FN_STATE 85, 2)] }; let q := writeKey 1 Od.GNSS_KEEP_CLEAR 1; s.grants me q 0 = true ∧ (s.m.door me q 0).fnState 85 ≠ 0) ∧
    (let s : State := { m := base.setKeep fun k => { k with good := true } }; let q := writeKey 1 Od.GNSS_KEEP_CLEAR 1; s.grants me q 0 = true ∧ (s.m.door me q 0).fnState 85 = 0) ∧
    (let s : State := { m := ({ base with cyc := secs 3600 }).setKeep fun k => { k with almanac := some 8 } }; s.m.up = true ∧ s.m.gn.savedAt + secs 3600 ≤ s.m.cyc ∧ s.m.mg.srv.running = true ∧ s.m.nandHeld = false) ∧
    (let s : State := { m := (od [(Od.GNSS_RING_WR, 2)]).setGn fun x => { x with ring := [List.replicate 104 1, List.replicate 32 2] } }; let q := ringKey 1 Od.GNSS_RING_DATA 100; s.takes me q 0 = true) := by decide +kernel

/-- States and operands that meet the hypotheses of Obligations.StreamsAndGraphs, clause by clause. -/
theorem witness_StreamsAndGraphs :
    (let s : State := { m := base.setCp fun y => { y with inbox := [(63, ⟨5, 128⟩)], buf := [(5, ⟨1, 0⟩)] } }; let raw := ramBytes s.ram (s.m.handleAddr 5) 128; let a := (((s.m.setCp fun y => { y with inbox := [] }).lpRead (blocks (s.m.handleAddr 5) 128)).releaseBuf 5).2; s.m.up = true ∧ s.m.clockRuns .evorvo = true ∧ s.m.clockRuns .lpddr = true ∧ s.m.cp.inbox = (63, ⟨5, 128⟩) :: [] ∧ a.readSensor (raw.drop 32) = .unknown ∧ a.rdN Od.SE_UNKNOWN + 1 < keySize Od.SE_UNKNOWN) ∧
    (let s : State := { m := base.setCp fun y => { y with inbox := [(63, ⟨5, 96⟩)], buf := [(5, ⟨1, 0⟩)] }, ram := ramStore [] (base.handleAddr 5 + 32 + 12) [0x22, 0xF0, 3] }; let raw := ramBytes s.ram (s.m.handleAddr 5) 96; let a := (((s.m.setCp fun y => { y with inbox := [] }).lpRead (blocks (s.m.handleAddr 5) 96)).releaseBuf 5).2; s.m.up = true ∧ s.m.clockRuns .evorvo = true ∧ s.m.clockRuns .lpddr = true ∧ s.m.cp.inbox = (63, ⟨5, 96⟩) :: [] ∧ a.readSensor (raw.drop 32) = .malformed ∧ a.rdN Od.SE_MALFORMED + 1 < keySize Od.SE_MALFORMED) := by decide +kernel
theorem witness_StreamsAndGraphs_2 :
    (let f : Sensor := ⟨1, 9, none, 0, 1, none, 4, true, [0, 0, 0, 1, 0, 0, 0, 2], true⟩; let s : State := { m := (od [(Od.STR_KIND 255, 1), (Od.STR_KEY 255, 9), (Od.STR_CQ 255, 63), (Od.STR_CHANNELS 255, 1), (Od.STR_RATE 255, 1000000), (Od.STR_GRAPH 255, 15)]).setCp fun y => { y with inbox := [(63, ⟨5, 96⟩)], buf := [(5, ⟨1, 0⟩)] }, ram := ramStore [] (base.handleAddr 5 + 32 + 12) ([0x22, 0xF0, 2, 1, 0, 0, 0, 0, 0, 0, 0, 0, 0, 9, 0, 0, 0, 0, 2, 0, 1, 0, 0, 8, 0, 0, 0, 0, 0, 1, 0, 0, 0, 2]) }; let raw := ramBytes s.ram (s.m.handleAddr 5) 96; let a := (((s.m.setCp fun y => { y with inbox := [] }).lpRead (blocks (s.m.handleAddr 5) 96)).releaseBuf 5).2; s.m.up = true ∧ s.m.clockRuns .evorvo = true ∧ s.m.clockRuns .lpddr = true ∧ s.m.cp.inbox = (63, ⟨5, 96⟩) :: [] ∧ a.readSensor (raw.drop 32) = .sensor f ∧ ((List.range 256).find? fun i => a.rdN (Od.STR_KIND i) == f.kind && a.rdN (Od.STR_KEY i) == f.key && a.rdN (Od.STR_CQ i) == 63) = some 255 ∧ f.channels = a.rdN (Od.STR_CHANNELS 255) ∧ f.rate = none ∧ a.rdN (Od.STR_GRAPH 255) = 15 ∧ a.fnRuns (86 + 15) = false ∧ a.rdN (Od.STR_DROPS 255) + 1 < keySize (Od.STR_DROPS 255)) := by decide +kernel
theorem witness_StreamsAndGraphs_3 :
    (let f : Sensor := ⟨1, 9, none, 0, 1, none, 4, true, [0, 0, 0, 1, 0, 0, 0, 2], true⟩; let s : State := { m := (od [(Od.FN_STATE 101, 2), (Od.STR_KIND 255, 1), (Od.STR_KEY 255, 9), (Od.STR_CQ 255, 63), (Od.STR_CHANNELS 255, 1), (Od.STR_RATE 255, 1000000), (Od.STR_GRAPH 255, 15)]).setCp fun y => { y with inbox := [(63, ⟨5, 96⟩)], buf := [(5, ⟨1, 0⟩)] }, ram := ramStore [] (base.handleAddr 5 + 32 + 12) ([0x22, 0xF0, 2, 1, 0, 0, 0, 0, 0, 0, 0, 0, 0, 9, 0, 0, 0, 0, 2, 0, 1, 0, 0, 8, 0, 0, 0, 0, 0, 1, 0, 0, 0, 2]) }; let raw := ramBytes s.ram (s.m.handleAddr 5) 96; let a := (((s.m.setCp fun y => { y with inbox := [] }).lpRead (blocks (s.m.handleAddr 5) 96)).releaseBuf 5).2; s.m.up = true ∧ s.m.clockRuns .evorvo = true ∧ s.m.clockRuns .lpddr = true ∧ s.m.cp.inbox = (63, ⟨5, 96⟩) :: [] ∧ a.readSensor (raw.drop 32) = .sensor f ∧ ((List.range 256).find? fun i => a.rdN (Od.STR_KIND i) == f.kind && a.rdN (Od.STR_KEY i) == f.key && a.rdN (Od.STR_CQ i) == 63) = some 255 ∧ f.channels = a.rdN (Od.STR_CHANNELS 255) ∧ f.rate = none ∧ a.rdN (Od.STR_GRAPH 255) = 15 ∧ a.fnRuns (86 + 15) = true ∧ a.rdN (Od.STR_TIMING 255) = 0 ∧ (a.stream 255).exp = none ∧ a.ingestCredit 15 255 = true) ∧
    (let g : Fin 16 := 15; let x : Blk := { cols := [[⟨5, true, 0, 0, 0⟩, ⟨7, true, 1, 0, 0⟩]] }; let o : OpDesc := ⟨7, 0, 0, 0, 0, 1, []⟩; let s : State := { m := (od [(Od.FN_STATE 101, 2)]).setCp fun y => { y with graph := [(15, { block := 2, ops := [o, ⟨8, 1, 1, 0, 0, 1, []⟩], st := [(0, { edge := [x] })] })] } }; s.m.up = true ∧ s.m.fnState (86 + g) ≠ 0 ∧ s.m.clockRuns .evorvo = true ∧ s.m.clockRuns .lpddr = true ∧ s.m.agreed (Boundary.edge g).no = true ∧ (s.m.graph g).ops[0]? = some o ∧ o.id = 0 ∧ o.op ≠ 1 ∧ o.op ≠ 8 ∧ s.m.edgesFree g 0 = true ∧ s.m.sumsWait g o = false ∧ (s.m.opSt g 0).edge = x :: [] ∧ (consumers (s.m.graph g).ops 0).Nodup ∧ 1 ∈ consumers (s.m.graph g).ops 0) := by decide +kernel
theorem witness_StreamsAndGraphs_4 :
    (let g : Fin 16 := 15; let o : OpDesc := ⟨1, 0, 0, 0, 0, 1, toLE 4 0 ++ toLE 4 1000000 ++ toLE 4 0 ++ toLE 4 0⟩; let s : State := { m := ((od [(Od.FN_STATE 101, 2)]).setMt fun m => { m with mer := ticksPerSec }).setCp fun y => { y with graph := [(15, { block := 2, ops := [o], st := [(0, { grid := some 4 })] })] } }; s.m.up = true ∧ (s.m.graph g).ops[0]? = some o ∧ o.id = 0 ∧ o.op = 1 ∧ s.m.fnState (86 + g) ≠ 0 ∧ s.m.alignGrid g o = some 4 ∧ s.m.edgesFree g 0 = true ∧ upTo (gridTick (ofLE (slice o.params 4 4)) (4 + (s.m.graph g).block - 1) + ofLE (slice o.params 12 4) * 65536000000) s.m.mer = true) := by decide +kernel

/-- States and operands that meet the hypotheses of Obligations.Archive, clause by clause. -/
theorem witness_Archive :
    (let r : ArcRec := ⟨1, 0, 0, [], 0, 0, 0, List.replicate 16336 0⟩; let s : State := { m := (od [(Od.FN_STATE 103, 2)]).setArc fun a => { a with staged := [⟨r, true, false⟩] } }; s.m.up = true ∧ s.m.fnRuns 103 = true ∧ s.m.mg.srv.running = true ∧ s.m.nandHeld = false ∧ 16384 + s.m.arc.flashPart ≤ waitingFor (·.flash) s.m.arc.staged) ∧
    (let r : ArcRec := ⟨1, 0, 0, [], 0, 0, 0, []⟩; let s : State := { m := (od [(Od.FN_STATE 103, 2), (Od.ARC_NVME_STATE, 1), (Od.ARC_NVME_LBA_COUNT, 1024)]).setArc fun a => { a with staged := List.replicate 2731 ⟨r, false, true⟩ } }; s.m.up = true ∧ s.m.fnRuns 103 = true ∧ s.m.mg.srv.running = true ∧ s.m.rdN Od.ARC_NVME_STATE = 1 ∧ 131072 + s.m.arc.nvmePart ≤ waitingFor (·.nvme) s.m.arc.staged) ∧
    (let r : ArcRec := ⟨1, 0, 0, [], 0, 0, 0, []⟩; let s : State := { m := (od [(Od.FN_STATE 103, 2), (Od.ARC_NVME_STATE, 1), (Od.DMA_RETRIES 63, 2)]).setArc fun a => { a with staged := List.replicate 2731 ⟨r, false, true⟩, nvmeTries := 2 } }; s.m.up = true ∧ s.m.fnRuns 103 = true ∧ s.m.mg.srv.running = true ∧ s.m.rdN Od.ARC_NVME_STATE = 1 ∧ 131072 + s.m.arc.nvmePart ≤ waitingFor (·.nvme) s.m.arc.staged ∧ s.m.rdN (Od.DMA_RETRIES 63) ≤ s.m.arc.nvmeTries) ∧
    (let s : State := { m := (od [(Od.FN_STATE 103, 2), (Od.ARC_NVME_STATE, 1)] { base with cyc := secs 1 }).setArc fun a => { a with nvmeUsed := 131072 } }; s.m.up = true ∧ s.m.fnRuns 103 = true ∧ s.m.mg.srv.running = true ∧ s.m.rdN Od.ARC_NVME_STATE = 1 ∧ s.m.arc.flushAt + secs 1 ≤ s.m.cyc ∧ s.m.arc.nvmeUsed ≠ s.m.arc.flushed) := by decide +kernel
theorem witness_Archive_2 :
    (let s : State := { m := (od [(Od.FN_STATE 103, 2), (Od.ARC_NVME_STATE, 1), (Od.DMA_RETRIES 63, 0)] { base with cyc := secs 1 }).setArc fun a => { a with nvmeUsed := 131072 } }; s.m.up = true ∧ s.m.fnRuns 103 = true ∧ s.m.mg.srv.running = true ∧ s.m.rdN Od.ARC_NVME_STATE = 1 ∧ s.m.arc.flushAt + secs 1 ≤ s.m.cyc ∧ s.m.arc.nvmeUsed ≠ s.m.arc.flushed ∧ s.m.rdN (Od.DMA_RETRIES 63) ≤ s.m.arc.nvmeTries) ∧
    (let s : State := { m := base }; let q := writeKey 1 Od.ARC_SEEK 1; let a := s.m.door me q 0; s.grants me q 0 = true ∧ a.jobObject 4 = some 0) ∧
    (let s : State := { m := (((od [(Od.ARC_SEEK_TIME 0, 65536)]).submit me (writeKey 1 Od.ARC_SEEK 1)).setArc fun a => { a with flashSeq := 9, flash := [(8, List.replicate 10 0 ++ toLE 4 1 ++ toLE 6 0), (7, List.replicate 20 0)] }) }; s.m.up = true ∧ s.m.liveJob 4 = some 0 ∧ (s.m.job 0).arg < 8) ∧
    (let s : State := { m := (base.setArc fun a => { a with flashSeq := 2, flash := [(1, List.replicate 50 2), (0, List.replicate 60 1)] }) }; let q := ringKey 1 Od.ARC_DATA 65535; s.takes me q 0 = true) := by decide +kernel

/-- States and operands that meet the hypotheses of Obligations.DmaDescriptors, clause by clause. -/
theorem witness_DmaDescriptors :
    (let ch : Fin 64 := 63; let b := od [(Od.FN_STATE (104 + ch), 2), (Od.FN_STATE 102, 2), (Od.DMA_RING_SIZE ch, 16), (Od.DMA_HEAD ch, 4294967295), (Od.DMA_TAIL ch, 1), (Od.DMA_TENANT ch, 0), (Od.DMA_RING_SPACE ch, 0)]; b.rdN (Od.DMA_RING_SPACE ch) = 0) ∧
    (let ch : Fin 64 := 63; let b := od [(Od.FN_STATE (104 + ch), 2), (Od.FN_STATE 102, 2), (Od.DMA_RING_SIZE ch, 16), (Od.DMA_HEAD ch, 4294967295), (Od.DMA_TAIL ch, 1), (Od.DMA_TENANT ch, 0), (Od.DMA_RING_SPACE ch, 1)]; b.rdN (Od.DMA_RING_SPACE ch) ≠ 0) ∧
    (let ch : Fin 64 := 63; let q : Bytes := toLE 8 (0) ++ toLE 8 (0) ++ toLE 4 4 ++ toLE 4 0 ++ toLE 4 (7 * 536870912 + 0 * 268435456 + 0 * 134217728 + 1 * 33554432) ++ toLE 4 0; let s : State := { m := (od [(Od.FN_STATE (104 + ch), 2), (Od.FN_STATE 102, 2), (Od.DMA_RING_SIZE ch, 16), (Od.DMA_HEAD ch, 4294967295), (Od.DMA_TAIL ch, 1), (Od.DMA_TENANT ch, 0)]) }; let d := readDescriptor q; s.m.up = true ∧ s.m.dmaFree ch 0 = true ∧ s.m.headDesc s.ram ch q = some q ∧ 5 ≤ d.op) ∧
    (let ch : Fin 64 := 63; let q : Bytes := toLE 8 (3 * 4294967296) ++ toLE 8 (64) ++ toLE 4 4 ++ toLE 4 0 ++ toLE 4 (0 * 536870912 + 1 * 268435456 + 0 * 134217728 + 0 * 33554432) ++ toLE 4 0; let s : State := { m := (od [(Od.FN_STATE (104 + ch), 2), (Od.FN_STATE 102, 2), (Od.DMA_RING_SIZE ch, 16), (Od.DMA_HEAD ch, 4294967295), (Od.DMA_TAIL ch, 1), (Od.DMA_TENANT ch, 0)]).setCp fun y => { y with buf := [(1, ⟨1, 0⟩), (2, ⟨65535, 0⟩), (3, ⟨2, 5⟩), (4, ⟨2, 0⟩)] } }; let d := readDescriptor q; s.m.up = true ∧ s.m.dmaFree ch 0 = true ∧ s.m.headDesc s.ram ch q = some q ∧ d.op = 0 ∧ s.m.spaceFault ch d.srcSpace d.src d.len = 3) := by decide +kernel
theorem witness_DmaDescriptors_2 :
    (let ch : Fin 64 := 63; let q : Bytes := toLE 8 (64) ++ toLE 8 (9 * 4294967296) ++ toLE 4 4 ++ toLE 4 0 ++ toLE 4 (0 * 536870912 + 0 * 268435456 + 1 * 134217728 + 0 * 33554432) ++ toLE 4 0; let s : State := { m := (od [(Od.FN_STATE (104 + ch), 2), (Od.FN_STATE 102, 2), (Od.DMA_RING_SIZE ch, 16), (Od.DMA_HEAD ch, 4294967295), (Od.DMA_TAIL ch, 1), (Od.DMA_TENANT ch, 0)]).setCp fun y => { y with buf := [(1, ⟨1, 0⟩), (2, ⟨65535, 0⟩), (3, ⟨2, 5⟩), (4, ⟨2, 0⟩)] } }; let d := readDescriptor q; s.m.up = true ∧ s.m.dmaFree ch 0 = true ∧ s.m.headDesc s.ram ch q = some q ∧ d.op = 0 ∧ s.m.spaceFault ch d.dstSpace d.dst d.len = 3) ∧
    (let ch : Fin 64 := 63; let q : Bytes := toLE 8 (4294967296) ++ toLE 8 (64) ++ toLE 4 257 ++ toLE 4 0 ++ toLE 4 (0 * 536870912 + 1 * 268435456 + 0 * 134217728 + 0 * 33554432) ++ toLE 4 0; let s : State := { m := (od [(Od.FN_STATE (104 + ch), 2), (Od.FN_STATE 102, 2), (Od.DMA_RING_SIZE ch, 16), (Od.DMA_HEAD ch, 4294967295), (Od.DMA_TAIL ch, 1), (Od.DMA_TENANT ch, 0)]).setCp fun y => { y with buf := [(1, ⟨1, 0⟩), (2, ⟨65535, 0⟩), (3, ⟨2, 5⟩), (4, ⟨2, 0⟩)] } }; let d := readDescriptor q; s.m.up = true ∧ s.m.dmaFree ch 0 = true ∧ s.m.headDesc s.ram ch q = some q ∧ d.op = 0 ∧ s.m.spaceFault ch d.srcSpace d.src d.len = 5 ∧ s.m.spaceFault ch d.dstSpace d.dst d.len = 0) ∧
    (let ch : Fin 64 := 63; let q : Bytes := toLE 8 (64) ++ toLE 8 (4294967296) ++ toLE 4 257 ++ toLE 4 0 ++ toLE 4 (0 * 536870912 + 0 * 268435456 + 1 * 134217728 + 0 * 33554432) ++ toLE 4 0; let s : State := { m := (od [(Od.FN_STATE (104 + ch), 2), (Od.FN_STATE 102, 2), (Od.DMA_RING_SIZE ch, 16), (Od.DMA_HEAD ch, 4294967295), (Od.DMA_TAIL ch, 1), (Od.DMA_TENANT ch, 0)]).setCp fun y => { y with buf := [(1, ⟨1, 0⟩), (2, ⟨65535, 0⟩), (3, ⟨2, 5⟩), (4, ⟨2, 0⟩)] } }; let d := readDescriptor q; s.m.up = true ∧ s.m.dmaFree ch 0 = true ∧ s.m.headDesc s.ram ch q = some q ∧ d.op = 0 ∧ s.m.spaceFault ch d.srcSpace d.src d.len = 0 ∧ s.m.spaceFault ch d.dstSpace d.dst d.len = 5) := by decide +kernel
theorem witness_DmaDescriptors_3 :
    (let ch : Fin 64 := 63; let q : Bytes := toLE 8 (64) ++ toLE 8 (64) ++ toLE 4 0 ++ toLE 4 0 ++ toLE 4 (0 * 536870912 + 0 * 268435456 + 0 * 134217728 + 0 * 33554432) ++ toLE 4 0; let s : State := { m := (od [(Od.FN_STATE (104 + ch), 2), (Od.FN_STATE 102, 2), (Od.DMA_RING_SIZE ch, 16), (Od.DMA_HEAD ch, 4294967295), (Od.DMA_TAIL ch, 1), (Od.DMA_TENANT ch, 0)]).setCp fun y => { y with buf := [(1, ⟨1, 0⟩), (2, ⟨65535, 0⟩), (3, ⟨2, 5⟩), (4, ⟨2, 0⟩)] } }; let d := readDescriptor q; s.m.up = true ∧ s.m.dmaFree ch 0 = true ∧ s.m.headDesc s.ram ch q = some q ∧ d.op = 0 ∧ s.m.spaceFault ch d.srcSpace d.src d.len = 0 ∧ s.m.spaceFault ch d.dstSpace d.dst d.len = 0 ∧ d.len = 0) ∧
    (let ch : Fin 64 := 63; let q : Bytes := toLE 8 (64) ++ toLE 8 (64) ++ toLE 4 16777217 ++ toLE 4 0 ++ toLE 4 (0 * 536870912 + 0 * 268435456 + 0 * 134217728 + 0 * 33554432) ++ toLE 4 0; let s : State := { m := (od [(Od.FN_STATE (104 + ch), 2), (Od.FN_STATE 102, 2), (Od.DMA_RING_SIZE ch, 16), (Od.DMA_HEAD ch, 4294967295), (Od.DMA_TAIL ch, 1), (Od.DMA_TENANT ch, 0)]).setCp fun y => { y with buf := [(1, ⟨1, 0⟩), (2, ⟨65535, 0⟩), (3, ⟨2, 5⟩), (4, ⟨2, 0⟩)] } }; let d := readDescriptor q; s.m.up = true ∧ s.m.dmaFree ch 0 = true ∧ s.m.headDesc s.ram ch q = some q ∧ d.op = 0 ∧ s.m.spaceFault ch d.srcSpace d.src d.len = 0 ∧ s.m.spaceFault ch d.dstSpace d.dst d.len = 0 ∧ 16777216 < d.len) := by decide +kernel
theorem witness_DmaDescriptors_4 :
    (let ch : Fin 64 := 63; let q : Bytes := toLE 8 (66) ++ toLE 8 (4294967296 + 252) ++ toLE 4 4 ++ toLE 4 0 ++ toLE 4 (0 * 536870912 + 0 * 268435456 + 1 * 134217728 + 0 * 33554432) ++ toLE 4 0; let s : State := { m := (od [(Od.FN_STATE (104 + ch), 2), (Od.FN_STATE 102, 2), (Od.DMA_RING_SIZE ch, 16), (Od.DMA_HEAD ch, 4294967295), (Od.DMA_TAIL ch, 1), (Od.DMA_TENANT ch, 0)]).setCp fun y => { y with buf := [(1, ⟨1, 0⟩), (2, ⟨65535, 0⟩), (3, ⟨2, 5⟩), (4, ⟨2, 0⟩)] } }; let d := readDescriptor q; s.m.up = true ∧ s.m.dmaFree ch 0 = true ∧ s.m.headDesc s.ram ch q = some q ∧ d.op = 0 ∧ s.m.spaceFault ch d.srcSpace d.src d.len = 0 ∧ s.m.spaceFault ch d.dstSpace d.dst d.len = 0 ∧ 1 ≤ d.len ∧ d.len ≤ 16777216 ∧ s.m.cp.dma.all (fun e => e.2.job.isNone) = true ∧ d.srcSpace = 0 ∧ d.dstSpace ≠ 0 ∧ ([1, 2, 3, 4] : Bytes).length = d.len) ∧
    (let ch : Fin 64 := 63; let q : Bytes := toLE 8 (4294967296) ++ toLE 8 (80) ++ toLE 4 256 ++ toLE 4 0 ++ toLE 4 (0 * 536870912 + 1 * 268435456 + 0 * 134217728 + 1 * 33554432) ++ toLE 4 0; let s : State := { m := (od [(Od.FN_STATE (104 + ch), 2), (Od.FN_STATE 102, 2), (Od.DMA_RING_SIZE ch, 16), (Od.DMA_HEAD ch, 4294967295), (Od.DMA_TAIL ch, 1), (Od.DMA_TENANT ch, 0)]).setCp fun y => { y with buf := [(1, ⟨1, 0⟩), (2, ⟨65535, 0⟩), (3, ⟨2, 5⟩), (4, ⟨2, 0⟩)] } }; let d := readDescriptor q; s.m.up = true ∧ s.m.dmaFree ch 0 = true ∧ s.m.headDesc s.ram ch q = some q ∧ d.op = 0 ∧ s.m.spaceFault ch d.srcSpace d.src d.len = 0 ∧ s.m.spaceFault ch d.dstSpace d.dst d.len = 0 ∧ 1 ≤ d.len ∧ d.len ≤ 16777216 ∧ s.m.cp.dma.all (fun e => e.2.job.isNone) = true ∧ d.srcSpace = 1 ∧ d.dstSpace = 0) := by decide +kernel
theorem witness_DmaDescriptors_5 :
    (let ch : Fin 64 := 63; let q : Bytes := toLE 8 (64) ++ toLE 8 (128) ++ toLE 4 4 ++ toLE 4 3 ++ toLE 4 (1 * 536870912 + 0 * 268435456 + 0 * 134217728 + 0 * 33554432) ++ toLE 4 0; let s : State := { m := (od [(Od.FN_STATE (104 + ch), 2), (Od.FN_STATE 102, 2), (Od.DMA_RING_SIZE ch, 16), (Od.DMA_HEAD ch, 4294967295), (Od.DMA_TAIL ch, 1), (Od.DMA_TENANT ch, 0), (Od.DMA_GATHER_SPACE ch, 0), (Od.DMA_GATHER_BASE ch, 1024)]).setCp fun y => { y with buf := [(1, ⟨1, 0⟩), (2, ⟨65535, 0⟩), (3, ⟨2, 5⟩), (4, ⟨2, 0⟩)] } }; let d := readDescriptor q; let dat : Bytes := toLE 4 100 ++ toLE 4 0xFFFFFFFF ++ toLE 4 0 ++ [1, 2, 3, 4, 5, 6, 7, 8]; let tab := if d.srcSpace = 0 then dat.take (4 * d.count) else ramBytes s.ram (s.m.poolAddr d.src) (4 * d.count); let host := if d.srcSpace = 0 then dat.drop (4 * d.count) else dat; let r := s.m.gather ch d.len (offsets d.count tab) host; s.m.up = true ∧ s.m.dmaFree ch 0 = true ∧ s.m.headDesc s.ram ch q = some q ∧ d.op = 1 ∧ s.m.spaceFault ch d.srcSpace d.src (4 * d.count) = 0 ∧ s.m.spaceFault ch d.dstSpace d.dst (d.len * d.count) = 0 ∧ (s.m.rdN (Od.DMA_GATHER_SPACE ch) = 0 ∨ s.m.poolFault ch (s.m.rdN (Od.DMA_GATHER_BASE ch)) 0 = 0) ∧ d.len ≠ 0 ∧ d.count ≠ 0 ∧ d.len * d.count ≤ 16777216 ∧ dat.length = (if d.srcSpace = 0 then 4 * d.count else 0) + (if s.m.rdN (Od.DMA_GATHER_SPACE ch) = 0 then d.len * ((offsets d.count tab).filter (· != 0xFFFFFFFF)).length else 0) ∧ (r.1.map (Piece.all s.ram)).flatten ≠ [] ∧ s.m.cp.dma.all (fun e => e.2.job.isNone) = true ∧ d.dstSpace = 0) := by decide +kernel
theorem witness_DmaDescriptors_6 :
    (let ch : Fin 64 := 63; let q : Bytes := toLE 8 (64) ++ toLE 8 (4294967296) ++ toLE 4 4 ++ toLE 4 2 ++ toLE 4 (1 * 536870912 + 0 * 268435456 + 1 * 134217728 + 0 * 33554432) ++ toLE 4 0; let s : State := { m := (od [(Od.FN_STATE (104 + ch), 2), (Od.FN_STATE 102, 2), (Od.DMA_RING_SIZE ch, 16), (Od.DMA_HEAD ch, 4294967295), (Od.DMA_TAIL ch, 1), (Od.DMA_TENANT ch, 0), (Od.DMA_GATHER_SPACE ch, 1), (Od.DMA_GATHER_BASE ch, 17179869184)]).setCp fun y => { y with buf := [(1, ⟨1, 0⟩), (2, ⟨65535, 0⟩), (3, ⟨2, 5⟩), (4, ⟨2, 0⟩)] } }; let d := readDescriptor q; let dat : Bytes := toLE 4 252 ++ toLE 4 253; let tab := if d.srcSpace = 0 then dat.take (4 * d.count) else ramBytes s.ram (s.m.poolAddr d.src) (4 * d.count); let host := if d.srcSpace = 0 then dat.drop (4 * d.count) else dat; let r := s.m.gather ch d.len (offsets d.count tab) host; s.m.up = true ∧ s.m.dmaFree ch 0 = true ∧ s.m.headDesc s.ram ch q = some q ∧ d.op = 1 ∧ s.m.spaceFault ch d.srcSpace d.src (4 * d.count) = 0 ∧ s.m.spaceFault ch d.dstSpace d.dst (d.len * d.count) = 0 ∧ (s.m.rdN (Od.DMA_GATHER_SPACE ch) = 0 ∨ s.m.poolFault ch (s.m.rdN (Od.DMA_GATHER_BASE ch)) 0 = 0) ∧ d.len ≠ 0 ∧ d.count ≠ 0 ∧ d.len * d.count ≤ 16777216 ∧ dat.length = (if d.srcSpace = 0 then 4 * d.count else 0) + (if s.m.rdN (Od.DMA_GATHER_SPACE ch) = 0 then d.len * ((offsets d.count tab).filter (· != 0xFFFFFFFF)).length else 0) ∧ (r.1.map (Piece.all s.ram)).flatten ≠ [] ∧ s.m.cp.dma.all (fun e => e.2.job.isNone) = true ∧ d.dstSpace ≠ 0 ∧ r.2 = true) ∧
    (let ch : Fin 64 := 63; let q : Bytes := toLE 8 (0) ++ toLE 8 (0) ++ toLE 4 0 ++ toLE 4 0 ++ toLE 4 (2 * 536870912 + 0 * 268435456 + 0 * 134217728 + 0 * 33554432) ++ toLE 4 0; let s : State := { m := (od [(Od.FN_STATE (104 + ch), 2), (Od.FN_STATE 102, 2), (Od.DMA_RING_SIZE ch, 16), (Od.DMA_HEAD ch, 4294967295), (Od.DMA_TAIL ch, 1), (Od.DMA_TENANT ch, 0)]) }; let d := readDescriptor q; s.m.up = true ∧ s.m.dmaFree ch 0 = true ∧ s.m.headDesc s.ram ch q = some q ∧ d.op = 2 ∧ d.len = 0) := by decide +kernel
theorem witness_DmaDescriptors_7 :
    (let ch : Fin 64 := 63; let q : Bytes := toLE 8 (0) ++ toLE 8 (0) ++ toLE 4 262145 ++ toLE 4 0 ++ toLE 4 (2 * 536870912 + 0 * 268435456 + 0 * 134217728 + 0 * 33554432) ++ toLE 4 0; let s : State := { m := (od [(Od.FN_STATE (104 + ch), 2), (Od.FN_STATE 102, 2), (Od.DMA_RING_SIZE ch, 16), (Od.DMA_HEAD ch, 4294967295), (Od.DMA_TAIL ch, 1), (Od.DMA_TENANT ch, 0)]) }; let d := readDescriptor q; s.m.up = true ∧ s.m.dmaFree ch 0 = true ∧ s.m.headDesc s.ram ch q = some q ∧ d.op = 2 ∧ 262144 < d.len) ∧
    (let ch : Fin 64 := 63; let q : Bytes := toLE 8 (0) ++ toLE 8 (0) ++ toLE 4 262144 ++ toLE 4 0 ++ toLE 4 (2 * 536870912 + 0 * 268435456 + 0 * 134217728 + 0 * 33554432) ++ toLE 4 0; let s : State := { m := (od [(Od.FN_STATE (104 + ch), 2), (Od.FN_STATE 102, 2), (Od.DMA_RING_SIZE ch, 16), (Od.DMA_HEAD ch, 4294967295), (Od.DMA_TAIL ch, 1), (Od.DMA_TENANT ch, 0), (Od.FN_STATE 102, 0)]) }; let d := readDescriptor q; s.m.up = true ∧ s.m.dmaFree ch 0 = true ∧ s.m.headDesc s.ram ch q = some q ∧ d.op = 2 ∧ 1 ≤ d.len ∧ d.len ≤ 262144 ∧ s.m.fnRuns 102 = false) ∧
    (let ch : Fin 64 := 63; let q : Bytes := toLE 8 (0) ++ toLE 8 (0) ++ toLE 4 262144 ++ toLE 4 0 ++ toLE 4 (2 * 536870912 + 0 * 268435456 + 0 * 134217728 + 0 * 33554432) ++ toLE 4 0; let s : State := { m := (od [(Od.FN_STATE (104 + ch), 2), (Od.FN_STATE 102, 2), (Od.DMA_RING_SIZE ch, 16), (Od.DMA_HEAD ch, 4294967295), (Od.DMA_TAIL ch, 1), (Od.DMA_TENANT ch, 0), (Od.POOLP_FREE 3, 1), (Od.POOL_COUNT_256K, 1)]) }; let d := readDescriptor q; let a := s.m.retried ch; let g := a.request ch d.len (s.m.rdN (Od.DMA_TENANT ch)); s.m.up = true ∧ s.m.dmaFree ch 0 = true ∧ s.m.headDesc s.ram ch q = some q ∧ d.op = 2 ∧ 1 ≤ d.len ∧ d.len ≤ 262144 ∧ s.m.fnRuns 102 = true ∧ (match g.1 with | .buffer _ => true | _ => false) = true) := by decide +kernel
theorem witness_DmaDescriptors_8 :
    (let ch : Fin 64 := 63; let q : Bytes := toLE 8 (0) ++ toLE 8 (0) ++ toLE 4 1 ++ toLE 4 0 ++ toLE 4 (2 * 536870912 + 0 * 268435456 + 0 * 134217728 + 0 * 33554432) ++ toLE 4 0; let s : State := { m := (od [(Od.FN_STATE (104 + ch), 2), (Od.FN_STATE 102, 2), (Od.DMA_RING_SIZE ch, 16), (Od.DMA_HEAD ch, 4294967295), (Od.DMA_TAIL ch, 1), (Od.DMA_TENANT ch, 0), (Od.POOLP_FREE 0, 0), (Od.POOLP_FREE 1, 0), (Od.POOLP_FREE 2, 0), (Od.POOLP_FREE 3, 0)]) }; let d := readDescriptor q; let a := s.m.retried ch; let g := a.request ch d.len (s.m.rdN (Od.DMA_TENANT ch)); s.m.up = true ∧ s.m.dmaFree ch 0 = true ∧ s.m.headDesc s.ram ch q = some q ∧ d.op = 2 ∧ 1 ≤ d.len ∧ d.len ≤ 262144 ∧ s.m.fnRuns 102 = true ∧ g.1 = .waits) ∧
    (let ch : Fin 64 := 63; let q : Bytes := toLE 8 (0) ++ toLE 8 (0) ++ toLE 4 1 ++ toLE 4 0 ++ toLE 4 (2 * 536870912 + 0 * 268435456 + 0 * 134217728 + 0 * 33554432) ++ toLE 4 0; let s : State := { m := (od [(Od.FN_STATE (104 + ch), 2), (Od.FN_STATE 102, 2), (Od.DMA_RING_SIZE ch, 16), (Od.DMA_HEAD ch, 4294967295), (Od.DMA_TAIL ch, 1), (Od.DMA_TENANT ch, 0), (Od.POOLP_FREE 0, 0), (Od.POOLP_FREE 1, 0), (Od.POOLP_FREE 2, 0), (Od.POOLP_FREE 3, 0)]).setCp fun y => { y with waits := [(0, List.replicate 256 ⟨0, 1, 0⟩)] } }; let d := readDescriptor q; let a := s.m.retried ch; let g := a.request ch d.len (s.m.rdN (Od.DMA_TENANT ch)); s.m.up = true ∧ s.m.dmaFree ch 0 = true ∧ s.m.headDesc s.ram ch q = some q ∧ d.op = 2 ∧ 1 ≤ d.len ∧ d.len ≤ 262144 ∧ s.m.fnRuns 102 = true ∧ g.1 = .refused) := by decide +kernel
theorem witness_DmaDescriptors_9 :
    (let ch : Fin 64 := 63; let q : Bytes := toLE 8 (1048576) ++ toLE 8 (0) ++ toLE 4 0 ++ toLE 4 0 ++ toLE 4 (3 * 536870912 + 0 * 268435456 + 0 * 134217728 + 0 * 33554432) ++ toLE 4 0; let s : State := { m := (od [(Od.FN_STATE (104 + ch), 2), (Od.FN_STATE 102, 2), (Od.DMA_RING_SIZE ch, 16), (Od.DMA_HEAD ch, 4294967295), (Od.DMA_TAIL ch, 1), (Od.DMA_TENANT ch, 0)]).setCp fun y => { y with buf := [(1, ⟨1, 0⟩), (2, ⟨65535, 0⟩), (3, ⟨2, 5⟩), (4, ⟨2, 0⟩)] } }; let d := readDescriptor q; let h := d.src % 2 ^ 32; s.m.up = true ∧ s.m.dmaFree ch 0 = true ∧ s.m.headDesc s.ram ch q = some q ∧ d.op = 3 ∧ s.m.handleOk h = false) ∧
    (let ch : Fin 64 := 63; let q : Bytes := toLE 8 (1048575) ++ toLE 8 (0) ++ toLE 4 0 ++ toLE 4 0 ++ toLE 4 (3 * 536870912 + 0 * 268435456 + 0 * 134217728 + 0 * 33554432) ++ toLE 4 0; let s : State := { m := (od [(Od.FN_STATE (104 + ch), 2), (Od.FN_STATE 102, 2), (Od.DMA_RING_SIZE ch, 16), (Od.DMA_HEAD ch, 4294967295), (Od.DMA_TAIL ch, 1), (Od.DMA_TENANT ch, 0)]).setCp fun y => { y with buf := [(1, ⟨1, 0⟩), (2, ⟨65535, 0⟩), (3, ⟨2, 5⟩), (4, ⟨2, 0⟩)] } }; let d := readDescriptor q; let h := d.src % 2 ^ 32; s.m.up = true ∧ s.m.dmaFree ch 0 = true ∧ s.m.headDesc s.ram ch q = some q ∧ d.op = 3 ∧ s.m.handleOk h = true ∧ s.m.buf h = none) ∧
    (let ch : Fin 64 := 63; let q : Bytes := toLE 8 (3) ++ toLE 8 (0) ++ toLE 4 0 ++ toLE 4 0 ++ toLE 4 (3 * 536870912 + 0 * 268435456 + 0 * 134217728 + 0 * 33554432) ++ toLE 4 0; let s : State := { m := (od [(Od.FN_STATE (104 + ch), 2), (Od.FN_STATE 102, 2), (Od.DMA_RING_SIZE ch, 16), (Od.DMA_HEAD ch, 4294967295), (Od.DMA_TAIL ch, 1), (Od.DMA_TENANT ch, 0)]).setCp fun y => { y with buf := [(1, ⟨1, 0⟩), (2, ⟨65535, 0⟩), (3, ⟨2, 5⟩), (4, ⟨2, 0⟩)] } }; let d := readDescriptor q; let h := d.src % 2 ^ 32; s.m.up = true ∧ s.m.dmaFree ch 0 = true ∧ s.m.headDesc s.ram ch q = some q ∧ d.op = 3 ∧ s.m.handleOk h = true ∧ s.m.buf h = some ⟨2, 5⟩ ∧ 5 ≠ s.m.rdN (Od.DMA_TENANT ch)) := by decide +kernel
theorem witness_DmaDescriptors_10 :
    (let ch : Fin 64 := 63; let q : Bytes := toLE 8 (2) ++ toLE 8 (0) ++ toLE 4 0 ++ toLE 4 0 ++ toLE 4 (3 * 536870912 + 0 * 268435456 + 0 * 134217728 + 0 * 33554432) ++ toLE 4 0; let s : State := { m := (od [(Od.FN_STATE (104 + ch), 2), (Od.FN_STATE 102, 2), (Od.DMA_RING_SIZE ch, 16), (Od.DMA_HEAD ch, 4294967295), (Od.DMA_TAIL ch, 1), (Od.DMA_TENANT ch, 0)]).setCp fun y => { y with buf := [(1, ⟨1, 0⟩), (2, ⟨65535, 0⟩), (3, ⟨2, 5⟩), (4, ⟨2, 0⟩)] } }; let d := readDescriptor q; let h := d.src % 2 ^ 32; s.m.up = true ∧ s.m.dmaFree ch 0 = true ∧ s.m.headDesc s.ram ch q = some q ∧ d.op = 3 ∧ s.m.handleOk h = true ∧ s.m.buf h = some ⟨65535, 0⟩ ∧ 0 = s.m.rdN (Od.DMA_TENANT ch)) ∧
    (let ch : Fin 64 := 63; let q : Bytes := toLE 8 (1) ++ toLE 8 (0) ++ toLE 4 0 ++ toLE 4 0 ++ toLE 4 (3 * 536870912 + 0 * 268435456 + 0 * 134217728 + 0 * 33554432) ++ toLE 4 0; let s : State := { m := (od [(Od.FN_STATE (104 + ch), 2), (Od.FN_STATE 102, 2), (Od.DMA_RING_SIZE ch, 16), (Od.DMA_HEAD ch, 4294967295), (Od.DMA_TAIL ch, 1), (Od.DMA_TENANT ch, 0)]).setCp fun y => { y with buf := [(1, ⟨1, 0⟩), (2, ⟨65535, 0⟩), (3, ⟨2, 5⟩), (4, ⟨2, 0⟩)] } }; let d := readDescriptor q; let h := d.src % 2 ^ 32; s.m.up = true ∧ s.m.dmaFree ch 0 = true ∧ s.m.headDesc s.ram ch q = some q ∧ d.op = 3 ∧ s.m.handleOk h = true ∧ s.m.buf h = some ⟨1, 0⟩ ∧ 0 = s.m.rdN (Od.DMA_TENANT ch)) ∧
    (let ch : Fin 64 := 63; let q : Bytes := toLE 8 (9) ++ toLE 8 (0) ++ toLE 4 0 ++ toLE 4 0 ++ toLE 4 (4 * 536870912 + 0 * 268435456 + 0 * 134217728 + 0 * 33554432) ++ toLE 4 0; let s : State := { m := (od [(Od.FN_STATE (104 + ch), 2), (Od.FN_STATE 102, 2), (Od.DMA_RING_SIZE ch, 16), (Od.DMA_HEAD ch, 4294967295), (Od.DMA_TAIL ch, 1), (Od.DMA_TENANT ch, 0)]).setCp fun y => { y with buf := [(1, ⟨1, 0⟩), (2, ⟨65535, 0⟩), (3, ⟨2, 5⟩), (4, ⟨2, 0⟩)] } }; let d := readDescriptor q; let h := d.src % 2 ^ 32; s.m.up = true ∧ s.m.dmaFree ch 0 = true ∧ s.m.headDesc s.ram ch q = some q ∧ d.op = 4 ∧ s.m.buf h = none) := by decide +kernel
theorem witness_DmaDescriptors_11 :
    (let ch : Fin 64 := 63; let q : Bytes := toLE 8 (3) ++ toLE 8 (0) ++ toLE 4 0 ++ toLE 4 0 ++ toLE 4 (4 * 536870912 + 0 * 268435456 + 0 * 134217728 + 0 * 33554432) ++ toLE 4 0; let s : State := { m := (od [(Od.FN_STATE (104 + ch), 2), (Od.FN_STATE 102, 2), (Od.DMA_RING_SIZE ch, 16), (Od.DMA_HEAD ch, 4294967295), (Od.DMA_TAIL ch, 1), (Od.DMA_TENANT ch, 0)]).setCp fun y => { y with buf := [(1, ⟨1, 0⟩), (2, ⟨65535, 0⟩), (3, ⟨2, 5⟩), (4, ⟨2, 0⟩)] } }; let d := readDescriptor q; let h := d.src % 2 ^ 32; s.m.up = true ∧ s.m.dmaFree ch 0 = true ∧ s.m.headDesc s.ram ch q = some q ∧ d.op = 4 ∧ s.m.buf h = some ⟨2, 5⟩ ∧ 5 ≠ s.m.rdN (Od.DMA_TENANT ch)) ∧
    (let ch : Fin 64 := 63; let q : Bytes := toLE 8 (4) ++ toLE 8 (0) ++ toLE 4 0 ++ toLE 4 0 ++ toLE 4 (4 * 536870912 + 0 * 268435456 + 0 * 134217728 + 0 * 33554432) ++ toLE 4 0; let s : State := { m := (od [(Od.FN_STATE (104 + ch), 2), (Od.FN_STATE 102, 2), (Od.DMA_RING_SIZE ch, 16), (Od.DMA_HEAD ch, 4294967295), (Od.DMA_TAIL ch, 1), (Od.DMA_TENANT ch, 0)]).setCp fun y => { y with buf := [(1, ⟨1, 0⟩), (2, ⟨65535, 0⟩), (3, ⟨2, 5⟩), (4, ⟨2, 0⟩)] } }; let d := readDescriptor q; let h := d.src % 2 ^ 32; s.m.up = true ∧ s.m.dmaFree ch 0 = true ∧ s.m.headDesc s.ram ch q = some q ∧ d.op = 4 ∧ s.m.buf h = some ⟨2, 0⟩ ∧ 0 = s.m.rdN (Od.DMA_TENANT ch)) := by decide +kernel
theorem witness_DmaDescriptors_12 :
    (let ch : Fin 64 := 63; let q : Bytes := toLE 8 (1) ++ toLE 8 (0) ++ toLE 4 0 ++ toLE 4 0 ++ toLE 4 (4 * 536870912 + 0 * 268435456 + 0 * 134217728 + 0 * 33554432) ++ toLE 4 0; let s : State := { m := (od [(Od.FN_STATE (104 + ch), 2), (Od.FN_STATE 102, 2), (Od.DMA_RING_SIZE ch, 16), (Od.DMA_HEAD ch, 4294967295), (Od.DMA_TAIL ch, 1), (Od.DMA_TENANT ch, 0), (Od.POOLP_FREE 0, 7)]).setCp fun y => { y with buf := [(1, ⟨1, 0⟩), (2, ⟨65535, 0⟩), (3, ⟨2, 5⟩), (4, ⟨2, 0⟩)] } }; let d := readDescriptor q; let h := d.src % 2 ^ 32; s.m.up = true ∧ s.m.dmaFree ch 0 = true ∧ s.m.headDesc s.ram ch q = some q ∧ d.op = 4 ∧ s.m.buf h = some ⟨1, 0⟩ ∧ 0 = s.m.rdN (Od.DMA_TENANT ch) ∧ ((List.range 4).all fun k => tat [] s.m.cp.waits k == []) = true) ∧
    (let ch : Fin 64 := 63; let q : Bytes := toLE 8 (66) ++ toLE 8 (4294967296 + 252) ++ toLE 4 4 ++ toLE 4 0 ++ toLE 4 134217728 ++ toLE 4 0; let s : State := { m := ((od [(Od.FN_STATE (104 + ch), 2), (Od.FN_STATE 102, 2), (Od.DMA_RING_SIZE ch, 16), (Od.DMA_HEAD ch, 4294967295), (Od.DMA_TAIL ch, 1), (Od.DMA_TENANT ch, 0), (Od.FN_STATE 104, 2), (Od.DMA_PRIORITY 0, 3)]).setCp fun y => { y with buf := [(1, ⟨1, 0⟩)] }).setDma 0 fun x => { x with job := some { work := .desc, raw := q, todo := [.bytes (List.replicate 900 1)], space := 1, to_ := 8589934592 } } }; let d := readDescriptor q; s.m.up = true ∧ s.m.dmaFree ch 0 = true ∧ s.m.headDesc s.ram ch q = some q ∧ d.op = 0 ∧ s.m.spaceFault ch d.srcSpace d.src d.len = 0 ∧ s.m.spaceFault ch d.dstSpace d.dst d.len = 0 ∧ 1 ≤ d.len ∧ d.len ≤ 16777216 ∧ d.srcSpace = 0 ∧ ([1, 2, 3, 4] : Bytes).length = d.len ∧ s.m.cp.dma.all (fun e => e.2.job.isNone) = false) := by decide +kernel

/-- States and operands that meet the hypotheses of Obligations.DmaChannels, clause by clause. -/
theorem witness_DmaChannels :
    (let ch : Fin 64 := 63; let s : State := { m := (od [(Od.FN_STATE (104 + ch), 2), (Od.FN_STATE 102, 2), (Od.DMA_RING_SIZE ch, 16), (Od.DMA_HEAD ch, 4294967295), (Od.DMA_TAIL ch, 1), (Od.DMA_TENANT ch, 0), (Od.DMA_RETRIES ch, 3)] { base with cyc := us 70000 }) }; s.m.up = true ∧ s.m.fnRuns (104 + ch) = true ∧ s.m.rdN (Od.DMA_STATUS ch) ≠ 3 ∧ (s.m.dma ch).retryAt = none ∧ (s.m.rdN (Od.DMA_HEAD ch) ≠ s.m.rdN (Od.DMA_TAIL ch) ∨ s.m.rdN (Od.DMA_MODE ch) = 2) ∧ (s.m.dma ch).reissued = false ∧ (s.m.dma ch).tries < s.m.rdN (Od.DMA_RETRIES ch)) ∧
    (let ch : Fin 64 := 63; let s : State := { m := ((od [(Od.FN_STATE (104 + ch), 2), (Od.FN_STATE 102, 2), (Od.DMA_RING_SIZE ch, 16), (Od.DMA_HEAD ch, 4294967295), (Od.DMA_TAIL ch, 1), (Od.DMA_TENANT ch, 0), (Od.DMA_RETRIES ch, 3)] { base with cyc := us 70000 }).setDma ch fun x => { x with reissued := true, errAddr := 4096, tries := 3 }) }; s.m.up = true ∧ s.m.fnRuns (104 + ch) = true ∧ s.m.rdN (Od.DMA_STATUS ch) ≠ 3 ∧ (s.m.dma ch).retryAt = none ∧ (s.m.rdN (Od.DMA_HEAD ch) ≠ s.m.rdN (Od.DMA_TAIL ch) ∨ s.m.rdN (Od.DMA_MODE ch) = 2) ∧ (s.m.dma ch).errAddr = 4096 ∧ s.m.rdN (Od.DMA_RETRIES ch) ≤ (s.m.dma ch).tries) ∧
    (let ch : Fin 64 := 63; let s : State := { m := (od [(Od.FN_STATE (104 + ch), 2), (Od.FN_STATE 102, 2), (Od.DMA_RING_SIZE ch, 16), (Od.DMA_HEAD ch, 4294967295), (Od.DMA_TAIL ch, 1), (Od.DMA_TENANT ch, 0), (Od.DMA_MODE ch, 2), (Od.DMA_TAIL ch, 4294967295), (Od.DMA_RETRIES ch, 0)] { base with cyc := us 70000 }) }; s.m.up = true ∧ s.m.fnRuns (104 + ch) = true ∧ s.m.rdN (Od.DMA_STATUS ch) ≠ 3 ∧ (s.m.dma ch).retryAt = none ∧ (s.m.rdN (Od.DMA_HEAD ch) ≠ s.m.rdN (Od.DMA_TAIL ch) ∨ s.m.rdN (Od.DMA_MODE ch) = 2) ∧ (s.m.dma ch).reissued = false ∧ s.m.rdN (Od.DMA_RETRIES ch) ≤ (s.m.dma ch).tries) := by decide +kernel
theorem witness_DmaChannels_2 :
    (let ch : Fin 64 := 63; let s : State := { m := ((od [(Od.FN_STATE (104 + ch), 2), (Od.FN_STATE 102, 2), (Od.DMA_RING_SIZE ch, 16), (Od.DMA_HEAD ch, 4294967295), (Od.DMA_TAIL ch, 1), (Od.DMA_TENANT ch, 0)] { base with cyc := us 70000 }).setDma ch fun x => { x with retryAt := some (us 70000) }) }; s.m.up = true ∧ (s.m.dma ch).retryAt = some (us 70000) ∧ us 70000 ≤ s.m.cyc) ∧
    (let ch : Fin 64 := 63; let s : State := { m := (od [(Od.FN_STATE (104 + ch), 2), (Od.FN_STATE 102, 2), (Od.DMA_RING_SIZE ch, 16), (Od.DMA_HEAD ch, 4294967295), (Od.DMA_TAIL ch, 1), (Od.DMA_TENANT ch, 0)] { base with cyc := us 70000 }) }; let q := writeKey 1 (Od.DMA_RESUME ch) 1; let a := s.m.door me q 0; s.grants me q 0 = true ∧ a.rdN (Od.DMA_STATUS ch) ≠ 3) ∧
    (let ch : Fin 64 := 63; let s : State := { m := (od [(Od.FN_STATE (104 + ch), 2), (Od.FN_STATE 102, 2), (Od.DMA_RING_SIZE ch, 16), (Od.DMA_HEAD ch, 4294967295), (Od.DMA_TAIL ch, 1), (Od.DMA_TENANT ch, 0), (Od.DMA_STATUS ch, 3)] { base with cyc := us 70000 }) }; let q := writeKey 1 (Od.DMA_RESUME ch) 1; let a := s.m.door me q 0; s.grants me q 0 = true ∧ a.rdN (Od.DMA_STATUS ch) = 3) ∧
    (let ch : Fin 64 := 63; let s : State := { m := (od [(Od.FN_STATE (104 + ch), 2), (Od.FN_STATE 102, 2), (Od.DMA_RING_SIZE ch, 16), (Od.DMA_HEAD ch, 4294967295), (Od.DMA_TAIL ch, 1), (Od.DMA_TENANT ch, 0)] { base with cyc := us 70000 }) }; let q := writeKey 1 (Od.DMA_RESUME ch) 2; let a := s.m.door me q 0; s.grants me q 0 = true ∧ a.rdN (Od.DMA_STATUS ch) ≠ 3) := by decide +kernel
theorem witness_DmaChannels_3 :
    (let ch : Fin 64 := 63; let s : State := { m := (od [(Od.FN_STATE (104 + ch), 2), (Od.FN_STATE 102, 2), (Od.DMA_RING_SIZE ch, 16), (Od.DMA_HEAD ch, 4294967295), (Od.DMA_TAIL ch, 1), (Od.DMA_TENANT ch, 0), (Od.DMA_STATUS ch, 3)] { base with cyc := us 70000 }) }; let q := writeKey 1 (Od.DMA_RESUME ch) 2; let a := s.m.door me q 0; s.grants me q 0 = true ∧ a.rdN (Od.DMA_STATUS ch) = 3) ∧
    (let ch : Fin 64 := 63; let fn : Fin 4 := 3; let s : State := { m := (od [(Od.FN_STATE (104 + ch), 2), (Od.FN_STATE 102, 2), (Od.DMA_RING_SIZE ch, 16), (Od.DMA_HEAD ch, 4294967295), (Od.DMA_TAIL ch, 1), (Od.DMA_TENANT ch, 0), (Od.CAP_PCIE_STRAP, 0), (Od.CAP_PCIE_LINK, 1), (Od.CAP_PCIE_FUNCTIONS, 4), (Od.DMA_FUNCTION ch, 2)] { base with cyc := us 70000 }) }; s.m.up = true ∧ s.m.pcieUp fn = true ∧ s.m.rdN (Od.DMA_DOORBELL_DROPS ch) + 1 < keySize (Od.DMA_DOORBELL_DROPS ch) ∧ s.m.rdN (Od.DMA_FUNCTION ch) ≠ fn.val) ∧
    (let ch : Fin 64 := 63; let fn : Fin 4 := 3; let s : State := { m := (od [(Od.FN_STATE (104 + ch), 2), (Od.FN_STATE 102, 2), (Od.DMA_RING_SIZE ch, 16), (Od.DMA_HEAD ch, 4294967295), (Od.DMA_TAIL ch, 1), (Od.DMA_TENANT ch, 0), (Od.CAP_PCIE_STRAP, 0), (Od.CAP_PCIE_LINK, 1), (Od.CAP_PCIE_FUNCTIONS, 4), (Od.DMA_FUNCTION ch, 3), (Od.FN_STATE (104 + ch), 0)] { base with cyc := us 70000 }) }; s.m.up = true ∧ s.m.pcieUp fn = true ∧ s.m.rdN (Od.DMA_DOORBELL_DROPS ch) + 1 < keySize (Od.DMA_DOORBELL_DROPS ch) ∧ s.m.fnRuns (104 + ch) = false) := by decide +kernel
theorem witness_DmaChannels_4 :
    (let ch : Fin 64 := 63; let fn : Fin 4 := 3; let s : State := { m := (od [(Od.FN_STATE (104 + ch), 2), (Od.FN_STATE 102, 2), (Od.DMA_RING_SIZE ch, 16), (Od.DMA_HEAD ch, 4294967295), (Od.DMA_TAIL ch, 1), (Od.DMA_TENANT ch, 0), (Od.CAP_PCIE_STRAP, 0), (Od.CAP_PCIE_LINK, 1), (Od.CAP_PCIE_FUNCTIONS, 4), (Od.DMA_FUNCTION ch, 3)] { base with cyc := us 70000 }) }; s.m.up = true ∧ s.m.pcieUp fn = true ∧ s.m.rdN (Od.DMA_DOORBELL_DROPS ch) + 1 < keySize (Od.DMA_DOORBELL_DROPS ch) ∧ s.m.rdN (Od.DMA_FUNCTION ch) = fn.val ∧ s.m.fnRuns (104 + ch) = true ∧ s.m.rdN (Od.DMA_MODE ch) ≠ 2 ∧ s.m.rdN (Od.DMA_RING_SIZE ch) < (16 + 2 ^ 32 - s.m.rdN (Od.DMA_HEAD ch)) % 2 ^ 32) ∧
    (let ch : Fin 64 := 63; let fn : Fin 4 := 3; let s : State := { m := (od [(Od.FN_STATE (104 + ch), 2), (Od.FN_STATE 102, 2), (Od.DMA_RING_SIZE ch, 16), (Od.DMA_HEAD ch, 4294967295), (Od.DMA_TAIL ch, 1), (Od.DMA_TENANT ch, 0), (Od.CAP_PCIE_STRAP, 0), (Od.CAP_PCIE_LINK, 1), (Od.CAP_PCIE_FUNCTIONS, 4), (Od.DMA_FUNCTION ch, 3)] { base with cyc := us 70000 }) }; s.m.up = true ∧ s.m.pcieUp fn = true ∧ s.m.rdN (Od.DMA_DOORBELL_DROPS ch) + 1 < keySize (Od.DMA_DOORBELL_DROPS ch) ∧ s.m.rdN (Od.DMA_FUNCTION ch) = fn.val ∧ s.m.fnRuns (104 + ch) = true ∧ s.m.rdN (Od.DMA_MODE ch) ≠ 2 ∧ (15 + 2 ^ 32 - s.m.rdN (Od.DMA_HEAD ch)) % 2 ^ 32 ≤ s.m.rdN (Od.DMA_RING_SIZE ch)) ∧
    (let ch : Fin 64 := 63; let s : State := { m := (od [(Od.FN_STATE (104 + ch), 2), (Od.FN_STATE 102, 2), (Od.DMA_RING_SIZE ch, 16), (Od.DMA_HEAD ch, 4294967295), (Od.DMA_TAIL ch, 1), (Od.DMA_TENANT ch, 0)] { base with cyc := us 70000 }) }; let q := writeKey 1 (Od.DMA_TAIL ch) 15; s.grants me q 0 = true) := by decide +kernel
theorem witness_DmaChannels_5 :
    (let ch : Fin 64 := 63; let q : Bytes := toLE 8 (0) ++ toLE 8 (0) ++ toLE 4 64 ++ toLE 4 0 ++ toLE 4 (0 * 536870912 + 0 * 268435456 + 1 * 134217728 + 0 * 33554432) ++ toLE 4 0; let f : CqFrame := ⟨1, 64⟩; let s : State := { m := ((od [(Od.FN_STATE (104 + ch), 2), (Od.FN_STATE 102, 2), (Od.DMA_RING_SIZE ch, 16), (Od.DMA_HEAD ch, 4294967295), (Od.DMA_TAIL ch, 1), (Od.DMA_TENANT ch, 0), (Od.DMA_MODE ch, 1)]).setCp fun y => { y with buf := [(1, ⟨1, 0⟩)] }).setDma ch fun x => { x with frames := [f] }, ram := ramStore (ramStore [] 256 (List.replicate 64 5)) 320 [9] }; let d := readDescriptor q; s.m.up = true ∧ s.m.dmaFree ch 1 = true ∧ s.m.headDesc s.ram ch q = some q ∧ (s.m.dma ch).frames = f :: [] ∧ d.len ≠ 0 ∧ f.len ≠ 0 ∧ s.m.cp.dma.all (fun e => e.2.job.isNone) = true ∧ s.m.spaceFault ch d.dstSpace d.dst (min d.len f.len) ≠ 0) ∧
    (let ch : Fin 64 := 63; let q : Bytes := toLE 8 (0) ++ toLE 8 (512) ++ toLE 4 64 ++ toLE 4 0 ++ toLE 4 (0 * 536870912 + 0 * 268435456 + 0 * 134217728 + 0 * 33554432) ++ toLE 4 0; let f : CqFrame := ⟨1, 64⟩; let s : State := { m := ((od [(Od.FN_STATE (104 + ch), 2), (Od.FN_STATE 102, 2), (Od.DMA_RING_SIZE ch, 16), (Od.DMA_HEAD ch, 4294967295), (Od.DMA_TAIL ch, 1), (Od.DMA_TENANT ch, 0), (Od.DMA_MODE ch, 1)]).setCp fun y => { y with buf := [(1, ⟨1, 0⟩)] }).setDma ch fun x => { x with frames := [f] }, ram := ramStore (ramStore [] 256 (List.replicate 64 5)) 320 [9] }; let d := readDescriptor q; s.m.up = true ∧ s.m.dmaFree ch 1 = true ∧ s.m.headDesc s.ram ch q = some q ∧ (s.m.dma ch).frames = f :: [] ∧ d.len ≠ 0 ∧ f.len ≠ 0 ∧ s.m.cp.dma.all (fun e => e.2.job.isNone) = true ∧ s.m.spaceFault ch d.dstSpace d.dst (min d.len f.len) = 0 ∧ f.len ≤ d.len) := by decide +kernel
theorem witness_DmaChannels_6 :
    (let ch : Fin 64 := 63; let q : Bytes := toLE 8 (0) ++ toLE 8 (4294967296) ++ toLE 4 64 ++ toLE 4 0 ++ toLE 4 (0 * 536870912 + 0 * 268435456 + 1 * 134217728 + 0 * 33554432) ++ toLE 4 0; let f : CqFrame := ⟨1, 64⟩; let s : State := { m := ((od [(Od.FN_STATE (104 + ch), 2), (Od.FN_STATE 102, 2), (Od.DMA_RING_SIZE ch, 16), (Od.DMA_HEAD ch, 4294967295), (Od.DMA_TAIL ch, 1), (Od.DMA_TENANT ch, 0), (Od.DMA_MODE ch, 1)]).setCp fun y => { y with buf := [(1, ⟨1, 0⟩)] }).setDma ch fun x => { x with frames := [f] }, ram := ramStore (ramStore [] 256 (List.replicate 64 5)) 320 [9] }; let d := readDescriptor q; s.m.up = true ∧ s.m.dmaFree ch 1 = true ∧ s.m.headDesc s.ram ch q = some q ∧ (s.m.dma ch).frames = f :: [] ∧ d.len ≠ 0 ∧ f.len ≠ 0 ∧ s.m.cp.dma.all (fun e => e.2.job.isNone) = true ∧ s.m.spaceFault ch d.dstSpace d.dst (min d.len f.len) = 0 ∧ f.len ≤ d.len ∧ d.dstSpace ≠ 0) ∧
    (let ch : Fin 64 := 63; let q : Bytes := toLE 8 (0) ++ toLE 8 (512) ++ toLE 4 64 ++ toLE 4 0 ++ toLE 4 (0 * 536870912 + 0 * 268435456 + 0 * 134217728 + 0 * 33554432) ++ toLE 4 0; let f : CqFrame := ⟨1, 65⟩; let s : State := { m := ((od [(Od.FN_STATE (104 + ch), 2), (Od.FN_STATE 102, 2), (Od.DMA_RING_SIZE ch, 16), (Od.DMA_HEAD ch, 4294967295), (Od.DMA_TAIL ch, 1), (Od.DMA_TENANT ch, 0), (Od.DMA_MODE ch, 1)]).setCp fun y => { y with buf := [(1, ⟨1, 0⟩)] }).setDma ch fun x => { x with frames := [f] }, ram := ramStore (ramStore [] 256 (List.replicate 64 5)) 320 [9] }; let d := readDescriptor q; s.m.up = true ∧ s.m.dmaFree ch 1 = true ∧ s.m.headDesc s.ram ch q = some q ∧ (s.m.dma ch).frames = f :: [] ∧ d.len ≠ 0 ∧ f.len ≠ 0 ∧ s.m.cp.dma.all (fun e => e.2.job.isNone) = true ∧ s.m.spaceFault ch d.dstSpace d.dst (min d.len f.len) = 0 ∧ d.len < f.len) := by decide +kernel
theorem witness_DmaChannels_7 :
    (let ch : Fin 64 := 63; let s : State := { m := ((od [(Od.FN_STATE (104 + ch), 2), (Od.FN_STATE 102, 2), (Od.DMA_RING_SIZE ch, 16), (Od.DMA_HEAD ch, 4294967295), (Od.DMA_TAIL ch, 1), (Od.DMA_TENANT ch, 0), (Od.DMA_MODE ch, 2), (Od.DMA_HEAD ch, 4294967264), (Od.DMA_RING_SIZE ch, 64), (Od.TIC_RING_WR, 65536), (Od.DMA_TAIL ch, 4294967248)]).setTm fun x => { x with ticRing := [[7, 8]] }).setDma ch fun x => { x with src := 65535 } }; let r : Bytes := [7, 8]; let src := s.m.sourceRing ch; let at_ := (s.m.dma ch).src; let item := padTo (divUp (8 + r.length) 8 * 8) (toLE 4 r.length ++ toLE 4 at_ ++ r); let size := s.m.rdN (Od.DMA_RING_SIZE ch); let head := s.m.rdN (Od.DMA_HEAD ch); let room := size - (head + 2 ^ 32 - s.m.rdN (Od.DMA_TAIL ch)) % 2 ^ 32; s.m.up = true ∧ s.m.dmaFree ch 2 = true ∧ s.m.rdN (Od.DMA_SOURCE_RING ch) < 2 ∧ s.m.cp.dma.all (fun e => e.2.job.isNone) = true ∧ (src.2.2 + 2 ^ 32 - at_) % 2 ^ 32 ≤ src.2.1 ∧ ringFrom src.1 src.2.2 at_ 1 = r :: [] ∧ item.length ≤ size - head % size ∧ item.length ≤ room) := by decide +kernel
theorem witness_DmaChannels_8 :
    (let ch : Fin 64 := 63; let s : State := { m := ((od [(Od.FN_STATE (104 + ch), 2), (Od.FN_STATE 102, 2), (Od.DMA_RING_SIZE ch, 16), (Od.DMA_HEAD ch, 4294967295), (Od.DMA_TAIL ch, 1), (Od.DMA_TENANT ch, 0), (Od.DMA_MODE ch, 2), (Od.DMA_HEAD ch, 4294967264), (Od.DMA_RING_SIZE ch, 64), (Od.TIC_RING_WR, 65536), (Od.DMA_TAIL ch, 4294967208)]).setTm fun x => { x with ticRing := [[7, 8]] }).setDma ch fun x => { x with src := 65535 } }; let r : Bytes := [7, 8]; let src := s.m.sourceRing ch; let at_ := (s.m.dma ch).src; let item := padTo (divUp (8 + r.length) 8 * 8) (toLE 4 r.length ++ toLE 4 at_ ++ r); let size := s.m.rdN (Od.DMA_RING_SIZE ch); let head := s.m.rdN (Od.DMA_HEAD ch); let room := size - (head + 2 ^ 32 - s.m.rdN (Od.DMA_TAIL ch)) % 2 ^ 32; s.m.up = true ∧ s.m.dmaFree ch 2 = true ∧ s.m.rdN (Od.DMA_SOURCE_RING ch) < 2 ∧ s.m.cp.dma.all (fun e => e.2.job.isNone) = true ∧ (src.2.2 + 2 ^ 32 - at_) % 2 ^ 32 ≤ src.2.1 ∧ ringFrom src.1 src.2.2 at_ 1 = r :: [] ∧ item.length ≤ size - head % size ∧ room < item.length) ∧
    (let ch : Fin 64 := 63; let s : State := { m := ((od [(Od.FN_STATE (104 + ch), 2), (Od.FN_STATE 102, 2), (Od.DMA_RING_SIZE ch, 16), (Od.DMA_HEAD ch, 4294967295), (Od.DMA_TAIL ch, 1), (Od.DMA_TENANT ch, 0), (Od.DMA_IRQ_HOLDOFF ch, 65535)] { base with cyc := us 70000 }).setDma ch fun x => { x with irqWait := some 63, irqAt := some (us 4465) }) }; s.m.up = true ∧ (s.m.dma ch).irqWait = some 63 ∧ (s.m.dma ch).irqAt = some (us 4465) ∧ us 4465 + us (s.m.rdN (Od.DMA_IRQ_HOLDOFF ch)) ≤ s.m.cyc) := by decide +kernel
theorem witness_DmaChannels_9 :
    (let q : Bytes := []; let b := ((od [(Od.FN_STATE 104, 2), (Od.FN_STATE 167, 2), (Od.DMA_PRIORITY 0, 3)]).setDma 0 fun x => { x with job := some { work := .desc, raw := q, todo := [.bytes (List.replicate 900 1)], space := 1, to_ := 8589934592 } }).setDma 63 fun x => { x with job := some { work := .desc, raw := q, todo := [.bytes (List.replicate 900 1)], space := 0, to_ := 64 } }; let j : DmaJob := ((b.dma 0).job).getD { work := .desc, raw := q, todo := [], space := 1, to_ := 0 }; b.beatWinner = some 0 ∧ (b.dma 0).job = some j ∧ (j.beat (b.ramAfter [])).1.ended = false ∧ b.canBeat 63 = true) := by decide +kernel

/-- States and operands that meet the hypotheses of Obligations.DictionaryRequests, clause by clause. -/
theorem witness_DictionaryRequests :
    (let q : Request := { op := 5, token := 65535, index := 0x1000, sub := 1 }; let s : State := { m := od [] }; s.serves me q 0 = true ∧ malformed me q = true) ∧
    (let q : Request := { op := 1, token := 0, index := 0x1000, sub := 255 }; let s : State := { m := od [] }; s.serves me q 0 = true ∧ malformed me q = false ∧ rowOf (key q.index q.sub) = none) ∧
    (let q : Request := writeKey 1 (Od.SLOT_STATE 0) 0; let s : State := { m := od [] }; let a := s.m.door me q 0; let w := s.m.asked me q 0; s.serves me q 0 = true ∧ malformed me q = false ∧ (match rowOf (key q.index q.sub) with | some e => a.refusal w.tenant w.owner e q.op q.index q.sub == some 1 | none => false) = true) ∧
    (let q : Request := { readKey 1 (Od.SLOT_WTR 23) with ty := 9 }; let s : State := { m := od [] }; let a := s.m.door me q 0; let w := s.m.asked me q 0; s.serves me q 0 = true ∧ malformed me q = false ∧ (match rowOf (key q.index q.sub) with | some e => a.refusal w.tenant w.owner e q.op q.index q.sub == none && typeWrong e q | none => false) = true) := by decide +kernel
theorem witness_DictionaryRequests_2 :
    (let q : Request := readKey 1 (Od.SLOT_WTR 23); let s : State := { m := od [(Od.SLOT_WTR 23, 300)] }; s.takes me q 0 = true ∧ q.op = 1 ∧ (rowOf (key q.index q.sub)).isSome = true) ∧
    (let q : Request := readKey 1 (Od.DMA_DESCRIPTORS 63); let s : State := { m := od [(Od.DMA_DESCRIPTORS 63, 300)] }; s.takes me q 0 = true ∧ q.op = 1 ∧ isCounter (Od.DMA_DESCRIPTORS 63) = true ∧ (rowOf (key q.index q.sub)).isSome = true) ∧
    (let q : Request := writeKey 1 (Od.SLOT_PRIORITY 0) 255; let s : State := { m := od [] }; let a := s.m.door me q 0; let k := key q.index q.sub; s.grants me q 0 = true ∧ q.op = 2 ∧ (match rowOf (key q.index q.sub) with | some e => (e.acc == .rw || e.acc == .rws) && (match e.ty with | .octets _ | .string _ => false | _ => true) && decide (decodeVal e.ty (q.data.take q.length) = some 255) && a.valueOk e k 255 && decide (accessOf e q.index q.sub ≠ .cmd) | none => false) = true) ∧
    (let q : Request := writeKey 1 Od.SEL_PHASE 4; let s : State := { m := od [] }; let a := s.m.door me q 0; let k := key q.index q.sub; s.grants me q 0 = true ∧ q.op = 2 ∧ (match rowOf (key q.index q.sub) with | some e => (e.acc == .rw || e.acc == .rws) && (match e.ty with | .octets _ | .string _ => false | _ => true) && decide (decodeVal e.ty (q.data.take q.length) = some 4) && !a.valueOk e k 4 && decide (accessOf e q.index q.sub ≠ .cmd) | none => false) = true) := by decide +kernel
theorem witness_DictionaryRequests_3 :
    (let q : Request := { writeKey 1 (Od.GCL_BASE_TIME 31) 1 with data := toLE 2 0 ++ toLE 4 1000000000 ++ toLE 6 0 }; let s : State := { m := od [] }; s.grants me q 0 = true ∧ q.op = 2 ∧ (match rowOf (key q.index q.sub) with | some e => (e.acc == .rw || e.acc == .rws) && (match e.ty with | .octets _ | .string _ => false | _ => true) && decide (decodeVal e.ty (q.data.take q.length) = none) | none => false) = true) := by decide +kernel

/-- States and operands that meet the hypotheses of Obligations.DomainSegments, clause by clause. -/
theorem witness_DomainSegments :
    (let q : Request := { op := 3, token := 1, index := (Od.GCL_LIST 31) / 256 % 65536, sub := (Od.GCL_LIST 31) % 256, offset := 0, length := 2 }; let s : State := { m := base.wrBlob (Od.GCL_LIST 31) [1, 2, 3, 4, 5] }; s.takes me q 0 = true ∧ q.op = 3 ∧ (rowOf (key q.index q.sub)).isSome = true ∧ recordEntry q.index q.sub = false ∧ q.offset = 0) ∧
    (let q : Request := { op := 3, token := 1, index := (Od.GCL_LIST 31) / 256 % 65536, sub := (Od.GCL_LIST 31) % 256, offset := 2, length := 2 }; let s : State := { m := ({ base with cyc := segmentLife - 1 }).setSrv fun y => { y with snaps := [(keyAt 0 ((Od.GCL_LIST 31) / 256 % 65536) ((Od.GCL_LIST 31) % 256), ⟨(Od.GCL_LIST 31) / 256 % 65536, (Od.GCL_LIST 31) % 256, [1, 2, 3, 4, 5], 0⟩)] } }; let a := s.m.door me q 0; let w := s.m.asked me q 0; s.takes me q 0 = true ∧ q.op = 3 ∧ (rowOf (key q.index q.sub)).isSome = true ∧ recordEntry q.index q.sub = false ∧ q.offset ≠ 0 ∧ tget a.mg.srv.snaps (keyAt w.tenant q.index q.sub) = some ⟨q.index, q.sub, [1, 2, 3, 4, 5], 0⟩ ∧ a.cyc < 0 + segmentLife) ∧
    (let q : Request := { op := 3, token := 1, index := (Od.GCL_LIST 31) / 256 % 65536, sub := (Od.GCL_LIST 31) % 256, offset := 4294967295, length := 2 }; let s : State := { m := base }; let a := s.m.door me q 0; let w := s.m.asked me q 0; s.takes me q 0 = true ∧ q.op = 3 ∧ (rowOf (key q.index q.sub)).isSome = true ∧ recordEntry q.index q.sub = false ∧ q.offset ≠ 0 ∧ tget a.mg.srv.snaps (keyAt w.tenant q.index q.sub) = none) := by decide +kernel
theorem witness_DomainSegments_2 :
    (let q : Request := { op := 4, flags := 0, token := 1, index := Od.GCL_LIST 31 / 256 % 65536, sub := Od.GCL_LIST 31 % 256, ty := typeCode .domain, offset := 0, length := 2, data := [1, 2] }; let s : State := { m := base }; let a := s.m.door me q 0; let w := s.m.asked me q 0; s.takes me q 0 = true ∧ q.op = 4 ∧ (rowOf (key q.index q.sub)).isSome = true ∧ a.pr.back = none ∧ (match rowOf (key q.index q.sub) with | some e => a.writeBarred w.tenant (a.entryKey w.tenant e q.index q.sub) (accessOf e q.index q.sub) 0 | none => true) = false ∧ q.length ≤ 4080 ∧ q.offset = 0 ∧ q.flags % 2 = 0) ∧
    (let q : Request := { op := 4, flags := 1, token := 1, index := Od.GCL_LIST 31 / 256 % 65536, sub := Od.GCL_LIST 31 % 256, ty := typeCode .domain, offset := 4294967295, length := 2, data := [1, 2] }; let s : State := { m := base }; let a := s.m.door me q 0; let w := s.m.asked me q 0; s.takes me q 0 = true ∧ q.op = 4 ∧ (rowOf (key q.index q.sub)).isSome = true ∧ a.pr.back = none ∧ (match rowOf (key q.index q.sub) with | some e => a.writeBarred w.tenant (a.entryKey w.tenant e q.index q.sub) (accessOf e q.index q.sub) 0 | none => true) = false ∧ q.length ≤ 4080 ∧ q.offset ≠ 0 ∧ tget a.mg.srv.accs (keyAt w.tenant q.index q.sub) = none) ∧
    (let q : Request := { op := 4, flags := 1, token := 1, index := Od.G_GRAPH 15 / 256 % 65536, sub := Od.G_GRAPH 15 % 256, ty := typeCode .domain, offset := 0, length := 3, data := [1, 2, 3] }; let s : State := { m := base }; let a := s.m.door me q 0; let w := s.m.asked me q 0; s.takes me q 0 = true ∧ q.op = 4 ∧ (rowOf (key q.index q.sub)).isSome = true ∧ a.pr.back = none ∧ (match rowOf (key q.index q.sub) with | some e => a.writeBarred w.tenant (a.entryKey w.tenant e q.index q.sub) (accessOf e q.index q.sub) 0 | none => true) = false ∧ q.length ≤ 4080 ∧ q.offset = 0 ∧ q.flags % 2 = 1 ∧ 0x3260 ≤ Od.G_GRAPH 15 / 256 % 65536) := by decide +kernel
theorem witness_DomainSegments_3 :
    (let s : State := { m := ({ base with cyc := secs 10 }).setSrv fun y => { y with accs := [(5, ⟨1, 1, [1], 0⟩), (6, ⟨1, 1, [1], 1⟩)], snaps := [(7, ⟨1, 1, [1], 0⟩)] } }; s.m.up = true ∧ s.m.cyc < 1 + secs 10 ∧ ¬ s.m.cyc < 0 + secs 10) := by decide +kernel

/-- States and operands that meet the hypotheses of Obligations.StickyBits, clause by clause. -/
theorem witness_StickyBits :
    (let q := writeRequest 1 (Od.MT_STICKY / 256 % 65536) (Od.MT_STICKY % 256) 9; let s : State := { m := od [(Od.MT_STICKY, 15)] }; s.grants me q 0 = true ∧ (rowOf (key q.index q.sub)).isSome = true ∧ q.index < 65536 ∧ q.sub < 256 ∧ isSticky Od.MT_STICKY = true ∧ (match rowOf (key q.index q.sub) with | some e => decide ((9 : Int) < typeSize e.ty) | none => false) = true ∧ (q.index < 0x1110 ∨ 0x1118 ≤ q.index) ∧ Od.MT_STICKY ≠ Od.SAFE_STICKY) ∧
    (let q := writeRequest 1 ((Od.DMA_STICKY 63) / 256 % 65536) ((Od.DMA_STICKY 63) % 256) 9; let s : State := { m := od [((Od.DMA_STICKY 63), 15)] }; s.grants me q 0 = true ∧ (rowOf (key q.index q.sub)).isSome = true ∧ q.index < 65536 ∧ q.sub < 256 ∧ isSticky (Od.DMA_STICKY 63) = true ∧ (match rowOf (key q.index q.sub) with | some e => decide ((9 : Int) < typeSize e.ty) | none => false) = true ∧ (q.index < 0x1110 ∨ 0x1118 ≤ q.index) ∧ (Od.DMA_STICKY 63) ≠ Od.SAFE_STICKY) := by decide +kernel

/-- States and operands that meet the hypotheses of Obligations.PathsAndEvents, clause by clause. -/
theorem witness_PathsAndEvents :
    (let ctrl : Fin 2 := 1; let k := ctrl.val * 256 + 255; let s : State := { m := (od [(Od.MP_CAN1_ENABLE, 1), (Od.MP_CAN1_NODE, 127)]).setSrv fun y => { y with can := [] } }; s.m.up = true ∧ s.m.canOn ctrl = true ∧ bit 192 7 = true ∧ bit 192 6 = true ∧ 192 % 64 = 0 ∧ tget s.m.mg.srv.can k = none) ∧
    (let ctrl : Fin 2 := 1; let s : State := { m := (od [(Od.MP_CAN1_ENABLE, 1), (Od.MP_CAN1_NODE, 127)]).setSrv fun y => { y with can := [(511, ⟨3, [9], 0⟩)] } }; s.m.up = true ∧ s.m.canOn ctrl = true ∧ bit 128 7 = true ∧ bit 128 6 = false ∧ 128 % 64 = 0) ∧
    (let ctrl : Fin 2 := 1; let k := ctrl.val * 256 + 255; let s : State := { m := (od [(Od.MP_CAN1_ENABLE, 1), (Od.MP_CAN1_NODE, 127)]).setSrv fun y => { y with can := [(511, ⟨4, [9], 0⟩)] } }; s.m.up = true ∧ s.m.canOn ctrl = true ∧ bit 4 7 = false ∧ bit 4 6 = false ∧ tget s.m.mg.srv.can k = some ⟨4, [9], 0⟩ ∧ 4 % 64 = 4 ∧ 4 < 5) ∧
    (let ctrl : Fin 2 := 1; let k := ctrl.val * 256 + 255; let s : State := { m := (od [(Od.MP_CAN1_ENABLE, 1), (Od.MP_CAN1_NODE, 127)]).setSrv fun y => { y with can := [(511, ⟨4, [9], 0⟩)] } }; s.m.up = true ∧ s.m.canOn ctrl = true ∧ bit 3 7 = false ∧ tget s.m.mg.srv.can k = some ⟨4, [9], 0⟩ ∧ 3 % 64 ≠ 4 ∧ s.m.rdN Od.MP_CAN_ERRORS + 1 < keySize Od.MP_CAN_ERRORS) := by decide +kernel
theorem witness_PathsAndEvents_2 :
    (let x : CanPart := ⟨4, [9], 7⟩; let s : State := { m := ({ base with cyc := ms 100 + 7 }).setSrv fun y => { y with can := [(511, x)] } }; s.m.up = true ∧ s.m.mg.srv.can = [(511, x)] ∧ x.at_ + ms 100 ≤ s.m.cyc ∧ s.m.rdN Od.MP_CAN_ERRORS + 1 < keySize Od.MP_CAN_ERRORS) ∧
    (let fn : Fin 4 := 3; let s : State := { m := (od [(Od.CAP_PCIE_STRAP, 0), (Od.CAP_PCIE_LINK, 1), (Od.CAP_PCIE_FUNCTIONS, 4), (key 0x1100 64, 9368331649860763648)]) }; let q := readKey 65535 (Od.SLOT_WTR 0); s.takes (.pcie fn) q 63 = true) ∧
    (let fn : Fin 4 := 3; let s : State := { m := (od [(Od.CAP_PCIE_STRAP, 0), (Od.CAP_PCIE_LINK, 1), (Od.CAP_PCIE_FUNCTIONS, 4), (key 0x1100 64, 9368331649860763648)]).setSrv fun y => { y with running := false } }; s.m.up = true ∧ s.m.pathUp (.pcie fn) = true ∧ s.m.mg.srv.running = false) ∧
    (let fn : Fin 4 := 3; let s : State := { m := (od [(Od.CAP_PCIE_STRAP, 0), (Od.CAP_PCIE_LINK, 1), (Od.CAP_PCIE_FUNCTIONS, 4), (key 0x1100 64, 9368331649860763648)]).setBox 3 fun y => { y with response := some ⟨1, 0, 1, 1, 1, 1, 0, [], none⟩ } }; s.m.up = true ∧ s.m.pcieUp fn = true ∧ (s.m.box fn).response.isSome = true) := by decide +kernel
theorem witness_PathsAndEvents_3 :
    (let fn : Fin 4 := 3; let s : State := { m := (od [(Od.CAP_PCIE_STRAP, 0), (Od.CAP_PCIE_LINK, 1), (Od.CAP_PCIE_FUNCTIONS, 4), (key 0x1100 64, 9368331649860763648)]).setBox 3 fun y => { y with evqHead := 9 } }; s.m.up = true ∧ s.m.pcieUp fn = true ∧ (2 ^ 32 - 1 : Nat) < 2 ^ 32 ∧ ringSizeOk 4096 = true ∧ 64 % 64 = 0 ∧ ringSizeOk 0 = true) ∧
    (let i : Fin 64 := 63; let q := writeRequest 1 0x1100 (i + 1) 9368331649860763648; let s : State := { m := base }; let a := s.m.door me q 0; s.grants me q 0 = true ∧ 9368331649860763648 < 2 ^ 64 ∧ a.apOk i 9368331649860763648 = true ∧ a.apEntry i ≠ 9368331649860763648) ∧
    (let i : Fin 64 := 63; let q := writeRequest 1 0x1100 (i + 1) 18446744073709551615; let s : State := { m := base }; let a := s.m.door me q 0; s.grants me q 0 = true ∧ 18446744073709551615 < 2 ^ 64 ∧ a.apOk i 18446744073709551615 = false) ∧
    (let ev : Event := ⟨0x2000, 1, 2, 3, 4, 0⟩; let t : Fin 8 := 7; let s : State := { m := { (od [(Od.MP_CAN1_ENABLE, 1), (Od.MP_CAN1_NODE, 127), (Od.TNT_EVENT_POINT 7, 63), (key 0x1100 64, 13475051581544071168)]) with mg := { base.mg with ev := [(7, { queue := [ev], lostSince := 3 })] } } }; let n := s.m.rdN (Od.TNT_EVENT_POINT t); s.m.up = true ∧ (tat {} s.m.mg.ev t).queue = ev :: [] ∧ n < 64 ∧ apValid (s.m.apEntry n) = true ∧ apKind (s.m.apEntry n) = 3 ∧ s.m.canOn (apWhere (s.m.apEntry n)) = true) := by decide +kernel
theorem witness_PathsAndEvents_4 :
    (let ev : Event := ⟨0x2000, 1, 2, 3, 4, 0⟩; let t : Fin 8 := 7; let s : State := { m := { (od [(Od.TNT_EVENT_POINT 7, 63), (key 0x1100 64, 13547109149812195328)]) with mg := { base.mg with from_ := [(63, .service 5 6)], ev := [(7, { queue := [ev], lostSince := 3 })] } } }; let n := s.m.rdN (Od.TNT_EVENT_POINT t); s.m.up = true ∧ (tat {} s.m.mg.ev t).queue = ev :: [] ∧ n < 64 ∧ apValid (s.m.apEntry n) = true ∧ apKind (s.m.apEntry n) = 4 ∧ tget s.m.mg.from_ n = some (.service 5 6)) ∧
    (let ev : Event := ⟨0x2000, 1, 2, 3, 4, 0⟩; let t : Fin 8 := 7; let fn : Fin 4 := 3; let s : State := { m := ({ (od [(Od.CAP_PCIE_STRAP, 0), (Od.CAP_PCIE_LINK, 1), (Od.CAP_PCIE_FUNCTIONS, 4), (key 0x1100 64, 13403556915984728064)]) with mg := { base.mg with ev := [(7, { queue := [ev], lostSince := 3 })] } }).setBox 3 fun y => { y with evqBase := 128, evqSize := 16, evqHead := 2 ^ 32 - 1, evqTail := 2 ^ 32 - 16 } }; s.m.up = true ∧ (tat {} s.m.mg.ev t).queue = ev :: [] ∧ s.m.pointOf (.pcie fn) = some 63 ∧ apTenant (s.m.apEntry 63) = t.val ∧ s.m.pcieUp fn = true ∧ (s.m.box fn).evqSize ≠ 0 ∧ ((s.m.box fn).evqHead + 2 ^ 32 - (s.m.box fn).evqTail) % 2 ^ 32 < (s.m.box fn).evqSize) ∧
    (let ev : Event := ⟨0x2000, 1, 2, 3, 4, 0⟩; let t : Fin 8 := 0; let q := readKey 1 (Od.TNT_EVENT_NEXT t); let s : State := { m := { base with mg := { base.mg with ev := [(0, { queue := [ev] })] } } }; s.takes me q 0 = true) ∧
    (let s : State := { m := ({ base with cyc := ms 500 }).setSrv fun y => { y with schedAt := 0 } }; s.m.up = true ∧ s.m.watchdogDue = true ∧ s.m.partHeld 4 = false) := by decide +kernel
theorem witness_PathsAndEvents_5 :
    (let ev : Event := ⟨0x2000, 1, 2, 3, 4, 0⟩; let t : Fin 8 := 7; let s : State := { m := { (od [(Od.TNT_EVENT_POINT 7, 63), (key 0x1100 64, 13332343742581964800), (Od.P_LINK 5, 1), (Od.FN_STATE 5, 2)]) with mg := { base.mg with from_ := [(63, .inband 5 100 6)], ev := [(7, { queue := [ev], lostSince := 3 })] } } }; let n := s.m.rdN (Od.TNT_EVENT_POINT t); s.m.up = true ∧ (tat {} s.m.mg.ev t).queue = ev :: [] ∧ n < 64 ∧ apValid (s.m.apEntry n) = true ∧ apKind (s.m.apEntry n) = 1 ∧ tget s.m.mg.from_ n = some (.inband 5 100 6) ∧ s.m.on (Od.P_LINK 5) = true ∧ s.m.fnRuns 5 = true ∧ (s.m.pf 5).own = [] ∧ s.m.eventLeaves 5 ((Own.event (.inband 5 100 6) { ev with lost := 3 }).bytes s.m).length = true) := by decide +kernel

/-- States and operands that meet the hypotheses of Obligations.Functions, clause by clause. -/
theorem witness_Functions :
    (let f : Fin 168 := 40; let q := writeKey 1 (Od.FN_CMD f) 1; let s : State := { m := (od [(Od.TIC_MODE 0, 1), (Od.TIC_STOP_CH 0, 255)]) }; let a := s.m.door me q 0; let w := s.m.asked me q 0; s.grants me q 0 = true ∧ a.fnState f = 1 - 1 ∧ a.holds f w.tenant = true ∧ (a.startCheck f).status ≠ 0) ∧
    (let f : Fin 168 := 0; let q := writeKey 1 (Od.FN_CMD f) 1; let s : State := { m := (od []) }; let a := s.m.door me q 0; let w := s.m.asked me q 0; s.grants me q 0 = true ∧ a.fnState f = 0 ∧ a.holds f w.tenant = true ∧ (a.startCheck f).status = 0) ∧
    (let f : Fin 168 := 102; let q := writeKey 1 (Od.FN_CMD f) 1; let s : State := { m := od [(Od.FN_HOLDER 102, 4), (Od.MP_CAN0_ENABLE, 1), (key 0x1100 64, 12321848619140382720), (Od.TNT_WRITE_MASK 5, 4294967295)] }; let c : Caller := .can 0 9; let a := s.m.door c q 63; let w := s.m.asked c q 63; s.grants c q 63 = true ∧ a.fnState f = 0 ∧ a.holds f w.tenant = false) ∧
    (let f : Fin 168 := 7; let q := writeKey 1 (Od.FN_CMD f) 1; let s : State := { m := (od [(Od.FN_STATE 7, 3)]) }; let a := s.m.door me q 0; s.grants me q 0 = true ∧ a.fnState f = 3) := by decide +kernel
theorem witness_Functions_2 :
    (let f : Fin 168 := 7; let q := writeKey 1 (Od.FN_CMD f) 1; let s : State := { m := (od [(Od.FN_STATE 7, 2)]) }; let a := s.m.door me q 0; s.grants me q 0 = true ∧ a.fnState f = 2) ∧
    (let f : Fin 168 := 7; let q := writeKey 1 (Od.FN_CMD f) 1; let s : State := { m := (od [(Od.FN_STATE 7, 1)]) }; let a := s.m.door me q 0; s.grants me q 0 = true ∧ a.fnState f = 1) ∧
    (let f : Fin 168 := 32; let q := writeKey 1 (Od.FN_CMD f) 2; let s : State := { m := (od []) }; s.grants me q 0 = true ∧ f.val = 32) ∧
    (let f : Fin 168 := 33; let q := writeKey 1 (Od.FN_CMD f) 2; let s : State := { m := (od []) }; s.grants me q 0 = true ∧ f.val = 33) := by decide +kernel
theorem witness_Functions_3 :
    (let f : Fin 168 := 34; let q := writeKey 1 (Od.FN_CMD f) 2; let s : State := { m := (od [(Od.FN_STATE 34, 2)]) }; let a := s.m.door me q 0; s.grants me q 0 = true ∧ f.val ≠ 32 ∧ f.val ≠ 33 ∧ a.fnState f = 2 ∧ f.val ≠ 102) ∧
    (let f : Fin 168 := 102; let q := writeKey 1 (Od.FN_CMD f) 2; let s : State := { m := (od [(Od.FN_STATE 102, 2)]) }; let a := s.m.door me q 0; s.grants me q 0 = true ∧ f.val ≠ 32 ∧ f.val ≠ 33 ∧ a.fnState f = 2 ∧ a.poolsIdle = true) ∧
    (let f : Fin 168 := 31; let q := writeKey 1 (Od.FN_CMD f) 2; let s : State := { m := (od [(Od.FN_STATE 31, 1)]) }; let a := s.m.door me q 0; s.grants me q 0 = true ∧ f.val ≠ 32 ∧ f.val ≠ 33 ∧ a.fnState f = 1) ∧
    (let f : Fin 168 := 31; let q := writeKey 1 (Od.FN_CMD f) 2; let s : State := { m := (od [(Od.FN_STATE 31, 0)]) }; let a := s.m.door me q 0; s.grants me q 0 = true ∧ f.val ≠ 32 ∧ f.val ≠ 33 ∧ a.fnState f = 0) := by decide +kernel
theorem witness_Functions_4 :
    (let f : Fin 168 := 31; let q := writeKey 1 (Od.FN_CMD f) 2; let s : State := { m := (od [(Od.FN_STATE 31, 3)]) }; let a := s.m.door me q 0; s.grants me q 0 = true ∧ f.val ≠ 32 ∧ f.val ≠ 33 ∧ a.fnState f = 3) ∧
    (let f : Fin 168 := 31; let s : State := { m := (od [(Od.FN_STATE 31, 1), (Od.P_MODE 31, 2)] { base with cyc := ms 2 }) }; s.m.up = true ∧ s.m.fnState f = 1 ∧ s.m.startDone f = true) ∧
    (let f : Fin 168 := 85; let s : State := { m := (od [(Od.FN_STATE 85, 1)] { base with cyc := ms 2 }) }; s.m.up = true ∧ s.m.fnState f = 1 ∧ s.m.startDone f = true) ∧
    (let f : Fin 168 := 40; let s : State := { m := (od [(Od.FN_STATE 40, 1)] { base with cyc := ms 2 }).setFnSt 40 fun _ => ⟨true, 3⟩ }; s.m.up = true ∧ s.m.fnState f = 1 ∧ s.m.startDone f = true) := by decide +kernel
theorem witness_Functions_5 :
    (let f : Fin 168 := 31; let s : State := { m := (od [(Od.FN_STATE 31, 3)]).setFnSt f fun _ => ⟨false, 6⟩ }; s.m.up = true ∧ s.m.fnState f = 3 ∧ s.m.stopReady f = true) ∧
    (let f : Fin 168 := 167; let s : State := { m := (od [(Od.FN_STATE 167, 3)]).setFnSt f fun _ => ⟨false, 6⟩ }; s.m.up = true ∧ s.m.fnState f = 3 ∧ s.m.stopReady f = true) := by decide +kernel

/-- States and operands that meet the hypotheses of Obligations.Jobs, clause by clause. -/
theorem witness_Jobs :
    (let j : Fin 16 := 15; let s : State := { m := (od [(Od.JOB_STATE 15, 1), (Od.JOB_KIND 15, 6), (Od.JOB_NUMBER 15, 77), (Od.JOB_STEPS_TOTAL 15, 5), (Od.JOB_STEPS_DONE 15, 4)] { base with cyc := secs 1 }).setJob 15 fun x => { x with todo := [] } }; let kind := s.m.rdN (Od.JOB_KIND j); s.m.up = true ∧ s.m.jobState j = 1 ∧ s.m.mg.srv.running = true ∧ s.m.clockRuns .prixus = true ∧ (nandJob kind = false ∨ s.m.nandHeld = false) ∧ kind ∉ [1, 5, 7, 9] ∧ (s.m.job j).abortPending = false ∧ (s.m.job j).pausePending = false) ∧
    (let j : Fin 16 := 0; let s : State := { m := (od [(Od.JOB_STATE 0, 1), (Od.JOB_KIND 0, 2), (Od.JOB_NUMBER 0, 77), (Od.JOB_STEPS_TOTAL 0, 5), (Od.JOB_STEPS_DONE 0, 0)] { base with cyc := secs 1 }).setJob 0 fun x => { x with pausePending := true } }; let kind := s.m.rdN (Od.JOB_KIND j); s.m.up = true ∧ s.m.jobState j = 1 ∧ s.m.mg.srv.running = true ∧ s.m.clockRuns .prixus = true ∧ (nandJob kind = false ∨ s.m.nandHeld = false) ∧ kind ∉ [1, 5, 7, 9] ∧ (s.m.job j).abortPending = false ∧ (s.m.job j).pausePending = true) ∧
    (let j : Fin 16 := 0; let s : State := { m := (od [(Od.JOB_STATE 0, 1), (Od.JOB_KIND 0, 4), (Od.JOB_NUMBER 0, 77), (Od.JOB_STEPS_TOTAL 0, 5), (Od.JOB_STEPS_DONE 0, 0)] { base with cyc := secs 1 }).setJob 0 fun x => { x with abortPending := true } }; let kind := s.m.rdN (Od.JOB_KIND j); s.m.up = true ∧ s.m.jobState j = 1 ∧ s.m.mg.srv.running = true ∧ s.m.clockRuns .prixus = true ∧ (nandJob kind = false ∨ s.m.nandHeld = false) ∧ kind ∉ [1, 5, 7, 9] ∧ (s.m.job j).abortPending = true) ∧
    (let j : Fin 16 := 1; let s : State := { m := (od [(Od.JOB_STATE 1, 1), (Od.JOB_KIND 1, 5), (Od.JOB_NUMBER 1, 77), (Od.JOB_STEPS_TOTAL 1, 5), (Od.JOB_STEPS_DONE 1, 0)] { base with cyc := secs 1 }).setJob 1 fun x => { x with todo := [] } }; let kind := s.m.rdN (Od.JOB_KIND j); s.m.up = true ∧ s.m.jobState j = 1 ∧ s.m.mg.srv.running = true ∧ s.m.clockRuns .prixus = true ∧ (nandJob kind = false ∨ s.m.nandHeld = false) ∧ nandJob kind = true) := by decide +kernel
theorem witness_Jobs_2 :
    (let j : Fin 16 := 1; let s : State := { m := (od [(Od.JOB_STATE 1, 1), (Od.JOB_KIND 1, 7), (Od.JOB_NUMBER 1, 77), (Od.JOB_STEPS_TOTAL 1, 5), (Od.JOB_STEPS_DONE 1, 0)] { base with cyc := secs 1 }).setJob 1 fun x => { x with todo := [] } }; let kind := s.m.rdN (Od.JOB_KIND j); s.m.up = true ∧ s.m.jobState j = 1 ∧ s.m.mg.srv.running = true ∧ s.m.clockRuns .prixus = true ∧ (nandJob kind = false ∨ s.m.nandHeld = false) ∧ nandJob kind = true) ∧
    (let j : Fin 16 := 1; let s : State := { m := (od [(Od.JOB_STATE 1, 1), (Od.JOB_KIND 1, 9), (Od.JOB_NUMBER 1, 77), (Od.JOB_STEPS_TOTAL 1, 5), (Od.JOB_STEPS_DONE 1, 0)] { base with cyc := secs 1 }).setJob 1 fun x => { x with todo := [] } }; let kind := s.m.rdN (Od.JOB_KIND j); s.m.up = true ∧ s.m.jobState j = 1 ∧ s.m.mg.srv.running = true ∧ s.m.clockRuns .prixus = true ∧ (nandJob kind = false ∨ s.m.nandHeld = false) ∧ nandJob kind = true) ∧
    (let j : Fin 16 := 1; let s : State := { m := (od [(Od.JOB_STATE 1, 1), (Od.JOB_KIND 1, 7), (Od.JOB_NUMBER 1, 77), (Od.JOB_STEPS_TOTAL 1, 5), (Od.JOB_STEPS_DONE 1, 4)] { base with cyc := secs 1 }).setJob 1 fun x => { x with todo := [] } }; let kind := s.m.rdN (Od.JOB_KIND j); let total := s.m.rdN (Od.JOB_STEPS_TOTAL j); s.m.up = true ∧ s.m.jobState j = 1 ∧ s.m.mg.srv.running = true ∧ s.m.clockRuns .prixus = true ∧ (nandJob kind = false ∨ s.m.nandHeld = false) ∧ kind = 7 ∧ total ≤ s.m.rdN (Od.JOB_STEPS_DONE j) + 1) ∧
    (let j : Fin 16 := 15; let q := writeKey 1 (Od.JOB_CTRL j) 1; let s : State := { m := (od [(Od.JOB_STATE j, 0), (Od.JOB_KIND j, 2), (Od.JOB_NUMBER j, 77)]) }; let a := s.m.door me q 0; s.grants me q 0 = true ∧ a.jobLive j = false) := by decide +kernel
theorem witness_Jobs_3 :
    (let j : Fin 16 := 15; let q := writeKey 1 (Od.JOB_CTRL j) 1; let s : State := { m := (od [(Od.JOB_STATE j, 1), (Od.JOB_KIND j, 6), (Od.JOB_NUMBER j, 77)]) }; let a := s.m.door me q 0; s.grants me q 0 = true ∧ a.rdN (Od.JOB_KIND j) = 6) ∧
    (let j : Fin 16 := 15; let q := writeKey 1 (Od.JOB_CTRL j) 1; let s : State := { m := (od [(Od.JOB_STATE j, 1), (Od.JOB_KIND j, 2), (Od.JOB_NUMBER j, 77)]) }; let a := s.m.door me q 0; s.grants me q 0 = true ∧ a.jobState j = 1 ∧ a.rdN (Od.JOB_KIND j) ∉ [6, 8]) ∧
    (let j : Fin 16 := 15; let q := writeKey 1 (Od.JOB_CTRL j) 2; let s : State := { m := (od [(Od.JOB_STATE j, 3), (Od.JOB_KIND j, 2), (Od.JOB_NUMBER j, 77)]) }; let a := s.m.door me q 0; s.grants me q 0 = true ∧ a.jobLive j = false) ∧
    (let j : Fin 16 := 15; let q := writeKey 1 (Od.JOB_CTRL j) 2; let s : State := { m := (od [(Od.JOB_STATE j, 2), (Od.JOB_KIND j, 2), (Od.JOB_NUMBER j, 77)]) }; let a := s.m.door me q 0; s.grants me q 0 = true ∧ a.jobState j = 2) := by decide +kernel
theorem witness_Jobs_4 :
    (let j : Fin 16 := 15; let q := writeKey 1 (Od.JOB_CTRL j) 2; let s : State := { m := (od [(Od.JOB_STATE j, 1), (Od.JOB_KIND j, 2), (Od.JOB_NUMBER j, 77)]) }; let a := s.m.door me q 0; s.grants me q 0 = true ∧ a.jobState j = 1) ∧
    (let j : Fin 16 := 15; let q := writeKey 1 (Od.JOB_CTRL j) 3; let s : State := { m := (od [(Od.JOB_STATE j, 4), (Od.JOB_KIND j, 2), (Od.JOB_NUMBER j, 77)]) }; let a := s.m.door me q 0; s.grants me q 0 = true ∧ a.jobLive j = false) ∧
    (let j : Fin 16 := 15; let q := writeKey 1 (Od.JOB_CTRL j) 3; let s : State := { m := (od [(Od.JOB_STATE j, 1), (Od.JOB_KIND j, 1), (Od.JOB_NUMBER j, 77)]) }; let a := s.m.door me q 0; s.grants me q 0 = true ∧ a.jobState j = 1) ∧
    (let j : Fin 16 := 15; let q := writeKey 1 (Od.JOB_CTRL j) 3; let s : State := { m := (od [(Od.JOB_STATE j, 2), (Od.JOB_KIND j, 2), (Od.JOB_NUMBER j, 77)]) }; let a := s.m.door me q 0; s.grants me q 0 = true ∧ a.jobState j = 2 ∧ a.rdN (Od.JOB_KIND j) ∉ [1, 8]) := by decide +kernel

/-- States and operands that meet the hypotheses of Obligations.ImagesAndConfiguration, clause by clause. -/
theorem witness_ImagesAndConfiguration :
    (let q := writeKey 1 Od.IMG_COMMIT 1; let s : State := { m := base }; let a := s.m.door me q 0; s.grants me q 0 = true ∧ a.blob Od.IMG_STAGE = []) ∧
    (let q := writeKey 1 Od.IMG_COMMIT 1; let s : State := { m := (od [(Od.JOB_STATE 3, 2), (Od.JOB_KIND 3, 5)]).wrBlob Od.IMG_STAGE [1] }; let a := s.m.door me q 0; s.grants me q 0 = true ∧ (a.liveJob 5).isSome = true) ∧
    (let q := writeKey 1 Od.IMG_COMMIT 1; let s : State := { m := base.wrBlob Od.IMG_STAGE [1] }; let a := s.m.door me q 0; s.grants me q 0 = true ∧ a.blob Od.IMG_STAGE ≠ [] ∧ a.liveJob 5 = none ∧ a.jobObject 5 = some 0) ∧
    (let q := writeKey 1 Od.IMG_BOOT_SELECT 1; let s : State := { m := { (od [(Od.IMG_SLOT_B_STATE, 1)]) with mg := { base.mg with boot := [⟨3, 0, true⟩, ⟨2, 1, true⟩] } } }; let a := s.m.door me q 0; s.grants me q 0 = true ∧ a.rdN (slotStateKey 1) = 1) := by decide +kernel
theorem witness_ImagesAndConfiguration_2 :
    (let q := writeKey 1 Od.IMG_BOOT_SELECT 1; let s : State := { m := od [(Od.IMG_SLOT_B_STATE, 2)] }; let a := s.m.door me q 0; s.grants me q 0 = true ∧ a.rdN (slotStateKey 1) ≠ 1) ∧
    (let q := writeKey 1 Od.IMG_BOOT_SELECT 255; let s : State := { m := base }; s.grants me q 0 = true ∧ 1 < 255) ∧
    (let s : State := { m := { base with cyc := secs 60 } }; s.m.up = true ∧ s.m.mg.srv.running = true ∧ s.m.mg.srv.runAt + secs 60 ≤ s.m.cyc) ∧
    (let q := writeKey 1 Od.CFG_SAVE 1; let s : State := { m := base }; let a := s.m.door me q 0; s.grants me q 0 = true ∧ a.jobObject 7 = some 0) := by decide +kernel
theorem witness_ImagesAndConfiguration_3 :
    (let q := writeKey 1 Od.CFG_SAVE 1; let s : State := { m := od [(Od.JOB_STATE 0, 1), (Od.JOB_KIND 0, 7)] }; let a := s.m.door me q 0; s.grants me q 0 = true ∧ a.jobObject 7 = some 1) ∧
    (let q := writeKey 1 Od.CFG_CLEAR 1; let s : State := { m := { (od [(Od.CFG_STATE, 2)]) with mg := { base.mg with cfg := [{ seq := 1 }] } } }; s.grants me q 0 = true ∧ True) ∧
    (let x : SavedCfg := { seq := 1, entries := [(Od.SLOT_PRIORITY 3, 9)] }; let s : State := { m := ({ base with mg := { base.mg with cfg := [x] } }).setRst fun r => { r with cleared := 31 } }; s.m.up = true ∧ s.m.mg.srv.running = true ∧ s.m.pw.rst.cleared ≠ 0 ∧ s.m.on Od.CFG_AUTO_RESTORE = true ∧ newest s.m.mg.cfg = some x ∧ s.m.jobObject 8 = some 0) := by decide +kernel

/-- States and operands that meet the hypotheses of Obligations.PairHeartbeats, clause by clause. -/
theorem witness_PairHeartbeats :
    (let s : State := { m := ((od [(Od.PAIR_ENABLED, 1), (Od.P_LINK 31, 1), (Od.PAIR_STATE, 2)] { base with cyc := us 1000 }).setMt fun x => { x with mer := hbTicks * 7 }).setPr fun p => { p with hbSeq := 65535, hbSent := some 6 } }; s.m.up = true ∧ s.m.on Od.PAIR_ENABLED = true ∧ s.m.on (Od.P_LINK 31) = true ∧ s.m.pr.hbSent ≠ some (s.m.mer / hbTicks) ∧ s.m.pulls = false) ∧
    (let s : State := { m := ((od [(Od.PAIR_ENABLED, 1), (Od.PAIR_STATE, 3)] { base with cyc := us 1000 }).setMt fun x => { x with mer := hbTicks * 7 }).setPr fun p => { p with missed := 2, loading := true } }; let w := heartbeatWord 65535 2 0 15 5; s.m.up = true ∧ s.m.on Od.PAIR_ENABLED = true ∧ heartbeatOk w = true ∧ s.m.pairState ∈ [3, 4] ∧ bit w.toNat 41 = false ∧ s.m.pr.loading = true ∧ s.m.rdN Od.SWO_PREWAKES + 1 < 2 ^ 32) ∧
    (let s : State := { m := ((od [(Od.PAIR_ENABLED, 1), (Od.PAIR_STATE, 4)] { base with cyc := us 1000 }).setMt fun x => { x with mer := hbTicks * 7 }).setPr fun p => { p with missed := 2 } }; let w := heartbeatWord 65535 2 2 15 5; s.m.up = true ∧ s.m.on Od.PAIR_ENABLED = true ∧ heartbeatOk w = true ∧ s.m.pairState ∈ [3, 4] ∧ bit w.toNat 41 = true) ∧
    (let s : State := { m := ((od [(Od.PAIR_ENABLED, 1), (Od.PAIR_STATE, 5)] { base with cyc := us 1000 }).setMt fun x => { x with mer := hbTicks * 7 }).setPr fun p => { p with missed := 3 } }; let w := heartbeatWord 65535 2 0 15 5; s.m.up = true ∧ s.m.on Od.PAIR_ENABLED = true ∧ heartbeatOk w = true ∧ s.m.pairState = 5) := by decide +kernel
theorem witness_PairHeartbeats_2 :
    (let s : State := { m := ((od [(Od.PAIR_ENABLED, 1), (Od.PAIR_STATE, 1)] { base with cyc := us 1000 }).setMt fun x => { x with mer := hbTicks * 7 }).setPr fun p => { p with missed := 0 } }; let w := heartbeatWord 65535 2 0 15 5; s.m.up = true ∧ s.m.on Od.PAIR_ENABLED = true ∧ heartbeatOk w = true ∧ s.m.pairState = 1 ∧ bits w.toNat 44 4 = 2) ∧
    (let s : State := { m := ((od [(Od.PAIR_ENABLED, 1), (Od.PAIR_STATE, 2), (Od.EXPORT_SEQ, 65537)] { base with cyc := us 1000 }).setMt fun x => { x with mer := hbTicks * 7 }).setPr fun p => { p with missed := 0 } }; let w := heartbeatWord 65535 4 0 15 65535; s.m.up = true ∧ s.m.on Od.PAIR_ENABLED = true ∧ heartbeatOk w = true ∧ s.m.pairState = 2 ∧ s.m.pr.back = none ∧ bits w.toNat 44 4 = 4 ∧ s.m.rdN Od.PAIR_PARTNER_STATE ≠ 4) ∧
    (let s : State := { m := ((od [(Od.PAIR_ENABLED, 1), (Od.PAIR_STATE, 2), (Od.EXPORT_SEQ, 65537)] { base with cyc := us 1000 }).setMt fun x => { x with mer := hbTicks * 7 }).setPr fun p => { p with back := some (65537, us 900) } }; let w := heartbeatWord 65535 4 0 15 1; s.m.up = true ∧ s.m.on Od.PAIR_ENABLED = true ∧ heartbeatOk w = true ∧ s.m.pairState = 2 ∧ bits w.toNat 44 4 = 4 ∧ s.m.pr.back = some (ackOf (s.m.rdN Od.EXPORT_SEQ) (bits w.toNat 16 16), us 900)) ∧
    (let s : State := { m := ((od [(Od.PAIR_ENABLED, 1), (Od.PAIR_STATE, 3)] { base with cyc := us 1000 }).setMt fun x => { x with mer := hbTicks * 7 }).setPr fun p => { p with hbAt := some (us 940) } }; s.m.up = true ∧ s.m.on Od.PAIR_ENABLED = true ∧ s.m.pairState ∈ [3, 4] ∧ (match s.m.pr.hbAt with | some t => decide (t + us 50 * (s.m.pr.missed + 1) + us 10 ≤ s.m.cyc) | none => false) = true ∧ s.m.pr.missed ≠ 2 ∧ s.m.rdN Od.SWO_HB_MISSED + 1 < 2 ^ 32 ∧ s.m.pr.missed = 0) := by decide +kernel
theorem witness_PairHeartbeats_3 :
    (let s : State := { m := ((od [(Od.PAIR_ENABLED, 1), (Od.PAIR_STATE, 4)] { base with cyc := us 1000 }).setMt fun x => { x with mer := hbTicks * 7 }).setPr fun p => { p with missed := 1 } }; let w := heartbeatWord 0 2 0 0 0 + 256; s.m.up = true ∧ s.m.on Od.PAIR_ENABLED = true ∧ s.m.pairState ∈ [3, 4] ∧ heartbeatOk w = false ∧ s.m.pr.missed ≠ 2) ∧
    (let s : State := { m := ((od [(Od.PAIR_ENABLED, 1), (Od.PAIR_STATE, 4), (Od.SWO_PARTNER_ALIVE, 1)] { base with cyc := us 1000 }).setMt fun x => { x with mer := hbTicks * 7 }).setPr fun p => { p with missed := 2, hbAt := some (us 840) } }; s.m.up = true ∧ s.m.on Od.PAIR_ENABLED = true ∧ s.m.pairState ∈ [3, 4] ∧ (match s.m.pr.hbAt with | some t => decide (t + us 50 * (s.m.pr.missed + 1) + us 10 ≤ s.m.cyc) | none => false) = true ∧ s.m.pr.missed = 2 ∧ s.m.on Od.SWO_PARTNER_ALIVE = true) ∧
    (let s : State := { m := ((od [(Od.PAIR_ENABLED, 1), (Od.PAIR_STATE, 4), (Od.SWO_PARTNER_ALIVE, 0)] { base with cyc := us 1000 }).setMt fun x => { x with mer := hbTicks * 7 }).setPr fun p => { p with missed := 2, hbAt := some (us 840), held := some {} } }; s.m.up = true ∧ s.m.on Od.PAIR_ENABLED = true ∧ s.m.pairState ∈ [3, 4] ∧ (match s.m.pr.hbAt with | some t => decide (t + us 50 * (s.m.pr.missed + 1) + us 10 ≤ s.m.cyc) | none => false) = true ∧ s.m.pr.missed = 2 ∧ s.m.on Od.SWO_PARTNER_ALIVE = false ∧ s.m.pr.taking = none ∧ s.m.pr.held = some {}) ∧
    (let s : State := { m := ((od [(Od.PAIR_ENABLED, 1), (Od.PAIR_STATE, 4), (Od.SWO_PARTNER_ALIVE, 0)] { base with cyc := us 1000 }).setMt fun x => { x with mer := hbTicks * 7 }).setPr fun p => { p with missed := 2 } }; let w := heartbeatWord 0 2 0 0 0 + 256; s.m.up = true ∧ s.m.on Od.PAIR_ENABLED = true ∧ s.m.pairState ∈ [3, 4] ∧ heartbeatOk w = false ∧ s.m.pr.missed = 2 ∧ s.m.on Od.SWO_PARTNER_ALIVE = false ∧ s.m.pr.taking = none ∧ s.m.pr.held = none) := by decide +kernel
theorem witness_PairHeartbeats_4 :
    (let s : State := { m := ((od [(Od.PAIR_ENABLED, 1), (Od.PAIR_STATE, 4)] { base with cyc := us 1000 }).setMt fun x => { x with mer := hbTicks * 7 }).setPr fun p => { p with missed := 1, held := some {} } }; let w := heartbeatWord 0 2 0 0 0 + 256; let a := [Carry.commit { tick := 5 }].foldl Block.takeCarry s.m; s.m.up = true ∧ s.m.on Od.PAIR_ENABLED = true ∧ s.m.pairState ∈ [3, 4] ∧ heartbeatOk w = false ∧ a.pr.missed ≠ 2 ∧ a.rdN Od.SWO_HB_MISSED + 1 < 2 ^ 32) := by decide +kernel

/-- States and operands that meet the hypotheses of Obligations.PairRoles, clause by clause. -/
theorem witness_PairRoles :
    (let s : State := { m := ((od [(Od.PAIR_ENABLED, 1)] { base with cyc := us 1000 }).setMt fun x => { x with mer := hbTicks * 7 }).setPr fun p => { p with pullUntil := some (us 1001) } }; s.m.up = true ∧ s.m.pulls = true) ∧
    (let s : State := { m := (od [(Od.PAIR_ENABLED, 1), (Od.PAIR_ENABLED, 0)] { base with cyc := us 1000 }).setMt fun x => { x with mer := hbTicks * 7 } }; s.m.up = true ∧ s.m.on Od.PAIR_ENABLED = false) ∧
    (let s : State := { m := ((od [(Od.PAIR_ENABLED, 1), (Od.PAIR_STATE, 2)] { base with cyc := us 1000 }).setMt fun x => { x with mer := hbTicks * 7 }).setPr fun p => { p with pullUntil := some (us 1000) } }; s.m.up = true ∧ s.m.on Od.PAIR_ENABLED = true ∧ s.m.pulls = false ∧ s.m.pairState = 2) ∧
    (let s : State := { m := ((od [(Od.PAIR_ENABLED, 1), (Od.PAIR_STATE, 5)] { base with cyc := us 1000 }).setMt fun x => { x with mer := hbTicks * 7 }).setPr fun p => { p with held := some {} } }; s.m.up = true ∧ s.m.on Od.PAIR_ENABLED = true ∧ s.m.pulls = false ∧ s.m.standby = true ∧ s.m.pr.taking = none ∧ s.m.pr.held = some {} ∧ s.m.pr.partnerBack = false) := by decide +kernel
theorem witness_PairRoles_2 :
    (let s : State := { m := ((od [(Od.PAIR_ENABLED, 1), (Od.PAIR_STATE, 4)] { base with cyc := us 1000 }).setMt fun x => { x with mer := hbTicks * 7 }).setPr fun p => { p with held := some {}, partnerBack := true } }; s.m.up = true ∧ s.m.on Od.PAIR_ENABLED = true ∧ s.m.pulls = false ∧ s.m.standby = true ∧ s.m.pr.taking = none ∧ s.m.pr.held = some {} ∧ s.m.pr.partnerBack = true) ∧
    (let s : State := { m := (od [(Od.PAIR_ENABLED, 1), (Od.PAIR_STATE, 3)] { base with cyc := us 1000 }).setMt fun x => { x with mer := hbTicks * 7 } }; s.m.up = true ∧ s.m.on Od.PAIR_ENABLED = true ∧ s.m.pulls = false ∧ s.m.standby = true ∧ s.m.pr.taking = none ∧ s.m.pr.held = none) ∧
    (let s : State := { m := (od [(Od.PAIR_ENABLED, 1), (Od.PAIR_STATE, 1)] { base with cyc := us 1000 }).setMt fun x => { x with mer := hbTicks * 7 } }; s.m.up = true ∧ s.m.on Od.PAIR_ENABLED = true ∧ s.m.pulls = false ∧ s.m.pairState ≠ 2 ∧ s.m.standby = false) ∧
    (let s : State := { m := (od [(Od.PAIR_ENABLED, 1), (Od.PAIR_STATE, 4), (Od.SWO_PARTNER_ALIVE, 1)] { base with cyc := us 1000 }).setMt fun x => { x with mer := hbTicks * 7 } }; s.m.up = true ∧ s.m.pairState ≠ 5) := by decide +kernel
theorem witness_PairRoles_3 :
    (let s : State := { m := ((od [(Od.PAIR_ENABLED, 1), (Od.PAIR_STATE, 5), (Od.SWO_PARTNER_ALIVE, 1)] { base with cyc := us 1000 }).setMt fun x => { x with mer := hbTicks * 7 }).setPr fun p => { p with held := some {} } }; s.m.up = true ∧ s.m.pairState = 5 ∧ s.m.pr.taking = none ∧ s.m.pr.held = some {}) ∧
    (let s : State := { m := ((od [(Od.PAIR_ENABLED, 1), (Od.PAIR_STATE, 4)] { base with cyc := us 1000 }).setMt fun x => { x with mer := hbTicks * 7 }).setPr fun p => { p with posB := true } }; s.m.up = true ∧ s.m.pairState ≠ 2) ∧
    (let s : State := { m := ((od [(Od.PAIR_ENABLED, 1), (Od.PAIR_STATE, 2)] { base with cyc := us 1000 }).setMt fun x => { x with mer := hbTicks * 7 }).setPr fun p => { p with posB := false } }; s.m.up = true ∧ s.m.pr.posB = false) ∧
    (let s : State := { m := ((od [(Od.PAIR_ENABLED, 1), (Od.PAIR_STATE, 2), (Od.SWO_LAST_CAUSE, 4)] { base with cyc := us 1000 }).setMt fun x => { x with mer := hbTicks * 7 }).setPr fun p => { p with posB := true, roleAt := some 0 } }; s.m.up = true ∧ s.m.pairState = 2 ∧ s.m.pr.posB = true ∧ s.m.pr.roleAt = some 0 ∧ s.m.rdN Od.SWO_LAST_CAUSE = 4 ∧ s.m.cyc ≤ 0 + ms 1) := by decide +kernel
theorem witness_PairRoles_4 :
    (let s : State := { m := ((od [(Od.PAIR_ENABLED, 1), (Od.PAIR_STATE, 1)] { base with cyc := secs 2 }).setMt fun x => { x with mer := hbTicks * 7 }).setPr fun p => { p with posB := true, aliveLowAt := none } }; s.m.up = true ∧ s.m.pairState = 1 ∧ s.m.pr.since + secs 2 ≤ s.m.cyc ∧ s.m.pr.posB = true) ∧
    (let s : State := { m := ((od [(Od.PAIR_ENABLED, 1), (Od.PAIR_STATE, 1)] { base with cyc := secs 2 }).setMt fun x => { x with mer := hbTicks * 7 }).setPr fun p => { p with posB := false, aliveLowAt := some (secs 2 - ms 10) } }; s.m.up = true ∧ s.m.pairState = 1 ∧ s.m.pr.since + secs 2 ≤ s.m.cyc ∧ s.m.pr.aliveLowAt = some (secs 2 - ms 10) ∧ secs 2 - ms 10 + ms 10 ≤ s.m.cyc) ∧
    (let s : State := { m := ((od [(Od.PAIR_ENABLED, 1), (Od.PAIR_STATE, 1)] { base with cyc := secs 2 - 1 }).setMt fun x => { x with mer := hbTicks * 7 }).setPr fun p => { p with posB := true } }; s.m.up = true ∧ s.m.cyc < s.m.pr.since + secs 2) ∧
    (let s : State := { m := ((od [(Od.PAIR_ENABLED, 1), (Od.PAIR_STATE, 2)] { base with cyc := secs 2 }).setMt fun x => { x with mer := hbTicks * 7 }).setPr fun p => { p with posB := true } }; s.m.up = true ∧ s.m.pairState ≠ 1) := by decide +kernel
theorem witness_PairRoles_5 :
    (let s : State := { m := ((od [(Od.PAIR_ENABLED, 1), (Od.PAIR_STATE, 2)] { base with cyc := us 1000 }).setMt fun x => { x with mer := hbTicks * 7 }).setPr fun p => { p with taking := some (3, us 300), held := some { running := [36], entries := [(Od.DMA_RETRIES 3, 9)] } } }; s.m.up = true ∧ s.m.pr.taking = some (3, us 300) ∧ s.m.pr.held = some { running := [36], entries := [(Od.DMA_RETRIES 3, 9)] } ∧ s.m.clockRuns .fabric = true ∧ ((s.m.loadTables { running := [36], entries := [(Od.DMA_RETRIES 3, 9)] }).runSnapshot { running := [36], entries := [(Od.DMA_RETRIES 3, 9)] }).rdN Od.PAIR_SWITCHOVERS + 1 < 2 ^ 32) := by decide +kernel

/-- States and operands that meet the hypotheses of Obligations.PairSnapshots, clause by clause. -/
theorem witness_PairSnapshots :
    (let s : State := { m := (od [(Od.PAIR_ENABLED, 1), (Od.PAIR_STATE, 3)] { base with cyc := ms 100 }).setMt fun x => { x with mer := hbTicks * 7 } }; s.m.up = true ∧ s.m.pairState ≠ 2) ∧
    (let s : State := { m := (od [(Od.PAIR_ENABLED, 1), (Od.PAIR_STATE, 2)] { base with cyc := ms 100 - 1 }).setMt fun x => { x with mer := hbTicks * 7 } }; s.m.up = true ∧ s.m.pairState = 2 ∧ s.m.cyc < s.m.pr.exportAt + ms 100) ∧
    (let s : State := { m := (od [(Od.PAIR_ENABLED, 1), (Od.PAIR_STATE, 2), (Od.JOB_STATE 15, 2)] { base with cyc := ms 100 }).setMt fun x => { x with mer := hbTicks * 7 } }; s.m.up = true ∧ s.m.jobLive 15 = true) ∧
    (let s : State := { m := (od [(Od.PAIR_ENABLED, 1), (Od.PAIR_STATE, 2)] { base with cyc := ms 100 }).setMt fun x => { x with mer := hbTicks * 7 } }; s.m.up = true ∧ s.m.pairState = 2 ∧ s.m.pr.exportAt + ms 100 ≤ s.m.cyc ∧ s.m.mg.srv.running = true ∧ s.m.jobLive 15 = false ∧ s.m.on (Od.P_LINK 31) = false ∧ s.m.rdN Od.EXPORT_FAILS + 1 < 2 ^ 32) := by decide +kernel
theorem witness_PairSnapshots_2 :
    (let s : State := { m := (od [(Od.PAIR_ENABLED, 1), (Od.PAIR_STATE, 2), (Od.P_LINK 31, 1), (Od.SLOT_PRIORITY 3, 9), (Od.FN_STATE 36, 2)] { base with cyc := ms 100 }).setMt fun x => { x with mer := hbTicks * 7 } }; s.m.up = true ∧ s.m.pairState = 2 ∧ s.m.pr.exportAt + ms 100 ≤ s.m.cyc ∧ s.m.mg.srv.running = true ∧ s.m.jobLive 15 = false ∧ s.m.on (Od.P_LINK 31) = true) ∧
    (let s : State := { m := (od [(Od.PAIR_ENABLED, 1), (Od.PAIR_STATE, 2)] { base with cyc := us 1000 }).setMt fun x => { x with mer := hbTicks * 7 } }; s.m.up = true ∧ s.m.standby = false) ∧
    (let s : State := { m := ((od [(Od.PAIR_ENABLED, 1), (Od.PAIR_STATE, 4)] { base with cyc := us 1000 }).setMt fun x => { x with mer := hbTicks * 7 }).setPr fun p => { p with held := some { seq := 4 } } }; let x : Snapshot := { seq := 5, time := 9, size := 6 }; s.m.up = true ∧ s.m.standby = true ∧ (∀ h, s.m.pr.held = some h → h.seq < x.seq)) ∧
    (let s : State := { m := ((od [(Od.PAIR_ENABLED, 1), (Od.PAIR_STATE, 4)] { base with cyc := us 1000 }).setMt fun x => { x with mer := hbTicks * 7 }).setPr fun p => { p with held := some { seq := 4 } } }; let x : Snapshot := { seq := 5, time := 9, size := 6 }; s.m.up = true ∧ s.m.standby = true ∧ (false = false ∨ true = false ∨ ¬ 4 < x.seq) ∧ s.m.pr.held = some { seq := 4 } ∧ s.m.rdN Od.EXPORT_DISCARDED + 1 < 2 ^ 32) := by decide +kernel
theorem witness_PairSnapshots_3 :
    (let s : State := { m := ((od [(Od.PAIR_ENABLED, 1), (Od.PAIR_STATE, 4)] { base with cyc := us 1000 }).setMt fun x => { x with mer := hbTicks * 7 }).setPr fun p => { p with held := some { seq := 4 } } }; let x : Snapshot := { seq := 5, time := 9, size := 6 }; s.m.up = true ∧ s.m.standby = true ∧ (true = false ∨ false = false ∨ ¬ 4 < x.seq) ∧ s.m.pr.held = some { seq := 4 } ∧ s.m.rdN Od.EXPORT_DISCARDED + 1 < 2 ^ 32) ∧
    (let s : State := { m := ((od [(Od.PAIR_ENABLED, 1), (Od.PAIR_STATE, 4)] { base with cyc := us 1000 }).setMt fun x => { x with mer := hbTicks * 7 }).setPr fun p => { p with held := some { seq := 5 } } }; let x : Snapshot := { seq := 5, time := 9, size := 6 }; s.m.up = true ∧ s.m.standby = true ∧ (true = false ∨ true = false ∨ ¬ 5 < x.seq) ∧ s.m.pr.held = some { seq := 5 } ∧ s.m.rdN Od.EXPORT_DISCARDED + 1 < 2 ^ 32) ∧
    (let s : State := { m := ((od [(Od.PAIR_ENABLED, 1), (Od.PAIR_STATE, 4)] { base with cyc := ms 65536 }).setMt fun x => { x with mer := hbTicks * 7 }).setPr fun p => { p with held := some {} } };  s.m.up = true ∧ s.m.standby = true ∧ s.m.pr.held ≠ none ∧ s.m.pr.aged = false ∧ s.m.pr.heldAt + ms (s.m.rdN Od.EXPORT_AGE_LIMIT) < s.m.cyc) ∧
    (let s : State := { m := ((od [(Od.PAIR_ENABLED, 1), (Od.PAIR_STATE, 4)] { base with cyc := ms 65536 }).setMt fun x => { x with mer := hbTicks * 7 }).setPr fun p => { p with held := some {}, heldAt := ms 65536 } };  s.m.up = true ∧ ¬ s.m.pr.heldAt + ms (s.m.rdN Od.EXPORT_AGE_LIMIT) < s.m.cyc) := by decide +kernel
theorem witness_PairSnapshots_4 :
    (let s : State := { m := ((od [(Od.PAIR_ENABLED, 1), (Od.PAIR_STATE, 4)] { base with cyc := ms 65536 }).setMt fun x => { x with mer := hbTicks * 7 }).setPr fun p => { p with held := some {}, aged := true } };  s.m.up = true ∧ s.m.pr.aged = true) ∧
    (let s : State := { m := (od [(Od.PAIR_ENABLED, 1), (Od.PAIR_STATE, 2), (Od.PAIR_PARTNER_STATE, 3), (Od.EXPORT_SEQ, 7)] { base with cyc := us 1000 }).setMt fun x => { x with mer := hbTicks * 7 } }; let q := writeKey 1 Od.PAIR_SWITCH_BACK 1; let a := s.m.door me q 0; s.grants me q 0 = true ∧ a.rdN Od.PAIR_PARTNER_STATE ≠ 4) ∧
    (let s : State := { m := (od [(Od.PAIR_ENABLED, 1), (Od.PAIR_STATE, 1), (Od.PAIR_PARTNER_STATE, 4), (Od.EXPORT_SEQ, 7)] { base with cyc := us 1000 }).setMt fun x => { x with mer := hbTicks * 7 } }; let q := writeKey 1 Od.PAIR_SWITCH_BACK 1; let a := s.m.door me q 0; s.grants me q 0 = true ∧ a.pairState ≠ 2) ∧
    (let s : State := { m := (od [(Od.PAIR_ENABLED, 1), (Od.PAIR_STATE, 2), (Od.PAIR_PARTNER_STATE, 4), (Od.EXPORT_SEQ, 7)] { base with cyc := us 1000 }).setMt fun x => { x with mer := hbTicks * 7 } }; let q := writeKey 1 Od.PAIR_SWITCH_BACK 1; let a := s.m.door me q 0; s.grants me q 0 = true ∧ a.pairState = 2 ∧ a.rdN Od.PAIR_PARTNER_STATE = 4) := by decide +kernel
theorem witness_PairSnapshots_5 :
    (let s : State := { m := ((od [(Od.PAIR_ENABLED, 1), (Od.PAIR_STATE, 2)] { base with cyc := ms 100 }).setMt fun x => { x with mer := hbTicks * 7 }).setPr fun p => { p with back := some (7, 0) } }; s.m.up = true ∧ s.m.pr.back = some (7, 0) ∧ 0 + ms 100 ≤ s.m.cyc) ∧
    (let s : State := { m := ((od [(Od.PAIR_ENABLED, 1), (Od.PAIR_STATE, 2)] { base with cyc := ms 100 }).setMt fun x => { x with mer := hbTicks * 7 }).setPr fun p => { p with back := some (7, 1) } }; s.m.up = true ∧ s.m.pr.back = some (7, 1) ∧ s.m.cyc < 1 + ms 100) ∧
    (let s : State := { m := ((od [(Od.PAIR_ENABLED, 1), (Od.PAIR_STATE, 2)] { base with cyc := ms 100 }).setMt fun x => { x with mer := hbTicks * 7 }).setPr fun p => { p with back := none } }; s.m.up = true ∧ s.m.pr.back = none) := by decide +kernel

/-- States and operands that meet the hypotheses of Obligations.CrossWatch, clause by clause. -/
theorem witness_CrossWatch :
    (let s : State := { m := (od [] { base with cyc := secs 20 }).setMt fun x => { x with mer := 1000 } }; s.m.up = true ∧ s.m.xwApplies 5 2 = false) ∧
    (let s : State := { m := (od [] { base with cyc := secs 20 }).setMt fun x => { x with mer := 1000 } }; s.m.up = true ∧ s.m.xwApplies 0 0 = false) ∧
    (let s : State := { m := (od [] { base with cyc := secs 20 }).setMt fun x => { x with mer := 1000 } }; s.m.up = true ∧ s.m.xwApplies 2 0 = true ∧ s.m.mg.safe.test ≠ 2 ∧ ((-(s.m.xwLimit 2)).natAbs : Int) ≤ s.m.xwLimit 2) ∧
    (let s : State := { m := (od [] { base with cyc := secs 20 }).setMt fun x => { x with mer := 1000 } }; s.m.up = true ∧ s.m.xwApplies 1 0 = true ∧ s.m.mg.safe.test ≠ 1 ∧ s.m.xwLimit 1 < ((1 : Int).natAbs : Int) ∧ s.m.rdN Od.XW_TRIPS + 1 < keySize Od.XW_TRIPS ∧ s.m.rd Od.SAFE_STATE ≠ 1) := by decide +kernel
theorem witness_CrossWatch_2 :
    (let s : State := { m := ((od [] { base with cyc := secs 20 }).setMt fun x => { x with mer := 1000 }).setSafe fun p => { p with test := 2 } }; s.m.up = true ∧ s.m.xwApplies 3 43 = true ∧ s.m.mg.safe.test ≠ 3 ∧ s.m.xwLimit 3 < ((-100000000 : Int).natAbs : Int)) ∧
    (let s : State := { m := ((od [(Od.FI_XW_TEST_SAFE, 1)] { base with cyc := secs 20 }).setMt fun x => { x with mer := 1000 }).setSafe fun p => { p with test := 1 } }; s.m.up = true ∧ s.m.xwApplies 1 0 = true ∧ s.m.mg.safe.test = 1 ∧ s.m.xwLimit 1 < ((0 + max 1 (2 * s.m.xwLimit 1)).natAbs : Int) ∧ s.m.on Od.FI_XW_TEST_SAFE = true) ∧
    (let s : State := { m := ((od [] { base with cyc := secs 20 }).setMt fun x => { x with mer := 1000 }).setSafe fun p => { p with test := 1 } }; s.m.up = true ∧ s.m.xwApplies 1 0 = true ∧ s.m.mg.safe.test = 1 ∧ s.m.xwLimit 1 < ((0 + max 1 (2 * s.m.xwLimit 1)).natAbs : Int) ∧ s.m.on Od.FI_XW_TEST_SAFE = false) ∧
    (let s : State := { m := ((od [(Od.XW_SELFTEST_PERIOD, 10)] { base with cyc := secs 20 }).setMt fun x => { x with mer := 1000 }).setSafe fun p => { p with selfAt := secs 10 + 1 } }; s.m.up = true ∧ ¬ s.m.mg.safe.selfAt + secs (s.m.rdN Od.XW_SELFTEST_PERIOD) ≤ s.m.cyc) := by decide +kernel
theorem witness_CrossWatch_3 :
    (let s : State := { m := ((od [(Od.XW_SELFTEST_PERIOD, 10)] { base with cyc := secs 20 }).setMt fun x => { x with mer := 1000 }).setSafe fun p => { p with selfAt := secs 10 } }; s.m.up = true ∧ s.m.mg.safe.selfAt + secs (s.m.rdN Od.XW_SELFTEST_PERIOD) ≤ s.m.cyc ∧ s.m.rdN Od.XW_SELFTESTS + 1 < keySize Od.XW_SELFTESTS) ∧
    (let s : State := { m := ((od [(Od.XW_SELFTEST_PERIOD, 10)] { base with cyc := secs 20 }).setMt fun x => { x with mer := 1000 }).setSafe fun p => { p with selfAt := secs 10 } }; s.m.up = true ∧ s.m.mg.safe.selfAt + secs (s.m.rdN Od.XW_SELFTEST_PERIOD) ≤ s.m.cyc) ∧
    (let s : State := { m := (od [] { base with cyc := secs 20 }).setMt fun x => { x with mer := 1000 } }; let q := writeKey 1 Od.SAFE_FORCE 1; let a := s.m.door me q 0; s.grants me q 0 = true ∧ a.safe = false ∧ a.rdN Od.SAFE_ENTRIES + 1 < keySize Od.SAFE_ENTRIES) ∧
    (let s : State := { m := (od [(Od.SAFE_STATE, 1), (Od.SAFE_CAUSE, 4)] { base with cyc := secs 20 }).setMt fun x => { x with mer := 1000 } }; let q := writeKey 1 Od.SAFE_CLEAR 1; let a := s.m.door me q 0; s.grants me q 0 = true ∧ a.safe = true ∧ bit (a.rdN Od.SAFE_CAUSE) 2 = true) := by decide +kernel
theorem witness_CrossWatch_4 :
    (let s : State := { m := ((od [(Od.SAFE_STATE, 1), (Od.SAFE_CAUSE, 1)] { base with cyc := secs 20 }).setMt fun x => { x with mer := 1000 }).setSafe fun p => { p with causeAt := some (secs 10 + 1) } }; let q := writeKey 1 Od.SAFE_CLEAR 1; let a := s.m.door me q 0; s.grants me q 0 = true ∧ a.safe = true ∧ a.mg.safe.causeAt = some (secs 10 + 1) ∧ a.cyc < secs 10 + 1 + secs 10) ∧
    (let s : State := { m := ((od [(Od.SAFE_STATE, 1), (Od.SAFE_CAUSE, 11)] { base with cyc := secs 20 }).setMt fun x => { x with mer := 1000 }).setSafe fun p => { p with causeAt := some (secs 10) } }; let q := writeKey 1 Od.SAFE_CLEAR 1; let a := s.m.door me q 0; s.grants me q 0 = true ∧ a.safe = true ∧ bit (a.rdN Od.SAFE_CAUSE) 2 = false ∧ a.mg.safe.causeAt = some (secs 10) ∧ ¬ a.cyc < secs 10 + secs 10) ∧
    (let s : State := { m := (od [] { base with cyc := secs 20 }).setMt fun x => { x with mer := 1000 } }; let q := writeKey 1 Od.SAFE_CLEAR 1; let a := s.m.door me q 0; s.grants me q 0 = true ∧ a.safe = false) ∧
    (let s : State := { m := (od [] { base with cyc := secs 20 }).setMt fun x => { x with mer := 1000 } }; let q := writeKey 1 Od.FI_XW_TEST 1; s.grants me q 0 = true ∧ 1 < 256 ∧ 1 ≤ 1 ∧ 1 ≤ 5) := by decide +kernel
theorem witness_CrossWatch_5 :
    (let s : State := { m := (od [] { base with cyc := secs 20 }).setMt fun x => { x with mer := 1000 } }; let q := writeKey 1 Od.FI_XW_TEST 5; s.grants me q 0 = true ∧ 5 < 256 ∧ 1 ≤ 5 ∧ 5 ≤ 5) ∧
    (let s : State := { m := (od [] { base with cyc := secs 20 }).setMt fun x => { x with mer := 1000 } }; let q := writeKey 1 Od.FI_XW_TEST 0; s.grants me q 0 = true ∧ 0 < 256 ∧ (0 = 0 ∨ 5 < 0)) ∧
    (let s : State := { m := (od [] { base with cyc := secs 20 }).setMt fun x => { x with mer := 1000 } }; let q := writeKey 1 Od.FI_XW_TEST 6; s.grants me q 0 = true ∧ 6 < 256 ∧ (6 = 0 ∨ 5 < 6)) ∧
    (let s : State := { m := (od [] { base with cyc := secs 20 }).setMt fun x => { x with mer := 1000 } }; let q := writeKey 1 Od.FI_XW_TEST 255; s.grants me q 0 = true ∧ 255 < 256 ∧ (255 = 0 ∨ 5 < 255)) := by decide +kernel

/-- States and operands that meet the hypotheses of Obligations.Scrubbing, clause by clause. -/
theorem witness_Scrubbing :
    (let s : State := { m := ((od [(Od.SCRUB_PERIOD, 10)] { base with cyc := secs 20 }).setMt fun x => { x with mer := 1000 }).setSafe fun p => { p with scrubAt := secs 10 - 1 } }; s.m.up = true ∧ s.m.rdN Od.SCRUB_PASSES + 1 < keySize Od.SCRUB_PASSES ∧ s.m.rdN Od.SCRUB_CORRECTED + 5 < keySize Od.SCRUB_CORRECTED ∧ s.m.rdN Od.SCRUB_UNCORRECTED + 2 < keySize Od.SCRUB_UNCORRECTED ∧ s.m.mg.safe.scrubLate = false ∧ s.m.mg.safe.scrubAt + secs (s.m.rdN Od.SCRUB_PERIOD) < s.m.cyc) ∧
    (let s : State := { m := (od [] { base with cyc := secs 20 }).setMt fun x => { x with mer := 1000 } }; s.m.up = true ∧ True) ∧
    (let s : State := { m := (od [] { base with cyc := secs 20 }).setMt fun x => { x with mer := 1000 } }; s.m.up = true ∧ 0 ≤ 1) ∧
    (let s : State := { m := (od [] { base with cyc := secs 20 }).setMt fun x => { x with mer := 1000 } }; s.m.up = true ∧ 1 ≤ 1) := by decide +kernel
theorem witness_Scrubbing_2 :
    (let s : State := { m := (od [(Od.SW_CELLS_RETIRED, 7), (Od.SCRUB_CELLS_RETURNED, 2)] { base with cyc := secs 20 }).setMt fun x => { x with mer := 1000 } }; s.m.up = true ∧ s.m.rdN Od.SCRUB_CELLS_RETURNED + min 9 (s.m.rdN Od.SW_CELLS_RETIRED - s.m.rdN Od.SCRUB_CELLS_RETURNED) < keySize Od.SCRUB_CELLS_RETURNED) := by decide +kernel

/-- States and operands that meet the hypotheses of Obligations.Counters, clause by clause. -/
theorem witness_Counters :
    (let k : Fin 64 := 63; let s : State := { m := (od [(Od.CNTN_MODE 63, 0), (Od.CNTN_VALUE 63, 281474976710655)] { base with cyc := secs 20 }).setMt fun x => { x with mer := 1000 } }; s.m.up = true ∧ s.m.rdN (Od.CNTN_MODE k) = 0) ∧
    (let k : Fin 64 := 63; let s : State := { m := (od [(Od.CNTN_MODE 63, 1), (Od.CNTN_VALUE 63, 281474976710654)] { base with cyc := secs 20 }).setMt fun x => { x with mer := 1000 } }; s.m.up = true ∧ s.m.rdN (Od.CNTN_VALUE k) ≠ 2 ^ 48 - 1) ∧
    (let k : Fin 64 := 63; let s : State := { m := (od [(Od.CNTN_MODE 63, 2), (Od.CNTN_VALUE 63, 281474976710655), (Od.CNTN_RELOAD 63, 281474976710655), (Od.CNTN_OWNER 63, 0), (Od.CNTN_IRQ 63, 1)] { base with cyc := secs 20 }).setMt fun x => { x with mer := 1000 } }; s.m.up = true ∧ s.m.rdN (Od.CNTN_MODE k) ≠ 0 ∧ s.m.rdN (Od.CNTN_VALUE k) = 2 ^ 48 - 1 ∧ s.m.rdN (Od.CNTN_OVERFLOWS k) + 1 < keySize (Od.CNTN_OVERFLOWS k) ∧ s.m.on (Od.CNTN_IRQ k) = true ∧ s.m.rdN (Od.CNTN_OWNER k) < 8 ∧ s.m.overflowWaits (s.m.rdN (Od.CNTN_OWNER k)) k = false) ∧
    (let k : Fin 64 := 63; let s : State := { m := (od [(Od.CNTN_MODE 63, 2), (Od.CNTN_VALUE 63, 281474976710655), (Od.CNTN_RELOAD 63, 281474976710655), (Od.CNTN_OWNER 63, 0)] { base with cyc := secs 20 }).setMt fun x => { x with mer := 1000 } }; s.m.up = true ∧ s.m.rdN (Od.CNTN_MODE k) ≠ 0 ∧ s.m.rdN (Od.CNTN_VALUE k) = 2 ^ 48 - 1 ∧ s.m.rdN (Od.CNTN_OVERFLOWS k) + 1 < keySize (Od.CNTN_OVERFLOWS k) ∧ s.m.on (Od.CNTN_IRQ k) = false) := by decide +kernel
theorem witness_Counters_2 :
    (let s : State := { m := ((od [(Od.CNT_DUMP_PERIOD, 10)] { base with cyc := secs 20 }).setMt fun x => { x with mer := 655360000 * 5 }).setSafe fun p => { p with dumpAt := 5 } }; let x := s.m.mg.safe; s.m.up = true ∧ ¬ (s.m.rdN Od.CNT_DUMP_PERIOD ≠ 0 ∧ x.dumpAt < s.m.dumpIndex)) ∧
    (let s : State := { m := ((od [] { base with cyc := secs 20 }).setMt fun x => { x with mer := 655360000 * 5 }).setSafe fun p => { p with dumpAt := 4 } }; let x := s.m.mg.safe; s.m.up = true ∧ ¬ (s.m.rdN Od.CNT_DUMP_PERIOD ≠ 0 ∧ x.dumpAt < s.m.dumpIndex)) ∧
    (let s : State := { m := ((od [(Od.CNT_DUMP_PERIOD, 10)] { base with cyc := secs 20 }).setMt fun x => { x with mer := 655360000 * 5 }).setSafe fun p => { p with dumpAt := 4, dumpSeq := 4294967295 } }; let x := s.m.mg.safe; s.m.up = true ∧ s.m.rdN Od.CNT_DUMP_PERIOD ≠ 0 ∧ x.dumpAt < s.m.dumpIndex ∧ x.dumpQueue = [] ∧ s.m.clockRuns .lpddr = true) ∧
    (let s : State := { m := ((od [(Od.CNT_DUMP_PERIOD, 10)] { base with cyc := secs 20 }).setMt fun x => { x with mer := 655360000 * 5 }).setSafe fun p => { p with dumpAt := 4, dumpQueue := [[], [], []] } }; let s : State := { s with m := { s.m with clk := [(0, { phase := .running }), (1, { phase := .running }), (2, { phase := .running })] } }; let x := s.m.mg.safe; s.m.up = true ∧ s.m.rdN Od.CNT_DUMP_PERIOD ≠ 0 ∧ x.dumpAt < s.m.dumpIndex ∧ x.dumpQueue.length < 4 ∧ s.m.clockRuns .lpddr = false) := by decide +kernel
theorem witness_Counters_3 :
    (let s : State := { m := ((od [(Od.CNT_DUMP_PERIOD, 10)] { base with cyc := secs 20 }).setMt fun x => { x with mer := 655360000 * 5 }).setSafe fun p => { p with dumpAt := 4, dumpQueue := [[], [], [], []] } }; let s : State := { s with m := { s.m with clk := [(0, { phase := .running }), (1, { phase := .running }), (2, { phase := .running })] } }; let x := s.m.mg.safe; s.m.up = true ∧ s.m.rdN Od.CNT_DUMP_PERIOD ≠ 0 ∧ x.dumpAt < s.m.dumpIndex ∧ 4 ≤ x.dumpQueue.length ∧ s.m.rdN Od.CNT_DUMPS_MISSED + 1 < keySize Od.CNT_DUMPS_MISSED) ∧
    (let s : State := { m := ((od [] { base with cyc := secs 20 }).setMt fun x => { x with mer := 1000 }).setSafe fun p => { p with dumpSeq := 7 } }; let q := writeKey 1 Od.CNT_SNAPSHOT 1; let a := s.m.door me q 0; s.grants me q 0 = true ∧ a.mg.safe.dumpQueue = [] ∧ a.clockRuns .lpddr = true) ∧
    (let s : State := { m := ((od [(Od.CNT_RING_WR, 1)] { base with cyc := secs 20 }).setMt fun x => { x with mer := 1000 }).setSafe fun p => { p with dumpRing := [List.replicate 752 1] } }; let q := ringKey 1 Od.CNT_RING_DATA 65535; s.takes me q 0 = true) := by decide +kernel

/-- States and operands that meet the hypotheses of Obligations.Injectors, clause by clause. -/
theorem witness_Injectors :
    (let s : State := { m := (od [(Od.FIP_KIND 31, 2), (Od.FIP_N 31, 3), (Od.FIP_COUNT 31, 9), (Od.FI_ENABLE, 0)] { base with cyc := secs 20 }).setMt fun x => { x with mer := 1000 } }; let q := writeKey 1 (Od.FIP_ARM 31) 1; let a := s.m.door me q 0; s.grants me q 0 = true ∧ a.on Od.FI_ENABLE = false) ∧
    (let s : State := { m := (od [(Od.FIP_KIND 31, 2), (Od.FIP_N 31, 3), (Od.FIP_COUNT 31, 9), (Od.FI_ENABLE, 1), (Od.FN_STATE 31, 0)] { base with cyc := secs 20 }).setMt fun x => { x with mer := 1000 } }; let q := writeKey 1 (Od.FIP_ARM 31) 1; let a := s.m.door me q 0; s.grants me q 0 = true ∧ a.fnRuns 31 = false) ∧
    (let s : State := { m := (od [(Od.FIP_KIND 31, 2), (Od.FIP_N 31, 3), (Od.FIP_COUNT 31, 9), (Od.FI_ENABLE, 1), (Od.FN_STATE 31, 2)] { base with cyc := secs 20 }).setMt fun x => { x with mer := 1000 } }; let q := writeKey 1 (Od.FIP_ARM 31) 1; let a := s.m.door me q 0; s.grants me q 0 = true ∧ a.on Od.FI_ENABLE = true ∧ a.fnRuns 31 = true ∧ a.rdN (Od.FIP_ARM_AT 31) = 0) ∧
    (let s : State := { m := (od [(Od.FIP_KIND 31, 2), (Od.FIP_N 31, 3), (Od.FIP_COUNT 31, 9), (Od.FI_ENABLE, 1), (Od.FN_STATE 31, 2), (Od.FIP_ARM_AT 31, 86400 * ticksPerSec + 1000)] { base with cyc := secs 20 }).setMt fun x => { x with mer := 1000 } }; let q := writeKey 1 (Od.FIP_ARM 31) 1; let a := s.m.door me q 0; s.grants me q 0 = true ∧ a.on Od.FI_ENABLE = true ∧ a.fnRuns 31 = true ∧ a.mer < a.rdN (Od.FIP_ARM_AT 31) ∧ a.armable (a.rdN (Od.FIP_ARM_AT 31)) = true) := by decide +kernel
theorem witness_Injectors_2 :
    (let s : State := { m := (od [(Od.FI_ENABLE, 1), (Od.FN_STATE 31, 2), (Od.FIP_STATUS 31, 2), (Od.FI_ARMED, 2147483648)] { base with cyc := secs 20 }).setMt fun x => { x with mer := 1000 } }; let s : State := { s with m := s.m.setFip 31 fun f => { f with armed := false } }; let q := writeKey 1 (Od.FIP_ARM 31) 2; let a := s.m.door me q 0; s.grants me q 0 = true ∧ (a.pf 31).fip.armed = false) ∧
    (let t : Tx := ⟨⟨0, 0, 0, 0, 0, none⟩, 3, List.replicate 64 7, false, false, none⟩; let s : State := { m := (od [(Od.FI_ENABLE, 1), (Od.FN_STATE 31, 2), (Od.FIP_STATUS 31, 2), (Od.FI_ARMED, 2147483648)] { base with cyc := secs 20 }).setMt fun x => { x with mer := 1000 } }; let s : State := { s with m := s.m.setFip 31 fun f => { f with armed := true, acting := true, kind := 4, held := [t, t], ready := [t] } }; let q := writeKey 1 (Od.FIP_ARM 31) 2; let a := s.m.door me q 0; s.grants me q 0 = true ∧ (a.pf 31).fip.armed = true) ∧
    (let s : State := { m := (od [(Od.FI_ENABLE, 1), (Od.FN_STATE 31, 2), (Od.FIP_STATUS 31, 2), (Od.FI_ARMED, 2147483648)] { base with cyc := secs 20 }).setMt fun x => { x with mer := 1000 } }; let s : State := { s with m := s.m.setFip 31 fun f => { f with held := [] } }; let p : Fin 32 := 31; let f := (s.m.pf p).fip; s.m.up = true ∧ f.held = []) ∧
    (let t : Tx := ⟨⟨0, 0, 0, 0, 0, none⟩, 3, List.replicate 64 7, false, false, none⟩; let s : State := { m := (od [(Od.FI_ENABLE, 1), (Od.FN_STATE 31, 2), (Od.FIP_STATUS 31, 2), (Od.FI_ARMED, 2147483648)] { base with cyc := secs 20 }).setMt fun x => { x with mer := 1000 } }; let s : State := { s with m := s.m.setFip 31 fun f => { f with held := [t], heldAt := secs 20 - ms 10 + 1 } }; let p : Fin 32 := 31; let f := (s.m.pf p).fip; s.m.up = true ∧ f.held ≠ [] ∧ s.m.cyc < f.heldAt + ms 10) := by decide +kernel
theorem witness_Injectors_3 :
    (let t : Tx := ⟨⟨0, 0, 0, 0, 0, none⟩, 3, List.replicate 64 7, false, false, none⟩; let s : State := { m := (od [(Od.FI_ENABLE, 1), (Od.FN_STATE 31, 2), (Od.FIP_STATUS 31, 2), (Od.FI_ARMED, 2147483648)] { base with cyc := secs 20 }).setMt fun x => { x with mer := 1000 } }; let s : State := { s with m := s.m.setFip 31 fun f => { f with armed := true, acting := true, count := 4, acts := 3, held := [t], heldAt := secs 20 - ms 10 } }; let p : Fin 32 := 31; let f := (s.m.pf p).fip; s.m.up = true ∧ f.held ≠ [] ∧ f.heldAt + ms 10 ≤ s.m.cyc ∧ f.armed = true ∧ f.count ≠ 0 ∧ f.count ≤ f.acts + 1) ∧
    (let t : Tx := ⟨⟨0, 0, 0, 0, 0, none⟩, 3, List.replicate 64 7, false, false, none⟩; let s : State := { m := (od [(Od.FI_ENABLE, 1), (Od.FN_STATE 31, 2), (Od.FIP_STATUS 31, 2), (Od.FI_ARMED, 2147483648)] { base with cyc := secs 20 }).setMt fun x => { x with mer := 1000 } }; let s : State := { s with m := s.m.setFip 31 fun f => { f with delayed := some (t, secs 20) } }; let p : Fin 32 := 31; s.m.up = true ∧ (s.m.pf p).fip.delayed = some (t, secs 20) ∧ secs 20 ≤ s.m.cyc ∧ (s.m.pf p).sending = none ∧ s.m.mayCross (.egress p) = true ∧ t.own = none ∧ s.m.gateOpen p t.queue t.bytes.length = true) ∧
    (let t : Tx := ⟨⟨0, 0, 0, 0, 0, none⟩, 3, List.replicate 64 7, false, false, none⟩; let s : State := { m := (od [(Od.FI_ENABLE, 1), (Od.FN_STATE 31, 2), (Od.FIP_STATUS 31, 2), (Od.FI_ARMED, 2147483648)] { base with cyc := secs 20 }).setMt fun x => { x with mer := 1000 } }; let s : State := { s with m := s.m.setFip 31 fun f => { f with delayed := some (t, secs 20 + 1) } }; let p : Fin 32 := 31; s.m.up = true ∧ (s.m.pf p).fip.delayed = some (t, secs 20 + 1) ∧ s.m.cyc < secs 20 + 1) := by decide +kernel
theorem witness_Injectors_4 :
    (let t : Tx := ⟨⟨0, 0, 0, 0, 0, none⟩, 3, List.replicate 64 7, false, false, none⟩; let s : State := { m := (od [(Od.FI_ENABLE, 1), (Od.FN_STATE 31, 2), (Od.FIP_STATUS 31, 2), (Od.FI_ARMED, 2147483648)] { base with cyc := secs 20 }).setMt fun x => { x with mer := 1000 } }; let s : State := { s with m := s.m.setFip 31 fun f => { f with delayed := some (t, secs 20) } }; let s : State := { s with m := s.m.setPf 31 fun x => { x with sending := some t } }; let p : Fin 32 := 31; s.m.up = true ∧ (s.m.pf p).fip.delayed = some (t, secs 20) ∧ (s.m.pf p).sending ≠ none) ∧
    (let t : Tx := ⟨⟨0, 0, 0, 0, 0, none⟩, 3, List.replicate 64 7, false, false, none⟩; let s : State := { m := (od [(Od.FI_ENABLE, 1), (Od.FN_STATE 31, 2), (Od.FIP_STATUS 31, 2), (Od.FI_ARMED, 2147483648)] { base with cyc := secs 20 }).setMt fun x => { x with mer := 1000 } }; let s : State := { s with m := s.m.setFip 31 fun f => { f with delayed := some (t, secs 20) } }; let s : State := { s with m := s.m.setPf 31 fun x => { x with gate := { x.gate with on := true, list := [(1000, 0)], states := 0 } } }; let p : Fin 32 := 31; s.m.up = true ∧ (s.m.pf p).fip.delayed = some (t, secs 20) ∧ s.m.gateOpen p t.queue t.bytes.length = false) ∧
    (let s : State := { m := (od [(Od.FI_ENABLE, 1)] { base with cyc := secs 20 }).setMt fun x => { x with mer := 1000 } }; let q := writeKey 1 Od.FI_ECC_TEST 1; s.grants me q 0 = true ∧ True) ∧
    (let s : State := { m := (od [(Od.FI_ENABLE, 1)] { base with cyc := secs 20 }).setMt fun x => { x with mer := 1000 } }; let q := writeKey 1 Od.FI_ECC_TEST 2; s.grants me q 0 = true ∧ True) := by decide +kernel
theorem witness_Injectors_5 :
    (let t : Tx := ⟨⟨0, 0, 0, 0, 0, none⟩, 7, List.replicate 64 7, false, false, some (.frame (List.replicate 60 7))⟩; let l : Bytes := List.replicate 60 7; let s : State := { m := (od [(Od.FI_ENABLE, 1), (Od.FN_STATE 31, 2), (Od.FIP_STATUS 31, 2), (Od.FI_ARMED, 2147483648)] { base with cyc := secs 20 }).setMt fun x => { x with mer := 1000 } }; let s : State := { s with m := s.m.setFip 31 fun f => { f with delayed := some (t, secs 20) } }; let p : Fin 32 := 31; s.m.up = true ∧ (s.m.pf p).fip.delayed = some (t, secs 20) ∧ secs 20 ≤ s.m.cyc ∧ (s.m.pf p).sending = none ∧ s.m.mayCross (.egress p) = true ∧ t.own = some (.frame l) ∧ s.m.gateOpen p t.queue t.bytes.length = true) ∧
    (let s : State := { m := (od [(Od.FI_ENABLE, 1), (Od.FN_STATE 31, 2), (Od.FIP_ARM_AT 31, 86400 * ticksPerSec + 1001)] { base with cyc := secs 20 }).setMt fun x => { x with mer := 1000 } }; let q := writeKey 1 (Od.FIP_ARM 31) 1; let a := s.m.door me q 0; s.grants me q 0 = true ∧ a.on Od.FI_ENABLE = true ∧ a.fnRuns 31 = true ∧ a.rdN (Od.FIP_ARM_AT 31) ≠ 0 ∧ a.armable (a.rdN (Od.FIP_ARM_AT 31)) = false) := by decide +kernel

/-- States and operands that meet the hypotheses of Obligations.SupplyAndBrace, clause by clause. -/
theorem witness_SupplyAndBrace :
    (let s : State := { m := (od [(Od.BRACE_STATE, 1)] { base with cyc := secs 20 }).setMt fun x => { x with mer := 1000 } }; s.m.up = true ∧ s.m.rdN Od.BRACE_STATE ≠ 0) ∧
    (let s : State := { m := (od [] { base with cyc := secs 20 }).setMt fun x => { x with mer := 1000 } }; let w := s.m.warnV; s.m.up = true ∧ s.m.rdN Od.SUP_SOURCE = 0 ∧ s.m.warnV ≤ w ∧ s.m.rdN Od.BRACE_STATE = 0) ∧
    (let s : State := { m := (od [] { base with cyc := secs 20 }).setMt fun x => { x with mer := 1000 } }; let w := s.m.warnV; s.m.up = true ∧ s.m.rdN Od.BRACE_STATE = 0 ∧ s.m.rdN Od.SUP_SOURCE = 0 ∧ w - 1 < s.m.warnV ∧ s.m.warnV ≤ w) ∧
    (let s : State := { m := (od [(Od.SUP_SOURCE, 1)] { base with cyc := secs 20 }).setMt fun x => { x with mer := 1000 } }; let w := s.m.warnV; s.m.up = true ∧ s.m.rdN Od.BRACE_STATE = 0 ∧ w - 1 < s.m.warnV ∧ s.m.rdN Od.BRACE_ENTRIES + 1 < keySize Od.BRACE_ENTRIES) := by decide +kernel
theorem witness_SupplyAndBrace_2 :
    (let s : State := { m := (od [(Od.SUP_SOURCE, 1)] { base with cyc := secs 20 }).setMt fun x => { x with mer := 1000 } }; let x := s.m.exitV; s.m.up = true ∧ x - 1 < s.m.exitV) ∧
    (let s : State := { m := (od [(Od.SUP_SOURCE, 2)] { base with cyc := secs 20 }).setMt fun x => { x with mer := 1000 } }; s.m.up = true ∧ s.m.rdN Od.SUP_SOURCE ≠ 1) ∧
    (let s : State := { m := ((od [(Od.SUP_SOURCE, 1), (Od.BRACE_STATE, 1)] { base with cyc := secs 20 }).setMt fun x => { x with mer := 1000 }).setPw fun p => { p with braceAt := secs 20 - ms 30 } }; let x := s.m.exitV; s.m.up = true ∧ s.m.exitV ≤ x ∧ s.m.rdN Od.SUP_SOURCE = 1 ∧ s.m.rdN Od.BRACE_STATE = 1) ∧
    (let s : State := { m := ((od [(Od.SUP_SOURCE, 1), (Od.BRACE_STATE, 1)] { base with cyc := secs 20 }).setMt fun x => { x with mer := 1000 }).setPw fun p => { p with braceAt := secs 20 - ms 30 } }; let x := s.m.exitV; s.m.up = true ∧ s.m.rdN Od.SUP_SOURCE = 1 ∧ s.m.rdN Od.BRACE_STATE = 1 ∧ s.m.exitV ≤ x) := by decide +kernel
theorem witness_SupplyAndBrace_3 :
    (let s : State := { m := (od [(Od.BRACE_STATE, 1)] { base with cyc := secs 20 }).setMt fun x => { x with mer := 1000 } }; let x := s.m.exitV; s.m.up = true ∧ s.m.rdN Od.SUP_SOURCE ≠ 1 ∧ x - 1 < s.m.exitV) ∧
    (let s : State := { m := (od [(Od.BRACE_STATE, 2)] { base with cyc := secs 20 }).setMt fun x => { x with mer := 1000 } }; s.m.up = true ∧ s.m.rdN Od.BRACE_STATE ≠ 1) ∧
    (let s : State := { m := ((od [(Od.BRACE_STATE, 1)] { base with cyc := secs 20 }).setMt fun x => { x with mer := 1000 }).setPw fun p => { p with braceAt := secs 20 - ms 30 } }; let w := s.m.warnV; s.m.up = true ∧ s.m.rdN Od.BRACE_STATE = 1 ∧ s.m.rdN Od.SUP_SOURCE = 0 ∧ s.m.warnV ≤ w) ∧
    (let s : State := { m := (od [(Od.BRACE_STATE, 1)] { base with cyc := secs 20 }).setMt fun x => { x with mer := 1000 } }; let w := s.m.warnV; s.m.up = true ∧ w - 1 < s.m.warnV) := by decide +kernel
theorem witness_SupplyAndBrace_4 :
    (let s : State := { m := (od [(Od.BRACE_STATE, 2)] { base with cyc := secs 20 }).setMt fun x => { x with mer := 1000 } }; s.m.up = true ∧ s.m.rdN Od.BRACE_STATE ≠ 1) ∧
    (let s : State := { m := (od [(Od.BRACE_STATE, 1), (Od.SUP_SOURCE, 2)] { base with cyc := secs 20 }).setMt fun x => { x with mer := 1000 } }; s.m.up = true ∧ s.m.rdN Od.SUP_SOURCE ≠ 0) ∧
    (let s : State := { m := (od [] { base with cyc := secs 20 }).setMt fun x => { x with mer := 1000 } }; s.m.up = true ∧ (6799 : Nat) < 6800 ∧ s.m.rdN Od.BRACE_STATE ≠ 2 ∧ s.m.rdN Od.BRACE_HOLDUPS + 1 < keySize Od.BRACE_HOLDUPS ∧ s.m.rdN Od.BRACE_STATE = 0) ∧
    (let s : State := { m := ((od [(Od.BRACE_STATE, 1)] { base with cyc := secs 20 }).setMt fun x => { x with mer := 1000 }).setPw fun p => { p with sram := none } }; s.m.up = true ∧ (6799 : Nat) < 6800 ∧ s.m.rdN Od.BRACE_STATE ≠ 2 ∧ s.m.rdN Od.BRACE_HOLDUPS + 1 < keySize Od.BRACE_HOLDUPS ∧ s.m.rdN Od.BRACE_STATE = 1) := by decide +kernel
theorem witness_SupplyAndBrace_5 :
    (let s : State := { m := (od [] { base with cyc := secs 20 }).setMt fun x => { x with mer := 1000 } }; s.m.up = true ∧ 6800 ≤ 6800) ∧
    (let s : State := { m := (od [] { base with cyc := secs 20 }).setMt fun x => { x with mer := 1000 } }; s.m.up = true ∧ 6800 ≤ 6800) ∧
    (let s : State := { m := (od [(Od.BRACE_STATE, 2)] { base with cyc := secs 20 }).setMt fun x => { x with mer := 1000 } }; s.m.up = true ∧ s.m.rdN Od.BRACE_STATE = 2) ∧
    (let s : State := { m := (od [(Od.BRACE_STATE, 2), (Od.SUP_SOURCE, 2)] { base with cyc := secs 20 }).setMt fun x => { x with mer := 1000 } }; s.m.up = true ∧ s.m.rdN Od.BRACE_STATE = 2 ∧ 20000 < 20001 ∧ (7900 < 7901 ∨ 7900 < 0)) := by decide +kernel
theorem witness_SupplyAndBrace_6 :
    (let s : State := { m := (od [(Od.BRACE_STATE, 2), (Od.SUP_SOURCE, 2)] { base with cyc := secs 20 }).setMt fun x => { x with mer := 1000 } }; s.m.up = true ∧ s.m.rdN Od.BRACE_STATE = 2 ∧ 20000 < 20001 ∧ (7900 < 0 ∨ 7900 < 7901)) ∧
    (let s : State := { m := (od [(Od.BRACE_STATE, 2)] { base with cyc := secs 20 }).setMt fun x => { x with mer := 1000 } }; s.m.up = true ∧ 20000 ≤ 20000) ∧
    (let s : State := { m := (od [(Od.BRACE_STATE, 2)] { base with cyc := secs 20 }).setMt fun x => { x with mer := 1000 } }; s.m.up = true ∧ 7900 ≤ 7900) ∧
    (let s : State := { m := (od [] { base with cyc := secs 20 }).setMt fun x => { x with mer := 1000 } }; s.m.up = true ∧ s.m.rdN Od.BRACE_STATE ≠ 2) := by decide +kernel
theorem witness_SupplyAndBrace_7 :
    (let s : State := { m := (od [] { base with cyc := secs 20 }).setMt fun x => { x with mer := 1000 } }; s.m.up = true ∧ True) ∧
    (let s : State := { m := (od [] { base with cyc := secs 20 }).setMt fun x => { x with mer := 1000 } }; s.m.up = true ∧ True) ∧
    (let s : State := { m := (od [(Od.SUP_SOURCE, 1)] { base with cyc := secs 20 }).setMt fun x => { x with mer := 1000 } }; s.m.up = true ∧ s.m.rdN Od.SUP_SOURCE ≠ 0 ∧ s.m.warnV ≤ s.m.warnV) ∧
    (let s : State := { m := (od [(Od.SUP_SOURCE, 1)] { base with cyc := secs 20 }).setMt fun x => { x with mer := 1000 } }; s.m.up = true ∧ s.m.rdN Od.SUP_SOURCE ≠ 0 ∧ s.m.warnV ≤ s.m.warnV) := by decide +kernel

/-- States and operands that meet the hypotheses of Obligations.ResetsBegin, clause by clause. -/
theorem witness_ResetsBegin :
    (let s : State := { m := (od [(Od.SLOT_PRIORITY 3, 9), (Od.FN_STATE 36, 2), (Od.DMA_RETRIES 3, 9), (Od.P_LINK 3, 1), (Od.SUP_VIN, 5), (Od.JOB_STATE 3, 1), (Od.GNSS_RING_WR, 4), (Od.SUP_VIN_MIN, 3), (Od.IMG_BOOT_NEXT, 1), (Od.SAFE_STATE, 1), (Od.PAIR_STATE, 2), (Od.FN_STATE 3, 2), (Od.FN_STATE 100, 2), (Od.RST_RESET_N, 1), (Od.BRACE_STATE, 2)] { base with cyc := secs 20 }).setMt fun x => { x with mer := 1000 } }; s.m.pw.rst.parts = 0 ∧ s.m.rdN Od.BRACE_STATE = 2) ∧
    (let s : State := { m := ((od [(Od.SLOT_PRIORITY 3, 9), (Od.FN_STATE 36, 2), (Od.DMA_RETRIES 3, 9), (Od.P_LINK 3, 1), (Od.SUP_VIN, 5), (Od.JOB_STATE 3, 1), (Od.GNSS_RING_WR, 4), (Od.SUP_VIN_MIN, 3), (Od.IMG_BOOT_NEXT, 1), (Od.SAFE_STATE, 1), (Od.PAIR_STATE, 2), (Od.FN_STATE 3, 2), (Od.FN_STATE 100, 2), (Od.RST_RESET_N, 1)] { base with cyc := secs 20 }).setMt fun x => { x with mer := 1000 }).setPw fun p => { p with rst := { p.rst with fellAt := some 0 } } }; s.m.pw.rst.parts = 0 ∧ s.m.pw.rails = true ∧ s.m.pw.rst.fellAt.isSome = true) ∧
    (let s : State := { m := (od [(Od.SLOT_PRIORITY 3, 9), (Od.FN_STATE 36, 2), (Od.DMA_RETRIES 3, 9), (Od.P_LINK 3, 1), (Od.SUP_VIN, 5), (Od.JOB_STATE 3, 1), (Od.GNSS_RING_WR, 4), (Od.SUP_VIN_MIN, 3), (Od.IMG_BOOT_NEXT, 1), (Od.SAFE_STATE, 1), (Od.PAIR_STATE, 2), (Od.FN_STATE 3, 2), (Od.FN_STATE 100, 2), (Od.RST_RESET_N, 1)] { base with cyc := secs 20 }).setMt fun x => { x with mer := 1000 } }; s.m.pw.rst.parts = 0 ∧ s.m.pw.rails = true) ∧
    (let s : State := { m := ((od [(Od.SLOT_PRIORITY 3, 9), (Od.FN_STATE 36, 2), (Od.DMA_RETRIES 3, 9), (Od.P_LINK 3, 1), (Od.SUP_VIN, 5), (Od.JOB_STATE 3, 1), (Od.GNSS_RING_WR, 4), (Od.SUP_VIN_MIN, 3), (Od.IMG_BOOT_NEXT, 1), (Od.SAFE_STATE, 1), (Od.PAIR_STATE, 2), (Od.FN_STATE 3, 2), (Od.FN_STATE 100, 2), (Od.RST_RESET_N, 1)] { base with cyc := secs 20 }).setMt fun x => { x with mer := 1000 }).setPw fun p => { p with rails := false } }; s.m.pw.rst.parts = 0 ∧ s.m.pw.rails = false) := by decide +kernel
theorem witness_ResetsBegin_2 :
    (let s : State := { m := (od [(Od.RST_RESET_N, 1)] { base with cyc := secs 20 }).setMt fun x => { x with mer := 1000 } }; s.m.pw.rails = true) ∧
    (let s : State := { m := (od [] { base with cyc := secs 20 }).setMt fun x => { x with mer := 1000 } }; s.m.rdN Od.BRACE_STATE ≠ 2) ∧
    (20000 < 20001) ∧
    (let s : State := { m := (od [(Od.BRACE_STATE, 2)] { base with cyc := secs 20 }).setMt fun x => { x with mer := 1000 } }; s.m.rdN Od.BRACE_STATE = 2 ∧ 20000 ≤ 20000) := by decide +kernel
theorem witness_ResetsBegin_3 :
    (let s : State := { m := (od [] { base with cyc := secs 20 }).setMt fun x => { x with mer := 1000 } }; s.m.pw.rails = true) ∧
    (7900 ≤ 7900) ∧
    (let s : State := { m := ((od [] { base with cyc := secs 20 }).setMt fun x => { x with mer := 1000 }).setPw fun p => { p with rails := false } }; s.m.pw.rails = false ∧ 7900 < 7901) ∧
    (let s : State := { m := ((od [] { base with cyc := secs 20 }).setMt fun x => { x with mer := 1000 }).setPw fun p => { p with rails := false } }; s.m.pw.rails = false ∧ 7900 < 7901) := by decide +kernel
theorem witness_ResetsBegin_4 :
    (let s : State := { m := ((od [] { base with cyc := secs 20 }).setMt fun x => { x with mer := 1000 }).setPw fun p => { p with rails := false } }; s.m.pw.rails = false) ∧
    (let s : State := { m := ((od [] { base with cyc := secs 20 }).setMt fun x => { x with mer := 1000 }).setPw fun p => { p with rails := false } }; s.m.pw.rails = false) ∧
    (let s : State := { m := ((od [] { base with cyc := secs 20 }).setMt fun x => { x with mer := 1000 }).setPw fun p => { p with rails := false } }; s.m.pw.rails = false) ∧
    (let s : State := { m := (od [] { base with cyc := secs 20 }).setMt fun x => { x with mer := 1000 } }; s.m.pw.rails = true ∧ s.m.pw.rst.fellAt = none) := by decide +kernel
theorem witness_ResetsBegin_5 :
    (let s : State := { m := (od [] { base with cyc := secs 20 }).setMt fun x => { x with mer := 1000 } }; s.m.pw.rails = true) := by decide +kernel

/-- States and operands that meet the hypotheses of Obligations.ResetsEnd, clause by clause. -/
theorem witness_ResetsEnd :
    (let s : State := { m := ((od [] { base with cyc := secs 20 }).setMt fun x => { x with mer := 1000 }).setPw fun p => { p with rst := { p.rst with fns := [3] } } }; s.m.pw.rst.active = []) ∧
    (let s : State := { m := ((od [] { base with cyc := secs 20 }).setMt fun x => { x with mer := 1000 }).setPw fun p => { p with rails := false, rst := { p.rst with active := [2] } } }; s.m.pw.rails = false) ∧
    (let s : State := { m := ((od [] { base with cyc := secs 20 }).setMt fun x => { x with mer := 1000 }).setPw fun p => { p with rst := { p.rst with active := [2], since := secs 20 + 1 } } }; s.m.cyc < s.m.pw.rst.since) ∧
    (let s : State := { m := ((od [(Od.PAIR_ENABLE, 1), (Od.SWO_ROLE, 1)] { base with cyc := secs 20 }).setMt fun x => { x with mer := 1000 }).setPw fun p => { p with rst := { p.rst with active := [5, 2], parts := 31, since := secs 20 } } }; s.m.pw.rst.active.min? = some 2 ∧ s.m.pw.rails = true ∧ s.m.pw.rst.since ≤ s.m.cyc ∧ s.m.partHeld 0 = true ∧ s.m.partHeld 1 = true) := by decide +kernel
theorem witness_ResetsEnd_2 :
    (let s : State := { m := ((od [(Od.PAIR_ENABLE, 1), (Od.SWO_ROLE, 1)] { base with cyc := secs 20 }).setMt fun x => { x with mer := 1000 }).setPw fun p => { p with rst := { p.rst with active := [3], parts := 31, since := secs 20 } } }; s.m.pw.rst.active.min? = some 3 ∧ s.m.pw.rails = true ∧ s.m.pw.rst.since ≤ s.m.cyc ∧ s.m.partHeld 0 = true ∧ s.m.partHeld 1 = true) ∧
    (let s : State := { m := (od [] { base with cyc := secs 20 }).setMt fun x => { x with mer := 1000 } }; s.m.up = true ∧ s.m.mg.srv.running = true) ∧
    (let s : State := { m := ((od [] { base with cyc := secs 20 }).setMt fun x => { x with mer := 1000 }).setPw fun p => { p with rst := { p.rst with parts := 16 } } }; s.m.up = true ∧ s.m.partHeld 4 = true) ∧
    (let s : State := { m := ((od [(Od.JOB_STATE 3, 1), (Od.IMG_BOOT_NEXT, 0), (countKeyOf 4, 0)] { base with cyc := secs 20 }).setMt fun x => { x with mer := 1000 }).setPw fun p => { p with images := [(0, { tries := 1, confirmed := false })], rst := { p.rst with report := some 4, watchdog := true } } }; let s : State := { s with m := s.m.setSrv fun x => { x with running := false } }; s.m.up = true ∧ s.m.mg.srv.running = false ∧ s.m.partHeld 4 = false ∧ s.m.pw.rst.report = some 4 ∧ 4 ≤ 4 ∧ s.m.pw.rst.watchdog = true ∧ (s.m.image (s.m.rdN Od.IMG_BOOT_NEXT)).tries < 2 ∧ s.m.rdN (countKeyOf 4) + 1 < keySize (countKeyOf 4)) := by decide +kernel
theorem witness_ResetsEnd_3 :
    (let s : State := { m := ((od [(Od.JOB_STATE 3, 1), (Od.IMG_BOOT_NEXT, 0), (countKeyOf 6, 0)] { base with cyc := secs 20 }).setMt fun x => { x with mer := 1000 }).setPw fun p => { p with images := [(0, { tries := 1, confirmed := false })], rst := { p.rst with report := some 6, watchdog := true } } }; let s : State := { s with m := s.m.setSrv fun x => { x with running := false } }; s.m.up = true ∧ s.m.mg.srv.running = false ∧ s.m.partHeld 4 = false ∧ s.m.pw.rst.report = some 6 ∧ 4 ≤ 6 ∧ s.m.pw.rst.watchdog = true ∧ (s.m.image (s.m.rdN Od.IMG_BOOT_NEXT)).tries < 2 ∧ s.m.rdN (countKeyOf 6) + 1 < keySize (countKeyOf 6)) ∧
    (let s : State := { m := (od [] { base with cyc := secs 20 }).setMt fun x => { x with mer := 1000 } }; let q := writeKey 1 Od.RST_WARM 1; let w := s.m.asked me q 0; s.grants me q 0 = true ∧ w.tenant = 0) ∧
    (let s : State := { m := (od [] { base with cyc := secs 20 }).setMt fun x => { x with mer := 1000 } }; let q := writeKey 1 Od.RST_FW_RESTART 1; let w := s.m.asked me q 0; s.grants me q 0 = true ∧ w.tenant = 0) ∧
    (let s : State := { m := (od [] { base with cyc := secs 20 }).setMt fun x => { x with mer := 1000 } }; let q := writeKey 1 Od.RST_FUNCTION 168; s.grants me q 0 = true ∧ 168 ≤ 168 ∧ 168 < 256) := by decide +kernel
theorem witness_ResetsEnd_4 :
    (let s : State := { m := (od [] { base with cyc := secs 20 }).setMt fun x => { x with mer := 1000 } }; let q := writeKey 1 Od.RST_FUNCTION 255; s.grants me q 0 = true ∧ 168 ≤ 255 ∧ 255 < 256) ∧
    (let s : State := { m := (od [] { base with cyc := secs 20 }).setMt fun x => { x with mer := 1000 } }; let q := writeKey 1 Od.RST_FUNCTION 32; s.grants me q 0 = true ∧ 32 < 168 ∧ (32 = 32 ∨ 32 = 33)) ∧
    (let s : State := { m := (od [] { base with cyc := secs 20 }).setMt fun x => { x with mer := 1000 } }; let q := writeKey 1 Od.RST_FUNCTION 33; s.grants me q 0 = true ∧ 33 < 168 ∧ (33 = 32 ∨ 33 = 33)) ∧
    (let s : State := { m := (od [(Od.FN_STATE 167, 1)] { base with cyc := secs 20 }).setMt fun x => { x with mer := 1000 } }; let q := writeKey 1 Od.RST_FUNCTION 167; let a := s.m.door me q 0; s.grants me q 0 = true ∧ a.fnState 167 ≠ 0) := by decide +kernel
theorem witness_ResetsEnd_5 :
    (let s : State := { m := (od [(Od.DMA_RETRIES 63, 9), (Od.DMA_RETRIES 62, 9), (Od.DMA_HEAD 63, 9)] { base with cyc := secs 20 }).setMt fun x => { x with mer := 1000 } }; let q := writeKey 1 Od.RST_FUNCTION 167; let a := s.m.door me q 0; let w := s.m.asked me q 0; s.grants me q 0 = true ∧ 167 < 168 ∧ 104 ≤ 167 ∧ a.fnState 167 = 0 ∧ a.holds 167 w.tenant = true ∧ a.blockFn (Od.DMA_RETRIES 63) = some 167 ∧ partOf (Od.DMA_RETRIES 63) ≠ 0) ∧
    (let s : State := { m := (od [] { base with cyc := secs 20 }).setMt fun x => { x with mer := 1000 } }; let q := writeKey 1 Od.RST_FUNCTION 0; let a := s.m.door me q 0; let w := s.m.asked me q 0; s.grants me q 0 = true ∧ 0 < 168 ∧ a.fnState 0 = 0 ∧ a.holds 0 w.tenant = true) ∧
    (let q := writeKey 1 Od.RST_FUNCTION 102; let s : State := { m := od [(Od.FN_HOLDER 102, 4), (Od.MP_CAN0_ENABLE, 1), (key 0x1100 64, 12321848619140382720), (Od.TNT_WRITE_MASK 5, 4294967295)] }; let c : Caller := .can 0 9; let a := s.m.door c q 63; let w := s.m.asked c q 63; s.grants c q 63 = true ∧ 102 < 168 ∧ a.holds 102 w.tenant = false) ∧
    (let s : State := { m := ((od [] { base with cyc := secs 20 }).setMt fun x => { x with mer := 1000 }).setPw fun p => { p with rst := { p.rst with parts := 16 } } }; s.m.up = true ∧ s.m.partHeld 4 = true) := by decide +kernel
theorem witness_ResetsEnd_6 :
    (let s : State := { m := ((od [] { base with cyc := secs 20 }).setMt fun x => { x with mer := 1000 }).setPw fun p => { p with phyAt := secs 20 - ms 10 + 1 } }; s.m.up = true ∧ s.m.cyc < s.m.pw.phyAt + ms 10) ∧
    (let s : State := { m := ((od [] { base with cyc := secs 20 }).setMt fun x => { x with mer := 1000 }).setPw fun p => { p with phyAt := secs 20 - ms 10 } }; s.m.up = true ∧ s.m.partHeld 4 = false ∧ s.m.pw.phyAt + ms 10 ≤ s.m.cyc) ∧
    (let s : State := { m := ((od [] { base with cyc := secs 20 }).setMt fun x => { x with mer := 1000 }).setPw fun p => { p with rst := { p.rst with parts := 4 } } }; s.m.up = true ∧ s.m.partHeld 2 = true) ∧
    (let s : State := { m := (od [(Od.CAP_PCIE_STRAP, 1)] { base with cyc := secs 20 }).setMt fun x => { x with mer := 1000 } }; s.m.up = true ∧ s.m.partHeld 2 = false ∧ s.m.rootPort = true) := by decide +kernel

/-- States and operands that meet the hypotheses of Obligations.StepRunsFront, clause by clause. -/
theorem witness_StepRunsFront :
    (let s : State := { m := base.setMt fun m => { m with mer := wordWrap - 655361 } }; s.pending = [] ∧ s.m.up = true ∧ s.m.mer + 655360 < wordWrap) ∧
    (let s : State := { m := base.setPw fun p => { p with rails := false } }; s.pending = [] ∧ s.m.up = false) := by decide +kernel

/-- States and operands that meet the hypotheses of Obligations.EveryCommandCompletes, clause by clause. -/
theorem witness_EveryCommandCompletes :
    (let s : State := { m := base.setPw fun p => { p with rst := { p.rst with parts := 31 } } }; actsHeld .secondsWrap = false ∧ s.m.up = false) ∧
    (let s : State := { m := base.setPw fun p => { p with rst := { p.rst with parts := 31 } } }; let t : State := { m := base }; actsHeld .resetRelease = true ∧ s.m.up = false ∧ t.m.up = true) := by decide +kernel

/-- States and operands that meet the hypotheses of Obligations.StepKeepsInvariant, clause by clause. -/
theorem witness_StepKeepsInvariant :
    (let s : State := { pending := [.secondsWrap], ram := [(5, 7)], m := (od [(Od.MT_TIME_VALID, 1), (Od.MT_TIME_SET, 1), (Od.SEL_PE0_STATE, 2), (Od.SEL_SELECTED, 255)]).wr Od.MT_UNCERTAINTY 5 }; s.ram.wf = true ∧ s.m.rd Od.MT_TIME_VALID = b2n (s.m.timeConditions (s.m.rdN Od.MT_UNCERTAINTY)) ∧ s.m.pokes = [] ∧ s.m.ramLost = false ∧ s.m.rd Od.MT_TIME_VALID = 1) ∧
    (let s : State := { m := base }; s.ram.wf = true ∧ s.m.rd Od.MT_TIME_VALID = b2n (s.m.timeConditions (s.m.rdN Od.MT_UNCERTAINTY)) ∧ s.m.rd Od.MT_TIME_VALID = 0) := by decide +kernel

/-- States and operands that meet the hypotheses of Obligations.TimeValidEvents, clause by clause. -/
theorem witness_TimeValidEvents :
    (let b := od [(Od.MT_TIME_VALID, 1)]; b.on Od.MT_TIME_VALID = true ∧ b.timeConditions b.uncertainty = false) ∧
    (let b := (od [(Od.MT_TIME_SET, 1), (Od.SEL_PE0_STATE, 3), (Od.MT_UNC_LIMIT, 4294967295)]).setHo fun h => { h with startAt := some 0 }; b.on Od.MT_TIME_VALID = false ∧ b.timeConditions b.uncertainty = true) := by decide +kernel

/-- States and operands that meet the hypotheses of Obligations.TimeWordBytes, clause by clause. -/
theorem witness_TimeWordBytes :
    (let word : Nat := wordWrap - 1; word < wordWrap) := by decide +kernel

/-- States and operands that meet the hypotheses of Obligations.DueComparison, clause by clause. -/
theorem witness_DueComparison :
    (let b := base.setMt fun m => { m with mer := 2 ^ 70 }; let word : Nat := 2 ^ 70 - 2 ^ 63; b.mer ≤ word + 2 ^ 63 ∧ word < b.mer + 2 ^ 63) ∧
    (let b := base.setMt fun m => { m with mer := 2 ^ 70 }; let word : Nat := 2 ^ 70 + 2 ^ 63 - 1; b.mer ≤ word + 2 ^ 63 ∧ word < b.mer + 2 ^ 63) ∧
    (let b := base.setMt fun m => { m with mer := 2 ^ 70 }; let word : Nat := 2 ^ 70 + 2 ^ 63; b.mer + 2 ^ 63 ≤ word ∧ word < b.mer + 2 ^ 64) ∧
    (let b := base.setMt fun m => { m with mer := 2 ^ 70 }; let word : Nat := 2 ^ 70 + 2 ^ 64 - 1; b.mer + 2 ^ 63 ≤ word ∧ word < b.mer + 2 ^ 64) := by decide +kernel

/-- States and operands that meet the hypotheses of Obligations.PoolMemory, clause by clause. -/
theorem witness_PoolMemory :
    (let s : State := { ram := [(5, 7)], m := base }; let b : Block := { base with pokes := [(6, [1]), (3, [9, 9])] }; s.ram.wf = true ∧ b.safe = false ∧ b.pw.rst.ordered = none ∧ b.ramLost = false ∧ (∀ e ∈ b.pokes, 5 < e.1 ∨ e.1 + e.2.length ≤ 5)) ∧
    (let s : State := { ram := [(5, 7)], m := base }; let b : Block := { base with pokes := [(6, [1]), (4, [9, 0])] }; s.ram.wf = true ∧ b.safe = false ∧ b.pw.rst.ordered = none ∧ b.pokes = [(6, [1])] ++ [(4, [9, 0])] ∧ 1 < ([9, 0] : Bytes).length) ∧
    (let ch : Fin 64 := 63; let q : Bytes := toLE 8 64 ++ toLE 8 4294967296 ++ toLE 4 4 ++ toLE 4 0 ++ toLE 4 134217728 ++ toLE 4 0; let m := (od [(Od.FN_STATE (104 + ch), 2), (Od.DMA_RING_SPACE ch, 1), (Od.DMA_RING_SIZE ch, 16), (Od.DMA_TAIL ch, 1), (Od.DMA_WB_ADDR ch, 4294967296 + 64)]).setCp fun y => { y with buf := [(1, ⟨1, 0⟩)] }; let s : State := { m := m, ram := ramStore [] (m.poolAddr (m.headSlot ch)) q }; let d := readDescriptor q; s.m.up = true ∧ s.m.dmaFree ch 0 = true ∧ s.m.headDesc s.ram ch [] = some q ∧ d.op = 0 ∧ d.free = false ∧ s.m.cp.dma.all (fun e => e.2.job.isNone) = true) ∧
    (let ch : Fin 64 := 0; let q : Bytes := toLE 8 64 ++ toLE 8 4294967296 ++ toLE 4 4 ++ toLE 4 0 ++ toLE 4 134217728 ++ toLE 4 0; let m := (od [(Od.FN_STATE (104 + ch), 2), (Od.DMA_RING_SPACE ch, 0), (Od.DMA_RING_SIZE ch, 16), (Od.DMA_TAIL ch, 1)]).setCp fun y => { y with buf := [(1, ⟨1, 0⟩)] }; let s : State := { m := m }; let d := readDescriptor q; s.m.up = true ∧ s.m.dmaFree ch 0 = true ∧ s.m.headDesc s.ram ch q = some q ∧ d.op = 0 ∧ d.free = false ∧ s.m.cp.dma.all (fun e => e.2.job.isNone) = true) := by decide +kernel

/-- States and operands that meet the hypotheses of Obligations.FramesSupplySafetyPair, clause by clause. -/
theorem witness_FramesSupplySafetyPair :
    (let s : State := { m := od [(Od.PAIR_STATE, 4)] }; s.m.up = true ∧ s.m.pairState ≠ 5 ∧ (s.m.pr.posB = false ∨ s.m.on Od.SWO_PARTNER_ALIVE = false)) := by decide +kernel

/-- States and operands that meet the hypotheses of Obligations.FramesTimingAndUnits, clause by clause. -/
theorem witness_FramesTimingAndUnits :
    (let s : State := { m := base }; s.m.up = true) := by decide +kernel

/-- A frame-free measurement of a GNSS channel. -/
def coh (n pli : Nat) (elev : Int) (azim : Nat) : Coherent := ⟨true, pli, 0, 0, elev, azim, List.replicate n (0, 0), {}⟩
/-- A training frame with codes. -/
def train (a b : Nat × Nat × Nat) : Training := ⟨a, false, false, false, false, b⟩

theorem test_wf_good : (Instr.mtSetTime (.inband 31 4095 (2 ^ 48 - 1)) 65535 (2 ^ 48 * 65536000000000 - 1)).wf = true
    ∧ (Instr.dmaDoorbell (.entry (.can 1 255) 0) 63 (2 ^ 32 - 1)).wf = true ∧ (Instr.dmaCopy {} (List.replicate 32 0) []).wf = true
    ∧ (Instr.gnssCoherentIntegration 79 (coh 9 1000 (-90) 359)).wf = true ∧ (Instr.pcieLinkChange 4 4).wf = true := by decide +kernel
theorem test_wf_requester : (Instr.safeForce (.inband 0 4096 0) 0).wf = false ∧ (Instr.safeForce (.inband 0 0 (2 ^ 48)) 0).wf = false
    ∧ (Instr.safeForce (.service 4096 0) 0).wf = false ∧ (Instr.safeForce (.service 0 (2 ^ 48)) 0).wf = false
    ∧ (Instr.safeForce (.can 0 256) 0).wf = false ∧ (Instr.safeForce (.pcie 0) 65536).wf = false := by decide +kernel
theorem test_wf_request : (Instr.mbDoorbell 0 { op := 256 }).wf = false ∧ (Instr.mbDoorbell 0 { flags := 256 }).wf = false
    ∧ (Instr.mbDoorbell 0 { token := 65536 }).wf = false ∧ (Instr.mbDoorbell 0 { index := 65536 }).wf = false
    ∧ (Instr.mbDoorbell 0 { sub := 256 }).wf = false ∧ (Instr.mbDoorbell 0 { ty := 256 }).wf = false
    ∧ (Instr.mbDoorbell 0 { offset := 2 ^ 32 }).wf = false ∧ (Instr.mbDoorbell 0 { length := 65536 }).wf = false
    ∧ (Instr.mbDoorbell 0 { resv := 65536 }).wf = false := by decide +kernel
theorem test_wf_operation : (Instr.odRead me { op := 2 }).wf = false ∧ (Instr.odRead me { op := 3 }).wf = false
    ∧ (Instr.odRead me { op := 4 }).wf = false ∧ (Instr.odRead me { op := 9 }).wf = true := by decide +kernel
theorem test_wf_time : (Instr.mtSetTime me 0 (2 ^ 48 * 65536000000000)).wf = false ∧ (Instr.esmcPduRx 0 ⟨16, []⟩).wf = false
    ∧ (Instr.refinPulse 0 655360).wf = false ∧ (Instr.refinPulse 0 (-1)).wf = false ∧ (Instr.steerWrite me 0 (2 ^ 31)).wf = false
    ∧ (Instr.steerWrite me 0 (-2 ^ 31 - 1)).wf = false := by decide +kernel
theorem test_wf_slots : (Instr.slotConfigWrite me 0 0 .kind 256).wf = false ∧ (Instr.slotLockoutWrite me 0 0 256).wf = false
    ∧ (Instr.slotMonitorTick [(3, 0), (3, 1)]).wf = false ∧ (Instr.selPhaseWrite me 0 256).wf = false
    ∧ (Instr.selForceWrite me 0 256).wf = false := by decide +kernel
theorem test_wf_fabric : (Instr.frameRx 0 [] true {} {}).wf = false
    ∧ (Instr.frameRx 0 [0] true { lane := 4 } {}).wf = false ∧ (Instr.frameTxDone { stamp := { lane := 4 } }).wf = false
    ∧ (Instr.reelMarkerTx 0 { lane := 4 }).wf = false ∧ (Instr.heartbeatRx ⟨0, [.gate 32 ⟨false, [], 0, 0, 0, 0⟩]⟩).wf = false
    ∧ (Instr.laneTrainingFrameRx 0 (train (3, 0, 0) (0, 0, 0))).wf = false ∧ (Instr.laneTrainingFrameRx 0 (train (0, 0, 0) (0, 0, 3))).wf = false
    ∧ (Instr.prbsLockLoss 0 255).wf = false ∧ (Instr.prbsLockLoss 0 1025).wf = false := by decide +kernel
theorem test_wf_lanes : (Instr.sidebandScan (List.replicate 31 0)).wf = false ∧ (Instr.sidebandScan (256 :: List.replicate 31 0)).wf = false
    ∧ (Instr.i2cTransactionDone 0 true false (List.replicate 257 0)).wf = false := by decide +kernel
theorem test_wf_gnss : (Instr.gnssDwell 8 0 0 0 0 true).wf = false ∧ (Instr.gnssDwell 0 0 0 91 0 true).wf = false
    ∧ (Instr.gnssDwell 0 0 0 (-91) 0 true).wf = false ∧ (Instr.gnssDwell 0 0 0 0 360 true).wf = false
    ∧ (Instr.gnssEpochLatch [⟨5, 0, true, 0, 0, 0, 0⟩, ⟨5, 1, true, 0, 0, 0, 0⟩] none).wf = false
    ∧ (Instr.gnssCoherentIntegration 0 (coh 8 0 0 0)).wf = false ∧ (Instr.gnssCoherentIntegration 0 (coh 9 1001 0 0)).wf = false
    ∧ (Instr.gnssCoherentIntegration 0 (coh 9 0 91 0)).wf = false ∧ (Instr.gnssCoherentIntegration 0 (coh 9 0 0 360)).wf = false := by decide +kernel
theorem test_wf_dma : (Instr.dmaAlloc 0 (List.replicate 31 0)).wf = false ∧ (Instr.dmaBusError 0 0 true true 0 0).wf = false
    ∧ (Instr.dmaBusError 0 8 true true 0 0).wf = false ∧ (Instr.dmaBusError 0 1 true true (2 ^ 64) 0).wf = false
    ∧ (Instr.dmaDoorbell (.bar2 0) 0 (2 ^ 32)).wf = false ∧ (Instr.dmaDoorbell (.entry me 65536) 0 0).wf = false := by decide +kernel
theorem test_wf_paths : (Instr.canFragmentRx 0 256 0 0 []).wf = false ∧ (Instr.canFragmentRx 0 0 256 0 []).wf = false
    ∧ (Instr.canFragmentRx 0 0 0 256 []).wf = false ∧ (Instr.canFragmentRx 0 0 0 0 (List.replicate 64 0)).wf = false
    ∧ (Instr.mbEvqTailWrite 0 (2 ^ 32) none).wf = false ∧ (Instr.apEntryWrite me 0 0 (2 ^ 64)).wf = false
    ∧ (Instr.stickyClearWrite me 0 65536 0 0).wf = false ∧ (Instr.stickyClearWrite me 0 0 256 0).wf = false
    ∧ (Instr.stickyClearWrite me 0 0 0 (2 ^ 64)).wf = false ∧ (Instr.ticRingRead me 0 65536).wf = false := by decide +kernel
theorem test_wf_system : (Instr.imgBootSelect me 0 256).wf = false ∧ (Instr.xwCheck 0 0 0).wf = false ∧ (Instr.xwCheck 6 0 0).wf = false
    ∧ (Instr.xwCheck 1 52 0).wf = false ∧ (Instr.scrubPass [6] [] 0).wf = false ∧ (Instr.scrubPass [] [(0, 0)] 0).wf = false
    ∧ (Instr.fiXwTest me 0 256).wf = false ∧ (Instr.rstFunction me 0 256).wf = false ∧ (Instr.vinReturn (2 ^ 32)).wf = false
    ∧ (Instr.pcieLinkChange 5 1).wf = false ∧ (Instr.pcieLinkChange 1 3).wf = false ∧ (Instr.pcieLinkChange 0 1).wf = false := by decide +kernel

-- The queue and the table's words

theorem test_no_words : decodeTableWord 0 0 = none ∧ decodeTableWord 32 0xFFFFFFFF = none := by decide
theorem test_step_front : (match step { m := base, pending := [.secondsWrap, .leapApply] } with | .next t => t.pending == [.leapApply] | _ => false) = true := by
  decide +kernel
theorem test_step_idle : (match step { m := base } with | .next t => t.m.cyc == 1 && t.m.mer == 655360 | _ => false) = true := by decide +kernel

-- The spec's worked examples

/-- The time word of the first example of "The Meridian timescale". -/
def exampleWord : Nat := (2000000037 * 1000000000 + 123456789) * 65536 + 0x8000

/-- R40: the twelve bytes of the example. -/
theorem test_time_bytes : timeBytes exampleWord = [0x00, 0x80, 0x15, 0xCD, 0x5B, 0x07, 0x25, 0x94, 0x35, 0x77, 0x00, 0x00] := by decide +kernel
/-- R44: the tick view of the example. -/
theorem test_tick_view : (base.setMt fun m => { m with mer := exampleWord }).tick = 0x6D6FF382FF158000 := by decide +kernel
/-- R47, R48: a target numerically smaller that lies 32 ns ahead, and one that reads as past. -/
theorem test_due : (base.setMt fun m => { m with mer := 0xFFFFFFFFFFF00000 }).due 0x0000000000100000 = false
    ∧ (base.setMt fun m => { m with mer := 0x0000100000000000 }).due 0x8000100000000001 = true := by decide +kernel
/-- R63: the sum of originTimestamp and correctionField. -/
theorem test_ptp_sum : (((od [(Od.FN_STATE 0, 2), (Od.LT_MODE 0, 2), (Od.P_LINK 0, 1), (Od.DOMX_KIND 0, 1), (Od.DOMX_PTP_DOMAIN 0, 24)]).syncRx 0
    { domain := 24, seq := 1, src := 3, corr := 212992 } false ⟨2000000037, 999999999⟩ 0 {}).ptpDom 0 24).t1
      = some (((2000000038 * 1000000000 + 2) * 65536 + 0x4000 : Nat) : Int) := by decide +kernel
/-- R399, R404: the request bytes of the example are a read of MT_NOW with token 0x0102. -/
theorem test_request_bytes : requestOf ([0x01, 0x00, 0x02, 0x01, 0x00, 0x20, 0x01, 0x0B] ++ List.replicate 8 0) = { readKey 0x0102 Od.MT_NOW with ty := 0x0B } := by
  decide +kernel
/-- R80: the stamps of the example at the fibre face, 11,770 ps later and 19,600 ps earlier, in ticks to the nearest. -/
theorem test_fibre_face : (od [(Od.P_MODE 0, 3), (Od.LT_OPTIC_TX_DELAY 0, 250)]).departFace 0 0 11520 0 = 771359
    ∧ (od [(Od.P_MODE 0, 3), (Od.LT_OPTIC_RX_DELAY 0, 400)]).arriveFace 0 0 19200 0 = -1284506 := by decide +kernel
/-- R164: H of the example after 8 h, 345,600 ps and 38,400 ps. -/
theorem test_holdover_term : (od [(Od.HO_FREQ_UNC, 12), (Od.HO_AGEING_UNC, 8)]).holdoverTerm 28800 = 384000 := by decide +kernel
/-- R208: the four values of the example. -/
theorem test_statistics : let b := (((od [(Od.TIC_STAT_N 0, 4)]).ticStat 0 105).ticStat 0 (-105)).ticStat 0 210 |>.ticStat 0 0
    b.rd (Od.TIC_STAT_MEAN 0) = 53 ∧ b.rd (Od.TIC_STAT_SDEV 0) = 136 ∧ b.rd (Od.TIC_STAT_MIN 0) = -105 ∧ b.rd (Od.TIC_STAT_MAX 0) = 210 := by decide +kernel
/-- R262: a stomped copy's FCS is the complement of the correct one; the CRC-32 of the nine digits is the well-known one. -/
theorem test_fcs : fcsOf [0x31, 0x32, 0x33, 0x34, 0x35, 0x36, 0x37, 0x38, 0x39] = [0x26, 0x39, 0xF4, 0xCB]
    ∧ stompOf [0x31, 0x32, 0x33, 0x34, 0x35, 0x36, 0x37, 0x38, 0x39] = [0xD9, 0xC6, 0x0B, 0x34] := by decide +kernel
/-- R165: 66,349 s are left at entry in the example. -/
theorem test_time_left : timeLeft 0 (864000 * 12) (5 * 8) 1000000 = 66349 := by decide +kernel

-- Small cases of single commands

/-- R38: the seconds wrap. -/
theorem test_leap_insert : ((od [(Od.MT_LEAP_PENDING, 1), (Od.MT_UTC_OFFSET, 37)]).leapDue).rd Od.MT_UTC_OFFSET = 38 := by decide +kernel
/-- R10: a read of an entry that no record holds. -/
theorem test_no_object : (base.submit me (readRequest 7 0x1000 0xFF)).sent = [.response me ⟨0x81, 2, 7, 0x1000, 0xFF, 0, 0, [], none⟩] := by decide +kernel
/-- R451: the third missed heartbeat with PARTNER_ALIVE high isolates the standby. -/
theorem test_third_miss : (((od [(Od.PAIR_ENABLED, 1), (Od.PAIR_STATE, 4), (Od.SWO_PARTNER_ALIVE, 1)]).setPr fun p => { p with missed := 2 }).miss).pairState = 5 := by
  decide +kernel
/-- R487: hold-up needs both inputs below 6.8 V. -/
theorem test_hold_up : (base.holdUpEntry 6799 6799).rd Od.BRACE_STATE = 2 ∧ (base.holdUpEntry 6799 6800).rd Od.BRACE_STATE = 0 := by decide +kernel

end Sys2Proof.Tests
end

section
/-! What reset leaves (R11, R42, R43, R418, R495). -/

namespace Sys2Proof.Machine

/-- Right after reset PE0 and PE1 run and no other function (R43, R418). -/
theorem fnRuns_reset : ∀ f < 168, State.reset.m.fnRuns f = decide (f = 32 ∨ f = 33) := by decide +kernel

theorem jobLive_reset : ∀ j < 16, State.reset.m.jobLive j = false := by decide +kernel

theorem clockRuns_reset (c : FastClock) : State.reset.m.clockRuns c = false := by cases c <;> rfl

/-- Settles O49: with nothing listed, every table reads as its default, and the defaults are those of R11, R42 and R418. -/
theorem resetValues : Obligations.ResetValues := by
  unfold Obligations.ResetValues
  refine ⟨rfl, rfl, fun _ => ⟨rfl, rfl⟩, rfl, rfl, ?timeSet, ?timeValid, ?pe0, ?selected, ?safe, fnRuns_reset, clockRuns_reset, jobLive_reset,
    rfl, rfl, rfl, rfl, fun _ => rfl⟩
  all_goals decide +kernel

end Sys2Proof.Machine
end

section
/-! Requests served at once, whatever their checks say, and the answer of each check (R401, R527). -/

namespace Sys2Proof.Machine

-- A request taken up

/-- The only request that waits is served, and nothing waits then. -/
theorem Block.serveWaiting_one {b : Block} {w : Waiting} (hq : b.mg.srv.queue = [w]) (hr : b.mg.srv.running = true)
    (hc : b.clockRuns .prixus = true) (ht : w.tenant < 8) (ha : b.agreed (Boundary.server (Fin.ofNat 8 w.tenant)).no = true) :
    b.serveWaiting = (b.setSrv fun s => { s with queue := [] }).serve w := by
  unfold Block.serveWaiting
  simp [hq, Block.serveAll, hr, hc, b.nextRequest_one w hq ht ha]

/-- A request that finds no kept response at its turn is answered. -/
theorem Block.serve_eq_answered {b : Block} {w : Waiting} (h : (b.turn w.tenant).keptFor w = none) : b.serve w = (b.turn w.tenant).answered w := by
  unfold Block.serve
  simp [h]

/-- A request at the door of a server that runs with nothing waiting joins the queue, and what waits is served. -/
theorem Block.accept_running {b : Block} {c : Caller} {q : Request} {n : Nat} (hr : b.mg.srv.running = true) (hq : b.mg.srv.queue = [])
    (hn : b.pointOf c = some n) : b.accept c q = ((b.known n c).queued (b.waiting n c q)).serveWaiting := by
  have hcr : b.noCredits (b.waiting n c q).tenant = false := by simp [Block.noCredits, Block.credits, hq]
  unfold Block.accept
  cases c <;> simp [hr, hn, hcr]

theorem Block.asked_tenant_lt (b : Block) (c : Caller) (q : Request) (n : Nat) : (b.asked c q n).tenant < 8 := by
  show apTenant _ < 8
  unfold apTenant bits
  omega

/-- A request taken up at once is answered on the module as the server finds it at its turn, whatever its checks say. -/
theorem Block.submit_serves {s : State} {c : Caller} {q : Request} {n : Nat} (h : s.serves c q n = true) :
    s.m.submit c q = (s.m.door c q n).answered (s.m.asked c q n) := by
  simp only [State.serves, Bool.and_eq_true, beq_iff_eq, Bool.not_eq_true', List.isEmpty_iff, Option.isNone_iff_eq_none] at h
  obtain ⟨⟨⟨⟨⟨⟨⟨⟨-, hpath⟩, hheld⟩, hrun⟩, hclk⟩, hqueue⟩, hpoint⟩, hfence⟩, hkept⟩ := h
  have hw : ((s.m.arriving c q).known n c |>.queued (s.m.asked c q n)).mg.srv.queue = [s.m.asked c q n] := by
    simp [Block.queued, Block.known, hqueue]
  have hserve := Block.serveWaiting_one hw (by simpa [Block.queued, Block.known] using hrun) (Block.clockRuns_known _ n c _ hclk)
    (s.m.asked_tenant_lt c q n) (by rw [Block.agreed_known]; exact hfence)
  have hsubmit : s.m.submit c q = (s.m.arriving c q).accept c q := by
    unfold Block.submit
    simp [hpath, hheld]
  rw [hsubmit, Block.accept_running hrun hqueue hpoint]
  exact hserve.trans (Block.serve_eq_answered hkept)

theorem State.takes_iff {s : State} {c : Caller} {q : Request} {n : Nat} :
    s.takes c q n = true ↔ s.serves c q n = true ∧ (s.m.door c q n).passes (s.m.asked c q n) = true := by
  simp [State.takes, State.serves, Bool.and_eq_true]

theorem State.grants_iff {s : State} {c : Caller} {q : Request} {n : Nat} :
    s.grants c q n = true ↔ s.takes c q n = true ∧ (s.m.door c q n).unbarred (s.m.asked c q n) = true := by
  simp [State.grants]

/-- Where a command that submits a request leads when the request is taken up at once: to the answer. -/
theorem State.leads_serves {s : State} {c : Caller} {q : Request} {n : Nat} {i : Instr} {P : Block → Prop} (h : s.serves c q n = true)
    (hi : exec i s = s.act fun _ b => b.submit c q) (hp : P ((s.m.door c q n).answered (s.m.asked c q n))) : s.leads i P := by
  have hup : s.m.up = true := by
    simp only [State.serves, Bool.and_eq_true] at h
    exact h.1.1.1.1.1.1.1.1
  exact s.leads_act i _ P hi hup (by rwa [Block.submit_serves h])

-- What the server answers

theorem Block.answers_answered (a : Block) (w : Waiting) : (a.answered w).answers w.caller (a.answer w).1 := Block.answers_respond _ _ _

/-- A request whose answer is a status: the answer goes out, and beside the module that the answer names only books change. -/
theorem Block.answered_status {a b : Block} {w : Waiting} {status aux : Nat} (hw : w.tenant < 8)
    (h : a.answer w = (reply w.req (entryCode w.req) status aux, b)) : (a.answered w).replied w status aux ∧ b.sameButBooks (a.answered w) := by
  have hb := a.sameButBooks_answered w hw
  rw [h] at hb
  exact ⟨Block.replied_answered _ _ _ _ (by rw [h]), hb⟩

theorem Block.answer_malformed {a : Block} {w : Waiting} (h : malformed w.caller w.req = true) :
    a.answer w = (reply w.req (entryCode w.req) 9 0, a) := by
  unfold Block.answer entryCode
  simp only [h, if_true]

theorem Block.answer_noObject {a : Block} {w : Waiting} (h : malformed w.caller w.req = false) (hr : rowOf (key w.req.index w.req.sub) = none) :
    a.answer w = (reply w.req (entryCode w.req) 2 0, a) := by
  unfold Block.answer entryCode
  simp [h, hr]

/-- Module a after a refusal for a reason: tenant t's sticky bit [2] where tenant permission is missing (R411). -/
def Block.refused (a : Block) (t why : Nat) : Block :=
  if why = 2 then { a with mg := { a.mg with ev := tmod {} a.mg.ev t fun x => { x with sticky := x.sticky ||| 4 } } } else a

theorem Block.sameButBooks_refused (a : Block) (t why : Nat) : a.sameButBooks (a.refused t why) := by
  unfold Block.refused
  split
  · refine ⟨rfl, fun _ _ => rfl, fun _ _ => rfl, fun _ _ => rfl, fun _ => ⟨_, _, _, _, _, _, rfl⟩, fun _ => ⟨_, _, rfl⟩, fun _ h => h, fun u => ?_⟩
    by_cases hu : t = u
    · subst hu
      simp
    · simp [tat_tmod_ne _ _ _ hu]
  · exact a.sameButBooks_refl

theorem Block.answer_refused {a : Block} {w : Waiting} {e : Entry} {why : Nat} (h : malformed w.caller w.req = false)
    (hr : rowOf (key w.req.index w.req.sub) = some e) (hf : a.refusal w.tenant w.owner e w.req.op w.req.index w.req.sub = some why) :
    a.answer w = (reply w.req (entryCode w.req) 3 why, a.refused w.tenant why) := by
  unfold Block.answer entryCode Block.refused
  simp [h, hr, hf]

theorem Block.answer_typeWrong {a : Block} {w : Waiting} {e : Entry} (h : malformed w.caller w.req = false)
    (hr : rowOf (key w.req.index w.req.sub) = some e) (hf : a.refusal w.tenant w.owner e w.req.op w.req.index w.req.sub = none)
    (ht : typeWrong e w.req = true) : a.answer w = (reply w.req (entryCode w.req) 4 0, a) := by
  unfold Block.answer entryCode
  simp [h, hr, hf, ht]

/-- What passing the checks says of a request for an entry that exists. -/
theorem Block.passes_row {a : Block} {w : Waiting} {e : Entry} (h : a.passes w = true) (hr : rowOf (key w.req.index w.req.sub) = some e) :
    malformed w.caller w.req = false ∧ a.refusal w.tenant w.owner e w.req.op w.req.index w.req.sub = none ∧ typeWrong e w.req = false := by
  simpa [Block.passes, hr] using h

/-- The answer to a read that passes its checks: the entry's bytes and, of a counter, its reset generation (R36, R401). -/
theorem Block.answer_read {a : Block} {w : Waiting} {e : Entry} (h : a.passes w = true) (ho : w.req.op = 1)
    (hr : rowOf (key w.req.index w.req.sub) = some e) :
    let k := a.entryKey w.tenant e w.req.index w.req.sub
    let r := a.readEntry w.tenant e k w.latch
    a.answer w = (reply w.req (typeCode e.ty) 0 0 r.1 (if isCounter k then some (r.2.genOf k) else none), r.2) := by
  obtain ⟨hm, hf, ht⟩ := a.passes_row h hr
  rw [ho] at hf
  unfold Block.answer
  simp only [hm, hr, hf, ht, ho, Bool.false_eq_true, if_false, if_true]

-- Writes from STATE on

/-- What nothing barring a write says of one of an entry that exists: no switch-back, and no state that forbids it. -/
theorem Block.unbarred_row {a : Block} {w : Waiting} {e : Entry} (h : a.unbarred w = true) (hr : rowOf (key w.req.index w.req.sub) = some e) :
    a.pr.back.isSome = false ∧ a.writeBarred w.tenant (a.entryKey w.tenant e w.req.index w.req.sub) (accessOf e w.req.index w.req.sub)
      ((decodeVal e.ty (w.req.data.take w.req.length)).getD 0) = false := by
  simpa [Block.unbarred, hr, Option.isSome_eq_false_iff] using h

section

variable {a : Block} {w : Waiting} {e : Entry} (h : a.unbarred w = true) (hr : rowOf (key w.req.index w.req.sub) = some e)
  (ht : ∀ x, e.ty ≠ .octets x ∧ e.ty ≠ .string x)

include h hr ht

/-- A write of bytes that are no value of a numeric entry is out of range (R39, R399). -/
theorem Block.written_undecoded (hv : decodeVal e.ty (w.req.data.take w.req.length) = none) : a.written w = a.rangeError := by
  obtain ⟨hb, hs⟩ := a.unbarred_row h hr
  unfold Block.written Block.writeEntry
  simp only [hr, hb, hs, Bool.false_eq_true, if_false]
  split
  · exact absurd ‹_› (ht _).1
  · exact absurd ‹_› (ht _).2
  · rw [hv]

variable {v : Int} (hv : decodeVal e.ty (w.req.data.take w.req.length) = some v) (hc : accessOf e w.req.index w.req.sub ≠ .cmd)

include hv hc

/-- A write of a value to a numeric entry that is no command: taken where it lies in the entry's range, else refused (R399). -/
theorem Block.written_value : a.written w = if a.valueOk e (a.entryKey w.tenant e w.req.index w.req.sub) v
    then (a.putNum w.tenant (a.entryKey w.tenant e w.req.index w.req.sub) v).ok else a.rangeError := by
  obtain ⟨hb, hs⟩ := a.unbarred_row h hr
  unfold Block.written Block.writeEntry
  simp only [hr, hb, hs, Bool.false_eq_true, if_false]
  split
  · exact absurd ‹_› (ht _).1
  · exact absurd ‹_› (ht _).2
  · simp only [hv, if_neg hc]

theorem Block.written_outOfRange (hk : a.valueOk e (a.entryKey w.tenant e w.req.index w.req.sub) v = false) : a.written w = a.rangeError := by
  rw [Block.written_value h hr ht hv hc, hk]
  rfl

theorem Block.written_inRange (hk : a.valueOk e (a.entryKey w.tenant e w.req.index w.req.sub) v = true) :
    a.written w = (a.putNum w.tenant (a.entryKey w.tenant e w.req.index w.req.sub) v).ok := by
  rw [Block.written_value h hr ht hv hc, hk]
  rfl

end

/-- Settles O30: a request taken up is answered on the module as the server finds it, by the first of the checks of R527 that it fails, or by its entry. -/
theorem dictionaryRequests : Obligations.DictionaryRequests := by
  unfold Obligations.DictionaryRequests
  refine ⟨?checks, ?read, ?write⟩
  case checks =>
    intro s c q n h a w
    have hw : w.tenant < 8 := s.m.asked_tenant_lt c q n
    refine State.leads_serves h rfl ⟨fun hm => ?_, fun hm hr => ?_, fun e why hm hr hf => ?_, fun e hm hr hf ht => ?_⟩
    · exact Block.answered_status hw (a.answer_malformed hm)
    · exact Block.answered_status hw (a.answer_noObject hm hr)
    · obtain ⟨hreply, hbooks⟩ := Block.answered_status hw (a.answer_refused hm hr hf)
      exact ⟨hreply, Block.sameButBooks_trans (a.sameButBooks_refused w.tenant why) hbooks⟩
    · exact Block.answered_status hw (a.answer_typeWrong hm hr hf ht)
  case read =>
    intro s c q n e h ho hr k r
    obtain ⟨hserves, hpasses⟩ := State.takes_iff.mp h
    have hbooks := (s.m.door c q n).sameButBooks_answered (s.m.asked c q n) (s.m.asked_tenant_lt c q n)
    have hanswer := (s.m.door c q n).answers_answered (s.m.asked c q n)
    rw [Block.answer_read hpasses ho hr] at hbooks hanswer
    exact State.leads_serves hserves rfl ⟨hbooks, hanswer⟩
  case write =>
    intro s c q n e h hr _ ht a w k
    obtain ⟨htakes, hopen⟩ := State.grants_iff.mp h
    obtain ⟨b, hexec, hbooks, hreply⟩ := State.leads_write (i := .odWrite c q) htakes rfl rfl
    refine ⟨b, hexec, fun hv => ?_, fun v hv hrange hc => ?_, fun v hv hrange hc => ?_⟩
    · rw [Block.written_undecoded hopen hr ht hv] at hbooks hreply
      exact ⟨hreply, hbooks⟩
    · rw [Block.written_outOfRange hopen hr ht hv hc hrange] at hbooks hreply
      exact ⟨hreply, hbooks⟩
    · rw [Block.written_inRange hopen hr ht hv hc hrange] at hbooks hreply
      exact ⟨hreply, hbooks⟩

end Sys2Proof.Machine
end

section
/-! Which entries answering a request may change on its way out, for one port (R279, R401, R475). -/

namespace Sys2Proof.Machine

theorem Block.rd_bump_ne (b : Block) {j k : Nat} (n : Nat) (h : j ≠ k) : (b.bump j n).rd k = b.rd k := by
  unfold Block.bump
  dsimp only
  split
  · exact b.rd_wr_ne _ h
  · exact Block.rd_wr_ne _ _ h

theorem Block.rd_tally (b : Block) (cls inst ev n : Nat) {k : Nat} (h : ¬counterKey k) : (b.tally cls inst ev n).rd k = b.rd k :=
  (b.sameButEvents_tally cls inst ev n).2.1 k h

theorem Block.rd_need (b : Block) (c : FastClock) {k : Nat} (h : startsKey c ≠ k) : (b.need c).rd k = b.rd k := by
  unfold Block.need
  dsimp only
  split <;> simp [Block.rd_bump_ne _ _ h]

theorem Block.rd_foldl {β : Type} {k : Nat} (f : Block → β → Block) (l : List β) (h : ∀ (c : Block) (e : β), (f c e).rd k = c.rd k) (b : Block) :
    (l.foldl f b).rd k = b.rd k := by
  induction l generalizing b with
  | nil => rfl
  | cons e r ih => exact (ih (f b e)).trans (h b e)

/-- Filling token buckets changes no entry. -/
theorem Block.rd_fillShapers (b : Block) (p k : Nat) : (b.fillShapers p).rd k = b.rd k := by
  have hqueues := Block.rd_foldl (k := k) (fun (b : Block) q =>
    if b.rdN (Od.EQ_SHAPE_RATE p q) = 0 then b
    else b.setQueue (p * 16 + q) fun x =>
      { x with tokens := fillTokens x.tokens (b.rdN (Od.EQ_SHAPE_RATE p q)) (b.rdN (Od.EQ_SHAPE_BURST p q)) (b.cyc - x.tokensAt), tokensAt := b.cyc })
    (List.range 16) (fun c q => by split <;> rfl) b
  unfold Block.fillShapers
  dsimp only
  split
  · exact hqueues
  · rw [Block.setPf_rd]
    exact hqueues

/-- The entries that a frame of the module's own may change where it leaves port p: counters, what the port counts as sent, its injector's record, and
the fabric clock's count of starts where it wakes the port. -/
def sendKey (p k : Nat) : Prop :=
  counterKey k ∨ startsKey .fabric = k ∨ Od.P_TX_FRAMES p = k ∨ Od.P_TX_OCTETS p = k ∨ (∃ q, Od.EQ_TX_FRAMES p q = k) ∨
    Od.FIP_STATUS p = k ∨ Od.FIP_ACTIONS p = k ∨ Od.FIP_STICKY p = k ∨ Od.FI_ARMED = k

section

variable {p k : Nat} (h : ¬sendKey p k)

include h

theorem Block.rd_wakePort (b : Block) : (b.wakePort p).rd k = b.rd k := by
  simp only [sendKey, not_or] at h
  unfold Block.wakePort
  dsimp only
  split <;> simp [Block.rd_need _ _ h.2.1]

theorem Block.rd_fipEnd (b : Block) (why : Nat) : (b.fipEnd p why).rd k = b.rd k := by
  simp only [sendKey, not_or] at h
  obtain ⟨hcnt, -, -, -, -, hstatus, -, -, harmed⟩ := h
  unfold Block.fipEnd
  split
  · rfl
  · dsimp only
    rw [Block.rd_raise _ _ _ _ _ hcnt]
    show (((b.setFip p _).wr (Od.FIP_STATUS p) 0).clearBits Od.FI_ARMED (2 ^ p)).rd k = b.rd k
    rw [Block.clearBits, Block.rd_wr_ne _ _ harmed, Block.rd_wr_ne _ _ hstatus, Block.setFip_rd]

theorem Block.rd_fipAct (b : Block) : (b.fipAct p).rd k = b.rd k := by
  have hcount : (((b.bump (Od.FIP_ACTIONS p) 1).orBits (Od.FIP_STICKY p) 1).setFip p fun f => { f with acts := f.acts + 1 }).rd k = b.rd k := by
    simp only [sendKey, not_or] at h
    obtain ⟨-, -, -, -, -, -, hactions, hsticky, -⟩ := h
    rw [Block.setFip_rd, Block.rd_orBits_ne _ _ hsticky, Block.rd_bump_ne _ _ hactions]
  unfold Block.fipAct
  dsimp only
  split
  · rw [Block.rd_fipEnd h, hcount]
  · exact hcount

/-- An own frame in the injector of its port. -/
theorem Block.rd_fipPass (b : Block) {t : Tx} (ht : t.own.isSome = true) : (b.fipPass p t).2.rd k = b.rd k := by
  unfold Block.fipPass
  dsimp only
  split
  · rfl
  · split
    case h_5 => rfl
    all_goals split_ifs <;> simp [Block.releaseTx, ht, Block.rd_fipAct h]

/-- A frame counted as sent by its port, in the queue q. -/
theorem Block.rd_counted (b : Block) (q n : Nat) :
    ((((b.bump (Od.P_TX_FRAMES p) 1).bump (Od.P_TX_OCTETS p) n).bump (Od.EQ_TX_FRAMES p q) 1).bump Od.CNT_FIXED_TX_FRAMES 1).rd k = b.rd k := by
  simp only [sendKey, not_or, not_exists] at h
  obtain ⟨hcnt, -, hframes, hoctets, hqueue, -⟩ := h
  have hsent : Od.CNT_FIXED_TX_FRAMES ≠ k := by
    rintro rfl
    exact hcnt (by unfold counterKey Od.CNT_FIXED_TX_FRAMES key; omega)
  rw [Block.rd_bump_ne _ _ hsent, Block.rd_bump_ne _ _ (hqueue q), Block.rd_bump_ne _ _ hoctets, Block.rd_bump_ne _ _ hframes]

theorem Block.rd_ownOut (b : Block) (o : Own) (t : Tx) : (b.ownOut p o t).rd k = b.rd k := by
  have hcnt : ¬counterKey k := fun hk => h (.inl hk)
  unfold Block.ownOut
  split
  · rfl
  · dsimp only
    rw [Block.rd_tally _ 1 p 4 1 hcnt, Block.rd_tally _ 1 p 1 1 hcnt, Block.setPf_rd, Block.rd_counted h, Block.emit_rd]

theorem Block.rd_leave (b : Block) {t : Tx} {o : Own} (hp : p < 32) (ho : t.own = some o) : (b.leave p t).rd k = b.rd k := by
  have ht : t.own.isSome = true := by rw [ho]; rfl
  have hpass := b.rd_fipPass h ht
  have hown := (b.sameButBooks_fipPass t hp ht).2
  unfold Block.leave
  cases hx : b.fipPass p t with
  | mk x c =>
    rw [hx] at hpass hown
    cases x with
    | none => exact hpass
    | some u =>
      dsimp only [Block.sendTx]
      rw [hown u rfl, ho]
      exact (c.rd_ownOut h o u).trans hpass

theorem Block.rd_ownLeave (b : Block) (o : Own) (hp : p < 32) : (b.ownLeave p o).rd k = b.rd k := by
  have ho : (b.ownTx p o).own = some o := rfl
  unfold Block.ownLeave
  dsimp only
  generalize b.ownTx p o = t at ho
  exact Block.rd_leave h _ hp ho

theorem Block.rd_ownSend (b : Block) (o : Own) (hp : p < 32) : (b.ownSend p o).rd k = b.rd k := by
  unfold Block.ownSend
  dsimp only
  split
  · exact (Block.rd_ownLeave h _ o hp).trans (b.rd_fillShapers p k)
  · rw [Block.rd_wakePort h, Block.setPf_rd, Block.rd_fillShapers]

end

/-- The entries that sending an answer to a caller may change: those of the port that an answer in-band leaves by. -/
def respondKey : Caller → Nat → Prop
  | .inband p _ _, k => sendKey p k
  | _, _ => False

theorem Block.rd_respond (b : Block) {c : Caller} (r : Response) {k : Nat} (h : ¬respondKey c k) : (b.respond c r).rd k = b.rd k := by
  cases c with
  | inband p vid src =>
    unfold Block.respond
    dsimp only
    split
    · exact Block.rd_ownSend h b _ p.isLt
    · rfl
  | service vid src => rfl
  | can ctrl node => rfl
  | pcie fn => rfl

/-- The module once a request is answered reads as the answer left it, but for the request's counts and the entries that sending the answer may change. -/
theorem Block.rd_answered (a : Block) (w : Waiting) {k : Nat} (hcnt : ¬counterKey k) (hreq : Od.TNT_REQUESTS w.tenant ≠ k)
    (hout : ¬respondKey w.caller k) : (a.answered w).rd k = (a.answer w).2.rd k := by
  have hcount : Od.CNT_FIXED_OD_REQUESTS ≠ k := by
    rintro rfl
    exact hcnt (by unfold counterKey Od.CNT_FIXED_OD_REQUESTS key; omega)
  have hkeep (b : Block) (r : Response) : (b.keep w r).rd k = b.rd k := by
    unfold Block.keep
    split <;> rfl
  unfold Block.answered
  dsimp only
  rw [Block.rd_respond _ _ hout, hkeep, Block.rd_tally _ _ _ _ _ hcnt, Block.rd_bump_ne _ _ hcount, Block.rd_bump_ne _ _ hreq]

end Sys2Proof.Machine
end

section
/-! Sticky status bits (R12): the rows that hold them, the value a write carries, and what the write leaves. -/

namespace Sys2Proof.Machine

-- Values as bytes (R9, R398)

@[simp] theorem length_toLE (n v : Nat) : (toLE n v).length = n := by
  induction n generalizing v with
  | zero => rfl
  | succ n ih => simp [toLE, ih]

/-- Bytes read back spell the number's low bytes. -/
theorem ofLE_toLE (n v : Nat) : ofLE (toLE n v) = v % 256 ^ n := by
  induction n generalizing v with
  | zero => simp [toLE, ofLE, Nat.mod_one]
  | succ n ih => rw [toLE, ofLE, ih, BitVec.toNat_ofNat, pow_succ' 256 n, Nat.mod_mul]

/-- A value of an unsigned type of one or two bytes decodes from the bytes that encode it. -/
theorem decodeVal_encodeVal {ty : EType} {v : Nat} (ht : ty = .u8 ∨ ty = .u16) (hv : v < typeSize ty) :
    decodeVal ty (encodeVal ty v) = some (v : Int) := by
  rcases ht with rfl | rfl <;> simp only [typeSize] at hv <;> simp [decodeVal, encodeVal, typeLen, ofLE_toLE, unsigned] <;> omega

theorem length_encodeVal {ty : EType} (v : Int) (ht : ty = .u8 ∨ ty = .u16) : (encodeVal ty v).length = typeLen ty := by
  rcases ht with rfl | rfl <;> simp [encodeVal]

-- Bits cleared

theorem bit_eq_testBit (v i : Nat) : bit v i = v.testBit i := by
  rw [Nat.testBit_eq_decide_div_mod_eq]
  rfl

/-- Taking away the bits that v shares with x clears them alone: bit by bit, since no bit taken borrows from the next. -/
theorem testBit_sub_and (x v i : Nat) : (x - (x &&& v)).testBit i = (x.testBit i && !v.testBit i) := by
  have hle : x &&& v ≤ x := Nat.and_le_left
  have hlow : (x &&& v) % 2 = 1 ↔ x % 2 = 1 ∧ v % 2 = 1 := Nat.and_mod_two_eq_one
  induction i generalizing x v with
  | zero =>
    generalize x &&& v = y at hle hlow ⊢
    rw [Bool.eq_iff_iff]
    simp only [Nat.testBit_zero, Bool.and_eq_true, Bool.not_eq_true', decide_eq_true_eq, decide_eq_false_iff_not]
    omega
  | succ i ih =>
    have hhalf : (x - (x &&& v)) / 2 = x / 2 - (x / 2 &&& v / 2) := by
      rw [← Nat.and_div_two]
      generalize x &&& v = y at hle hlow ⊢
      omega
    rw [Nat.testBit_succ, Nat.testBit_succ, Nat.testBit_succ, hhalf]
    exact ih _ _ Nat.and_le_left Nat.and_mod_two_eq_one

theorem Block.rdN_clearBits (b : Block) (k v : Nat) : (b.clearBits k v).rdN k = b.rdN k - (b.rdN k &&& v) := by
  simp [Block.clearBits, Block.rdN_wr]

-- The rows of sticky entries

/-- Where the dictionary finds a record, it is one of its records and holds the index. -/
theorem findRecord_some {l : List Record} {i : Nat} {r : Record} (h : findRecord l i = some r) : r ∈ l ∧ r.1 ≤ i ∧ i < r.1 + r.2.1 := by
  induction l with
  | nil => cases h
  | cons x l ih =>
    unfold findRecord at h
    split at h
    · cases h
      exact ⟨List.mem_cons_self, ‹_›⟩
    · exact ⟨List.mem_cons_of_mem _ (ih h).1, (ih h).2⟩

/-- Every sticky entry of the tables is an unsigned RW entry with its whole type as its range. -/
theorem sticky_rows : ∀ r ∈ records, ∀ x ∈ stickySubs, x.1 = r.1 → ∀ sub ∈ x.2, ∀ e ∈ entryAt r.1 sub,
    (e.ty = .u8 ∨ e.ty = .u16) ∧ e.acc = .rw ∧ e.range = [] := by decide +kernel

/-- The sub-indices of sticky entries in the records whose entries have fields to check. -/
theorem sticky_subs_checked : ∀ r ∈ records, ∀ x ∈ stickySubs, x.1 = r.1 → ∀ sub ∈ x.2, ∀ n < r.2.1,
    r.1 + n ∉ [0x1100, 0x3260, 0x3300, 0x3310] ∧ ¬(0x7110 ≤ r.1 + n ∧ r.1 + n < 0x7150) ∧
      (0x2400 ≤ r.1 + n ∧ r.1 + n < 0x2404 → sub = 0x0E) ∧ (0x3100 ≤ r.1 + n ∧ r.1 + n < 0x3120 → sub = 0x25) ∧
      (0x5200 ≤ r.1 + n ∧ r.1 + n < 0x5240 → sub = 0x1E) := by decide +kernel

/-- No record of counters, of starts or of egress queues has a sticky entry. -/
theorem sticky_not_counted : ∀ r ∈ records, ∀ x ∈ stickySubs, x.1 = r.1 → ∀ n < r.2.1,
    r.1 + n ∉ [0x1303, 0x7101] ∧ ¬(0x3200 ≤ r.1 + n ∧ r.1 + n < 0x3220) ∧ ¬(0x7110 ≤ r.1 + n ∧ r.1 + n < 0x7150) := by decide +kernel

/-- The sub-indices of sticky entries in the other records that hold entries which answering a request changes. -/
theorem sticky_subs_booked : ∀ r ∈ records, ∀ x ∈ stickySubs, x.1 = r.1 → ∀ sub ∈ x.2, ∀ n < r.2.1,
    (0x1110 ≤ r.1 + n ∧ r.1 + n < 0x1118 → sub = 0x0A) ∧ (0x3100 ≤ r.1 + n ∧ r.1 + n < 0x3120 → sub = 0x25) ∧
      (r.1 + n = 0x7200 → sub = 6) ∧ (0x7210 ≤ r.1 + n ∧ r.1 + n < 0x7230 → sub = 0x10) := by decide +kernel

/-- A sticky key lies in a record, at one of its copies and a sub-index that its table marks sticky. -/
theorem isSticky_cases {k : Nat} (h : isSticky k = true) : ∃ r ∈ records, ∃ x ∈ stickySubs, ∃ n < r.2.1,
    x.1 = r.1 ∧ k % 256 ∈ x.2 ∧ k / 256 % 65536 = r.1 + n ∧ findRecord records (k / 256 % 65536) = some r := by
  unfold isSticky at h
  split at h
  · rename_i r hr
    obtain ⟨hmem, hlo, hhi⟩ := findRecord_some hr
    simp only [List.any_eq_true, Bool.and_eq_true, beq_iff_eq, List.contains_iff_mem] at h
    obtain ⟨x, hx, hbase, hsub⟩ := h
    exact ⟨r, hmem, x, hx, k / 256 % 65536 - r.1, by omega, hbase, hsub, by omega, hr⟩
  · cases h

/-- The row of a sticky entry. -/
theorem isSticky_row {k : Nat} {e : Entry} (h : isSticky k = true) (hr : rowOf k = some e) : (e.ty = .u8 ∨ e.ty = .u16) ∧ e.acc = .rw ∧ e.range = [] := by
  obtain ⟨r, hmem, x, hx, -, -, hbase, hsub, -, hfind⟩ := isSticky_cases h
  unfold rowOf at hr
  rw [hfind] at hr
  exact sticky_rows r hmem x hx hbase _ hsub e hr

/-- The Range/units of a sticky entry says nothing of its fields. -/
theorem Block.fieldsOk_sticky (b : Block) {k : Nat} (v : Int) (h : isSticky k = true) : b.fieldsOk k v = true := by
  obtain ⟨r, hmem, x, hx, n, hn, hbase, hsub, hi, -⟩ := isSticky_cases h
  have hplace := sticky_subs_checked r hmem x hx hbase _ hsub n hn
  rw [← hi] at hplace
  simp only [List.mem_cons, List.not_mem_nil, or_false, not_or] at hplace
  obtain ⟨⟨h1, h2, h3, h4⟩, h5, h6, h7, h8⟩ := hplace
  unfold Block.fieldsOk
  simp only [if_neg h1, if_neg h2, if_neg h3, if_neg h4, if_neg h5]
  split
  · rename_i h
    rw [h6 h]
    rfl
  · split
    · rename_i h
      rw [if_neg (by unfold Od.P_VLAN key; omega)]
    · split
      · rename_i h
        rw [h8 h]
        rfl
      · rfl

/-- An RW entry is nowhere a command. -/
theorem accessOf_ne_cmd {e : Entry} {index sub : Nat} (h : e.acc = .rw) : accessOf e index sub ≠ .cmd := by
  unfold accessOf
  split_ifs <;> simp [h]

/-- No sticky entry but the injector's own changes as a request of tenant t is answered to caller c. -/
theorem isSticky_unbooked {k : Nat} (h : isSticky k = true) {t : Nat} (ht : t < 8) {c : Caller} (hc : ∀ p vid src, c = .inband p vid src → k ≠ Od.FIP_STICKY p) :
    ¬counterKey k ∧ Od.TNT_REQUESTS t ≠ k ∧ ¬respondKey c k := by
  obtain ⟨r, hmem, x, hx, n, hn, hbase, hsub, hi, -⟩ := isSticky_cases h
  have hcount := sticky_not_counted r hmem x hx hbase n hn
  have hplace := sticky_subs_booked r hmem x hx hbase _ hsub n hn
  rw [← hi] at hplace hcount
  simp only [List.mem_cons, List.not_mem_nil, or_false, not_or] at hcount
  obtain ⟨⟨hstarts, hfixed⟩, hqueue, hprog⟩ := hcount
  obtain ⟨htenant, hport, harm, hinj⟩ := hplace
  have hcnt : ¬counterKey k := by
    unfold counterKey
    omega
  refine ⟨hcnt, ?_, ?_⟩
  · unfold Od.TNT_REQUESTS key
    omega
  · cases c with
    | inband p vid src =>
      have hp := p.isLt
      have hown := hc p vid src rfl
      unfold respondKey sendKey
      simp only [startsKey, Od.SLP_FABRIC_STARTS, Od.P_TX_FRAMES, Od.P_TX_OCTETS, Od.EQ_TX_FRAMES, Od.FIP_STATUS, Od.FIP_ACTIONS, Od.FIP_STICKY,
        Od.FI_ARMED, key, keyAt] at hown ⊢
      rintro (hk | hk | hk | hk | ⟨q, hk⟩ | hk | hk | hk | hk)
      · exact hcnt hk
      all_goals omega
    | service vid src => exact id
    | can ctrl node => exact id
    | pcie fn => exact id

/-- The key of an entry has the index and the sub-index that the request names. -/
theorem Block.entryKey_place (b : Block) (t : Nat) (e : Entry) {index sub : Nat} (hi : index < 65536) (hs : sub < 256) :
    b.entryKey t e index sub / 256 % 65536 = index ∧ b.entryKey t e index sub % 256 = sub := by
  unfold Block.entryKey key keyAt
  split <;> omega

/-- Whether a key is sticky depends on its index and sub-index. -/
theorem isSticky_congr {j k : Nat} (hi : j / 256 % 65536 = k / 256 % 65536) (hs : j % 256 = k % 256) : isSticky j = isSticky k := by
  unfold isSticky
  rw [hi, hs]

/-- A sticky entry of the dictionary takes a write by clearing the bits written 1 (R12); SAFE_STICKY keeps one while fault injection is on (R475). -/
theorem Block.putNum_sticky (b : Block) (t : Nat) {k : Nat} (v : Nat) (h : isSticky k = true)
    (hown : k / 256 % 65536 < 0x1110 ∨ 0x1118 ≤ k / 256 % 65536) (hfi : ¬(k = Od.SAFE_STICKY ∧ b.on Od.FI_ENABLE = true)) :
    b.putNum t k v = b.clearBits k v := by
  have hother : ¬(0x1110 ≤ k / 256 % 65536 ∧ k / 256 % 65536 < 0x1118) := by omega
  have hsafe : ¬(k = Od.SAFE_STICKY ∧ (b.clearBits k v).on Od.FI_ENABLE = true) := by
    rintro ⟨rfl, hon⟩
    rw [Block.clearBits, Block.on_wr, if_neg (by decide)] at hon
    exact hfi ⟨rfl, hon⟩
  unfold Block.putNum
  simp only [h, if_true]
  unfold Block.clearSticky
  simp only [if_neg hother, Int.toNat_natCast, if_neg hsafe]

/-- The row of an entry that stands under a sticky key. -/
theorem Block.entryKey_sticky_row {b : Block} {t : Nat} {e : Entry} {index sub : Nat} (hi : index < 65536) (hs : sub < 256)
    (hr : rowOf (key index sub) = some e) (h : isSticky (b.entryKey t e index sub) = true) : (e.ty = .u8 ∨ e.ty = .u16) ∧ e.acc = .rw ∧ e.range = [] := by
  obtain ⟨hki, hks⟩ := b.entryKey_place t e hi hs
  refine isSticky_row ?_ hr
  rw [← h]
  exact isSticky_congr (by rw [hki]; unfold key; omega) (by rw [hks]; unfold key; omega)

/-- A write of a sticky entry that nothing bars is in range, whatever its value, and clears the bits written 1. -/
theorem Block.written_sticky {a : Block} {w : Waiting} {e : Entry} {v : Nat} (h : a.unbarred w = true)
    (hr : rowOf (key w.req.index w.req.sub) = some e) (hi : w.req.index < 65536) (hs : w.req.sub < 256)
    (hsticky : isSticky (a.entryKey w.tenant e w.req.index w.req.sub) = true) (hv : decodeVal e.ty (w.req.data.take w.req.length) = some (v : Int))
    (hown : w.req.index < 0x1110 ∨ 0x1118 ≤ w.req.index)
    (hfi : ¬(a.entryKey w.tenant e w.req.index w.req.sub = Od.SAFE_STICKY ∧ a.on Od.FI_ENABLE = true)) :
    a.written w = (a.clearBits (a.entryKey w.tenant e w.req.index w.req.sub) v).ok := by
  obtain ⟨hty, hacc, hrange⟩ := Block.entryKey_sticky_row hi hs hr hsticky
  have hok : a.valueOk e (a.entryKey w.tenant e w.req.index w.req.sub) v = true := by
    unfold Block.valueOk
    rw [hrange, a.fieldsOk_sticky v hsticky]
    rfl
  rw [Block.written_inRange h hr (by rcases hty with h | h <;> simp [h]) hv (accessOf_ne_cmd hacc) hok]
  rw [a.putNum_sticky w.tenant v hsticky (by rwa [(a.entryKey_place w.tenant e hi hs).1]) hfi]

/-- The value that a write request of a number carries. -/
theorem decodeVal_writeRequest (token : Nat) {index sub v : Nat} {e : Entry} (hr : rowOf (key index sub) = some e) (ht : e.ty = .u8 ∨ e.ty = .u16)
    (hv : v < typeSize e.ty) :
    decodeVal e.ty ((writeRequest token index sub v).data.take (writeRequest token index sub v).length) = some (v : Int) := by
  unfold writeRequest
  simp only [hr]
  rw [← length_encodeVal v ht, List.take_length]
  exact decodeVal_encodeVal ht hv

/-- Settles O32: a granted write of a sticky entry is in range, clears the bits written 1, and the answer leaves the entry as the write did. -/
theorem stickyBits : Obligations.StickyBits := by
  unfold Obligations.StickyBits
  intro s c token index sub n v e h hr hi hs a k hsticky hv hown hfi hfip
  obtain ⟨htakes, hopen⟩ := State.grants_iff.mp h
  obtain ⟨hserves, hpasses⟩ := State.takes_iff.mp htakes
  have htenant := s.m.asked_tenant_lt c (writeRequest token index sub v) n
  have hty := (Block.entryKey_sticky_row hi hs hr hsticky).1
  have hwritten := Block.written_sticky hopen hr hi hs hsticky (decodeVal_writeRequest token hr hty (by exact_mod_cast hv)) hown hfi
  have hanswer := Block.answer_write _ _ rfl hpasses
  rw [hwritten] at hanswer
  obtain ⟨hcnt, hreq, hout⟩ := isSticky_unbooked hsticky htenant hfip
  refine State.leads_serves hserves rfl ⟨(Block.answered_status htenant hanswer).1, fun i => ?_⟩
  have hread := Block.rd_answered a _ hcnt hreq hout
  rw [hanswer] at hread
  have hclear := (congrArg Int.toNat hread).trans (a.rdN_clearBits k v)
  exact (congrArg (bit · i) hclear).trans (by simp only [bit_eq_testBit, testBit_sub_and])

end Sys2Proof.Machine
end

section
/-! Fast clocks and crossings: what each operation of Machine/Clocks.lean leaves behind (R19, R21, R26, R34, R496). -/

namespace Sys2Proof.Machine

-- Counts and bits

/-- A count raised within the width of its entry. -/
theorem Block.rd_bump_same {b : Block} {k n : Nat} (h : b.rdN k + n < keySize k) : (b.bump k n).rd k = b.rdN k + n := by
  unfold Block.bump
  simp [h]

theorem bit_or (x y i : Nat) : bit (x ||| y) i = (bit x i || bit y i) := by
  simp only [bit_eq_testBit, Nat.testBit_or]

theorem bit_two_pow (i : Nat) : bit (2 ^ i) i = true := by
  simp [bit_eq_testBit]

-- Fast clocks

@[simp] theorem Block.clock_setClock (b : Block) (c : FastClock) (f : ClockSt → ClockSt) : (b.setClock c f).clock c = f (b.clock c) := by
  simp [Block.clock]

theorem Block.clockRuns_iff {b : Block} {c : FastClock} : b.clockRuns c = true ↔ (b.clock c).phase = .running := by
  simp [Block.clockRuns, Block.clock]

theorem Block.bump_clock (b : Block) (k n : Nat) (c : FastClock) : (b.bump k n).clock c = b.clock c := by
  obtain ⟨_, _, h⟩ := b.bump_eq k n
  rw [h]
  rfl

/-- The starts of every clock are counted in entries of 64 bits. -/
theorem keySize_startsKey (c : FastClock) : keySize (startsKey c) = 2 ^ 64 := by
  cases c <;> decide +kernel

/-- A stopped clock that is needed is counted as started, and starts for its latency; an LPDDR5 not trained yet trains (R20, R21). -/
theorem Block.need_stopped {b : Block} {c : FastClock} (h : (b.clock c).phase = .stopped) (hn : b.rdN (startsKey c) + 1 < 2 ^ 64) :
    ((b.need c).clock c).phase = .starting (b.cyc + if c = .lpddr ∧ (b.clock c).trained = false then ms 18 else c.latency) ∧
      (b.need c).rd (startsKey c) = b.rdN (startsKey c) + 1 := by
  have hstart := (b.setClock c fun x => { x with idleSince := b.cyc }).bump_clock (startsKey c) 1 c
  have hcount : ((b.setClock c fun x => { x with idleSince := b.cyc }).bump (startsKey c) 1).rd (startsKey c) = b.rdN (startsKey c) + 1 :=
    Block.rd_bump_same (by rwa [keySize_startsKey, Block.setClock_rdN])
  unfold Block.need
  simp [h, hstart, hcount]

@[simp] theorem Block.clock_clockUp (b : Block) (c : FastClock) :
    (b.clockUp c).clock c = { b.clock c with phase := .running, idleSince := b.cyc, trained := true } := by
  simp [Block.clockUp, Block.orBits, Block.clock]

/-- A clock that has started runs, and SLP_CLOCKS shows it. -/
theorem Block.clockUp_runs (b : Block) (c : FastClock) : (b.clockUp c).clockRuns c = true ∧ bit ((b.clockUp c).rdN Od.SLP_CLOCKS) c.no = true := by
  refine ⟨by simp [Block.clockRuns_iff], ?_⟩
  rw [Block.clockUp, Block.rdN_orBits, bit_or, bit_two_pow, Bool.or_true]

/-- A clock that stops does not run, and SLP_CLOCKS shows it. -/
theorem Block.clockDown_stops (b : Block) (c : FastClock) : (b.clockDown c).clockRuns c = false ∧ bit ((b.clockDown c).rdN Od.SLP_CLOCKS) c.no = false := by
  constructor
  · simp [Block.clockDown, Block.clearBits, Block.clockRuns]
  · rw [Block.clockDown, Block.rdN_clearBits, bit_eq_testBit, testBit_sub_and]
    simp

-- What a started clock finds to do

theorem Block.pf_setPf (b : Block) (p q : Nat) (f : PortFab → PortFab) : (b.setPf p f).pf q = if p = q then f (b.pf q) else b.pf q := by
  simp only [Block.pf, Block.setPf_fab_port, tat_tmod]
  split
  · rename_i h
    rw [h]
  · rfl

/-- A port with no wake asked for, nothing in its ingress buffer and no own frame that waits (R23, R229, R279). -/
def PortFab.quiet (x : PortFab) : Prop := x.wakeAt = none ∧ x.ingress = [] ∧ x.own = []

/-- Module c is module b with its table of ports written anew, each port as it was. -/
def Block.samePorts (b c : Block) : Prop := (∃ port, c = { b with fab := { b.fab with port := port } }) ∧ ∀ p, c.pf p = b.pf p

theorem Block.samePorts_refl (b : Block) : b.samePorts b := ⟨⟨_, rfl⟩, fun _ => rfl⟩

theorem Block.samePorts_trans {a b c : Block} (h : a.samePorts b) (g : b.samePorts c) : a.samePorts c := by
  obtain ⟨⟨_, rfl⟩, hp⟩ := h
  obtain ⟨⟨_, rfl⟩, gp⟩ := g
  exact ⟨⟨_, rfl⟩, fun p => (gp p).trans (hp p)⟩

/-- A fabric clock that starts sets nothing free at a quiet port. -/
theorem Block.samePorts_portAwake {b : Block} {p : Nat} (h : (b.pf p).quiet) : b.samePorts (b.portAwake p) := by
  obtain ⟨hwake, hin, hown⟩ := h
  have hready : b.wakeReady p = false := by simp [Block.wakeReady, hwake]
  have hdrain : b.samePorts (b.drainIngress p) := by
    unfold Block.drainIngress
    split
    · refine ⟨⟨_, by rw [hin]; rfl⟩, fun q => ?_⟩
      rw [hin, List.foldl_nil]
      rw [Block.pf_setPf]
      split
      · rename_i hq
        rw [← hq, ← hin]
      · rfl
    · exact b.samePorts_refl
  have hnext : (b.drainIngress p).ownNext p = b.drainIngress p := by
    unfold Block.ownNext
    rw [hdrain.2 p, hown]
  unfold Block.portAwake
  rw [hready, if_neg Bool.false_ne_true, hnext]
  exact hdrain

theorem Block.samePorts_awake (l : List Nat) {b : Block} (h : ∀ p ∈ l, (b.pf p).quiet) :
    b.samePorts (l.foldl (fun (b : Block) (p : Nat) => b.portAwake p) b) := by
  induction l generalizing b with
  | nil => exact b.samePorts_refl
  | cons p l ih =>
    have hstep := Block.samePorts_portAwake (h p List.mem_cons_self)
    refine Block.samePorts_trans hstep (ih fun q hq => ?_)
    rw [hstep.2 q]
    exact h q (List.mem_cons_of_mem _ hq)

/-- With no record waiting the record writer changes nothing but the receiver's state. -/
theorem Block.gnssDrain_nil {b : Block} (h : b.gn.queue = []) : ∃ gn, b.gnssDrain = { b with gn := gn } := by
  unfold Block.gnssDrain
  split
  · exact ⟨b.gn, rfl⟩
  · rw [h]
    exact ⟨_, rfl⟩

/-- With no snapshot waiting none is written. -/
theorem Block.dumpDrain_nil {b : Block} (h : b.mg.safe.dumpQueue = []) : ∃ mg, b.dumpDrain = { b with mg := mg } := by
  unfold Block.dumpDrain
  split
  · exact ⟨b.mg, rfl⟩
  · simp only [h, List.length_nil, if_true]
    exact ⟨_, rfl⟩

/-- Whether nothing waits for a fast clock to start. -/
def Block.nothingWaits (b : Block) (c : FastClock) : Prop :=
  match c with
  | .fabric => ∀ p < 32, (b.pf p).quiet
  | .evorvo => True
  | .prixus => b.mg.srv.queue = []
  | .lpddr => b.gn.queue = [] ∧ b.mg.safe.dumpQueue = []

/-- A clock that has started where nothing waits for it: its clocks and entries are those of the start. -/
theorem Block.clockStarted_alone {b : Block} {c : FastClock} (hr : b.clockReady c = true) (hw : b.nothingWaits c) :
    (b.clockStarted c).clk = (b.clockUp c).clk ∧ (b.clockStarted c).od = (b.clockUp c).od := by
  unfold Block.clockStarted
  simp only [hr, Bool.not_true, Bool.false_eq_true, if_false]
  cases c with
  | fabric =>
    obtain ⟨⟨port, h⟩, -⟩ := Block.samePorts_awake (b := b.clockUp .fabric) (List.range 32) fun p hp => hw p (List.mem_range.mp hp)
    dsimp only
    rw [h]
    exact ⟨rfl, rfl⟩
  | evorvo => exact ⟨rfl, rfl⟩
  | prixus =>
    have hq : (b.clockUp .prixus).mg.srv.queue = [] := hw
    simp only [Block.serveWaiting, hq, List.length_nil, Block.serveAll, and_self]
  | lpddr =>
    obtain ⟨gn, hg⟩ := Block.gnssDrain_nil (b := b.clockUp .lpddr) hw.1
    obtain ⟨mg, hd⟩ := Block.dumpDrain_nil (b := { b.clockUp .lpddr with gn := gn }) hw.2
    dsimp only
    rw [hg, hd]
    exact ⟨rfl, rfl⟩

/-- A started clock with a request that its sleep had held: the request is served. -/
theorem Block.clockStarted_serves {b : Block} {w : Waiting} (hr : b.clockReady .prixus = true) (hrun : b.mg.srv.running = true)
    (hq : b.mg.srv.queue = [w]) (ht : w.tenant < 8) (ha : b.agreed (Boundary.server (Fin.ofNat 8 w.tenant)).no = true) :
    b.clockStarted .prixus = ((b.clockUp .prixus).setSrv fun x => { x with queue := [] }).serve w := by
  unfold Block.clockStarted
  simp only [hr, Bool.not_true, Bool.false_eq_true, if_false]
  exact Block.serveWaiting_one hq hrun (b.clockUp_runs .prixus).1 ht ha

-- Crossings

/-- Modules b and c agree of every crossing on whether it is settled and on what it has in use. -/
def Block.sameFences (b c : Block) : Prop := ∀ x, (c.crossing x).settled = (b.crossing x).settled ∧ (c.crossing x).used = (b.crossing x).used

theorem Block.sameFences_refl (b : Block) : b.sameFences b := fun _ => ⟨rfl, rfl⟩

theorem Block.sameFences_trans {a b c : Block} (h : a.sameFences b) (g : b.sameFences c) : a.sameFences c :=
  fun x => ⟨(g x).1.trans (h x).1, (g x).2.trans (h x).2⟩

theorem Block.sameFences_setToggle (b : Block) (x k : Nat) (f : Toggle → Toggle) : b.sameFences (b.setToggle x k f) := by
  intro y
  simp only [Block.setToggle, Block.crossing, Block.setCrossing_cross, tat_tmod]
  split
  · rename_i h
    rw [h]
    exact ⟨rfl, rfl⟩
  · exact ⟨rfl, rfl⟩

theorem Block.sameButEvents.fences {b c : Block} (h : b.sameButEvents c) : b.sameFences c := by
  obtain ⟨⟨_, _, _, rfl⟩, -⟩ := h
  exact b.sameFences_refl

theorem Block.sameFences_deliverToggle (b : Block) (x k : Nat) : b.sameFences (b.deliverToggle x k) := by
  unfold Block.deliverToggle
  extract_lets t arrived c
  have harrived : b.sameFences arrived := b.sameFences_setToggle x k _
  have hc : b.sameFences c := by
    simp only [c]
    split
    · split
      · refine Block.sameFences_trans harrived ?_
        split
        · exact (Block.sameButEvents_raiseTo _ _ _ _ _).fences
        · exact (Block.sameButEvents_raise _ _ _ _).fences
      · exact b.sameFences_refl
    · exact b.sameFences_refl
  split
  · split
    · exact Block.sameFences_trans hc (c.sameFences_setToggle x k _)
    · exact hc
  · exact hc

theorem Block.sameFences_foldl {β : Type} (f : Block → β → Block) (l : List β) (h : ∀ (c : Block) (e : β), c.sameFences (f c e)) (b : Block) :
    b.sameFences (l.foldl f b) := by
  induction l generalizing b with
  | nil => exact b.sameFences_refl
  | cons e l ih => exact Block.sameFences_trans (h b e) (ih (f b e))

theorem Block.sameFences_deliverCrossing (b : Block) (x : Nat) : b.sameFences (b.deliverCrossing x) :=
  Block.sameFences_foldl (fun (b : Block) (e : Nat × Toggle) => b.deliverToggle x e.1) _ (fun c e => c.sameFences_deliverToggle x e.1) b

/-- An event that waits alone at a crossing that carries is sent, once its toggle is free. -/
theorem Block.crosses_deliverCrossing {b : Block} {x busy : Nat} {e : Pulse} (hs : (b.crossing x).settled = true)
    (ht : (b.crossing x).toggles = [(e.source, ⟨busy, none, some e⟩)]) (hb : busy ≤ b.cyc) : (b.deliverCrossing x).crosses x e := by
  have htoggle : tat {} (b.crossing x).toggles e.source = ⟨busy, none, some e⟩ := by simp [ht, tat, tget]
  have hsend : b.deliverCrossing x = b.setToggle x e.source fun t => t.send b.cyc e := by
    unfold Block.deliverCrossing
    rw [ht]
    simp [Block.deliverToggle, htoggle, Block.agreed, hs, hb]
  rw [hsend]
  refine .inl ⟨b.cyc + 3, ?_⟩
  simp [Block.setToggle, Block.crossing, Toggle.send]

/-- The crossing as both sides agree: settled, and with every credit back where it was not (R26, R34). -/
theorem Block.fenceAgree_eq {b : Block} {x : Boundary} (h : b.sideHeld x = false) :
    ∃ a : Block, b.fenceAgree x = a.deliverCrossing x.no ∧ (a.crossing x.no).settled = true ∧
      ((b.crossing x.no).settled = false → (a.crossing x.no).used = 0) ∧ (a.crossing x.no).toggles = (b.crossing x.no).toggles ∧ a.cyc = b.cyc := by
  refine ⟨b.setCrossing x.no fun c =>
    { c with used := if c.settled then c.used else 0, usedWrites := if c.settled then c.usedWrites else 0, settled := true }, ?_, ?_, fun hn => ?_, ?_, rfl⟩
  · rw [Block.fenceAgree, if_neg (by simp [h])]
  · simp [Block.crossing]
  · simp only [Block.crossing] at hn
    simp [Block.crossing, hn]
  · simp [Block.crossing]

/-- The module as the two sides of a crossing have agreed. -/
theorem Block.fenceAgree_spec {b : Block} {x : Boundary} (h : b.sideHeld x = false) :
    (b.fenceAgree x).agreed x.no = true ∧ ((b.crossing x.no).settled = false → ((b.fenceAgree x).crossing x.no).used = 0) ∧
      ∀ (e : Pulse) (busy : Nat), (b.crossing x.no).toggles = [(e.source, ⟨busy, none, some e⟩)] → busy ≤ b.cyc →
        (b.fenceAgree x).crosses x.no e := by
  obtain ⟨a, ha, hset, hused, htoggles, hcyc⟩ := Block.fenceAgree_eq h
  obtain ⟨hset', hused'⟩ := a.sameFences_deliverCrossing x.no x.no
  rw [ha]
  refine ⟨hset'.trans hset, fun hn => hused'.trans (hused hn), fun e busy ht hb => ?_⟩
  exact Block.crosses_deliverCrossing hset (htoggles.trans ht) (hcyc ▸ hb)

/-- Settles O1: a start, a completed start, a sleep and a reopened crossing, each by what its operation leaves behind. That a start is counted as it begins, a stop
shown at once, and an LPDDR5 trained at its first start is the model's choice (log 15). -/
theorem clocksAndCrossings : Obligations.ClocksAndCrossings := by
  unfold Obligations.ClocksAndCrossings
  refine ⟨?request, ?complete, ?serves, ?sleep, ?keeps, ?fence⟩
  case request =>
    intro s c hup hphase hn
    have hstopped : s.m.clockRuns c = false := by
      rw [Bool.eq_false_iff, ne_eq, Block.clockRuns_iff, hphase]
      simp
    refine State.leads_act s _ (fun _ b => b.clockWanted c) _ rfl hup ?_
    unfold Block.clockWanted
    rw [if_neg (by simp [hstopped])]
    exact Block.need_stopped hphase hn
  case complete =>
    intro s c hup hready hfabric hprixus hlpddr
    have hwaits : s.m.nothingWaits c := by
      cases c with
      | fabric => exact hfabric rfl
      | evorvo => trivial
      | prixus => exact hprixus rfl
      | lpddr => exact hlpddr rfl
    obtain ⟨hclk, hod⟩ := Block.clockStarted_alone hready hwaits
    refine State.leads_act s _ (fun _ b => b.clockStarted c) _ rfl hup ?_
    unfold Block.clockRuns Block.rdN Block.rd
    rw [hclk, hod]
    exact s.m.clockUp_runs c
  case serves =>
    intro s w hup hready hrun hq ht ha
    exact State.leads_act s _ (fun _ b => b.clockStarted .prixus) _ rfl hup (Block.clockStarted_serves hready hrun hq ht ha)
  case sleep =>
    intro s c hup hruns hbusy hdelay hidle
    refine State.leads_act s _ (fun _ b => b.sleepExpiry c) _ rfl hup ?_
    unfold Block.sleepExpiry
    dsimp only
    rw [if_pos ⟨hruns, by simp [hbusy], hdelay, hidle⟩]
    exact s.m.clockDown_stops c
  case keeps =>
    intro s c hup hdelay
    refine State.leads_act s _ (fun _ b => b.sleepExpiry c) _ rfl hup ?_
    unfold Block.sleepExpiry
    simp [hdelay]
  case fence =>
    intro s x hup hheld
    obtain ⟨hagreed, hused, hsent⟩ := Block.fenceAgree_spec hheld
    refine State.leads_act s _ (fun _ b => b.fenceSettled x) _ rfl hup ⟨s.m.fenceAgree x, hagreed, hused, hsent, ?_⟩
    unfold Block.fenceSettled
    simp only [hagreed, Bool.not_true, Bool.false_eq_true, if_false]
    cases x <;> rfl

end Sys2Proof.Machine
end

section
/-! What taking a frame in may change before the frame is stored or dropped (R230, R235 to R238, R264, R268, R303). -/

namespace Sys2Proof.Machine

/-- The entries, by index and sub-index, that taking a frame in may change before it is stored: the counters group, the starts of the fabric clock, what the
port and its lanes' FEC count, a rule's hits, and what learning shows. -/
abbrev intakePlace (i sub : Nat) : Prop :=
  i = 0x7101 ∨ 0x7110 ≤ i ∧ i < 0x7150 ∨ i = 0x1303 ∧ sub = 6 ∨ 0x3800 ≤ i ∧ i < 0x3824 ∨ i = 0x3310 ∧ sub = 4 ∨
    i = 0x3000 ∧ (sub = 2 ∨ sub = 3 ∨ sub = 0x0D) ∨ 0x3100 ≤ i ∧ i < 0x3120 ∧ (sub = 0x1C ∨ sub = 0x1E)

/-- The same by key. -/
abbrev intakeKey (k : Nat) : Prop := intakePlace (k % 2 ^ 24 / 256) (k % 256)

theorem intakeKey_key {i sub : Nat} (hi : i < 65536) (hs : sub < 256) : intakeKey (key i sub) ↔ intakePlace i sub := by
  have hplace : key i sub % 2 ^ 24 / 256 = i ∧ key i sub % 256 = sub := by unfold key; omega
  rw [intakeKey, hplace.1, hplace.2]

theorem intakeKey_keyAt {n i sub : Nat} (hi : i < 65536) (hs : sub < 256) : intakeKey (keyAt n i sub) ↔ intakePlace i sub := by
  have hplace : keyAt n i sub % 2 ^ 24 / 256 = i ∧ keyAt n i sub % 256 = sub := by unfold keyAt; omega
  rw [intakeKey, hplace.1, hplace.2]

theorem intakeKey_of_counterKey {k : Nat} (h : counterKey k) : intakeKey k := by
  unfold intakeKey intakePlace
  unfold counterKey at h
  omega

/-- A port's entries other than its counts of good frames. -/
theorem not_intakeKey_port {p sub : Nat} (hp : p < 32) (hs : sub < 256 ∧ sub ≠ 0x1C ∧ sub ≠ 0x1E) : ¬intakeKey (key (0x3100 + p) sub) := by
  rw [intakeKey_key (by omega) hs.1]
  unfold intakePlace
  omega

theorem not_intakeKey_fnState {f : Nat} (hf : f < 168) : ¬intakeKey (Od.FN_STATE f) := by
  unfold Od.FN_STATE
  rw [intakeKey_key (by omega) (by omega)]
  unfold intakePlace
  omega

/-- Module b beside y, which taking a frame in leads to before the frame is stored or dropped. -/
structure Block.Intake (y b : Block) : Prop where
  shape : ∃ od free clk cross mg port mac,
    b = { y with od := od, free := free, clk := clk, cross := cross, mg := mg, fab := { y.fab with port := port, mac := mac } }
  entries : ∀ k, ¬intakeKey k → b.rd k = y.rd k
  ports : ∀ q, ∃ t u, b.pf q = { y.pf q with busyAt := t, wakeAt := u }
  fences : y.sameFences b
  clocks : ∀ c, b.clockRuns c = y.clockRuns c

theorem Block.intake_refl (b : Block) : b.Intake b :=
  ⟨⟨_, _, _, _, _, _, _, rfl⟩, fun _ _ => rfl, fun _ => ⟨_, _, rfl⟩, b.sameFences_refl, fun _ => rfl⟩

theorem Block.Intake.trans {a b c : Block} (h : a.Intake b) (g : b.Intake c) : a.Intake c where
  shape := by
    obtain ⟨_, _, _, _, _, _, _, hb⟩ := h.shape
    obtain ⟨_, _, _, _, _, _, _, hc⟩ := g.shape
    exact ⟨_, _, _, _, _, _, _, by rw [hc, hb]⟩
  entries k hk := (g.entries k hk).trans (h.entries k hk)
  ports q := by
    obtain ⟨_, _, hb⟩ := h.ports q
    obtain ⟨_, _, hc⟩ := g.ports q
    exact ⟨_, _, by rw [hc, hb]⟩
  fences := Block.sameFences_trans h.fences g.fences
  clocks c := (g.clocks c).trans (h.clocks c)

-- The operations that a frame's way in is made of

theorem Block.sameButEvents.intake {b c : Block} (h : b.sameButEvents c) : b.Intake c := by
  have hfences := h.fences
  obtain ⟨⟨od, free, ev, rfl⟩, hrd, -⟩ := h
  exact ⟨⟨_, _, _, _, _, _, _, rfl⟩, fun k hk => hrd k fun hc => hk (intakeKey_of_counterKey hc), fun _ => ⟨_, _, rfl⟩, hfences, fun _ => rfl⟩

theorem Block.intake_wr (b : Block) {k : Nat} (v : Int) (hk : intakeKey k) : b.Intake (b.wr k v) :=
  ⟨⟨_, _, _, _, _, _, _, rfl⟩, fun j hj => b.rd_wr_ne v (by rintro rfl; exact hj hk), fun _ => ⟨_, _, rfl⟩, fun _ => ⟨rfl, rfl⟩, fun _ => rfl⟩

theorem Block.intake_bump (b : Block) {k : Nat} (n : Nat) (hk : intakeKey k) : b.Intake (b.bump k n) := by
  unfold Block.bump
  dsimp only
  split
  · exact b.intake_wr _ hk
  · exact (b.sameButEvents_draw _).intake.trans (Block.intake_wr _ _ hk)

/-- A port seen busy, or its wake asked for. -/
theorem Block.intake_setPf (b : Block) (p : Nat) (f : PortFab → PortFab) (h : ∀ x, ∃ t u, f x = { x with busyAt := t, wakeAt := u }) :
    b.Intake (b.setPf p f) := by
  refine ⟨⟨_, _, _, _, _, _, _, rfl⟩, fun _ _ => rfl, fun q => ?_, fun _ => ⟨rfl, rfl⟩, fun _ => rfl⟩
  rw [Block.pf_setPf]
  split
  · exact h _
  · exact ⟨_, _, rfl⟩

theorem Block.clock_setClock_eq (b : Block) (c d : FastClock) (f : ClockSt → ClockSt) :
    (b.setClock c f).clock d = if c.no = d.no then f (b.clock d) else b.clock d := by
  simp only [Block.clock, Block.setClock_clk, tat_tmod]
  split
  · rename_i h
    rw [h]
  · rfl

/-- A clock needed runs as it ran. -/
theorem Block.clockRuns_need_eq (b : Block) (c d : FastClock) : (b.need c).clockRuns d = b.clockRuns d := by
  have hidle : ((b.setClock c fun x => { x with idleSince := b.cyc }).clock d).phase = (b.clock d).phase := by
    rw [Block.clock_setClock_eq]
    split <;> rfl
  have hsame : c.no = d.no → ((b.setClock c fun x => { x with idleSince := b.cyc }).clock c).phase = (b.clock d).phase := by
    intro h
    rw [← hidle]
    unfold Block.clock
    rw [h]
  show (((b.need c).clock d).phase == .running) = ((b.clock d).phase == .running)
  unfold Block.need
  dsimp only
  split
  case h_1 hphase =>
    rw [Block.clock_setClock_eq, Block.bump_clock]
    split
    · rw [← hsame ‹_›, hphase]
      rfl
    · rw [hidle]
  case h_2 hphase =>
    rw [Block.clock_setClock_eq]
    split
    · rw [← hsame ‹_›, hphase]
      rfl
    · rw [hidle]
  all_goals rw [hidle]
theorem Block.intake_need (b : Block) : b.Intake (b.need .fabric) := by
  have hclocks := b.clockRuns_need_eq .fabric
  have hentries : ∀ k, ¬intakeKey k → (b.need .fabric).rd k = b.rd k := fun k hk => Block.rd_need _ _ (by rintro rfl; exact hk (by decide +kernel))
  obtain ⟨clk, od, free, h⟩ := b.need_eq .fabric
  rw [h] at hclocks hentries ⊢
  exact ⟨⟨_, _, _, _, _, _, _, rfl⟩, hentries, fun _ => ⟨_, _, rfl⟩, fun _ => ⟨rfl, rfl⟩, hclocks⟩

theorem Block.intake_wakePort (b : Block) (p : Nat) : b.Intake (b.wakePort p) := by
  have hbusy := b.intake_setPf p (fun x => { x with busyAt := b.cyc }) fun _ => ⟨_, _, rfl⟩
  unfold Block.wakePort
  dsimp only
  split
  · exact (hbusy.trans (Block.intake_need _)).trans (Block.intake_setPf _ _ _ fun _ => ⟨_, _, rfl⟩)
  · exact hbusy

theorem Block.intake_setToggle (b : Block) (x k : Nat) (f : Toggle → Toggle) : b.Intake (b.setToggle x k f) :=
  ⟨⟨_, _, _, _, _, _, _, rfl⟩, fun _ _ => rfl, fun _ => ⟨_, _, rfl⟩, b.sameFences_setToggle x k f, fun _ => rfl⟩

theorem Block.intake_report (b : Block) (num x y : Nat) : b.Intake (b.report num x y) := by
  unfold Block.report
  split
  · exact b.intake_setToggle _ _ _
  · exact (b.sameButEvents_raise num x y).intake

theorem Block.intake_limit (b : Block) (num item : Nat) : b.Intake (b.limit num item).2 := by
  have hlim (lim : Table Nat) : b.Intake { b with mg := { b.mg with lim := lim } } :=
    ⟨⟨_, _, _, _, _, _, _, rfl⟩, fun _ _ => rfl, fun _ => ⟨_, _, rfl⟩, fun _ => ⟨rfl, rfl⟩, fun _ => rfl⟩
  unfold Block.limit
  dsimp only
  split
  · split
    · exact hlim _
    · exact b.intake_refl
  · exact hlim _

theorem Block.intake_raiseLim (b : Block) (num x y : Nat) : b.Intake (b.raiseLim num x y) := by
  unfold Block.raiseLim
  dsimp only
  split
  · exact (b.intake_limit num x).trans (Block.intake_report _ _ _ _)
  · exact b.intake_limit num x

theorem Block.intake_setMac (b : Block) (t : Table Mac) : b.Intake (b.setMac t) := by
  have hmac : b.Intake (b.setFab fun x => { x with mac := t }) :=
    ⟨⟨_, _, _, _, _, _, _, rfl⟩, fun _ _ => rfl, fun _ => ⟨_, _, rfl⟩, fun _ => ⟨rfl, rfl⟩, fun _ => rfl⟩
  exact hmac.trans (Block.intake_wr _ _ (by decide +kernel))

theorem Block.intake_foldl {β : Type} (f : Block → β → Block) (l : List β) (h : ∀ (c : Block), ∀ e ∈ l, c.Intake (f c e)) (b : Block) :
    b.Intake (l.foldl f b) := by
  induction l generalizing b with
  | nil => exact b.intake_refl
  | cons e l ih => exact (h b e List.mem_cons_self).trans (ih (fun c d hd => h c d (List.mem_cons_of_mem _ hd)) (f b e))

-- The steps of a frame's way in

theorem mem_lanesOf {mode p l : Nat} (h : l ∈ lanesOf mode p) : p ≤ l ∧ l ≤ p + 3 := by
  unfold lanesOf at h
  split at h <;> simp at h <;> omega

theorem intakeKey_lane {l sub : Nat} (hl : l < 36) (hs : sub < 256) : intakeKey (key (0x3800 + l) sub) := by
  rw [intakeKey_key (by omega) hs]
  unfold intakePlace
  omega

/-- What FEC saw of a frame is counted (R303). -/
theorem Block.intake_fecSeen (b : Block) {p : Nat} (f : FecSeen) (hp : p < 32) : b.Intake (b.fecSeen p f) := by
  unfold Block.fecSeen
  split
  · exact b.intake_refl
  · extract_lets words lanes
    have hwords : b.Intake words := (b.intake_bump _ (intakeKey_lane (by omega) (by omega))).trans
      (Block.intake_bump _ _ (intakeKey_lane (by omega) (by omega)))
    have hlanes : b.Intake lanes := by
      refine hwords.trans (Block.intake_foldl _ _ (fun c e he => ?_) words)
      have hl := mem_lanesOf (List.of_mem_zip he).1
      exact c.intake_bump _ (intakeKey_lane (by omega) (by omega))
    split
    · exact hlanes
    · exact (hlanes.trans (Block.intake_wr _ _ (intakeKey_lane (by omega) (by omega)))).trans (Block.intake_raiseLim _ _ _ _)

/-- A good frame is counted (R264). -/
theorem Block.intake_rxCounted (b : Block) {p : Nat} (n : Nat) (hp : p < 32) : b.Intake (b.rxCounted p n) := by
  have hport {sub : Nat} (hs : sub = 0x1C ∨ sub = 0x1E) : intakeKey (key (0x3100 + p) sub) := by
    rw [intakeKey_key (by omega) (by omega)]
    unfold intakePlace
    omega
  unfold Block.rxCounted
  refine Block.Intake.trans ?_ (Block.sameButEvents_tally _ 1 p 0 1).intake
  refine Block.Intake.trans ?_ (Block.intake_bump _ _ (by decide +kernel))
  exact (b.intake_bump _ (hport (.inl rfl))).trans (Block.intake_bump _ _ (hport (.inr rfl)))

/-- A hit of a rule is counted (R268). -/
theorem Block.intake_classify (b : Block) (p vid : Nat) (h : Header) : b.Intake (b.classify p vid h).2 := by
  unfold Block.classify
  dsimp only
  split
  · exact b.intake_refl
  · split
    · exact b.intake_bump _ ((intakeKey_keyAt (by omega) (by omega)).mpr (by decide +kernel))
    · exact b.intake_refl

/-- A hit of the MAC table is made young (R238). -/
theorem Block.intake_lookup (b : Block) (vid da : Nat) : b.Intake (b.lookup vid da).2 := by
  unfold Block.lookup
  dsimp only
  split
  · dsimp only
    split
    · exact b.intake_refl
    · exact b.intake_setMac _
  · exact b.intake_refl

/-- A source is learned, or counted as not learned (R237). -/
theorem Block.intake_learn (b : Block) (p vid sa : Nat) : b.Intake (b.learn p vid sa) := by
  unfold Block.learn
  dsimp only
  split
  · split
    · exact b.intake_refl
    · exact b.intake_setMac _
  · split
    · exact b.intake_setMac _
    · refine Block.Intake.trans ?_ (Block.intake_raiseLim _ _ _ _)
      exact (b.intake_bump _ (by decide +kernel)).trans (Block.intake_wr _ _ (by decide +kernel))

end Sys2Proof.Machine
end

section
/-! What the pipeline reads of the module is the same before a frame is taken in and after (R230 to R234, R268). -/

namespace Sys2Proof.Machine

/-- The entries of a queue that admission reads and changes are those of its record. -/
theorem queueKey_place {k j : Nat} (h : j ∈ [depthKey k, maxDepthKey k, limitKey k, wredKey k]) :
    ∃ n i sub, j = keyAt n i sub ∧ sub < 256 ∧ 0x3200 ≤ i ∧ i ≤ 0x3220 := by
  unfold depthKey maxDepthKey limitKey wredKey at h
  simp only [List.mem_cons, List.not_mem_nil, or_false] at h
  split_ifs at h
  · rcases h with rfl | rfl | rfl | rfl <;> exact ⟨k % 16, 0x3200 + k / 16, _, rfl, by decide, by omega, by omega⟩
  · rcases h with rfl | rfl | rfl | rfl <;> exact ⟨k - 512, 0x3220, _, rfl, by decide, by decide, by decide⟩

theorem not_intakeKey_queue {k j : Nat} (h : j ∈ [depthKey k, maxDepthKey k, limitKey k, wredKey k]) : ¬intakeKey j := by
  obtain ⟨n, i, sub, rfl, hs, hi⟩ := queueKey_place h
  rw [intakeKey_keyAt (by omega) hs]
  omega

namespace Block.Intake

variable {y b : Block} (h : y.Intake b)

include h

theorem rdN {k : Nat} (hk : ¬intakeKey k) : b.rdN k = y.rdN k := congrArg Int.toNat (h.entries k hk)

theorem on {k : Nat} (hk : ¬intakeKey k) : b.on k = y.on k := by
  unfold Block.on
  rw [h.entries k hk]

theorem queues : b.fab.queue = y.fab.queue := by
  obtain ⟨_, _, _, _, _, _, _, rfl⟩ := h.shape
  rfl

theorem chains : b.fab.chains = y.fab.chains := by
  obtain ⟨_, _, _, _, _, _, _, rfl⟩ := h.shape
  rfl

theorem blob (k : Nat) : b.blob k = y.blob k := by
  obtain ⟨_, _, _, _, _, _, _, rfl⟩ := h.shape
  rfl

-- The port (R221, R223, R229)

theorem ingress (p : Nat) : (b.pf p).ingress = (y.pf p).ingress := by
  obtain ⟨_, _, hp⟩ := h.ports p
  rw [hp]

theorem modeNow (p : Nat) : b.modeNow p = y.modeNow p := by
  obtain ⟨_, _, hp⟩ := h.ports p
  show (b.pf p).modeInForce = _
  rw [hp]
  rfl

theorem laneOwner (p : Nat) : b.laneOwner p = y.laneOwner p := by
  unfold Block.laneOwner
  rw [h.modeNow]

theorem fnRuns {f : Nat} (hf : f < 168) : b.fnRuns f = y.fnRuns f := by
  unfold Block.fnRuns Block.fnState
  rw [h.rdN (not_intakeKey_fnState hf)]

theorem gone {p : Nat} (hp : p < 32) : b.gone p = y.gone p := by
  obtain ⟨_, _, hq⟩ := h.ports p
  unfold Block.gone
  rw [h.on (k := Od.P_LINK p) (not_intakeKey_port hp (by decide)), hq]

theorem waitingBytes (p : Nat) : b.waitingBytes p = y.waitingBytes p := by
  unfold Block.waitingBytes
  rw [h.ingress]

theorem ingressSize (p : Nat) : b.ingressSize p = y.ingressSize p := by
  unfold Block.ingressSize
  rw [h.modeNow]

theorem pathRuns {p : Nat} (hp : p < 32) : b.pathRuns p = y.pathRuns p := by
  obtain ⟨hsettled, hused⟩ := h.fences (Boundary.ingress (Fin.ofNat 32 p)).no
  unfold Block.pathRuns Block.mayCross Block.agreed Block.creditsLeft Block.credits
  rw [h.clocks, h.on (k := Od.P_IDLE p) (not_intakeKey_port hp (by decide)), hsettled, hused]
  simp only [h.modeNow]

theorem mustHold {p : Nat} (hp : p < 32) : b.mustHold p = y.mustHold p := by
  unfold Block.mustHold
  rw [h.pathRuns hp, h.ingress]

-- The frame (R230, R231)

theorem rxFault {p : Nat} (hp : p < 32) (f : Bytes) (pcs : Bool) : b.rxFault p f pcs = y.rxFault p f pcs := by
  unfold Block.rxFault
  rw [h.rdN (k := Od.P_MAX_FRAME p) (not_intakeKey_port hp (by decide))]

theorem linkTiming {p sub : Nat} (hp : p < 32) (hs : sub < 256) : b.rdN (key (0x2200 + p) sub) = y.rdN (key (0x2200 + p) sub) := by
  refine h.rdN ?_
  rw [intakeKey_key (by omega) hs]
  omega

theorem ptpAt {p : Nat} (hp : p < 32) (f : Bytes) (hd : Header) : b.ptpAt p f hd = y.ptpAt p f hd := by
  unfold Block.ptpAt Od.LT_MODE Od.LT_PTP_TRANSPORT
  rw [h.linkTiming hp (by decide), h.linkTiming hp (by decide)]

theorem ptpOwn {p : Nat} (hp : p < 32) (n : Nat) : b.ptpOwn p n = y.ptpOwn p n := by
  have hdomain (d : Nat) (hd : d < 2) : b.rdN (Od.DOMX_KIND d) = y.rdN (Od.DOMX_KIND d) ∧
      b.rdN (Od.DOMX_PTP_DOMAIN d) = y.rdN (Od.DOMX_PTP_DOMAIN d) := by
    unfold Od.DOMX_KIND Od.DOMX_PTP_DOMAIN
    constructor <;> refine h.rdN ?_ <;> rw [intakeKey_key (by omega) (by omega)] <;> omega
  unfold Block.ptpOwn Block.ptpDomain Block.ptpDomains Od.LT_PTP_DOMAIN
  rw [h.linkTiming hp (by decide)]
  simp only [List.filter_cons, List.filter_nil, hdomain 0 (by decide), hdomain 1 (by decide)]
  split_ifs <;> simp only [List.map_cons, List.map_nil, hdomain 0 (by decide), hdomain 1 (by decide)]

theorem trap_isNone {p : Nat} (hp : p < 32) (f : Bytes) (hd : Header) : (b.trap p f hd).isNone = (y.trap p f hd).isNone := by
  have hptp : ((b.ptpAt p f hd).bind (b.trapPtp p f)).isNone = ((y.ptpAt p f hd).bind (y.trapPtp p f)).isNone := by
    rw [h.ptpAt hp]
    cases y.ptpAt p f hd with
    | none => rfl
    | some o =>
      simp only [Option.bind_some, Block.trapPtp, h.ptpOwn hp]
      split_ifs <;> rfl
  unfold Block.trap
  simp only [h.blob]
  cases hb : (b.ptpAt p f hd).bind (b.trapPtp p f) <;> cases hy : (y.ptpAt p f hd).bind (y.trapPtp p f) <;> rw [hb, hy] at hptp
  case none.none =>
    dsimp only
    split_ifs <;> rfl
  case some.some => rfl
  all_goals cases hptp

-- Forwarding (R232 to R234, R268 to R270)

theorem fwdState {p : Nat} (hp : p < 32) : b.fwdState p = y.fwdState p := by
  unfold Block.fwdState
  rw [h.rdN (k := Od.P_VLAN p) (not_intakeKey_port hp (by decide))]

theorem vlanMembers (vid : Nat) : b.rdN (Od.VLAN_MEMBERS vid) = y.rdN (Od.VLAN_MEMBERS vid) :=
  h.rdN ((intakeKey_keyAt (by decide) (by decide)).not.mpr (by decide))

theorem vlanIn {p : Nat} (hp : p < 32) (hd : Header) : b.vlanIn p hd = y.vlanIn p hd := by
  unfold Block.vlanIn
  rw [h.rdN (k := Od.P_VLAN p) (not_intakeKey_port hp (by decide))]
  simp only [h.vlanMembers]

theorem mayTake (p vid : Nat) {q : Nat} (hq : q < 32) : b.mayTake p vid q = y.mayTake p vid q := by
  unfold Block.mayTake
  rw [h.vlanMembers, h.fwdState hq]

theorem classify (p vid : Nat) (hd : Header) : (b.classify p vid hd).1 = (y.classify p vid hd).1 := by
  have haction (r : Nat) : b.rdN (Od.CLS_ACTION r) = y.rdN (Od.CLS_ACTION r) := h.rdN ((intakeKey_keyAt (by decide) (by decide)).not.mpr (by decide))
  unfold Block.classify
  simp only [h.fnRuns (f := 48) (by decide), haction, h.blob]
  split
  · rfl
  · split <;> rfl

theorem queueAt {o : Nat} (ho : o < 32) (hd : Header) (c : Classified) : b.queueAt o hd c = y.queueAt o hd c := by
  unfold Block.queueAt
  rw [h.rdN (k := Od.EQ_PRIO_MAP o) ((intakeKey_key (by omega) (by decide)).not.mpr (by omega))]

/-- The depth of queue k, its limit, its WRED profiles. -/
theorem queueEntries (k : Nat) : b.rdN (depthKey k) = y.rdN (depthKey k) ∧ b.rdN (limitKey k) = y.rdN (limitKey k) ∧
    b.rdN (wredKey k) = y.rdN (wredKey k) :=
  ⟨h.rdN (not_intakeKey_queue (k := k) (by simp)), h.rdN (not_intakeKey_queue (k := k) (by simp)), h.rdN (not_intakeKey_queue (k := k) (by simp))⟩

theorem roomFor (f : Bytes) : b.roomFor f = y.roomFor f := by
  unfold Block.roomFor
  rw [h.rdN (k := Od.SW_CELL_RESERVE) (by decide +kernel), h.rdN (k := Od.SW_CELLS_FREE) (by decide +kernel)]

end Block.Intake

end Sys2Proof.Machine
end

section
/-! A received frame that is dropped or held at its port (R23, R221, R229, R263, R264, R287). -/

namespace Sys2Proof.Machine

-- Drops (R263)

theorem Block.sameButEvents.fab {b c : Block} (h : b.sameButEvents c) : c.fab = b.fab := by
  obtain ⟨⟨_, _, _, rfl⟩, -⟩ := h
  rfl

/-- A drop of a port counts its cause; what else it changes are counters and events. -/
theorem Block.sameButEvents_dropOn {b : Block} {p : Nat} (k : Nat) (hl : b.laneOwner p = p) : (b.bump k 1).sameButEvents (b.dropOn p k) := by
  unfold Block.dropOn
  rw [if_pos hl]
  exact Block.sameButEvents_trans (Block.sameButEvents_bump _ _ _ (by unfold counterKey; decide)) (Block.sameButEvents_tally _ _ _ _ _)

theorem Block.rd_dropOn_same {b : Block} {p k : Nat} (hl : b.laneOwner p = p) (hk : ¬counterKey k) (hn : b.rdN k + 1 < keySize k) :
    (b.dropOn p k).rd k = b.rdN k + 1 :=
  ((Block.sameButEvents_dropOn k hl).2.1 k hk).trans (Block.rd_bump_same hn)

theorem Block.rd_dropOn_ne {b : Block} {p j k : Nat} (hl : b.laneOwner p = p) (hj : ¬counterKey j) (hne : k ≠ j) : (b.dropOn p k).rd j = b.rd j :=
  ((Block.sameButEvents_dropOn k hl).2.1 j hj).trans (b.rd_bump_ne 1 hne)

theorem Block.dropOn_fab {b : Block} {p : Nat} (k : Nat) (hl : b.laneOwner p = p) : (b.dropOn p k).fab = b.fab := by
  obtain ⟨_, _, hb⟩ := b.bump_eq k 1
  rw [(Block.sameButEvents_dropOn k hl).fab, hb]

/-- No entry of a port is one of the counters group. -/
theorem not_counterKey_port {p sub : Nat} (hp : p < 32) (hs : sub < 256) : ¬counterKey (key (0x3100 + p) sub) := by
  unfold counterKey key
  omega

/-- The sub-indices of a port's records that count a bad frame (R263, Table 9.7). -/
def badSubs : List Nat := [0x09, 0x0A, 0x0B, 0x0C, 0x19]

/-- A frame that stage 1 finds bad is counted in one of its port's entries for bad frames. -/
theorem Block.rxFault_place {b : Block} {p : Nat} {f : Bytes} {pcs : Bool} {cause : Nat}
    (h : (if f.length < 64 then some (Od.P_RX_RUNT p) else b.rxFault p f pcs) = some cause) : ∃ sub ∈ badSubs, cause = key (0x3100 + p) sub := by
  unfold Block.rxFault at h
  split_ifs at h <;> cases h <;> exact ⟨_, by decide, rfl⟩

-- At the PCS (R221, R229, R23)

/-- A frame on a port with its link up, in no test, is at the port's PCS once what FEC saw of it is counted. -/
theorem Block.frameRx_arrives {b : Block} {p : Nat} {f : Bytes} {pcs : Bool} {stamp : Stamp} {fec : FecSeen} {parity : Bool}
    (hheld : b.partHeld 1 = false) (hlink : b.on (Od.P_LINK p) = true) (htest : b.inTest p = false) (hpartner : b.partner p = false) :
    ∃ n, b.frameRx p f pcs stamp fec parity = (b.fecSeen p fec).arrive p { bytes := f, pcs := pcs, stamp := n, parity := parity } := by
  unfold Block.frameRx
  rw [if_neg (by simp [hheld, hlink, htest, hpartner])]
  exact ⟨_, rfl⟩

/-- On a port that does not run, a PTP or ESMC frame is discarded without count, any other counted in P_DROP_STOPPED (Table 9.2). -/
theorem Block.arrive_stopped {b : Block} {p : Nat} (w : RxWait) (hr : b.fnRuns p = false) :
    b.arrive p w = if ((b.ptpAt p w.bytes (header w.bytes)).isSome || isEsmc w.bytes (header w.bytes)) = true then b
      else b.dropOn p (Od.P_DROP_STOPPED p) := by
  unfold Block.arrive
  rw [if_pos (by simp [hr])]

theorem Block.arrive_held {b : Block} {p : Nat} (w : RxWait) (hr : b.fnRuns p = true) (hh : b.mustHold p = true) : b.arrive p w = b.holdRx p w := by
  unfold Block.arrive
  simp [hr, hh]

theorem Block.arrive_passes {b : Block} {p : Nat} (w : RxWait) (hr : b.fnRuns p = true) (hh : b.mustHold p = false) :
    b.arrive p w = (b.need .fabric).pipeline p w := by
  unfold Block.arrive
  simp [hr, hh]

theorem Block.mustHold_iff {b : Block} {p : Nat} : b.mustHold p = true ↔ b.pathRuns p = false ∨ (b.pf p).ingress ≠ [] := by
  simp [Block.mustHold]

/-- A frame held in its port's ingress buffer stands last there. -/
theorem Block.holdRx_room {b : Block} {p : Nat} {w : RxWait} (h : b.waitingBytes p + w.size ≤ b.ingressSize p) :
    ((b.holdRx p w).pf p).ingress = (b.pf p).ingress ++ [w] := by
  have hwake := (b.intake_wakePort p).trans (Block.intake_need _)
  unfold Block.holdRx
  dsimp only
  rw [hwake.ingressSize, hwake.waitingBytes, if_neg (by omega), Block.pf_setPf, if_pos rfl]
  exact congrArg (· ++ [w]) (hwake.ingress p)

/-- A frame for which the ingress buffer has no room is counted in P_DROP_OVERRUN, with bit [4] of P_STICKY. -/
theorem Block.holdRx_full {b : Block} {p : Nat} {w : RxWait} (hp : p < 32) (h : b.ingressSize p < b.waitingBytes p + w.size) (hl : b.laneOwner p = p)
    (hn : b.rdN (Od.P_DROP_OVERRUN p) + 1 < keySize (Od.P_DROP_OVERRUN p)) :
    (b.holdRx p w).rd (Od.P_DROP_OVERRUN p) = b.rdN (Od.P_DROP_OVERRUN p) + 1 ∧ bit ((b.holdRx p w).rdN (Od.P_STICKY p)) 4 = true ∧
      ((b.holdRx p w).pf p).ingress = (b.pf p).ingress := by
  have hwake := (b.intake_wakePort p).trans (Block.intake_need _)
  have hl' := (hwake.laneOwner p).trans hl
  have hcount := hwake.rdN (k := Od.P_DROP_OVERRUN p) (not_intakeKey_port hp (by decide))
  unfold Block.holdRx
  dsimp only
  rw [hwake.ingressSize, hwake.waitingBytes, if_pos h]
  refine ⟨?_, ?_, ?_⟩
  · rw [Block.rd_orBits_ne _ _ (by unfold Od.P_STICKY Od.P_DROP_OVERRUN key; omega)]
    rw [Block.rd_dropOn_same (k := Od.P_DROP_OVERRUN p) hl' (not_counterKey_port hp (by decide)) (by rwa [hcount]), hcount]
  · rw [Block.rdN_orBits, bit_or]
    exact Bool.or_eq_true_iff.mpr (.inr (bit_two_pow 4))
  · rw [← hwake.ingress p]
    exact congrArg (fun x : Fabric => (tat {} x.port p).ingress) (Block.dropOn_fab (Od.P_DROP_OVERRUN p) hl')

-- Stage 1 (R230, R263, R264, R287)

/-- Where no session asks for bad frames and its port does not cut through, nothing more becomes of a bad frame. -/
theorem Block.rxSpoilt_dropped {b : Block} {p : Nat} (w : RxWait) (rx : Bool) (hcut : b.on (Od.P_CUT_THROUGH p) = false)
    (hbad : ∀ i < 4, b.on (Od.MIR_BAD i) = false) : b.rxSpoilt p w rx = b := by
  have hown : b.sessions (b.asksBad p) = [] := by
    unfold Block.sessions
    refine List.filter_eq_nil_iff.mpr fun i hi => ?_
    simp [Block.asksBad, hbad i (List.mem_range.mp hi)]
  have hmay (o q : Nat) : b.mayCut p o q = false := by simp [Block.mayCut, hcut]
  unfold Block.rxSpoilt
  simp [hown, hmay]

/-- A bad frame in the pipeline: counted as its fault says. -/
theorem Block.pipeline_bad {b : Block} {p cause : Nat} {w : RxWait}
    (h : (if w.bytes.length < 64 then some (Od.P_RX_RUNT p) else b.rxFault p w.bytes w.pcs) = some cause) :
    b.pipeline p w = (b.setPf p fun x => { x with busyAt := b.cyc }).rxBad p w cause := by
  have hfault : (b.setPf p fun x => { x with busyAt := b.cyc }).rxFault p w.bytes w.pcs = b.rxFault p w.bytes w.pcs := rfl
  unfold Block.pipeline
  dsimp only
  rw [hfault]
  split at h
  · rw [if_pos ‹_›]
    cases h
    rfl
  · rw [if_neg ‹_›, h]

/-- A good frame in the pipeline: counted as received, and on to stage 3. -/
theorem Block.pipeline_good {b : Block} {p : Nat} {w : RxWait} (hlen : 64 ≤ w.bytes.length) (hfault : b.rxFault p w.bytes w.pcs = none)
    (hparity : w.parity = false) :
    b.pipeline p w = ((b.setPf p fun x => { x with busyAt := b.cyc }).rxCounted p w.bytes.length).rxGood p w := by
  have hsame : (b.setPf p fun x => { x with busyAt := b.cyc }).rxFault p w.bytes w.pcs = b.rxFault p w.bytes w.pcs := rfl
  unfold Block.pipeline
  dsimp only
  rw [if_neg (by omega), hsame, hfault, hparity]
  rfl

/-- A bad frame, where no session asks for it and its port does not cut through: counted in the entry of its fault, with bit [2] of P_STICKY, and gone. -/
theorem Block.rxBad_dropped {b : Block} {p cause : Nat} (w : RxWait) (hp : p < 32) (hplace : ∃ sub ∈ badSubs, cause = key (0x3100 + p) sub)
    (hl : b.laneOwner p = p) (hcut : b.on (Od.P_CUT_THROUGH p) = false) (hbad : ∀ i < 4, b.on (Od.MIR_BAD i) = false)
    (hn : b.rdN cause + 1 < keySize cause) :
    (b.rxBad p w cause).rd cause = b.rdN cause + 1 ∧ bit ((b.rxBad p w cause).rdN (Od.P_STICKY p)) 2 = true ∧ (b.rxBad p w cause).fab = b.fab := by
  obtain ⟨sub, hsub, rfl⟩ := hplace
  have hlt : sub < 256 ∧ sub ≠ 0x20 ∧ sub ≠ 0x25 := by
    simp only [badSubs, List.mem_cons, List.not_mem_nil, or_false] at hsub
    omega
  have hcounted := Block.rd_dropOn_same hl (not_counterKey_port hp hlt.1) hn
  have hrest (j : Nat) (hj : ¬counterKey j) (hcause : key (0x3100 + p) sub ≠ j) (hsticky : Od.P_STICKY p ≠ j) :
      ((b.dropOn p (key (0x3100 + p) sub)).orBits (Od.P_STICKY p) 4).on j = b.on j := by
    unfold Block.on
    rw [Block.rd_orBits_ne _ _ hsticky, Block.rd_dropOn_ne hl hj hcause]
  have hdropped : b.rxBad p w (key (0x3100 + p) sub) = (b.dropOn p (key (0x3100 + p) sub)).orBits (Od.P_STICKY p) 4 := by
    refine Block.rxSpoilt_dropped w true ?_ fun i hi => ?_
    · rw [hrest (Od.P_CUT_THROUGH p) (not_counterKey_port hp (by decide)) (by unfold Od.P_CUT_THROUGH key; omega)
        (by unfold Od.P_STICKY Od.P_CUT_THROUGH key; omega)]
      exact hcut
    · rw [hrest _ (by unfold counterKey Od.MIR_BAD key; omega) (by unfold Od.MIR_BAD key; omega) (by unfold Od.P_STICKY Od.MIR_BAD key; omega)]
      exact hbad i hi
  rw [hdropped]
  refine ⟨?_, ?_, Block.dropOn_fab _ hl⟩
  · rw [Block.rd_orBits_ne _ _ (by unfold Od.P_STICKY key; omega)]
    exact hcounted
  · rw [Block.rdN_orBits, bit_or]
    exact Bool.or_eq_true_iff.mpr (.inr (bit_two_pow 2))

/-- A good frame that no trap takes, and that the VLAN checks of its port drop (R232). -/
theorem Block.rxGood_vlan {b : Block} {p : Nat} {w : RxWait} (htrap : (b.trap p w.bytes (header w.bytes)).isNone = true)
    (hvlan : b.vlanIn p (header w.bytes) = none) : b.rxGood p w = b.dropOn p (Od.P_DROP_VLAN p) := by
  unfold Block.rxGood
  dsimp only
  rw [Option.isNone_iff_eq_none.mp htrap, hvlan]

end Sys2Proof.Machine
end

section
/-! A good frame stored and enqueued for one port (R251, R253, R255, R274). -/

namespace Sys2Proof.Machine

-- Packet memory (R251, R253)

theorem Block.report_fab (b : Block) (num x y : Nat) : (b.report num x y).fab = b.fab := by
  unfold Block.report
  split
  · rfl
  · exact (b.sameButEvents_raise num x y).fab

theorem Block.setFree_fab (b : Block) (n : Nat) : ∃ low, (b.setFree n).fab = { b.fab with atReserve := low } := by
  unfold Block.setFree
  extract_lets c low d
  refine ⟨low, ?_⟩
  have hd : d.fab = b.fab := by
    simp only [d]
    split
    · rw [Block.report_fab]
      rfl
    · rfl
  rw [Block.setFab_fab, hd]

/-- The entries that follow the count of free cells (R253). -/
def cellKey (k : Nat) : Prop := counterKey k ∨ Od.SW_CELLS_FREE = k ∨ Od.SW_CELLS_MIN = k ∨ Od.SW_STICKY = k

theorem not_cellKey_keyAt {n i sub : Nat} (hi : i < 0x7101) (hs : sub < 256) (hne : i ≠ 0x3000) : ¬cellKey (keyAt n i sub) := by
  unfold cellKey counterKey Od.SW_CELLS_FREE Od.SW_CELLS_MIN Od.SW_STICKY key keyAt
  omega

theorem not_cellKey_key {i sub : Nat} (hi : i < 0x7101) (hs : sub < 256) (hne : i ≠ 0x3000) : ¬cellKey (key i sub) := by
  unfold cellKey counterKey Od.SW_CELLS_FREE Od.SW_CELLS_MIN Od.SW_STICKY key
  omega

theorem Block.rd_report (b : Block) (num x y : Nat) {k : Nat} (h : ¬counterKey k) : (b.report num x y).rd k = b.rd k := by
  unfold Block.report
  split
  · rfl
  · exact b.rd_raise num x y k h

theorem Block.rd_setFree (b : Block) (n : Nat) {k : Nat} (h : ¬cellKey k) : (b.setFree n).rd k = b.rd k := by
  simp only [cellKey, not_or] at h
  obtain ⟨hcnt, hfree, hmin, hsticky⟩ := h
  unfold Block.setFree
  extract_lets c low d
  have hc : c.rd k = b.rd k := by
    simp only [c]
    rw [Block.rd_wr_ne _ _ hmin, Block.rd_wr_ne _ _ hfree]
  rw [Block.setFab_rd, ← hc]
  simp only [d]
  split
  · rw [Block.rd_report _ _ _ _ hcnt, Block.rd_orBits_ne _ _ hsticky]
  · rfl

/-- A fold that adds one element a step to the list it carries. -/
theorem length_foldl_fst {α β γ : Type} (g : List α × β → γ → List α × β) (hg : ∀ r i, (g r i).1.length = r.1.length + 1) (l : List γ)
    (r : List α × β) :
    (l.foldl g r).1.length = r.1.length + l.length := by
  induction l generalizing r with
  | nil => rfl
  | cons i l ih =>
    rw [List.foldl_cons, ih, hg, List.length_cons]
    omega

theorem Block.length_placeCells (b : Block) (k n : Nat) : (b.placeCells k n).1.length = n := by
  unfold Block.placeCells
  rw [length_foldl_fst _ (fun r i => by simp)]
  simp

/-- The module with a chain noted under the next free number, its cells in their banks. -/
def Block.withChain (b : Block) (x : Chain) (banks : Banks) : Block :=
  b.setFab fun y => { y with chains := tput y.chains y.nextChain x, nextChain := y.nextChain + 1, eccNext := 0, banks := banks }

/-- A frame stored: its chain noted, its cells no longer free, and what counting them changes. -/
theorem Block.store_spec (b : Block) (f : Bytes) (vid : Nat) (dei : Bool) (k : Nat) :
    ∃ l banks, l.length = cellsOf f ∧ (b.store f vid dei k).1 = b.fab.nextChain ∧
      ((b.withChain ⟨f, vid, dei, l, 0, b.fab.eccNext, [], false⟩ banks).setFree (b.rdN Od.SW_CELLS_FREE - cellsOf f)).sameButEvents
        (b.store f vid dei k).2 := by
  have hlen := b.length_placeCells k (cellsOf f)
  unfold Block.store
  dsimp only
  cases hcells : b.placeCells k (cellsOf f) with
  | mk l banks =>
    rw [hcells] at hlen
    refine ⟨l, banks, hlen, rfl, ?_⟩
    dsimp only
    refine Block.sameButEvents_trans (Block.sameButEvents_bump _ Od.CNT_FIXED_CELL_WRITES (cellsOf f) (by unfold counterKey; decide)) ?_
    split
    · exact Block.sameButEvents_refl _
    · exact Block.sameButEvents_foldl (fun (b : Block) i => b.tally 4 i 0) _ (fun c i => c.sameButEvents_tally 4 i 0 1) _

/-- A stored frame's chain stands under its number, with its cells and no copy yet; the queues stay. -/
theorem Block.store_fab (b : Block) (f : Bytes) (vid : Nat) (dei : Bool) (k : Nat) :
    (∃ l, l.length = cellsOf f ∧
      (b.store f vid dei k).2.chain (b.store f vid dei k).1 = some ⟨f, vid, dei, l, 0, b.fab.eccNext, [], false⟩) ∧
      (b.store f vid dei k).2.fab.queue = b.fab.queue := by
  obtain ⟨l, banks, hlen, hid, hrest⟩ := b.store_spec f vid dei k
  obtain ⟨low, hfree⟩ := (b.withChain ⟨f, vid, dei, l, 0, b.fab.eccNext, [], false⟩ banks).setFree_fab (b.rdN Od.SW_CELLS_FREE - cellsOf f)
  refine ⟨⟨l, hlen, ?_⟩, ?_⟩
  · rw [Block.chain, hid, hrest.fab, hfree]
    exact tget_tput_same _ _ _
  · rw [hrest.fab, hfree]
    rfl

theorem Block.rd_store (b : Block) (f : Bytes) (vid : Nat) (dei : Bool) (q : Nat) {k : Nat} (h : ¬cellKey k) :
    (b.store f vid dei q).2.rd k = b.rd k := by
  obtain ⟨l, banks, -, -, hrest⟩ := b.store_spec f vid dei q
  rw [hrest.2.1 k fun hc => h (.inl hc), Block.rd_setFree _ _ h, Block.withChain, Block.setFab_rd]

section

variable (b : Block) (f : Bytes) (vid : Nat) (dei : Bool) (q : Nat)

theorem Block.rdN_store {k : Nat} (h : ¬cellKey k) : (b.store f vid dei q).2.rdN k = b.rdN k := congrArg Int.toNat (b.rd_store f vid dei q h)

theorem Block.fnRuns_store {n : Nat} (hn : n < 168) : (b.store f vid dei q).2.fnRuns n = b.fnRuns n := by
  unfold Block.fnRuns Block.fnState
  rw [b.rdN_store f vid dei q (k := Od.FN_STATE n) (not_cellKey_key (by omega) (by decide) (by omega))]

theorem Block.queueAt_store {o : Nat} (ho : o < 32) (h : Header) (c : Classified) : (b.store f vid dei q).2.queueAt o h c = b.queueAt o h c := by
  unfold Block.queueAt
  rw [b.rdN_store f vid dei q (k := Od.EQ_PRIO_MAP o) (not_cellKey_key (by omega) (by decide) (by omega))]

theorem Block.cutThrough_store {p : Nat} (hp : p < 32) : (b.store f vid dei q).2.on (Od.P_CUT_THROUGH p) = b.on (Od.P_CUT_THROUGH p) := by
  unfold Block.on
  rw [b.rd_store f vid dei q (k := Od.P_CUT_THROUGH p) (not_cellKey_key (by omega) (by decide) (by omega))]

end

-- Admission to a queue (R274)

theorem Block.chain_setChain (b : Block) (c : Nat) (f : Chain → Chain) : (b.setChain c f).chain c = (b.chain c).map f := by
  have hmap (t : Table Chain) : tget (t.map fun e => if e.1 = c then (c, f e.2) else e) c = (tget t c).map f := by
    induction t with
    | nil => rfl
    | cons e t ih =>
      obtain ⟨i, x⟩ := e
      by_cases hi : i = c <;> simp [tget, hi, ih]
  exact hmap _

theorem not_cellKey_queue {k j : Nat} (h : j ∈ [depthKey k, maxDepthKey k, limitKey k, wredKey k]) : ¬cellKey j := by
  obtain ⟨n, i, sub, rfl, hs, hi⟩ := queueKey_place h
  exact not_cellKey_keyAt (by omega) hs (by omega)

/-- Storing a frame changes neither the depth of a queue nor its limit nor its WRED profiles. -/
theorem Block.queueEntries_store (b : Block) (f : Bytes) (vid : Nat) (dei : Bool) (q k : Nat) :
    (b.store f vid dei q).2.rdN (depthKey k) = b.rdN (depthKey k) ∧ (b.store f vid dei q).2.rdN (limitKey k) = b.rdN (limitKey k) ∧
      (b.store f vid dei q).2.rdN (wredKey k) = b.rdN (wredKey k) :=
  ⟨b.rdN_store f vid dei q (not_cellKey_queue (k := k) (by simp)), b.rdN_store f vid dei q (not_cellKey_queue (k := k) (by simp)),
    b.rdN_store f vid dei q (not_cellKey_queue (k := k) (by simp))⟩

theorem maxDepthKey_ne_depthKey (k : Nat) : maxDepthKey k ≠ depthKey k := by
  unfold depthKey maxDepthKey Od.EQ_DEPTH Od.EQ_MAX_DEPTH Od.CQ_DEPTH Od.CQ_MAX_DEPTH keyAt
  split <;> omega

/-- The module with a copy at the end of queue k, before the copy is counted. -/
def Block.joined (b : Block) (k : Nat) (d : Desc) : Block :=
  (((b.wr (depthKey k) (b.rdN (depthKey k) + b.chainCells d.chain : Nat)).wr (maxDepthKey k)
    (max (b.rdN (maxDepthKey k)) (b.rdN (depthKey k) + b.chainCells d.chain) : Nat)).setChain d.chain fun x => { x with refs := x.refs + 1 }).setQueue k
      fun q => { q with frames := q.frames ++ [{ d with enq := b.cyc }], seq := q.seq + 1 }

theorem Block.sameButEvents_takeIn (b : Block) (k : Nat) (d : Desc) : (b.joined k d).sameButEvents (b.takeIn k d) := by
  unfold Block.takeIn
  dsimp only
  split
  · exact Block.sameButEvents_tally _ _ _ _ _
  · exact Block.sameButEvents_tally _ _ _ _ _

/-- A copy put at the end of queue k: the queue with it, its chain with one copy more, the queue's depth with its cells. -/
theorem Block.takeIn_spec {b : Block} {k : Nat} (d : Desc) {x : Chain} (hx : b.chain d.chain = some x) :
    ((b.takeIn k d).queue k).frames = (b.queue k).frames ++ [{ d with enq := b.cyc }] ∧
      (b.takeIn k d).chain d.chain = some { x with refs := x.refs + 1 } ∧
      (b.takeIn k d).rd (depthKey k) = b.rdN (depthKey k) + x.banks.length := by
  have hcnt : ¬counterKey (depthKey k) := fun hc => not_cellKey_queue (k := k) (by simp) (.inl hc)
  have hevents := b.sameButEvents_takeIn k d
  refine ⟨?_, ?_, ?_⟩
  · rw [Block.queue, hevents.fab, Block.joined, Block.setQueue_fab_queue, tat_tmod_same]
    rfl
  · have hjoined : (b.joined k d).chain d.chain = (b.chain d.chain).map fun x => { x with refs := x.refs + 1 } :=
      b.chain_setChain d.chain fun x => { x with refs := x.refs + 1 }
    rw [Block.chain, hevents.fab]
    rw [hx] at hjoined
    exact hjoined
  · rw [hevents.2.1 _ hcnt, Block.joined, Block.setQueue_rd, Block.setChain, Block.setFab_rd, Block.rd_wr_ne _ _ (maxDepthKey_ne_depthKey k),
      Block.rd_wr_same, Block.chainCells, hx]
    push_cast
    rfl

/-- A copy put in a queue changes the state of no function. -/
theorem Block.fnRuns_takeIn (b : Block) (k : Nat) (d : Desc) {f : Nat} (hf : f < 168) : (b.takeIn k d).fnRuns f = b.fnRuns f := by
  have hne {j : Nat} (h : j ∈ [depthKey k, maxDepthKey k, limitKey k, wredKey k]) : j ≠ Od.FN_STATE f := by
    obtain ⟨n, i, sub, rfl, hs, hi⟩ := queueKey_place h
    unfold Od.FN_STATE key keyAt
    omega
  have hrd : (b.takeIn k d).rd (Od.FN_STATE f) = b.rd (Od.FN_STATE f) := by
    rw [(b.sameButEvents_takeIn k d).2.1 _ (by unfold counterKey Od.FN_STATE key; omega), Block.joined, Block.setQueue_rd, Block.setChain, Block.setFab_rd,
      Block.rd_wr_ne _ _ (hne (by simp)), Block.rd_wr_ne _ _ (hne (by simp))]
  unfold Block.fnRuns Block.fnState Block.rdN
  rw [hrd]

/-- A queue with room, whose profile for the copy's colour takes no WRED, takes the copy in (R274, R275). -/
theorem Block.enqueue_takesIn {b : Block} {k : Nat} {d : Desc} (hroom : b.rdN (depthKey k) + b.chainCells d.chain ≤ b.rdN (limitKey k))
    (hwred : bits (b.rdN (wredKey k)) (4 * d.colour) 4 = 0) : b.enqueue k d = (true, b.takeIn k d) := by
  have hnone : b.wredDrops k d.colour = (none, b) := by simp [Block.wredDrops, hwred]
  unfold Block.enqueue Block.judgeCopy
  rw [if_neg (by omega), hnone]

/-- A copy to port o that does not cut through, where its queue has room for it: enqueued, and its port woken. -/
theorem Block.copyTo_takesIn {b : Block} {p o q k : Nat} {d : Desc} {x : Chain} (hk : o * 16 + q = k) (hx : b.chain d.chain = some x)
    (hcut : b.on (Od.P_CUT_THROUGH p) = false) (hroom : b.rdN (depthKey k) + x.banks.length ≤ b.rdN (limitKey k))
    (hwred : bits (b.rdN (wredKey k)) (4 * d.colour) 4 = 0) :
    ∃ r, b.copyTo p o q d = (true, r) ∧ (r.queue k).frames = (b.queue k).frames ++ [{ d with enq := b.cyc }] ∧
      r.chain d.chain = some { x with refs := x.refs + 1 } ∧ r.rd (depthKey k) = b.rdN (depthKey k) + x.banks.length ∧
      ∀ f < 168, r.fnRuns f = b.fnRuns f := by
  have hmay : b.mayCut p o q = false := by simp [Block.mayCut, hcut]
  have hcells : b.chainCells d.chain = x.banks.length := by rw [Block.chainCells, hx]
  have hwake := (b.takeIn k d).intake_wakePort o
  obtain ⟨hframes, hchain, hdepth⟩ := Block.takeIn_spec (k := k) d hx
  refine ⟨(b.takeIn k d).wakePort o, ?_, ?_, ?_, ?_, fun f hf => ?_⟩
  · unfold Block.copyTo
    rw [hmay, hk, Block.enqueue_takesIn (by omega) hwred]
    rfl
  · rw [← hframes, Block.queue, Block.queue, hwake.queues]
  · rw [← hchain, Block.chain, Block.chain, hwake.chains]
  · rw [← hdepth]
    exact hwake.entries _ (not_intakeKey_queue (k := k) (by simp))
  · rw [hwake.fnRuns hf, Block.fnRuns_takeIn _ _ _ hf]

theorem Block.sessions_none {b : Block} (hit : Nat → Bool) (h : ∀ i < 4, b.fnRuns (49 + i) = false) : b.sessions hit = [] := by
  unfold Block.sessions
  refine List.filter_eq_nil_iff.mpr fun i hi => ?_
  simp [h i (List.mem_range.mp hi)]

/-- A chain with a copy left keeps its cells. -/
theorem Block.freeChain_held {b : Block} {c : Nat} {x : Chain} (hx : b.chain c = some x) (hr : x.refs ≠ 0) : b.freeChain c = b := by
  unfold Block.freeChain
  rw [hx]
  exact if_neg hr

-- A frame for one port (R230 stages 9 and 10)

/-- A frame for port o alone that nothing polices, mirrors or drops leaves the module as the one copy of it does. -/
theorem Block.deliver_copied {a b b' : Block} {p vid stamp o id : Nat} {f : Bytes} {h : Header} {c : Classified} {counted : Bool}
    (hpol : c.policer = none) (hroom : b.roomFor f = true) (hstore : b.store f vid h.dei (b.firstQueue h c [o] none []) = (id, a))
    (hcopy : a.copyTo p o (a.queueAt o h c) ⟨id, a.cyc, c.colour, p, stamp, none⟩ = (true, b')) (hmir : ∀ i < 4, b'.fnRuns (49 + i) = false) :
    b.deliver p vid stamp f h c ⟨[o], none, counted⟩ [] = b'.freeChain id := by
  unfold Block.deliver
  simp only [hpol, if_true, List.isEmpty_cons, Bool.false_eq_true, false_and, if_false, hroom, Bool.not_true, hstore, List.foldl_nil, List.foldl_cons, hcopy,
    Block.sessions_none _ hmir]
  rfl

/-- What a frame for port o alone leads to where nothing polices, mirrors or drops it: the frame stored once, and enqueued there (R251, R274). -/
theorem Block.deliver_one {b : Block} {p vid o : Nat} (stamp : Nat) {f : Bytes} {h : Header} {c : Classified} (counted : Bool) (hp : p < 32) (ho : o < 32)
    (hpol : c.policer = none) (hroom : b.roomFor f = true) (hcut : b.on (Od.P_CUT_THROUGH p) = false) (hmir : ∀ i < 4, b.fnRuns (49 + i) = false)
    {k : Nat} (hk : o * 16 + b.queueAt o h c = k) (hlimit : b.rdN (depthKey k) + cellsOf f ≤ b.rdN (limitKey k))
    (hwred : bits (b.rdN (wredKey k)) (4 * c.colour) 4 = 0) :
    ∃ (r : Block) (d : Desc) (x : Chain), b.deliver p vid stamp f h c ⟨[o], none, counted⟩ [] = r ∧
      (r.queue k).frames = (b.queue k).frames ++ [d] ∧ d.inPort = p ∧ d.colour = c.colour ∧ d.content = none ∧
      r.chain d.chain = some x ∧ x.bytes = f ∧ x.vid = vid ∧ x.refs = 1 ∧ r.rd (depthKey k) = b.rdN (depthKey k) + cellsOf f := by
  obtain ⟨⟨l, hcells, hchain⟩, hqueues⟩ := b.store_fab f vid h.dei (b.firstQueue h c [o] none [])
  obtain ⟨hdepth, hlim, hprof⟩ := b.queueEntries_store f vid h.dei (b.firstQueue h c [o] none []) k
  have hqueue := b.queueAt_store f vid h.dei (b.firstQueue h c [o] none []) ho h c
  have hcut' := b.cutThrough_store f vid h.dei (b.firstQueue h c [o] none []) hp
  have hmir' := fun i (hi : i < 4) => b.fnRuns_store f vid h.dei (b.firstQueue h c [o] none []) (n := 49 + i) (by omega)
  cases hstore : b.store f vid h.dei (b.firstQueue h c [o] none []) with
  | mk id a =>
    simp only [hstore] at hchain hqueues hdepth hlim hprof hqueue hcut' hmir'
    obtain ⟨r, hcopy, hframes, hheld, hgrown, hfns⟩ := Block.copyTo_takesIn (q := a.queueAt o h c) (d := ⟨id, a.cyc, c.colour, p, stamp, none⟩)
      (by rw [hqueue, hk]) hchain (hcut'.trans hcut) (by rw [hdepth, hlim, hcells]; exact hlimit) (by rw [hprof]; exact hwred)
    refine ⟨r, _, _, ?_, ?_, rfl, rfl, rfl, hheld, rfl, rfl, rfl, ?_⟩
    · rw [Block.deliver_copied hpol hroom hstore hcopy fun i hi => (hfns _ (by omega)).trans ((hmir' i hi).trans (hmir i hi))]
      exact Block.freeChain_held hheld (by simp)
    · rw [hframes, Block.queue, Block.queue, hqueues]
    · rw [hgrown, hdepth, hcells]

end Sys2Proof.Machine
end

section
/-! A good unicast frame for a known destination, from its port to its queue (R230 to R238, R274). -/

namespace Sys2Proof.Machine

-- What stages 1 to 6 leave of the fabric

theorem Block.bump_fab (b : Block) (k n : Nat) : (b.bump k n).fab = b.fab := by
  obtain ⟨_, _, h⟩ := b.bump_eq k n
  rw [h]

theorem Block.need_fab (b : Block) (c : FastClock) : (b.need c).fab = b.fab := by
  obtain ⟨_, _, _, h⟩ := b.need_eq c
  rw [h]

theorem Block.raiseLim_fab (b : Block) (num x y : Nat) : (b.raiseLim num x y).fab = b.fab := by
  have hlimit : (b.limit num x).2.fab = b.fab := by
    unfold Block.limit
    dsimp only
    split
    · split <;> rfl
    · rfl
  unfold Block.raiseLim
  dsimp only
  split
  · rw [Block.report_fab, hlimit]
  · exact hlimit

theorem Block.fecSeen_fab (b : Block) (p : Nat) (f : FecSeen) : (b.fecSeen p f).fab = b.fab := by
  have hlanes (l : List (Nat × Nat)) (c : Block) : (l.foldl (fun b e => b.bump (Od.LANE_FEC_SYMBOLS e.1) e.2) c).fab = c.fab := by
    induction l generalizing c with
    | nil => rfl
    | cons e l ih => exact (ih _).trans (c.bump_fab _ _)
  unfold Block.fecSeen
  dsimp only
  split
  · rfl
  · split
    · rw [hlanes, Block.bump_fab, Block.bump_fab]
    · rw [Block.raiseLim_fab, Block.orBits, Block.wr_fab, hlanes, Block.bump_fab, Block.bump_fab]

theorem Block.rxCounted_fab (b : Block) (p n : Nat) : (b.rxCounted p n).fab = b.fab := by
  unfold Block.rxCounted
  rw [(Block.sameButEvents_tally _ 1 p 0 1).fab, Block.bump_fab, Block.bump_fab, Block.bump_fab]

theorem Block.classify_fab (b : Block) (p vid : Nat) (h : Header) : (b.classify p vid h).2.fab = b.fab := by
  unfold Block.classify
  dsimp only
  split
  · rfl
  · split
    · exact b.bump_fab _ _
    · rfl

-- Stage 8 (R234)

/-- A destination that the table names and that may take the frame is its only one. -/
theorem Block.destinations_port {b : Block} {p vid : Nat} {h : Header} {e : Mac} (htype : e.dtype = 0) (hmay : b.mayTake p vid e.dest = true)
    (hrun : b.fnRuns e.dest = true) (hgone : b.gone e.dest = false) :
    b.destinations p vid h (some e) none = (⟨[e.dest], none, false⟩, b) := by
  unfold Block.destinations
  simp [htype, Block.addPort, hmay, hrun, hgone]

theorem Block.lookup_known {b : Block} {vid da : Nat} {e : Mac} (h : tget b.fab.mac (macKey vid da) = some e) : (b.lookup vid da).1 = some e := by
  unfold Block.lookup
  dsimp only
  rw [h]

/-- A good frame for a known port that may take it, with no rule that sends it elsewhere and no session to mirror it, reaches stage 9 for that port alone. -/
theorem Block.rxGood_forwards {y b : Block} (h : y.Intake b) (hmac : b.fab.mac = y.fab.mac) {p vid : Nat} {w : RxWait} {e : Mac} (hp : p < 32)
    (htrap : (y.trap p w.bytes (header w.bytes)).isNone = true) (hvlan : y.vlanIn p (header w.bytes) = some vid) (hstate : y.fwdState p = 3)
    (hda : (header w.bytes).da ≠ 0xFFFFFFFFFFFF) (hknown : tget y.fab.mac (macKey vid (header w.bytes).da) = some e) (htype : e.dtype = 0)
    (hdest : e.dest < 32) (hmay : y.mayTake p vid e.dest = true) (hrun : y.fnRuns e.dest = true) (hgone : y.gone e.dest = false)
    (hcq : (y.classify p vid (header w.bytes)).1.cq = none) (hmir : ∀ i < 4, y.fnRuns (49 + i) = false) :
    ∃ a, y.Intake a ∧ b.rxGood p w =
      a.deliver p vid w.stamp w.bytes (header w.bytes) (y.classify p vid (header w.bytes)).1 ⟨[e.dest], none, false⟩ [] := by
  have htrap' : b.trap p w.bytes (header w.bytes) = none := Option.isNone_iff_eq_none.mp ((h.trap_isNone hp _ _).trans htrap)
  have hclass := h.classify p vid (header w.bytes)
  have hlook : tget (b.classify p vid (header w.bytes)).2.fab.mac (macKey vid (header w.bytes).da) = some e := by rw [Block.classify_fab, hmac, hknown]
  have hhit := Block.lookup_known hlook
  have hfound := (h.trans (b.intake_classify p vid (header w.bytes))).trans (Block.intake_lookup _ vid (header w.bytes).da)
  unfold Block.rxGood
  dsimp only
  rw [htrap', (h.vlanIn hp _).trans hvlan]
  dsimp only
  rw [(h.fwdState hp).trans hstate, if_neg (by decide), if_neg (by decide), hclass, if_neg hda]
  generalize hlearned : (if bit (b.rdN (Od.P_VLAN p)) 17 = true then
    ((b.classify p vid (header w.bytes)).2.lookup vid (header w.bytes).da).2.learn p vid (header w.bytes).sa
    else ((b.classify p vid (header w.bytes)).2.lookup vid (header w.bytes).da).2) = a
  have ha : y.Intake a := by
    rw [← hlearned]
    split
    · exact hfound.trans (Block.intake_learn _ _ _ _)
    · exact hfound
  have hroute : a.destinations p vid (header w.bytes) (some e) none = (⟨[e.dest], none, false⟩, a) :=
    Block.destinations_port htype ((ha.mayTake p vid hdest).trans hmay) ((ha.fnRuns (by omega)).trans hrun) ((ha.gone hdest).trans hgone)
  refine ⟨a, ha, ?_⟩
  rw [hhit, hcq, hroute, Block.sessions_none _ fun i hi => (ha.fnRuns (by omega)).trans (hmir i hi)]
  rfl

-- A frame's whole way

section

variable {b : Block} {p : Nat} {f : Bytes} {pcs : Bool} (stamp : Stamp) (fec : FecSeen) (hp : p < 32) (hheld : b.partHeld 1 = false)
  (hlink : b.on (Od.P_LINK p) = true) (htest : b.inTest p = false) (hpartner : b.partner p = false) (hrun : b.fnRuns p = true)
  (hpath : b.pathRuns p = true) (hempty : (b.pf p).ingress = [])

include hp hheld hlink htest hpartner hrun hpath hempty

/-- A frame on a port whose path runs, with nothing waiting before it, is in the pipeline once what FEC saw of it is counted. -/
theorem Block.frameRx_passes : ∃ (a : Block) (n : Nat), b.Intake a ∧ a.fab.mac = b.fab.mac ∧
    b.frameRx p f pcs stamp fec false = a.pipeline p { bytes := f, pcs := pcs, stamp := n } := by
  obtain ⟨n, harrives⟩ := Block.frameRx_arrives (f := f) (pcs := pcs) (stamp := stamp) (fec := fec) (parity := false) hheld hlink htest hpartner
  have hfec := b.intake_fecSeen fec hp
  have hhold : (b.fecSeen p fec).mustHold p = false := by
    rw [hfec.mustHold hp]
    simp [Block.mustHold, hpath, hempty]
  refine ⟨(b.fecSeen p fec).need .fabric, n, hfec.trans (Block.intake_need _), ?_, ?_⟩
  · rw [Block.need_fab, Block.fecSeen_fab]
  · rw [harrives, Block.arrive_passes _ ((hfec.fnRuns (by omega)).trans hrun) hhold]

/-- One that stage 1 finds bad is counted there. -/
theorem Block.frameRx_bad {cause : Nat} (hcause : (if f.length < 64 then some (Od.P_RX_RUNT p) else b.rxFault p f pcs) = some cause) :
    ∃ (a : Block) (w : RxWait), b.Intake a ∧ b.frameRx p f pcs stamp fec false = a.rxBad p w cause := by
  obtain ⟨a, n, ha, -, hpasses⟩ := Block.frameRx_passes (f := f) (pcs := pcs) stamp fec hp hheld hlink htest hpartner hrun hpath hempty
  have hbusy := ha.trans (a.intake_setPf p (fun x => { x with busyAt := a.cyc }) fun _ => ⟨_, _, rfl⟩)
  refine ⟨_, _, hbusy, hpasses.trans (Block.pipeline_bad ?_)⟩
  rw [ha.rxFault hp]
  exact hcause

/-- One that stage 1 finds good goes on to stage 3. -/
theorem Block.frameRx_good (hlen : 64 ≤ f.length) (hgood : b.rxFault p f pcs = none) :
    ∃ (a : Block) (n : Nat), b.Intake a ∧ a.fab.mac = b.fab.mac ∧
      b.frameRx p f pcs stamp fec false = a.rxGood p { bytes := f, pcs := pcs, stamp := n } := by
  obtain ⟨a, n, ha, hmac, hpasses⟩ := Block.frameRx_passes (f := f) (pcs := pcs) stamp fec hp hheld hlink htest hpartner hrun hpath hempty
  have hbusy := ha.trans (a.intake_setPf p (fun x => { x with busyAt := a.cyc }) fun _ => ⟨_, _, rfl⟩)
  refine ⟨_, n, hbusy.trans (Block.intake_rxCounted _ f.length hp), ?_,
    hpasses.trans (Block.pipeline_good hlen ((ha.rxFault hp f pcs).trans hgood) rfl)⟩
  rw [Block.rxCounted_fab]
  exact hmac

end

/-- Settles O16: each of a frame's ways is read off the operation that the pipeline applies, since what taking the frame in changes is read nowhere on it. -/
theorem frameReceived : Obligations.FrameReceived := by
  unfold Obligations.FrameReceived
  refine ⟨?stopped, ?held, ?dropped, ?forwarded⟩
  case stopped =>
    intro s p f pcs stamp fec parity hup hheld hlink htest hpartner hrun
    obtain ⟨n, harrives⟩ := Block.frameRx_arrives (f := f) (pcs := pcs) (stamp := stamp) (fec := fec) (parity := parity) hheld hlink htest hpartner
    have hfec := s.m.intake_fecSeen fec p.isLt
    have hplace : ¬intakeKey (Od.P_DROP_STOPPED p) := not_intakeKey_port p.isLt (by decide)
    refine State.leads_act s _ (fun _ b => b.frameRx p f pcs stamp fec parity) _ rfl hup ?_
    rw [harrives, Block.arrive_stopped _ ((hfec.fnRuns (by omega)).trans hrun), hfec.ptpAt p.isLt]
    constructor
    · intro htiming
      rw [if_pos (by simpa using htiming), hfec.entries _ hplace]
    · intro hptp hesmc hlane hn
      rw [if_neg (by simp [hptp, hesmc]), Block.rd_dropOn_same (k := Od.P_DROP_STOPPED p) ((hfec.laneOwner p).trans hlane)
        (not_counterKey_port p.isLt (by decide)) (by rwa [hfec.rdN hplace]), hfec.rdN hplace]
  case held =>
    intro s p f pcs stamp fec parity hup hheld hlink htest hpartner hrun hwait
    obtain ⟨n, harrives⟩ := Block.frameRx_arrives (f := f) (pcs := pcs) (stamp := stamp) (fec := fec) (parity := parity) hheld hlink htest hpartner
    have hfec := s.m.intake_fecSeen fec p.isLt
    have hplace : ¬intakeKey (Od.P_DROP_OVERRUN p) := not_intakeKey_port p.isLt (by decide)
    have hhold := (hfec.mustHold p.isLt).trans (Block.mustHold_iff.mpr hwait)
    refine State.leads_act s _ (fun _ b => b.frameRx p f pcs stamp fec parity) _ rfl hup ?_
    rw [harrives, Block.arrive_held _ ((hfec.fnRuns (by omega)).trans hrun) hhold, ← hfec.ingress, ← hfec.waitingBytes, ← hfec.ingressSize,
      ← hfec.laneOwner, ← hfec.rdN hplace]
    exact ⟨fun hroom => ⟨_, Block.holdRx_room hroom, rfl, rfl, rfl⟩, fun hfull hlane hn => Block.holdRx_full p.isLt hfull hlane hn⟩
  case dropped =>
    intro s p f pcs stamp fec hup hheld hlink htest hpartner hrun hpath hempty hlane
    refine State.leads_act s _ (fun _ b => b.frameRx p f pcs stamp fec false) _ rfl hup ⟨?bad, ?vlan⟩
    case bad =>
      intro cause hcause hcut hmir hn
      obtain ⟨a, w, ha, hbad⟩ := Block.frameRx_bad stamp fec p.isLt hheld hlink htest hpartner hrun hpath hempty hcause
      have hplace := Block.rxFault_place hcause
      have hcount : a.rdN cause = s.m.rdN cause := by
        obtain ⟨sub, hsub, rfl⟩ := hplace
        refine ha.rdN (not_intakeKey_port p.isLt ?_)
        simp only [badSubs, List.mem_cons, List.not_mem_nil, or_false] at hsub
        omega
      obtain ⟨hcounted, hsticky, hfab⟩ := Block.rxBad_dropped w p.isLt hplace ((ha.laneOwner p).trans hlane)
        ((ha.on (k := Od.P_CUT_THROUGH p) (not_intakeKey_port p.isLt (by decide))).trans hcut)
        (fun i hi => (ha.on ((intakeKey_key (by omega) (by decide)).not.mpr (by omega))).trans (hmir i hi)) (by rwa [hcount])
      rw [hbad, hfab, hcounted, hcount, ha.queues, ha.chains]
      exact ⟨rfl, hsticky, rfl, rfl⟩
    case vlan =>
      intro hlen hgood htrap hvlan hn
      obtain ⟨a, n, ha, -, hthrough⟩ := Block.frameRx_good stamp fec p.isLt hheld hlink htest hpartner hrun hpath hempty hlen hgood
      have hplace : ¬intakeKey (Od.P_DROP_VLAN p) := not_intakeKey_port p.isLt (by decide)
      have hl := (ha.laneOwner p).trans hlane
      have hdrop : a.rxGood p { bytes := f, pcs := pcs, stamp := n } = a.dropOn p (Od.P_DROP_VLAN p) :=
        Block.rxGood_vlan ((ha.trap_isNone p.isLt f (header f)).trans htrap) ((ha.vlanIn p.isLt (header f)).trans hvlan)
      have hcount := Block.rd_dropOn_same (k := Od.P_DROP_VLAN p) hl (not_counterKey_port p.isLt (by decide)) (by rwa [ha.rdN hplace])
      rw [hthrough, hdrop, hcount, Block.dropOn_fab _ hl, ha.queues, ha.chains, ha.rdN hplace]
      exact ⟨rfl, rfl, rfl⟩
  case forwarded =>
    intro s p f stamp fec vid e hup hheld hlink htest hpartner hrun hpath hempty hlen hgood h c k htrap hvlan hstate hda hknown htype hdest hmay hdrun hgone
      hpol hcq hmir hroom hcut hlimit hwred
    obtain ⟨a, n, ha, hmac, hthrough⟩ := Block.frameRx_good stamp fec p.isLt hheld hlink htest hpartner hrun hpath hempty hlen hgood
    obtain ⟨r, hr, hforwards⟩ := Block.rxGood_forwards (w := { bytes := f, pcs := true, stamp := n }) ha hmac p.isLt htrap hvlan hstate hda hknown htype hdest
      hmay hdrun hgone hcq hmir
    obtain ⟨hdepth, hlim, hprof⟩ := hr.queueEntries k
    obtain ⟨t, d, x, ht, hframes, hport, hcolour, hcontent, hchain, hbytes, hvid, hrefs, hgrown⟩ :=
      Block.deliver_one (b := r) (p := p) (vid := vid) n (f := f) (h := h) (c := c) (k := k) false p.isLt hdest hpol ((hr.roomFor f).trans hroom)
        ((hr.on (k := Od.P_CUT_THROUGH p) (not_intakeKey_port p.isLt (by decide))).trans hcut) (fun i hi => (hr.fnRuns (by omega)).trans (hmir i hi))
        (by rw [hr.queueAt hdest]) (by rwa [hdepth, hlim]) (by rwa [hprof])
    have hleads : s.m.frameRx p f true stamp fec false = t := hthrough.trans (hforwards.trans ht)
    refine State.leads_act s _ (fun _ b => b.frameRx p f true stamp fec false) _ rfl hup ?_
    rw [hleads, Block.queue, Block.queue, ← hr.queues, ← hdepth]
    exact ⟨d, x, hframes, hport, hcolour, hcontent, hchain, hbytes, hvid, hrefs, hgrown⟩

end Sys2Proof.Machine
end

section
/-! Time words: their fields as bytes and as ticks, and the distance of two instants on the tick view (R38, R40, R44, R47, R48). -/

namespace Sys2Proof.Machine

-- Time words as bytes (R40)

theorem timeBytes_fraction (word : Nat) : slice (timeBytes word) 0 2 = toLE 2 (fractionOf word) := rfl

theorem timeBytes_nanos (word : Nat) : slice (timeBytes word) 2 4 = toLE 4 (nanosOf word) := rfl

theorem timeBytes_seconds (word : Nat) : slice (timeBytes word) 6 6 = toLE 6 (secondsOf word) := rfl

/-- The fields of a time word spell it (R38). -/
theorem timeWord_eq (word : Nat) : fractionOf word + nanosOf word * 65536 + secondsOf word * ticksPerSec = word := by
  unfold fractionOf nanosOf secondsOf ticksPerSec
  omega

theorem fractionOf_lt (word : Nat) : fractionOf word < 65536 := Nat.mod_lt _ (by decide)

theorem nanosOf_lt (word : Nat) : nanosOf word < 1000000000 := by
  unfold nanosOf ticksPerSec
  omega

theorem secondsOf_lt {word : Nat} (h : word < wordWrap) : secondsOf word < 2 ^ 48 := Nat.div_lt_of_lt_mul (by rwa [Nat.mul_comm])

-- Ticks (R44, R47, R48)

theorem tickDiff_tickOf (x y : Nat) : tickDiff (tickOf x) (tickOf y) = ((x : Int) - y + 2 ^ 63) % 2 ^ 64 - 2 ^ 63 := by
  unfold tickDiff tickOf signed unsigned
  split <;> omega

theorem Block.due_tickOf (b : Block) (word : Nat) : b.due (tickOf word) = true ↔ ((word : Int) - b.mer + 2 ^ 63) % 2 ^ 64 ≤ 2 ^ 63 := by
  have h := tickDiff_tickOf word b.mer
  have ht : b.tick = tickOf b.mer := rfl
  unfold Block.due
  rw [ht, h, decide_eq_true_eq]
  omega

/-- Settles O55: d of R47 is the distance of the two instants modulo 2^64, read as a signed number. -/
theorem dueComparison : Obligations.DueComparison := by
  unfold Obligations.DueComparison
  refine ⟨fun b word hlo hhi => ?_, fun b word hlo hhi => ?_⟩ <;> rw [Block.due_tickOf] <;> omega

theorem ofLE_timeBytes_fraction (word : Nat) : ofLE (slice (timeBytes word) 0 2) = fractionOf word := by
  rw [timeBytes_fraction, ofLE_toLE]
  exact Nat.mod_eq_of_lt (fractionOf_lt word)

theorem ofLE_timeBytes_nanos (word : Nat) : ofLE (slice (timeBytes word) 2 4) = nanosOf word := by
  rw [timeBytes_nanos, ofLE_toLE]
  exact Nat.mod_eq_of_lt ((nanosOf_lt word).trans (by decide))

theorem ofLE_timeBytes_seconds {word : Nat} (h : word < wordWrap) : ofLE (slice (timeBytes word) 6 6) = secondsOf word := by
  rw [timeBytes_seconds, ofLE_toLE]
  exact Nat.mod_eq_of_lt (secondsOf_lt h)

/-- A time word is taken from the bytes that it is returned as. -/
theorem decodeVal_timeBytes {word : Nat} (h : word < wordWrap) : decodeVal .time96 (timeBytes word) = some (word : Int) := by
  unfold decodeVal
  simp only [ofLE_timeBytes_fraction, ofLE_timeBytes_nanos, ofLE_timeBytes_seconds h, if_neg (Nat.not_le.mpr (nanosOf_lt word)), timeWord_eq]

/-- Settles O53: each field of a time word fits the bytes that hold it, and the fields spell the word. -/
theorem timeWordBytes : Obligations.TimeWordBytes :=
  ⟨fun word h => ⟨rfl, ofLE_timeBytes_fraction word, ofLE_timeBytes_nanos word, ofLE_timeBytes_seconds h⟩, fun _ h => ⟨rfl, decodeVal_timeBytes h⟩⟩

/-- Settles O54: a second holds 65,536 times 10^9 ticks, so the fields of the time word spell its ticks, of which the tick view keeps the low 64 bits. -/
theorem tickView : Obligations.TickView := by
  unfold Obligations.TickView
  intro b
  have hword := timeWord_eq b.mer
  have htick : b.tick = b.mer % 2 ^ 64 := rfl
  have hfields : (secondsOf b.mer * 1000000000 + nanosOf b.mer) * 65536 + fractionOf b.mer = b.mer := by
    unfold ticksPerSec at hword
    omega
  have hf := fractionOf_lt b.mer
  refine ⟨by rw [hfields, htick], ?_, ?_, nanosOf_lt _, hf⟩ <;> omega

end Sys2Proof.Machine
end

section
/-! TIME_VALID: its edges as a command ends, and the invariant that every step keeps (R59, R371, R524). -/

namespace Sys2Proof.Machine

-- TIME_VALID and its edges

/-- The entries that telling an edge of TIME_VALID leaves alone: all but MT_STICKY and the counters (R59, R470). -/
def edgeKeeps (k : Nat) : Prop := k ≠ Od.MT_STICKY ∧ ¬counterKey k

/-- A module with an edge of TIME_VALID told: its fall with its sticky bit, its rise (R59). -/
def Block.edgeTold (b : Block) : Block :=
  if b.on Od.MT_TIME_VALID && !b.timeConditions b.uncertainty then (b.orBits Od.MT_STICKY 1).raise 0x2001
  else if !b.on Od.MT_TIME_VALID && b.timeConditions b.uncertainty then b.raise 0x2002 else b

theorem settle_eq (b : Block) : settle b =
    (b.edgeTold.wr Od.MT_UNCERTAINTY b.edgeTold.uncertainty).wr Od.MT_TIME_VALID (b2n (b.edgeTold.timeConditions b.edgeTold.uncertainty)) := rfl

/-- c differs from b in the entries that an edge of TIME_VALID changes, in free values and in event queues alone. -/
def Block.sameButEdge (b c : Block) : Prop :=
  (∃ od free ev, c = { b with od := od, free := free, mg := { b.mg with ev := ev } }) ∧ (∀ k, edgeKeeps k → c.rd k = b.rd k) ∧
    ∀ t, (∀ e, e ∈ (tat {} b.mg.ev t).queue → e ∈ (tat {} c.mg.ev t).queue) ∧ (tat {} b.mg.ev t).lost ≤ (tat {} c.mg.ev t).lost

theorem Block.sameButEvents.edge {b c d : Block} (h : c.sameButEvents d) (hb : c = b ∨ ∃ v, c = b.wr Od.MT_STICKY v) : b.sameButEdge d := by
  obtain ⟨⟨_, _, _, rfl⟩, hrd, hev⟩ := h
  rcases hb with rfl | ⟨v, rfl⟩
  · exact ⟨⟨_, _, _, rfl⟩, fun k hk => hrd k hk.2, hev⟩
  · exact ⟨⟨_, _, _, rfl⟩, fun k hk => (hrd k hk.2).trans (b.rd_wr_ne v hk.1.symm), hev⟩

theorem Block.sameButEdge_edgeTold (b : Block) : b.sameButEdge b.edgeTold := by
  unfold Block.edgeTold
  split
  · exact (Block.sameButEvents_raise _ 0x2001 0 0).edge (.inr ⟨_, rfl⟩)
  · split
    · exact (b.sameButEvents_raise 0x2002 0 0).edge (.inl rfl)
    · exact b.sameButEvents_refl.edge (.inl rfl)

/-- No key below a record of the counters group is a counter's. -/
theorem edgeKeeps_key {i sub : Nat} (hi : i < 0x7100) (hs : sub < 256) (h : i = 0x2000 → sub ≠ 7) : edgeKeeps (key i sub) := by
  unfold edgeKeeps counterKey Od.MT_STICKY key
  omega

section

variable {b c : Block} (h : b.sameButEdge c)

include h

theorem Block.sameButEdge.rd_key {i sub : Nat} (hi : i < 0x7100) (hs : sub < 256) (hk : i = 0x2000 → sub ≠ 7) : c.rd (key i sub) = b.rd (key i sub) :=
  h.2.1 _ (edgeKeeps_key hi hs hk)
theorem Block.sameButEdge.rdN_key {i sub : Nat} (hi : i < 0x7100) (hs : sub < 256) (hk : i = 0x2000 → sub ≠ 7) : c.rdN (key i sub) = b.rdN (key i sub) :=
  congrArg Int.toNat (h.rd_key hi hs hk)
theorem Block.sameButEdge.on_key {i sub : Nat} (hi : i < 0x7100) (hs : sub < 256) (hk : i = 0x2000 → sub ≠ 7) : c.on (key i sub) = b.on (key i sub) :=
  congrArg (· == 1) (h.rd_key hi hs hk)

theorem Block.sameButEdge.cyc_tm : c.cyc = b.cyc ∧ c.tm = b.tm := by
  obtain ⟨⟨_, _, _, rfl⟩, -⟩ := h
  exact ⟨rfl, rfl⟩

theorem Block.sameButEdge.selected : c.selected = b.selected := by
  unfold Block.selected
  rw [show c.rdN Od.SEL_SELECTED = b.rdN Od.SEL_SELECTED from h.rdN_key (by decide) (by decide) (by decide)]

end

theorem Block.selected_lt {b : Block} {k : Nat} (h : b.selected = some k) : k < 24 := by
  unfold Block.selected at h
  dsimp only at h
  split at h
  · cases h
    assumption
  · cases h

section

variable {b c : Block} (h : b.sameButEdge c)

include h

theorem Block.sameButEdge.refTerm : c.refTerm = b.refTerm := by
  obtain ⟨hcyc, htm⟩ := h.cyc_tm
  unfold Block.refTerm
  rw [h.selected]
  cases hs : b.selected with
  | none => rfl
  | some k =>
    have hk := Block.selected_lt hs
    have hcap : c.on (Od.SLOT_TIME_CAPABLE k) = b.on (Od.SLOT_TIME_CAPABLE k) := h.on_key (by omega) (by omega) (by omega)
    have hunc : c.rdN (Od.SLOT_UNCERTAINTY k) = b.rdN (Od.SLOT_UNCERTAINTY k) := h.rdN_key (by omega) (by omega) (by omega)
    have hrate : c.rdN Od.SEL_FREQONLY_UNC_RATE = b.rdN Od.SEL_FREQONLY_UNC_RATE := h.rdN_key (by decide) (by decide) (by decide)
    simp only [hcap, hunc, hrate, hcyc, htm]

theorem Block.sameButEdge.pe0 : c.pe0 = b.pe0 := h.rdN_key (by decide) (by decide) (by decide)

theorem Block.sameButEdge.timeSet : c.on Od.MT_TIME_SET = b.on Od.MT_TIME_SET := h.on_key (by decide) (by decide) (by decide)

theorem Block.sameButEdge.uncertainty : c.uncertainty = b.uncertainty := by
  obtain ⟨hcyc, htm⟩ := h.cyc_tm
  have hterm : c.rdN Od.HO_TERM = b.rdN Od.HO_TERM := h.rdN_key (by decide) (by decide) (by decide)
  have hloop : c.rdN (Od.PE_LOOP_UNC 0) = b.rdN (Od.PE_LOOP_UNC 0) := h.rdN_key (by decide) (by decide) (by decide)
  unfold Block.uncertainty Block.domResidual Block.switchResidual Block.retResidual
  rw [hcyc, htm, h.selected, h.pe0, h.timeSet, hterm, hloop, h.refTerm]

theorem Block.sameButEdge.timeConditions (u : Nat) : c.timeConditions u = b.timeConditions u := by
  have hlimit : c.rdN Od.MT_UNC_LIMIT = b.rdN Od.MT_UNC_LIMIT := h.rdN_key (by decide) (by decide) (by decide)
  have hsafe : c.safe = b.safe := h.on_key (by decide) (by decide) (by decide)
  unfold Block.timeConditions
  rw [h.timeSet, h.pe0, hlimit, hsafe]

end

/-- The conditions of R59 read neither TIME_VALID nor MT_UNCERTAINTY. -/
theorem Block.timeConditions_wr (b : Block) {k : Nat} (v : Int) (u : Nat) (hk : k = Od.MT_TIME_VALID ∨ k = Od.MT_UNCERTAINTY) :
    (b.wr k v).timeConditions u = b.timeConditions u := by
  unfold Block.timeConditions Block.pe0 Block.safe
  simp only [Block.on_wr, Block.rdN_wr]
  rcases hk with rfl | rfl <;> rfl

/-- What a command ends with, in terms of the module before it: MT_UNCERTAINTY and TIME_VALID as R59 says of that module, over its edge told. -/
theorem settle_edge (b : Block) :
    settle b = (b.edgeTold.wr Od.MT_UNCERTAINTY b.uncertainty).wr Od.MT_TIME_VALID (b2n (b.timeConditions b.uncertainty)) := by
  have h := b.sameButEdge_edgeTold
  rw [settle_eq, h.uncertainty, h.timeConditions]

theorem rd_settle (b : Block) (k : Nat) : (settle b).rd k = if Od.MT_TIME_VALID = k then (b2n (b.timeConditions b.uncertainty) : Int)
    else if Od.MT_UNCERTAINTY = k then (b.uncertainty : Int) else b.edgeTold.rd k := by
  rw [settle_edge, Block.rd_wr, Block.rd_wr]

theorem rd_settle_timeValid (b : Block) : (settle b).rd Od.MT_TIME_VALID = b2n (b.timeConditions b.uncertainty) := by rw [rd_settle, if_pos rfl]

theorem rd_settle_uncertainty (b : Block) : (settle b).rd Od.MT_UNCERTAINTY = b.uncertainty := by
  rw [rd_settle, if_neg (by decide), if_pos rfl]

theorem rd_settle_other (b : Block) {k : Nat} (hv : Od.MT_TIME_VALID ≠ k) (hu : Od.MT_UNCERTAINTY ≠ k) : (settle b).rd k = b.edgeTold.rd k := by
  rw [rd_settle, if_neg hv, if_neg hu]

theorem settle_ev (b : Block) : (settle b).mg.ev = b.edgeTold.mg.ev := by rw [settle_edge]; rfl

/-- What is told with the edge stays told as the command ends. -/
theorem Block.told_settle {a b : Block} {num x y : Nat} (h : a.told b.edgeTold num x y) : a.told (settle b) num x y := by
  unfold Block.told
  rw [settle_ev]
  exact h

theorem Block.within_settle (b : Block) : b.within (settle b) (fun x => x = 0x2000) := by
  obtain ⟨⟨od, free, ev, hedge⟩, hrd, hev⟩ := b.sameButEdge_edgeTold
  refine ⟨⟨(settle b).od, free, ev, ?_⟩, fun k hown hcnt => ?_, ?_⟩
  · rw [settle_edge, hedge]
    rfl
  · have hsticky : k ≠ Od.MT_STICKY := by rintro rfl; exact hown rfl
    rw [rd_settle_other, hrd k ⟨hsticky, hcnt⟩] <;> (rintro rfl; exact hown rfl)
  · rw [settle_ev]
    exact hev

/-- Settles O52: an edge of TIME_VALID is told before MT_UNCERTAINTY and TIME_VALID take their values, and telling it changes neither. -/
theorem timeValidEvents : Obligations.TimeValidEvents := by
  unfold Obligations.TimeValidEvents
  intro b
  refine ⟨rd_settle_uncertainty b, rd_settle_timeValid b, fun hwas hnow => ?falls, fun hwas hnow => Block.told_settle ?rises, b.within_settle⟩
  case falls =>
    have hedge : b.edgeTold = (b.orBits Od.MT_STICKY 1).raise 0x2001 := by simp [Block.edgeTold, hwas, hnow]
    refine ⟨Block.told_settle ?_, ?_⟩
    · rw [hedge]
      refine Block.told_raise _ _ _ (fun t ht => ?_) fun t => Nat.le_refl _
      have hkeep (i : Nat) (hi : i < 0x2000) (sub : Nat) (hs : sub < 256) : b.rdN (key i sub) = (b.orBits Od.MT_STICKY 1).rdN (key i sub) :=
        (congrArg Int.toNat (b.rd_orBits_ne 1 (by unfold Od.MT_STICKY key; omega))).symm
      exact ⟨hkeep _ (by omega) _ (by decide), hkeep _ (by omega) _ (by decide)⟩
    · have hsticky : (settle b).rdN Od.MT_STICKY = b.rdN Od.MT_STICKY ||| 1 := by
        unfold Block.rdN
        rw [rd_settle_other _ (by decide) (by decide), hedge, Block.rd_raise _ _ _ _ _ (by unfold counterKey Od.MT_STICKY key; omega)]
        exact b.rdN_orBits _ _
      rw [hsticky, bit_or, Bool.or_eq_true]
      exact .inr rfl
  case rises =>
    have hedge : b.edgeTold = b.raise 0x2002 := by simp [Block.edgeTold, hwas, hnow]
    rw [hedge]
    exact Block.told_raise _ _ _ (fun _ _ => ⟨rfl, rfl⟩) fun _ => Nat.le_refl _

-- The invariant

/-- What a command stores in the pool memory leaves it canonical. -/
theorem Block.ramAfter_wf (b : Block) {ram : Memory} (h : ram.wf = true) : (b.ramAfter ram).wf = true := by
  have hstores : ∀ (l : List (Nat × Bytes)) (m : Memory), m.wf = true → (l.foldl (fun m e => ramStore m e.1 e.2) m).wf = true := by
    intro l
    induction l with
    | nil => exact fun _ hm => hm
    | cons e l ih => exact fun m hm => ih _ (ramStore_wf e.1 e.2 hm)
  unfold Block.ramAfter
  refine hstores _ _ ?_
  split
  · rfl
  · exact h

theorem settle_pokes (b : Block) : (settle b).pokes = b.pokes ∧ (settle b).ramLost = b.ramLost := by
  obtain ⟨⟨_, _, _, h⟩, -⟩ := b.within_settle
  rw [h]
  exact ⟨rfl, rfl⟩

theorem timeConditions_settle (b : Block) (u : Nat) : (settle b).timeConditions u = b.timeConditions u := by
  rw [settle_edge, Block.timeConditions_wr _ _ _ (.inl rfl), Block.timeConditions_wr _ _ _ (.inr rfl), b.sameButEdge_edgeTold.timeConditions]

/-- Whatever a command makes of the module, the state it ends in has the invariant (R59, R371). -/
theorem State.inv_withBlock {s : State} (b : Block) (h : s.ram.wf = true) : (s.withBlock b).Inv := by
  refine ⟨b.react.ramAfter_wf h, (settle_pokes _).1, (settle_pokes _).2, ?_⟩
  have hunc := congrArg Int.toNat (rd_settle_uncertainty { b.react with pokes := [], ramLost := false })
  unfold State.timeHonest
  rw [State.withBlock_m, rd_settle_timeValid, timeConditions_settle, Block.rdN, hunc, Int.toNat_natCast]

/-- What a command can answer: the same state, or the state with the module as the command leaves it (R490). -/
def State.Reaches (s : State) (o : Host.Outcome State Fault Refusal) : Prop := o = .next s ∨ ∃ b, o = .next (s.withBlock b)

theorem State.reaches_act (s : State) (f : Memory → Block → Block) : s.Reaches (s.act f) := by
  unfold State.act
  split
  · exact .inr ⟨_, rfl⟩
  · exact .inl rfl

theorem State.reaches_actHeld (s : State) (f : Memory → Block → Block) : s.Reaches (s.actHeld f) := .inr ⟨_, rfl⟩

/-- Every command acts on a module that is up; pins, supply and the release of a reset act on a held one too. -/
theorem exec_reaches (i : Instr) (s : State) : s.Reaches (exec i s) := by
  cases i <;> dsimp only [exec]
  case supplyFailReset | powerOn | warmPinReset | coldPinReset | resetRelease | thermalTrip => exact s.reaches_actHeld _
  all_goals exact s.reaches_act _

theorem State.inv_reaches {s t : State} (h : s.Inv) (hr : s.Reaches (.next t)) : t.Inv := by
  rcases hr with hr | ⟨b, hr⟩ <;> cases hr
  · exact h
  · exact State.inv_withBlock b h.1

theorem exec_inv {i : Instr} {s t : State} (h : s.Inv) (he : exec i s = .next t) : t.Inv := s.inv_reaches h (he ▸ exec_reaches i s)

theorem step_inv {s t : State} (h : s.Inv) (hs : step s = .next t) : t.Inv := by
  unfold step at hs
  split at hs
  · cases hs
    exact State.inv_withBlock _ h.1
  · rename_i c rest _
    exact exec_inv (s := { s with pending := rest }) h hs

/-- Where TIME_VALID is honest and reads 1, the four conditions of R59 hold. -/
theorem State.timeHonest.conditions {s : State} (h : s.timeHonest) (hv : s.m.rd Od.MT_TIME_VALID = 1) : s.m.on Od.MT_TIME_SET = true ∧
    (s.m.pe0 = 2 ∨ s.m.pe0 = 3) ∧ s.m.rdN Od.MT_UNCERTAINTY ≤ s.m.rdN Od.MT_UNC_LIMIT ∧ s.m.rd Od.SAFE_STATE ≠ 1 := by
  have hc : s.m.timeConditions (s.m.rdN Od.MT_UNCERTAINTY) = true := by
    rw [State.timeHonest, hv] at h
    cases hc : s.m.timeConditions (s.m.rdN Od.MT_UNCERTAINTY)
    · rw [hc] at h
      cases h
    · rfl
  simpa [Block.timeConditions, Block.safe, Block.on, and_assoc] using hc

/-- Settles O50: right after reset the pool memory lists nothing, and Meridian time is not set. -/
theorem resetKeepsInvariant : Obligations.ResetKeepsInvariant := by
  have honest : State.reset.timeHonest := by
    unfold State.timeHonest
    decide +kernel
  exact ⟨rfl, rfl, rfl, honest⟩

/-- Settles O51: a step ends in the state itself or in what State.withBlock makes of the module, which settles TIME_VALID and stores what the command
wrote. -/
theorem stepKeepsInvariant : Obligations.StepKeepsInvariant :=
  ⟨fun _ _ => step_inv, fun _ _ _ => exec_inv, fun _ _ h hs => (step_inv h hs).2.2.2.conditions⟩

end Sys2Proof.Machine
end

section
/-! Frames: what the commands of the timing subsystem, a lane, the fabric and the GNSS receiver leave alone (R54, R80, R115, R130, R153, R161, R186, R238, R300, R320, R403, R427). -/

namespace Sys2Proof.Machine

-- Frames of the subsystems

/-- The parts of a module that the commands of a subsystem may change beside entries, free values and event queues. -/
inductive Subsystem where
  | timing | lanes | fabric | gnss

/-- What stays of a module as a subsystem's command acts: all but the subsystem's own parts, entries, free values and event queues. -/
def Block.rest (b : Block) : Subsystem → Block
  | .timing => { b with tm := {}, od := [], free := 0, mg := { b.mg with ev := [] } }
  | .lanes => { b with ln := {}, cross := [], od := [], free := 0, mg := { b.mg with ev := [] } }
  | .fabric => { b with fab := {}, od := [], free := 0, mg := { b.mg with ev := [] } }
  | .gnss => { b with gn := {}, cross := [], od := [], free := 0, mg := { b.mg with ev := [] } }

/-- Module b beside a: it differs in the parts of subsystem u, in entries of the records that `own` holds and in counters, in free values drawn, and in
event queues that have only grown. -/
def Block.actsWithin (a b : Block) (u : Subsystem) (own : Nat → Prop) : Prop :=
  b.rest u = a.rest u ∧ (∀ k, ¬own (k % 2 ^ 24 / 256) → ¬counterKey k → b.rd k = a.rd k) ∧
    ∀ t, (∀ e, e ∈ (tat {} a.mg.ev t).queue → e ∈ (tat {} b.mg.ev t).queue) ∧ (tat {} a.mg.ev t).lost ≤ (tat {} b.mg.ev t).lost

section

variable {u : Subsystem} {own : Nat → Prop}

/-- A change of the subsystem's own parts alone. -/
theorem Block.actsWithin_parts {a b : Block} (hr : b.rest u = a.rest u) (hod : b.od = a.od) (hev : b.mg.ev = a.mg.ev) : a.actsWithin b u own := by
  refine ⟨hr, fun k _ _ => ?_, fun t => ?_⟩
  · unfold Block.rd
    rw [hod]
  · rw [hev]
    exact ⟨fun _ h => h, Nat.le_refl _⟩

theorem Block.actsWithin_refl (b : Block) : b.actsWithin b u own := Block.actsWithin_parts rfl rfl rfl

theorem Block.actsWithin.trans {a b c : Block} (h : a.actsWithin b u own) (g : b.actsWithin c u own) : a.actsWithin c u own := by
  obtain ⟨hrest, hrd, hev⟩ := h
  obtain ⟨grest, grd, gev⟩ := g
  exact ⟨grest.trans hrest, fun k hk hc => (grd k hk hc).trans (hrd k hk hc), fun t => ⟨fun e he => (gev t).1 e ((hev t).1 e he), (hev t).2.trans (gev t).2⟩⟩

theorem Block.actsWithin_wr (b : Block) {k : Nat} (v : Int) (hk : own (k % 2 ^ 24 / 256)) : b.actsWithin (b.wr k v) u own := by
  refine ⟨by cases u <;> rfl, fun j hj _ => b.rd_wr_ne v ?_, fun _ => ⟨fun _ h => h, Nat.le_refl _⟩⟩
  rintro rfl
  exact hj hk

theorem Block.sameButEvents.actsWithin {a b : Block} (h : a.sameButEvents b) : a.actsWithin b u own := by
  obtain ⟨⟨_, _, _, rfl⟩, hrd, hev⟩ := h
  exact ⟨by cases u <;> rfl, fun k _ hc => hrd k hc, hev⟩

section

variable {a b : Block} (h : a.actsWithin b u own)

include h

theorem Block.actsWithin.parts {c : Block} (hr : c.rest u = b.rest u) (hod : c.od = b.od) (hev : c.mg.ev = b.mg.ev) : a.actsWithin c u own :=
  h.trans (Block.actsWithin_parts hr hod hev)

/-- An entry written of a record that the subsystem's command owns. -/
theorem Block.actsWithin.wr {i sub : Nat} (v : Int) (hi : own i) (hlt : i < 65536 := by omega) (hs : sub < 256 := by omega) :
    a.actsWithin (b.wr (key i sub) v) u own := by
  refine h.trans (b.actsWithin_wr v ?_)
  rwa [show key i sub % 2 ^ 24 / 256 = i by unfold key; omega]

theorem Block.actsWithin.ite {c : Block} {p : Prop} [Decidable p] (g : a.actsWithin c u own) : a.actsWithin (if p then b else c) u own := by
  split
  · exact h
  · exact g

theorem Block.actsWithin.raise (num x y : Nat) : a.actsWithin (b.raise num x y) u own := h.trans (b.sameButEvents_raise num x y).actsWithin

/-- An event of a subsystem whose events cross clocks: told, or on its way across the crossing. -/
theorem Block.actsWithin.report (num x y : Nat) (hu : u = .lanes ∨ u = .gnss) : a.actsWithin (b.report num x y) u own := by
  unfold Block.report
  split
  · exact h.parts (by rcases hu with rfl | rfl <;> rfl) rfl rfl
  · exact h.raise num x y

theorem Block.actsWithin.foldl {β : Type} (f : Block → β → Block) (l : List β) (hf : ∀ (c : Block), ∀ e ∈ l, a.actsWithin c u own → a.actsWithin (f c e) u own) :
    a.actsWithin (l.foldl f b) u own := by
  induction l generalizing b with
  | nil => exact h
  | cons e r ih => exact ih (hf b e List.mem_cons_self h) fun c d hd => hf c d (List.mem_cons_of_mem _ hd)

end

end

-- The frames as the statements say them

section

variable {a b : Block} {own : Nat → Prop}

theorem Block.actsWithin.timing (h : a.actsWithin b .timing own) : ∃ tm, ({ a with tm := tm } : Block).within b own :=
  ⟨b.tm, ⟨b.od, b.free, b.mg.ev, congrArg (fun x : Block => { x with tm := b.tm, od := b.od, free := b.free, mg := { x.mg with ev := b.mg.ev } }) h.1⟩, h.2⟩

theorem Block.actsWithin.lanes (h : a.actsWithin b .lanes own) : ∃ ln cross, ({ a with ln := ln, cross := cross } : Block).within b own :=
  ⟨b.ln, b.cross, ⟨b.od, b.free, b.mg.ev,
    congrArg (fun x : Block => { x with ln := b.ln, cross := b.cross, od := b.od, free := b.free, mg := { x.mg with ev := b.mg.ev } }) h.1⟩, h.2⟩

theorem Block.actsWithin.fabric (h : a.actsWithin b .fabric own) : ∃ fab, ({ a with fab := fab } : Block).within b own :=
  ⟨b.fab, ⟨b.od, b.free, b.mg.ev, congrArg (fun x : Block => { x with fab := b.fab, od := b.od, free := b.free, mg := { x.mg with ev := b.mg.ev } }) h.1⟩,
    h.2⟩

theorem Block.actsWithin.gnss (h : a.actsWithin b .gnss own) : ∃ gn cross, ({ a with gn := gn, cross := cross } : Block).within b own :=
  ⟨b.gn, b.cross, ⟨b.od, b.free, b.mg.ev,
    congrArg (fun x : Block => { x with gn := b.gn, cross := b.cross, od := b.od, free := b.free, mg := { x.mg with ev := b.mg.ev } }) h.1⟩, h.2⟩

end

section

variable {a b : Block} {own : Nat → Prop}

theorem Block.actsWithin.withTm (h : a.actsWithin b .timing own) (tm : Timing) : a.actsWithin { b with tm := tm } .timing own := h.parts rfl rfl rfl

theorem Block.actsWithin.withLn (h : a.actsWithin b .lanes own) (ln : Lanes) : a.actsWithin { b with ln := ln } .lanes own := h.parts rfl rfl rfl

theorem Block.actsWithin.withFab (h : a.actsWithin b .fabric own) (fab : Fabric) : a.actsWithin { b with fab := fab } .fabric own := h.parts rfl rfl rfl

theorem Block.actsWithin.withGn (h : a.actsWithin b .gnss own) (gn : Gnss) : a.actsWithin { b with gn := gn } .gnss own := h.parts rfl rfl rfl

end

-- Timing

/-- The records of the timing subsystem (OD 0x20xx to 0x29xx). -/
def timingRecord (x : Nat) : Prop := 0x2000 ≤ x ∧ x < 0x2A00

section

variable (b : Block)

theorem Block.actsWithin_warmupClear : b.actsWithin b.warmupClear .timing timingRecord :=
  .ite (.raise (.withTm (.wr (.wr b.actsWithin_refl _ ⟨by omega, by omega⟩) _ ⟨by omega, by omega⟩) _) _ _ _) b.actsWithin_refl

theorem Block.actsWithin_applyLeap : b.actsWithin b.applyLeap .timing timingRecord := by
  have hutc : timingRecord 0x2002 := ⟨by omega, by omega⟩
  have happlied (d : Int) : b.actsWithin (((b.setMt fun m => { m with preLeap := some (b.rd Od.MT_UTC_OFFSET) }).wr Od.MT_UTC_OFFSET d).wr
      Od.MT_LEAP_PENDING 0) .timing timingRecord := .wr (.wr (.withTm b.actsWithin_refl _) _ hutc) _ hutc
  exact .raise (.wr (.ite (.wr (.wr (happlied _) _ hutc) _ hutc) (happlied _)) _ ⟨by omega, by omega⟩) _ _ _

theorem Block.actsWithin_leapDue : b.actsWithin b.leapDue .timing timingRecord := .ite b.actsWithin_applyLeap b.actsWithin_refl

theorem Block.actsWithin_modelSave : b.actsWithin b.modelSave .timing timingRecord := .ite b.actsWithin_refl (.withTm b.actsWithin_refl _)

theorem Block.actsWithin_linkCalSave : b.actsWithin b.linkCalSave .timing timingRecord := .ite b.actsWithin_refl (.withTm b.actsWithin_refl _)

theorem Block.actsWithin_refinTimeout {r : Nat} (hr : r < 2) : b.actsWithin (b.refinTimeout r) .timing timingRecord := by
  unfold Block.refinTimeout
  split
  · exact .ite (.wr b.actsWithin_refl _ ⟨by omega, by omega⟩) b.actsWithin_refl
  · exact b.actsWithin_refl

theorem Block.actsWithin_refinFreq {r : Nat} (present : Bool) (hr : r < 2) : b.actsWithin (b.refinFreq r present) .timing timingRecord :=
  .ite b.actsWithin_refl (.ite (.wr b.actsWithin_refl _ ⟨by omega, by omega⟩) (.wr b.actsWithin_refl _ ⟨by omega, by omega⟩))

theorem Block.actsWithin.refreshOuts {a b : Block} (h : a.actsWithin b .timing timingRecord) : a.actsWithin b.refreshOuts .timing timingRecord := by
  unfold Block.refreshOuts
  refine h.foldl _ _ fun c n hn hc => ?_
  have hn := List.mem_range.mp hn
  exact .wr (.ite (.wr hc _ ⟨by omega, by omega⟩) hc) _ ⟨by omega, by omega⟩

theorem Block.actsWithin_squelch {n : Nat} (hn : n < 8) : b.actsWithin (b.squelch n) .timing timingRecord :=
  .ite (.refreshOuts (.raise (.wr (.withTm (.withTm (.withTm b.actsWithin_refl _) _) _) _ ⟨by omega, by omega⟩) _ _ _)) b.actsWithin_refl

theorem Block.actsWithin_alignLoss {n : Nat} (hn : n < 8) : b.actsWithin (b.alignLoss n) .timing timingRecord :=
  .ite (.refreshOuts (.raise (.wr (.withTm b.actsWithin_refl _) _ ⟨by omega, by omega⟩) _ _ _)) b.actsWithin_refl

theorem Block.actsWithin_reelPeerTimeout {p : Nat} (hp : p < 32) : b.actsWithin (b.reelPeerTimeout p) .timing timingRecord :=
  .ite (.withTm (.raise (.wr (.wr b.actsWithin_refl _ ⟨by omega, by omega⟩) _ ⟨by omega, by omega⟩) _ _ _) _) b.actsWithin_refl

-- Lanes, fabric, GNSS receiver

theorem Block.actsWithin_trainTimeout {l : Nat} (hl : l < 32) : b.actsWithin (b.trainTimeout l) .lanes (fun x => x = 0x3800 + l) := by
  have htimed : b.actsWithin (b.trainTime l) .lanes (fun x => x = 0x3800 + l) := .wr b.actsWithin_refl _ (by rfl)
  have hfailed (f : Lane → Lane) : b.actsWithin ((((b.trainTime l).wr (Od.LANE_TRAIN_STATE l) 3).orBits (Od.LANE_STICKY l) 1).setLane l f) .lanes
      (fun x => x = 0x3800 + l) := .withLn (.wr (.wr htimed _ (by rfl)) _ (by rfl)) _
  exact .ite (.ite (.report (hfailed _) _ _ _ (.inl rfl)) (hfailed _)) b.actsWithin_refl

theorem Block.actsWithin_agePass : b.actsWithin b.agePass .fabric (fun x => x = 0x3000) :=
  .ite b.actsWithin_refl (.withFab (.wr (.withFab b.actsWithin_refl _) _ (by rfl)) _)

/-- The records of the GNSS receiver (OD 0x40xx). -/
def gnssRecord (x : Nat) : Prop := 0x4000 ≤ x ∧ x < 0x4100

theorem Block.actsWithin_antRetry : b.actsWithin b.antRetry .gnss gnssRecord := .ite (.withGn b.actsWithin_refl _) b.actsWithin_refl

theorem Block.actsWithin_keepSave : b.actsWithin b.keepSave .gnss gnssRecord := .ite (.withGn b.actsWithin_refl _) b.actsWithin_refl

theorem Block.actsWithin.antState {a b : Block} (h : a.actsWithin b .gnss gnssRecord) (st : Nat) : a.actsWithin (b.antState st) .gnss gnssRecord :=
  .ite h (.report (.wr (.wr h _ ⟨by omega, by omega⟩) _ ⟨by omega, by omega⟩) _ _ _ (.inr rfl))

theorem Block.actsWithin_antChange (current : Nat) (limited : Bool) : b.actsWithin (b.antChange current limited) .gnss gnssRecord := by
  refine .ite (.antState (.withGn b.actsWithin_refl _) _) (.ite b.actsWithin_refl (.ite ?_ (.antState (.withGn b.actsWithin_refl _) _)))
  dsimp only
  split
  · exact .ite (.antState (.withGn (.withGn b.actsWithin_refl _) _) _) (.withGn b.actsWithin_refl _)
  · exact .withGn b.actsWithin_refl _

theorem Block.actsWithin_jamDetect (l1 l5 : Nat) : b.actsWithin (b.jamDetect l1 l5) .gnss gnssRecord := by
  have hread (f : Gnss → Gnss) (agc jam : Int) : b.actsWithin (((b.setGn f).wr Od.GNSS_AGC agc).wr Od.GNSS_JAM_IND jam) .gnss gnssRecord :=
    .wr (.wr (.withGn b.actsWithin_refl _) _ ⟨by omega, by omega⟩) _ ⟨by omega, by omega⟩
  refine .ite b.actsWithin_refl (.ite (.withGn (hread _ _ _) _) ?_)
  dsimp only
  split
  · exact .ite (.report (.wr (.withGn (.withGn (hread _ _ _) _) _) _ ⟨by omega, by omega⟩) _ _ _ (.inr rfl)) (.withGn (hread _ _ _) _)
  · exact .withGn (hread _ _ _) _

end

/-- Settles O58: each command changes its subsystem's own parts, entries of its own records, and counters and events alone. -/
theorem framesTimingAndUnits : Obligations.FramesTimingAndUnits := by
  unfold Obligations.FramesTimingAndUnits
  refine ⟨fun s i hup hi => ?timing, fun s l hup => ?lane, fun s hup => ?fabric, fun s i hup hi => ?gnss, fun s hup => ?segments, fun s hup => ?image⟩
  case timing =>
    simp only [List.mem_cons, List.not_mem_nil, or_false] at hi
    rcases hi with (rfl | rfl | rfl | rfl) | ⟨r, rfl⟩ | ⟨r, v, rfl⟩ | ⟨n, rfl⟩ | ⟨n, rfl⟩ | ⟨p, rfl⟩
    · exact State.leads_act s _ (fun _ b => b.warmupClear) _ rfl hup s.m.actsWithin_warmupClear.timing
    · exact State.leads_act s _ (fun _ b => b.leapDue) _ rfl hup s.m.actsWithin_leapDue.timing
    · exact State.leads_act s _ (fun _ b => b.modelSave) _ rfl hup s.m.actsWithin_modelSave.timing
    · exact State.leads_act s _ (fun _ b => b.linkCalSave) _ rfl hup s.m.actsWithin_linkCalSave.timing
    · exact State.leads_act s _ (fun _ b => b.refinTimeout r) _ rfl hup (s.m.actsWithin_refinTimeout r.isLt).timing
    · exact State.leads_act s _ (fun _ b => b.refinFreq r v) _ rfl hup (s.m.actsWithin_refinFreq v r.isLt).timing
    · exact State.leads_act s _ (fun _ b => b.squelch n) _ rfl hup (s.m.actsWithin_squelch n.isLt).timing
    · exact State.leads_act s _ (fun _ b => b.alignLoss n) _ rfl hup (s.m.actsWithin_alignLoss n.isLt).timing
    · exact State.leads_act s _ (fun _ b => b.reelPeerTimeout p) _ rfl hup (s.m.actsWithin_reelPeerTimeout p.isLt).timing
  case lane => exact State.leads_act s _ (fun _ b => b.trainTimeout l) _ rfl hup (s.m.actsWithin_trainTimeout l.isLt).lanes
  case fabric => exact State.leads_act s _ (fun _ b => b.agePass) _ rfl hup s.m.actsWithin_agePass.fabric
  case gnss =>
    rcases hi with rfl | rfl | ⟨c, l, rfl⟩ | ⟨a, f, rfl⟩
    · exact State.leads_act s _ (fun _ b => b.antRetry) _ rfl hup s.m.actsWithin_antRetry.gnss
    · exact State.leads_act s _ (fun _ b => b.keepSave) _ rfl hup s.m.actsWithin_keepSave.gnss
    · exact State.leads_act s _ (fun _ b => b.antChange c l) _ rfl hup (s.m.actsWithin_antChange c l).gnss
    · exact State.leads_act s _ (fun _ b => b.jamDetect a f) _ rfl hup (s.m.actsWithin_jamDetect a f).gnss
  case segments => exact State.leads_act s _ (fun _ b => b.segTimeout) _ rfl hup ⟨_, _, rfl⟩
  case image =>
    refine State.leads_act s _ (fun _ b => b.imgConfirm) _ rfl hup ?_
    unfold Block.imgConfirm
    split
    · exact ⟨_, rfl⟩
    · exact ⟨s.m.pw.images, rfl⟩

end Sys2Proof.Machine
end

section
/-! Meridian time set, stepped and wrapped; targets that fall due, leap seconds, the residual of a domain switch (R38, R41, R47, R54, R64, R526). -/

namespace Sys2Proof.Machine

-- What leaves the Meridian state alone

theorem Block.sameButEvents.tm {b c : Block} (h : b.sameButEvents c) : c.tm = b.tm := by
  obtain ⟨⟨_, _, _, rfl⟩, -⟩ := h
  rfl

@[simp] theorem Block.raise_tm (b : Block) (num x y : Nat) : (b.raise num x y).tm = b.tm := (b.sameButEvents_raise num x y).tm

@[simp] theorem Block.report_tm (b : Block) (num x y : Nat) : (b.report num x y).tm = b.tm := by
  unfold Block.report
  split
  · rfl
  · exact b.raise_tm num x y

@[simp] theorem Block.need_tm (b : Block) (c : FastClock) : (b.need c).tm = b.tm := by
  obtain ⟨_, _, _, h⟩ := b.need_eq c
  rw [h]

@[simp] theorem Block.orBits_tm (b : Block) (k m : Nat) : (b.orBits k m).tm = b.tm := rfl

theorem Block.mt_foldl {β : Type} (f : Block → β → Block) (l : List β) (h : ∀ (c : Block) (e : β), (f c e).tm.mt = c.tm.mt) (b : Block) :
    (l.foldl f b).tm.mt = b.tm.mt := by
  induction l generalizing b with
  | nil => rfl
  | cons e r ih => exact (ih (f b e)).trans (h b e)

@[simp] theorem Block.refreshOuts_mt (b : Block) : b.refreshOuts.tm.mt = b.tm.mt := by
  unfold Block.refreshOuts
  exact Block.mt_foldl _ _ (fun c n => by dsimp only; split <;> rfl) b

@[simp] theorem Block.refreshPending_mt (b : Block) : b.refreshPending.tm.mt = b.tm.mt := by
  unfold Block.refreshPending
  exact Block.mt_foldl _ _ (by intros; rfl) b

@[simp] theorem Block.reacquire_mt (b : Block) (e : Nat) (at_ : Int) : (b.reacquire e at_).tm.mt = b.tm.mt := by
  unfold Block.reacquire Block.holdEngine
  split
  · rfl
  · exact Block.mt_foldl (fun c n => c.holdOut n at_) _ (by intros; rfl) _

@[simp] theorem Block.takeCfgs_mt (b : Block) (cfgs : List OutCfg) (at_ : Int) : (b.takeCfgs cfgs at_).tm.mt = b.tm.mt := by
  have htake (c : Block) (n : Nat) (x : OutCfg) : (c.takeCfg n x).tm.mt = c.tm.mt := by
    unfold Block.takeCfg
    split <;> rfl
  unfold Block.takeCfgs Block.resumeOuts
  refine (Block.mt_foldl _ _ (fun c n => ?resumes) _).trans ((Block.mt_foldl _ _ (fun c n => ?takes) _).trans (Block.mt_foldl _ _ (by intros; rfl) b))
  case resumes => split <;> rfl
  case takes =>
    split
    · exact htake _ _ _
    · rfl

@[simp] theorem Block.stepOutputs_mt (b : Block) (old : Nat) : (b.stepOutputs old).tm.mt = b.tm.mt := by
  unfold Block.stepOutputs
  refine (Block.refreshOuts_mt _).trans ((Block.mt_foldl _ _ (fun c n => ?_) _).trans (by simp))
  split
  · rfl
  · simp only [Block.raise_tm, Block.orBits_tm]
    split <;> rfl

@[simp] theorem Block.target_congr {b c : Block} (o : Owner) (h : c.tm.mt = b.tm.mt) : c.target o = b.target o := by
  unfold Block.target
  rw [h]

@[simp] theorem Block.target_disarm (b : Block) (o : Owner) : (b.disarm o).target o = none := tget_tdel_same _ _

-- The actions of targets that fall due

theorem Block.applyCommit_target {b : Block} (late : Bool) (h : b.tm.commit.isSome = true) : (b.applyCommit late).target .outCommit = none := by
  obtain ⟨c, hc⟩ := Option.isSome_iff_exists.mp h
  have hraised (d : Block) (mask : Nat) : (if late then (d.raise 0x2410 0 mask).raise 0x2411 0 mask else d.raise 0x2410 0 mask).tm.mt = d.tm.mt := by
    split <;> simp
  have hshown (d : Block) (mask : Nat) : (if late then (d.refreshOuts.refreshPending.raise 0x2410 0 mask).raise 0x2411 0 mask
      else d.refreshOuts.refreshPending.raise 0x2410 0 mask).tm.mt = d.tm.mt := (hraised _ _).trans (by simp)
  unfold Block.applyCommit
  simp only [hc]
  exact (Block.target_congr .outCommit (hshown _ _)).trans (Block.target_disarm (Block.setTm _ _) .outCommit)

theorem Block.gclApplied_target (b : Block) (p : Fin 32) (c : GatePend) : (b.gclApplied p c).target (.gcl p) = none := by
  have hp : Fin.ofNat 32 p.val = p := Fin.ofNat_val_eq_self p
  unfold Block.gclApplied
  rw [hp]
  exact (Block.target_congr (.gcl p) (congrArg Timing.mt (Block.report_tm _ _ _ _))).trans (Block.target_disarm _ (.gcl p))

theorem Block.gclApply_target {b : Block} {p : Fin 32} {g : GatePend} (hg : (b.pf p).gate.pend = some g) (hu : upTo g.at_ b.mer = true) :
    (b.gclApply p).target (.gcl p) = none := by
  unfold Block.gclApply
  rw [hg]
  simp only [hu, if_true]
  exact b.gclApplied_target p g

theorem Block.ticArmNow_target (b : Block) (c : Nat) (o : Owner) : (b.ticArmNow c).target o = b.target o := by
  refine Block.target_congr o ?_
  unfold Block.ticArmNow
  split <;> rfl

theorem Block.injStart_target {b : Block} {l : Fin 32} (h : (b.lane l).injArmed = true) : (b.injStart l).target (.lane l) = none := by
  have hl : Fin.ofNat 32 l.val = l := Fin.ofNat_val_eq_self l
  unfold Block.injStart
  rw [if_pos h, hl]
  exact Block.target_disarm _ _

theorem Block.fipStart_target {b : Block} {p : Fin 32} (ha : (b.pf p).fip.armed = true) (hq : (b.pf p).fip.acting = false) :
    (b.fipStart p).target (.injector p) = none := by
  have hp : Fin.ofNat 32 p.val = p := Fin.ofNat_val_eq_self p
  unfold Block.fipStart
  rw [if_pos ⟨ha, by simp [hq]⟩, hp]
  exact (Block.target_congr (.injector p) (congrArg Timing.mt (Block.raise_tm _ _ _ _))).trans (Block.target_disarm _ _)

/-- A target that is due, with what it was armed for still there, is disarmed as its owner acts (R47). -/
theorem Block.targetDue_target {b : Block} {o : Owner} {t : Target} (ht : b.target o = some t) (hdue : b.due t.tick = true)
    (hcommit : o = .outCommit → b.tm.commit.isSome = true) (hgcl : ∀ p, o = .gcl p → ∃ g, (b.pf p).gate.pend = some g ∧ upTo g.at_ b.mer = true)
    (hlane : ∀ l, o = .lane l → (b.lane l).injArmed = true)
    (hfip : ∀ p, o = .injector p → (b.pf p).fip.armed = true ∧ (b.pf p).fip.acting = false) : (b.targetDue o).target o = none := by
  unfold Block.targetDue
  simp only [ht, hdue, Bool.not_true, Bool.false_eq_true, if_false]
  cases o with
  | outCommit => exact Block.applyCommit_target _ (hcommit rfl)
  | gcl p =>
    obtain ⟨g, hg, hu⟩ := hgcl p rfl
    refine Block.gclApply_target (by rwa [Block.need_pf]) ?_
    rwa [Block.mer, Block.need_tm]
  | tic c => exact (Block.ticArmNow_target _ _ _).trans (Block.target_disarm _ _)
  | lane l => exact Block.injStart_target (hlane l rfl)
  | injector p =>
    obtain ⟨ha, hq⟩ := hfip p rfl
    exact Block.fipStart_target (by rwa [Block.need_pf]) (by rwa [Block.need_pf])

-- A step of Meridian time

/-- Module b has the Meridian time of a, and has counted as many steps of it. -/
def Block.keepsTime (a b : Block) : Prop := b.mer = a.mer ∧ b.tm.mt.steps = a.tm.mt.steps

theorem Block.keepsTime_refl (b : Block) : b.keepsTime b := ⟨rfl, rfl⟩

section

variable {a b : Block} (h : a.keepsTime b)

include h

theorem Block.keepsTime.trans {c : Block} (g : b.keepsTime c) : a.keepsTime c := ⟨g.1.trans h.1, g.2.trans h.2⟩

theorem Block.keepsTime.sameMt {c : Block} (g : c.tm.mt = b.tm.mt) : a.keepsTime c := by
  unfold Block.keepsTime Block.mer
  rw [g]
  exact h

theorem Block.keepsTime.withOd (od : Table Int) : a.keepsTime { b with od := od } := h

theorem Block.keepsTime.withFab (fab : Fabric) : a.keepsTime { b with fab := fab } := h

theorem Block.keepsTime.dumpStep : a.keepsTime b.dumpStep := h

theorem Block.keepsTime.raise (num x y : Nat) : a.keepsTime (b.raise num x y) := h.sameMt (congrArg Timing.mt (b.raise_tm num x y))

theorem Block.keepsTime.report (num x y : Nat) : a.keepsTime (b.report num x y) := h.sameMt (congrArg Timing.mt (b.report_tm num x y))

theorem Block.keepsTime.ite {c : Block} {p : Prop} [Decidable p] (g : a.keepsTime c) : a.keepsTime (if p then b else c) := by
  split
  · exact h
  · exact g

theorem Block.keepsTime.foldl {β : Type} (f : Block → β → Block) (l : List β) (hf : ∀ (c : Block) (e : β), a.keepsTime c → a.keepsTime (f c e)) :
    a.keepsTime (l.foldl f b) := by
  induction l generalizing b with
  | nil => exact h
  | cons e r ih => exact ih (hf b e h)

theorem Block.keepsTime.lateTarget : a.keepsTime b.lateTarget := .raise (.withOd h _) _ _ _

theorem Block.keepsTime.leapDue : a.keepsTime b.leapDue := by
  have hpend (d : Int) : a.keepsTime (((b.setMt fun m => { m with preLeap := some (b.rd Od.MT_UTC_OFFSET) }).wr Od.MT_UTC_OFFSET d).wr Od.MT_LEAP_PENDING 0) := h
  unfold Block.leapDue Block.applyLeap
  exact .ite (.raise (.withOd (.ite (.withOd (.withOd (hpend _) _) _) (hpend _)) _) _ _ _) h

theorem Block.keepsTime.gclApplied (p : Nat) (c : GatePend) : a.keepsTime (b.gclApplied p c) := by
  have hdisarmed (base : Int) (l : Bytes) : a.keepsTime (((((b.wr (Od.GCL_OPER_ENABLE p) (b2n c.on)).wr (Od.GCL_OPER_CYCLE_TIME p) (c.cycle / 65536 : Nat)).wr
    (Od.GCL_OPER_BASE_TIME p) base).wrBlob (Od.GCL_OPER_LIST p) l).disarm (.gcl (Fin.ofNat 32 p))) := h
  exact .report (.withOd (.withOd (hdisarmed _ _) _) _) _ _ _

theorem Block.keepsTime.setGate (p : Nat) (f : Gate → Gate) : a.keepsTime (b.setGate p f) := .withOd (.withFab h _) _

theorem Block.keepsTime.realignGate (p : Nat) : a.keepsTime (b.realignGate p) := by
  unfold Block.realignGate
  dsimp only
  split
  · exact .report (.withOd (.setGate (.gclApplied h p _) p _) _) _ _ _
  · exact .ite (.report (.withOd (.setGate h p _) _) _ _ _) h

theorem Block.keepsTime.realignGates : a.keepsTime b.realignGates := .foldl h _ _ fun _ e hc => .realignGate hc e.1

end

/-- A step makes Meridian time what it steps to, and counts (R41). -/
theorem Block.stepTime_time (b : Block) (new : Nat) : (b.stepTime new).mer = new % wordWrap ∧ (b.stepTime new).tm.mt.steps = b.tm.mt.steps + 1 := by
  have hafter (x : Block) (n : Nat) (p : Prop) [Decidable p] (old : Nat) (hmer : x.mer = new % wordWrap) (hsteps : x.tm.mt.steps = b.tm.mt.steps + 1) :
      let late := (List.range n).foldl (fun c _ => c.lateTarget) ((x.orBits Od.MT_STICKY 2).raise 0x2003)
      let c := ((if p then late.leapDue else late).stepOutputs old).realignGates.dumpStep
      c.mer = new % wordWrap ∧ c.tm.mt.steps = b.tm.mt.steps + 1 := by
    have hlate : x.keepsTime ((List.range n).foldl (fun c _ => c.lateTarget) ((x.orBits Od.MT_STICKY 2).raise 0x2003)) :=
      .foldl (.raise (.withOd x.keepsTime_refl _) _ _ _) _ _ fun _ _ => .lateTarget
    have hkeeps := (Block.keepsTime.sameMt (.ite (p := p) (.leapDue hlate) hlate) (Block.stepOutputs_mt _ old)).realignGates.dumpStep
    exact ⟨hkeeps.1.trans hmer, hkeeps.2.trans hsteps⟩
  unfold Block.stepTime
  dsimp only
  refine hafter _ _ _ _ ?_ ?_ <;> rfl

/-- With SECONDS about to wrap, the next Vesper cycle is a step to what remains past the wrap (R38). -/
theorem Block.secondsWrap_eq {b : Block} (h : wordWrap ≤ b.mer + 655360) :
    b.secondsWrap = ({ b with cyc := b.cyc + 1 } : Block).stepTime (b.mer + 655360 - wordWrap) := by
  have hmer : ({ b with cyc := b.cyc + 1 } : Block).mer = b.mer := rfl
  unfold Block.secondsWrap Block.advance
  simp only [hmer, h, if_true, Nat.not_lt.mpr h, if_false]

theorem Block.secondsWrap_time {b : Block} (hlo : b.mer < wordWrap) (hhi : wordWrap ≤ b.mer + 655360) :
    b.secondsWrap.mer = b.mer + 655360 - wordWrap ∧ b.secondsWrap.tm.mt.steps = b.tm.mt.steps + 1 := by
  have hcycle : 655360 ≤ wordWrap := by
    unfold wordWrap ticksPerSec
    norm_num
  have htime := ({ b with cyc := b.cyc + 1 } : Block).stepTime_time (b.mer + 655360 - wordWrap)
  rwa [← Block.secondsWrap_eq hhi, Nat.mod_eq_of_lt (by omega)] at htime

-- A leap second (R54)

/-- The entries that learning or applying a leap second may change. -/
def leapKey (k : Nat) : Prop :=
  k ∈ [Od.MT_UTC_OFFSET, Od.MT_LEAP_PENDING, Od.MT_LEAP_TAI, Od.MT_UTC_OFFSET_MANUAL, Od.MT_LEAP_MANUAL, Od.MT_UTC_OFFSET_VALID, Od.MT_STICKY] ∨
    counterKey k

theorem not_leapKey_tenant {t sub : Nat} (ht : t < 8) (hs : sub < 256) : ¬leapKey (key (0x1110 + t) sub) := by
  simp only [leapKey, counterKey, Od.MT_UTC_OFFSET, Od.MT_LEAP_PENDING, Od.MT_LEAP_TAI, Od.MT_UTC_OFFSET_MANUAL, Od.MT_LEAP_MANUAL, Od.MT_UTC_OFFSET_VALID,
    Od.MT_STICKY, key, List.mem_cons, List.not_mem_nil, or_false]
  omega

theorem not_leapKey_timeSet : ¬leapKey Od.MT_TIME_SET := by
  unfold leapKey counterKey
  decide

/-- A leap second applied: the offset in force moves by it, it pends no more, and the event is raised over its sticky bit (R54). -/
theorem Block.applyLeap_eq (b : Block) : ∃ c : Block, b.applyLeap = (c.orBits Od.MT_STICKY 8).raise 0x2007 ∧
    c.rd Od.MT_UTC_OFFSET = b.rd Od.MT_UTC_OFFSET + (if b.rdN Od.MT_LEAP_PENDING = 1 then 1 else -1) ∧ c.rd Od.MT_LEAP_PENDING = 0 ∧
      c.rd Od.MT_STICKY = b.rd Od.MT_STICKY ∧ (∀ k, ¬leapKey k → c.rd k = b.rd k) ∧ c.mg = b.mg := by
  have hread (c d : Block) (p : Prop) [Decidable p] (k : Nat) : (if p then c else d).rd k = if p then c.rd k else d.rd k := apply_ite (Block.rd · k) p c d
  refine ⟨_, rfl, ?_, ?_, ?_, fun k hk => ?_, ?_⟩
  · rw [hread]
    simp [Block.rd_wr, Od.MT_UTC_OFFSET, Od.MT_LEAP_PENDING, Od.MT_UTC_OFFSET_MANUAL, Od.MT_LEAP_MANUAL, key]
  · rw [hread]
    simp [Block.rd_wr, Od.MT_LEAP_PENDING, Od.MT_UTC_OFFSET_MANUAL, Od.MT_LEAP_MANUAL, key]
  · rw [hread]
    simp [Block.rd_wr, Od.MT_UTC_OFFSET, Od.MT_LEAP_PENDING, Od.MT_UTC_OFFSET_MANUAL, Od.MT_LEAP_MANUAL, Od.MT_STICKY, key]
  · simp only [leapKey, List.mem_cons, List.not_mem_nil, or_false, not_or] at hk
    obtain ⟨⟨hoff, hpend, -, hmanual, hleap, -, -⟩, -⟩ := hk
    rw [hread]
    simp [Block.rd_wr, Ne.symm hoff, Ne.symm hpend, Ne.symm hmanual, Ne.symm hleap]
  · exact (apply_ite Block.mg _ _ _).trans (ite_self _)

theorem Block.rd_applyLeap (b : Block) {k : Nat} (hk : ¬leapKey k) : b.applyLeap.rd k = b.rd k := by
  obtain ⟨c, heq, -, -, -, hrd, -⟩ := b.applyLeap_eq
  have hcnt : ¬counterKey k := fun h => hk (.inr h)
  have hsticky : Od.MT_STICKY ≠ k := by
    rintro rfl
    exact hk (.inl (by decide))
  rw [heq, Block.rd_raise _ _ _ _ _ hcnt, c.rd_orBits_ne _ hsticky, hrd k hk]

theorem Block.rd_leapDue (b : Block) {k : Nat} (hk : ¬leapKey k) : b.leapDue.rd k = b.rd k := by
  unfold Block.leapDue
  split
  · exact b.rd_applyLeap hk
  · rfl

/-- What a leap second applied leaves of the offset, of itself and of MT_STICKY, and that it is told (R54). -/
theorem Block.applyLeap_spec (b : Block) :
    b.applyLeap.rd Od.MT_UTC_OFFSET = b.rd Od.MT_UTC_OFFSET + (if b.rdN Od.MT_LEAP_PENDING = 1 then 1 else -1) ∧ b.applyLeap.rd Od.MT_LEAP_PENDING = 0 ∧
      b.applyLeap.rdN Od.MT_STICKY = b.rdN Od.MT_STICKY ||| 8 ∧ b.told b.applyLeap 0x2007 0 0 := by
  obtain ⟨c, heq, hoff, hpend, hsticky, hrd, hmg⟩ := b.applyLeap_eq
  have hmask {t sub : Nat} (ht : t < 8) (hs : sub < 256) : b.rdN (key (0x1110 + t) sub) = (c.orBits Od.MT_STICKY 8).rdN (key (0x1110 + t) sub) := by
    unfold Block.rdN
    rw [c.rd_orBits_ne _ (by unfold Od.MT_STICKY key; omega), hrd _ (not_leapKey_tenant ht hs)]
  rw [heq]
  refine ⟨?_, ?_, ?_, Block.told_raise _ _ _ (fun t ht => ⟨hmask ht (by decide), hmask ht (by decide)⟩) fun t => ?_⟩
  · rw [Block.rd_raise _ _ _ _ _ (by unfold counterKey; decide), c.rd_orBits_ne _ (by decide), hoff]
  · rw [Block.rd_raise _ _ _ _ _ (by unfold counterKey; decide), c.rd_orBits_ne _ (by decide), hpend]
  · rw [Block.rdN, Block.rd_raise _ _ _ _ _ (by unfold counterKey; decide)]
    exact (c.rdN_orBits _ _).trans (by rw [Block.rdN, hsticky, Block.rdN])
  · show _ ≤ (tat {} c.mg.ev t).lost
    rw [hmg]

theorem Block.domResidualZero_spec {b : Block} (hs : b.tm.mt.dom.start ≠ 0) (hr : b.tm.mt.dom.rate ≠ 0) (hz : b.domResidual = 0) :
    b.domResidualZero.tm.mt.dom = {} ∧ b.told b.domResidualZero 0x2005 0 0 := by
  have heq : b.domResidualZero = (b.setMt fun m => { m with dom := {} }).raise 0x2005 := if_pos ⟨hs, hr, hz⟩
  rw [heq, Block.raise_tm]
  exact ⟨rfl, Block.told_raise _ _ _ (fun _ _ => ⟨rfl, rfl⟩) fun _ => Nat.le_refl _⟩

-- Time of day set (R526)

theorem Block.rd_showUtc (b : Block) {k : Nat} (hk : ¬leapKey k) : b.showUtc.rd k = b.rd k := by
  refine b.rd_wr_ne _ ?_
  rintro rfl
  exact hk (.inl (by decide))

theorem Block.rd_learnLeap (b : Block) (kind taiSecond : Nat) {k : Nat} (hk : ¬leapKey k) : (b.learnLeap kind taiSecond).rd k = b.rd k := by
  have hcnt : ¬counterKey k := fun h => hk (.inr h)
  have hpend : Od.MT_LEAP_PENDING ≠ k := by rintro rfl; exact hk (.inl (by decide))
  have htai : Od.MT_LEAP_TAI ≠ k := by rintro rfl; exact hk (.inl (by decide))
  unfold Block.learnLeap
  dsimp only
  split
  · rw [Block.rd_wr_ne _ _ hpend, b.rd_leapDue hk]
  · split
    · rw [Block.rd_raise _ _ _ _ _ hcnt, Block.rd_wr_ne _ _ htai, Block.rd_wr_ne _ _ hpend, b.rd_leapDue hk]
    · rw [Block.rd_wr_ne _ _ htai, Block.rd_wr_ne _ _ hpend, b.rd_leapDue hk]

theorem Block.rd_takeManual (b : Block) {k : Nat} (hk : ¬leapKey k) : b.takeManual.rd k = b.rd k := by
  have hoff : Od.MT_UTC_OFFSET ≠ k := by rintro rfl; exact hk (.inl (by decide))
  unfold Block.takeManual
  split
  · rw [Block.rd_showUtc _ hk, Block.rd_learnLeap _ _ _ hk, Block.rd_wr_ne _ _ hoff, Block.setMt_rd]
  · rfl

theorem Block.keepsTime.learnLeap {a b : Block} (h : a.keepsTime b) (kind taiSecond : Nat) : a.keepsTime (b.learnLeap kind taiSecond) := by
  unfold Block.learnLeap
  exact .ite (.withOd (.leapDue h) _) (.ite (.raise (.withOd (.withOd (.leapDue h) _) _) _ _ _) (.withOd (.withOd (.leapDue h) _) _))

theorem Block.keepsTime.takeManual {a b : Block} (h : a.keepsTime b) : a.keepsTime b.takeManual := by
  have hgood (v : Int) : a.keepsTime ((b.setMt fun m => { m with utcGood := true }).wr Od.MT_UTC_OFFSET v) := h
  unfold Block.takeManual
  exact .ite (.withOd (.learnLeap (hgood _) _ _) _) h

theorem Block.keepsTime.reportHoldover {a b : Block} (h : a.keepsTime b) (tau : Nat) : a.keepsTime (b.reportHoldover tau) := by
  have hwarned (c : Block) (hc : a.keepsTime c) : a.keepsTime c.warnTimeLeft := by
    unfold Block.warnTimeLeft
    split
    · exact .raise (.withOd (.sameMt (c := c.setHo _) hc rfl) _) _ _ _
    · exact hc
  exact hwarned _ (.withOd (.withOd (.withOd h _) _) _)

theorem Block.carryStep_mer (b : Block) (s : Int) : (b.carryStep s).mer = b.mer := rfl

/-- MT_SET_TIME while no slot is SELECTED: Meridian time is the word written, and is set (R526). -/
theorem Block.setTime_spec {b : Block} {word : Nat} (h : b.selected = none) (hw : word < wordWrap) :
    (b.setTime word).mer = word ∧ (b.setTime word).rd Od.MT_TIME_SET = 1 := by
  have hstep : (b.stepTime word).mer = word := (b.stepTime_time word).1.trans (Nat.mod_eq_of_lt hw)
  have hmer {c d : Block} (hc : c.mer = word) (h : c.keepsTime d) : d.mer = word := h.1.trans hc
  have hset (c : Block) (hc : c.mer = word) :
      let d := c.wr Od.MT_TIME_SET 1
      let x := if d.rdN Od.MT_LEAP_PENDING = 0 then d.takeManual else d
      x.mer = word ∧ x.rd Od.MT_TIME_SET = 1 := by
    have hmanual : c.keepsTime (c.wr Od.MT_TIME_SET 1).takeManual := .takeManual (.withOd c.keepsTime_refl _)
    dsimp only
    split
    · exact ⟨hmer hc hmanual, by rw [Block.rd_takeManual _ not_leapKey_timeSet, Block.rd_wr_same]⟩
    · exact ⟨hc, by rw [Block.rd_wr_same]⟩
  have hcarried : ((b.stepTime word).carryStep ((word : Int) - b.mer)).mer = word := (Block.carryStep_mer _ _).trans hstep
  unfold Block.setTime
  simp only [h]
  refine hset _ ?_
  generalize (b.stepTime word).carryStep ((word : Int) - b.mer) = c at hcarried
  split
  · have hheld (f : Holdover → Holdover) : c.keepsTime ((c.setHo f).reportHoldover 0) :=
      Block.keepsTime.reportHoldover (b := c.setHo f) (c.keepsTime_refl.sameMt rfl) 0
    exact hmer hcarried (hheld _)
  · exact hcarried

-- The command as a write

/-- A command written with a value in its range starts what the command does (R527). -/
theorem Block.written_command {a : Block} {w : Waiting} {e : Entry} {v : Int} (h : a.unbarred w = true) (hr : rowOf (key w.req.index w.req.sub) = some e)
    (ht : ∀ x, e.ty ≠ .octets x ∧ e.ty ≠ .string x) (hv : decodeVal e.ty (w.req.data.take w.req.length) = some v)
    (hc : accessOf e w.req.index w.req.sub = .cmd) (hk : a.valueOk e (a.entryKey w.tenant e w.req.index w.req.sub) v = true) :
    a.written w = a.command w.tenant (a.entryKey w.tenant e w.req.index w.req.sub) v.toNat := by
  obtain ⟨hb, hs⟩ := a.unbarred_row h hr
  unfold Block.written Block.writeEntry
  simp only [hr, hb, hs, Bool.false_eq_true, if_false]
  split
  · exact absurd ‹_› (ht _).1
  · exact absurd ‹_› (ht _).2
  · simp only [hv, hc, hk, if_true, ite_self]

/-- The row of MT_SET_TIME. -/
def setTimeRow : Entry := ⟨"MT_SET_TIME", .time96, .cmd, 0, [], .shared⟩

theorem rowOf_setTime : rowOf (key 0x2001 2) = some setTimeRow := by decide +kernel

theorem Block.written_setTime {a : Block} {w : Waiting} {token word : Nat} (hreq : w.req = writeKey token Od.MT_SET_TIME word) (h : a.unbarred w = true)
    (hw : word < wordWrap) : a.written w = (a.setTime word).ok := by
  have hword : w.req.data.take w.req.length = timeBytes word := by
    rw [hreq]
    rfl
  have hindex : w.req.index = 0x2001 ∧ w.req.sub = 2 := by
    rw [hreq]
    exact ⟨rfl, rfl⟩
  have hr : rowOf (key w.req.index w.req.sub) = some setTimeRow := by rw [hindex.1, hindex.2, rowOf_setTime]
  have hkey : a.entryKey w.tenant setTimeRow w.req.index w.req.sub = Od.MT_SET_TIME := by
    rw [hindex.1, hindex.2]
    rfl
  have hv : decodeVal setTimeRow.ty (w.req.data.take w.req.length) = some (word : Int) := by rw [hword, setTimeRow, decodeVal_timeBytes hw]
  have hc : accessOf setTimeRow w.req.index w.req.sub = .cmd := by rw [hindex.1, hindex.2]; rfl
  rw [Block.written_command h hr (fun _ => ⟨nofun, nofun⟩) hv hc (by rw [hkey]; rfl), hkey]
  rfl

theorem Block.sameButBooks.mer {a b : Block} (h : a.sameButBooks b) : b.mer = a.mer := by
  rw [h.1]
  rfl

theorem not_bookKey_timeSet : ¬bookKey Od.MT_TIME_SET := by
  unfold bookKey counterKey
  rintro (h | ⟨i, hi, h⟩)
  · revert h
    decide
  · subst hi
    revert h
    decide

/-- Settles O2: each command by the lemma about its operation; MT_SET_TIME is a write whose effect the answering leaves as it is. -/
theorem timeOfDay : Obligations.TimeOfDay := by
  unfold Obligations.TimeOfDay
  refine ⟨?set, ?wrap, ?due, ?leap, ?residual⟩
  case set =>
    intro s c token word n h hw hsel
    obtain ⟨htakes, hopen⟩ := State.grants_iff.mp h
    obtain ⟨b, hexec, hbooks, hreply⟩ := State.leads_write (i := .mtSetTime c token word) htakes rfl rfl
    rw [Block.written_setTime rfl hopen hw] at hbooks hreply
    obtain ⟨hmer, hset⟩ := Block.setTime_spec hsel hw
    exact ⟨b, hexec, hreply, hbooks.mer.trans hmer, (hbooks.2.1 _ not_bookKey_timeSet).trans hset⟩
  case wrap =>
    intro s hup hlo hhi
    exact State.leads_act s _ (fun _ b => b.secondsWrap) _ rfl hup (Block.secondsWrap_time hlo hhi)
  case due =>
    intro s o t hup ht hdue hcommit hgcl hlane hfip
    exact State.leads_act s _ (fun _ b => b.targetDue o) _ rfl hup (Block.targetDue_target ht hdue hcommit hgcl hlane hfip)
  case leap =>
    intro s hup hpend hreached
    refine State.leads_act s _ (fun _ b => b.leapDue) _ rfl hup ?_
    have hdue : s.m.leapDue = s.m.applyLeap := if_pos ⟨hpend, hreached⟩
    rw [hdue]
    exact s.m.applyLeap_spec
  case residual =>
    intro s hup hs hr hz
    exact State.leads_act s _ (fun _ b => b.domResidualZero) _ rfl hup (Block.domResidualZero_spec hs hr hz)

end Sys2Proof.Machine
end

section
/-! A read of OD 0x2000, and domain observers of a module that uses no slot (R61, R62). -/

namespace Sys2Proof.Machine

-- A read of OD 0x2000 (R61)

/-- The rows of OD 0x2000 are shared entries of numeric types, and none of them is a counter. -/
theorem state_rows : ∀ sub : Fin 8, ∀ e ∈ rowOf (key 0x2000 sub), e.scope = .shared ∧ isCounter (key 0x2000 sub) = false ∧
    e.ty ∈ [EType.u8, .time96, .u64, .u32, .bool] := by decide +kernel

theorem measuredBound_state : ∀ sub : Fin 8, measuredBound (key 0x2000 sub) = none := by decide

/-- Sub-index 1 to 7 of OD 0x2000 reads as the request's arrival latched it. -/
theorem Block.readEntry_state (b : Block) (t : Nat) {e : Entry} {sub : Fin 8} {latch : List Int} {v : Int} (hr : rowOf (key 0x2000 sub) = some e)
    (hv : latch[sub.val - 1]? = some v) (hs : 0 < sub.val) : b.readEntry t e (key 0x2000 sub) latch = (encodeVal e.ty v, b) := by
  obtain ⟨-, -, hty⟩ := state_rows sub e hr
  have hplace : key 0x2000 sub / 256 % 65536 = 0x2000 ∧ key 0x2000 sub % 256 = sub := by
    unfold key
    omega
  have hcomputed : b.computed (key 0x2000 sub) latch = some v := by
    unfold Block.computed
    simp [hplace, hv, hs.ne']
  have hnum : b.readNum t (key 0x2000 sub) latch = (v, b) := by
    have hg : latchGroup (key 0x2000 sub) = [] := by
      unfold latchGroup
      simp [hplace]
    unfold Block.readNum
    simp [measuredBound_state sub, hg, hcomputed]
  unfold Block.readEntry
  simp only [List.mem_cons, List.not_mem_nil, or_false] at hty
  rcases hty with h | h | h | h | h <;> rw [h] <;> simp only [hnum]

theorem State.leads_stateRead {s : State} {c : Caller} {token n : Nat} {sub : Fin 8} {e : Entry} {v : Int}
    (h : s.takes c (readRequest token 0x2000 sub) n = true) (hr : rowOf (key 0x2000 sub) = some e)
    (hv : ((s.m.arriving c (readRequest token 0x2000 sub)).latchMt)[sub.val - 1]? = some v) (hs : 0 < sub.val) :
    s.leads (.mtStateRead c token sub) fun b => b.answers c (reply (readRequest token 0x2000 sub) (typeCode e.ty) 0 0 (encodeVal e.ty v)) := by
  obtain ⟨hserves, hpasses⟩ := State.takes_iff.mp h
  obtain ⟨hscope, hcnt, -⟩ := state_rows sub e hr
  refine State.leads_serves hserves rfl ?_
  have hanswer := (s.m.door c (readRequest token 0x2000 sub) n).answers_answered (s.m.asked c (readRequest token 0x2000 sub) n)
  have hkey (b : Block) (t : Nat) : b.entryKey t e 0x2000 sub = key 0x2000 sub := by
    unfold Block.entryKey
    rw [hscope]
  have hread (b : Block) (t : Nat) := b.readEntry_state t hr hv hs
  rw [Block.answer_read hpasses rfl hr] at hanswer
  simp only [Block.asked, Block.waiting, readRequest, if_true, hkey, hcnt, Bool.false_eq_true, if_false] at hanswer hread ⊢
  rwa [hread] at hanswer

-- A domain observer (R62)

/-- Whether the module uses no slot: none has a kind, none is SELECTED, and every rank is the lowest. -/
def Block.noSlots (b : Block) : Prop := (∀ k < 24, b.slotKind k = 0 ∧ b.rdN (Od.SLOT_RANK k) = 15) ∧ b.selected = none

/-- The records of Meridian time, UTC and the domains (OD 0x20xx). -/
def domainRecord (x : Nat) : Prop := 0x2000 ≤ x ∧ x < 0x2100

/-- What a domain observer does to the records of OD 0x20xx leaves the slots out of use. -/
theorem Block.actsWithin.noSlots {a b : Block} (h : a.actsWithin b .timing domainRecord) (hn : a.noSlots) : b.noSlots := by
  obtain ⟨-, hrd, -⟩ := h
  have hslot {i sub : Nat} (hi : 0x2600 ≤ i ∧ i < 0x2638) (hs : sub < 256) : b.rdN (key i sub) = a.rdN (key i sub) :=
    congrArg Int.toNat (hrd _ (by unfold domainRecord key; omega) (by unfold counterKey key; omega))
  obtain ⟨hkinds, hsel⟩ := hn
  refine ⟨fun k hk => ?_, ?_⟩
  · obtain ⟨hkind, hrank⟩ := hkinds k hk
    exact ⟨(hslot (by omega) (by omega)).trans hkind, (hslot (by omega) (by omega)).trans hrank⟩
  · have hs : b.rdN Od.SEL_SELECTED = a.rdN Od.SEL_SELECTED := hslot (by omega) (by omega)
    unfold Block.selected at hsel ⊢
    rwa [hs]

theorem Block.foldl_eq_self {β : Type} (f : Block → β → Block) (l : List β) (b : Block) (h : ∀ e ∈ l, f b e = b) : l.foldl f b = b := by
  induction l with
  | nil => rfl
  | cons e r ih => rw [List.foldl_cons, h e List.mem_cons_self, ih fun d hd => h d (List.mem_cons_of_mem _ hd)]

section

variable {b : Block} (h : b.noSlots)

include h

theorem Block.noSlots.domainTracked (d : Nat) : b.domainTracked d = b := by
  refine Block.foldl_eq_self _ _ b fun k hk => if_neg ?_
  unfold Block.slotDomain
  rw [(h.1 k (List.mem_range.mp hk)).1]
  exact (Nat.succ_ne_zero d).symm

theorem Block.noSlots.rerankAll : b.rerankAll = b := by
  refine Block.foldl_eq_self _ _ b fun k hk => ?_
  obtain ⟨hkind, hrank⟩ := h.1 k (List.mem_range.mp hk)
  have hnow : b.rankNow k = 15 := by
    unfold Block.rankNow
    rw [hkind]
    exact ite_self _
  unfold Block.rerank
  rw [hnow]
  exact if_pos hrank

theorem Block.noSlots.followUtc : b.followUtc = b.showUtc := by
  unfold Block.followUtc
  rw [h.2]

end

/-- What a domain observer with a signal measures (R62). -/
def Block.takeReading (b : Block) (d : Nat) (r : ObserverReading) : Block :=
  ((((b.wr (Od.DOMX_OFFSET d) r.offset).wr (Od.DOMX_FREQ_OFFSET d) r.freq).wr (Od.DOMX_UNCERTAINTY d) (min unknownUnc r.unc : Nat)).wr
    (Od.DOMX_UTC_OFFSET d) r.utc).setMt fun m => { m with obsArb := tput m.obsArb d r.arb, obsClass := tput m.obsClass d r.clockClass }

/-- A domain observer's state as it is shown, with its event (R62, R67). -/
def Block.showObserver (b : Block) (d st : Nat) : Block :=
  if b.rdN (Od.DOMX_STATE d) = st then b else (b.wr (Od.DOMX_STATE d) st).raise (0x2008 + d) 0 st

theorem Block.actsWithin_takeReading (b : Block) {d : Nat} (r : ObserverReading) (hd : d < 2) :
    b.actsWithin (b.takeReading d r) .timing domainRecord := by
  have hd : domainRecord (0x2010 + d) := ⟨by omega, by omega⟩
  exact .withTm (.wr (.wr (.wr (.wr b.actsWithin_refl _ hd) _ hd) _ hd) _ hd) _

theorem Block.actsWithin.showObserver {a b : Block} (h : a.actsWithin b .timing domainRecord) {d : Nat} (st : Nat) (hd : d < 2) :
    a.actsWithin (b.showObserver d st) .timing domainRecord := by
  unfold Block.showObserver
  exact .ite h (.raise (.wr h _ ⟨by omega, by omega⟩) _ _ _)

theorem Block.actsWithin.domAb {a b : Block} (h : a.actsWithin b .timing domainRecord) : a.actsWithin b.domAb .timing domainRecord := by
  have hab : domainRecord 0x2020 := ⟨by omega, by omega⟩
  unfold Block.domAb
  exact .ite (.wr (.wr h _ hab) _ hab) (.wr (.wr h _ hab) _ hab)

theorem Block.noSlots.observerState {b : Block} (h : b.noSlots) {d : Nat} (st : Nat) (hd : d < 2) : b.observerState d st = b.showObserver d st := by
  have hn : ((b.wr (Od.DOMX_STATE d) st).raise (0x2008 + d) 0 st).noSlots :=
    Block.actsWithin.noSlots (.raise (.wr b.actsWithin_refl _ ⟨by omega, by omega⟩) _ _ _) h
  unfold Block.observerState Block.showObserver
  dsimp only
  rw [hn.domainTracked, ite_self]

/-- A domain observer of a module that uses no slot takes its reading and shows its state; the slots stay as they are. -/
theorem Block.noSlots.observe {b : Block} (h : b.noSlots) {d : Nat} (st : Nat) (r : ObserverReading) (hd : d < 2) (hrun : b.fnRuns (38 + d) = true)
    (hkind : b.rdN (Od.DOMX_KIND d) ≠ 0) : b.observe d st r = (((b.takeReading d r).showObserver d st).domAb).showUtc := by
  have hread := b.actsWithin_takeReading r hd
  have hend := (hread.showObserver st hd).domAb.noSlots h
  have hslots : (List.range 24).foldl (fun (b : Block) k => if b.slotKind k = 8 + d then b.wr (Od.SLOT_UNCERTAINTY k) (min unknownUnc r.unc : Nat) else b)
      (((b.takeReading d r).showObserver d st).domAb) = ((b.takeReading d r).showObserver d st).domAb := by
    refine Block.foldl_eq_self _ _ _ fun k hk => if_neg ?_
    rw [(hend.1 k (List.mem_range.mp hk)).1]
    omega
  have hobserved := (hread.noSlots h).observerState st hd
  unfold Block.takeReading at hobserved hslots hend ⊢
  unfold Block.observe
  simp only [hrun, beq_eq_false_iff_ne.mpr hkind, Bool.not_true, Bool.or_false, Bool.false_eq_true, if_false, hobserved, hslots, hend.rerankAll,
    hend.followUtc]

theorem Block.rd_domAb (b : Block) {i sub : Nat} (hi : 0x2010 ≤ i ∧ i < 0x2020) (hs : sub < 256) : b.domAb.rd (key i sub) = b.rd (key i sub) := by
  have hoff : Od.DOM_AB_OFFSET ≠ key i sub := by unfold Od.DOM_AB_OFFSET key; omega
  have hunc : Od.DOM_AB_UNCERTAINTY ≠ key i sub := by unfold Od.DOM_AB_UNCERTAINTY key; omega
  unfold Block.domAb
  split <;> rw [Block.rd_wr_ne _ _ hunc, Block.rd_wr_ne _ _ hoff]

theorem Block.rd_showObserver (b : Block) (d st : Nat) {k : Nat} (hk : Od.DOMX_STATE d ≠ k) (hcnt : ¬counterKey k) : (b.showObserver d st).rd k = b.rd k := by
  unfold Block.showObserver
  split
  · rfl
  · rw [Block.rd_raise _ _ _ _ _ hcnt, b.rd_wr_ne _ hk]

theorem Block.rdN_showObserver (b : Block) {d : Nat} (st : Nat) (hd : d < 2) : (b.showObserver d st).rdN (Od.DOMX_STATE d) = st := by
  unfold Block.showObserver
  split
  · assumption
  · rw [Block.rdN, Block.rd_raise _ _ _ _ _ (by unfold counterKey Od.DOMX_STATE key; omega), Block.rd_wr_same, Int.toNat_natCast]

theorem Block.takeReading_spec (b : Block) (d : Nat) (r : ObserverReading) :
    (b.takeReading d r).rd (Od.DOMX_OFFSET d) = r.offset ∧ (b.takeReading d r).rd (Od.DOMX_FREQ_OFFSET d) = r.freq ∧
      (b.takeReading d r).rd (Od.DOMX_UTC_OFFSET d) = r.utc ∧ tat false (b.takeReading d r).tm.mt.obsArb d = r.arb := by
  refine ⟨?_, ?_, ?_, tat_tput_same _ _ _ _⟩ <;>
    simp [Block.takeReading, Block.rd_wr, Od.DOMX_OFFSET, Od.DOMX_FREQ_OFFSET, Od.DOMX_UNCERTAINTY, Od.DOMX_UTC_OFFSET, key]

/-- What a domain observer's reading leaves once it is shown: the state, and what was measured. -/
theorem Block.observed_spec (b : Block) {d : Nat} (st : Nat) (r : ObserverReading) (hd : d < 2) :
    let c := (((b.takeReading d r).showObserver d st).domAb).showUtc
    c.rdN (Od.DOMX_STATE d) = st ∧ c.rd (Od.DOMX_OFFSET d) = r.offset ∧ c.rd (Od.DOMX_FREQ_OFFSET d) = r.freq ∧ c.rd (Od.DOMX_UTC_OFFSET d) = r.utc ∧
      tat false c.tm.mt.obsArb d = r.arb := by
  intro c
  obtain ⟨hoff, hfreq, hutc, harb⟩ := b.takeReading_spec d r
  have hshown {sub : Nat} (hs : sub < 256) : c.rd (key (0x2010 + d) sub) = ((b.takeReading d r).showObserver d st).rd (key (0x2010 + d) sub) := by
    have hvalid : Od.MT_UTC_OFFSET_VALID ≠ key (0x2010 + d) sub := by unfold Od.MT_UTC_OFFSET_VALID key; omega
    exact (Block.rd_wr_ne _ _ hvalid).trans (Block.rd_domAb _ (by omega) hs)
  have hread {sub : Nat} (hs : sub < 256) (h4 : sub ≠ 4) : c.rd (key (0x2010 + d) sub) = (b.takeReading d r).rd (key (0x2010 + d) sub) :=
    (hshown hs).trans (Block.rd_showObserver _ _ _ (by unfold Od.DOMX_STATE key; omega) (by unfold counterKey key; omega))
  have htm : c.tm = (b.takeReading d r).tm := by
    have hdom (x : Block) : x.domAb.showUtc.tm = x.tm := by
      unfold Block.domAb
      split <;> rfl
    have hstate (x : Block) : (x.showObserver d st).tm = x.tm := by
      unfold Block.showObserver
      split <;> simp
    exact (hdom _).trans (hstate _)
  refine ⟨?_, (hread (by decide) (by decide)).trans hoff, (hread (by decide) (by decide)).trans hfreq, (hread (by decide) (by decide)).trans hutc, ?_⟩
  · exact (congrArg Int.toNat (hshown (by decide))).trans (Block.rdN_showObserver _ st hd)
  · rw [htm]
    exact harb

/-- Settles O3: a read of OD 0x2000 finds its value in what the arrival latched; with no slot in use an observer's reading changes its own entries. -/
theorem stateReadAndObservers : Obligations.StateReadAndObservers := by
  unfold Obligations.StateReadAndObservers
  refine ⟨fun s c token n sub e v h hr hv hs => State.leads_stateRead h hr hv hs, fun s d st r hup hrun hkind hslots hsel => ?_⟩
  have hn : s.m.noSlots := ⟨hslots, hsel⟩
  refine State.leads_act s _ (fun _ b => b.observe d st r) _ rfl hup ?_
  rw [hn.observe st r d.isLt hrun hkind]
  exact s.m.observed_spec st r d.isLt

end Sys2Proof.Machine
end

section
/-! PTP messages received (R55, R56, R89, R90): what of a port other books and counting leave as it is, event messages that leave, the messages themselves. -/

namespace Sys2Proof.Machine

-- What of a port is the same beside other books (R89)

theorem not_bookKey_linkTiming {p sub : Nat} (hp : p < 32) (hs : sub < 256) : ¬bookKey (key (0x2200 + p) sub) := by
  unfold bookKey counterKey key
  rintro (h | ⟨i, rfl, h⟩) <;> omega

namespace Block.sameButBooks

variable {y b : Block} (h : y.sameButBooks b)

include h

theorem rdN {k : Nat} (hk : ¬bookKey k) : b.rdN k = y.rdN k := congrArg Int.toNat (h.2.1 k hk)

theorem on {k : Nat} (hk : ¬bookKey k) : b.on k = y.on k := by
  unfold Block.on
  rw [h.2.1 k hk]

theorem blob (k : Nat) : b.blob k = y.blob k := by
  rw [h.1]
  rfl

theorem linkTiming {p sub : Nat} (hp : p < 32) (hs : sub < 256) : b.rd (key (0x2200 + p) sub) = y.rd (key (0x2200 + p) sub) :=
  h.2.1 _ (not_bookKey_linkTiming hp hs)

theorem linkTimingN {p sub : Nat} (hp : p < 32) (hs : sub < 256) : b.rdN (key (0x2200 + p) sub) = y.rdN (key (0x2200 + p) sub) :=
  h.rdN (not_bookKey_linkTiming hp hs)

theorem identity : b.identity = y.identity := by
  have hkeys : ∀ k ∈ [Od.PAIR_ENABLED, Od.PAIR_IDENTITY, Od.ID_MODULE_IDENTITY], ¬bookKey k := by
    intro k hk
    have hv : k = Od.PAIR_ENABLED ∨ k = Od.PAIR_IDENTITY ∨ k = Od.ID_MODULE_IDENTITY := by simpa using hk
    unfold Od.PAIR_ENABLED Od.PAIR_IDENTITY Od.ID_MODULE_IDENTITY key at hv
    unfold bookKey counterKey
    rintro (h | ⟨i, rfl, h⟩) <;> omega
  unfold Block.identity
  rw [h.on (hkeys _ (by simp)), h.rdN (hkeys _ (by simp)), h.rdN (hkeys _ (by simp))]

theorem ptpFrame {p : Nat} (hp : p < 32) (kind : Nat) (one : Bool) (msg : Bytes) : b.ptpFrame p kind one msg = y.ptpFrame p kind one msg := by
  unfold Block.ptpFrame Block.ownMac Od.LT_PTP_TRANSPORT Od.LT_PTP_VLAN Od.LT_PTP_IPV4_ADDR
  rw [h.blob, h.linkTimingN hp (by decide), h.linkTimingN hp (by decide), h.linkTimingN hp (by decide)]

theorem ptpMessage {p : Nat} (hp : p < 32) (kind domain seq flags : Nat) (corr : Int) (body : Bytes) :
    b.ptpMessage p kind domain seq flags corr body = y.ptpMessage p kind domain seq flags corr body := by
  unfold Block.ptpMessage Block.portIdentity Block.ptpInterval Od.LT_PTP_LOG_SYNC Od.LT_PTP_LOG_DELAY Od.LT_PTP_LOG_ANNOUNCE
  rw [h.identity, h.linkTiming hp (by decide), h.linkTiming hp (by decide), h.linkTiming hp (by decide)]

/-- A message's frame is the same whatever answering has changed. -/
theorem ptpTimed {p : Nat} (hp : p < 32) (kind domain seq : Nat) (twoStep : Bool) (sec ns : Nat) (corr : Int) (asked : Option Nat) :
    b.ptpTimed p kind domain seq twoStep sec ns corr asked = y.ptpTimed p kind domain seq twoStep sec ns corr asked := by
  unfold Block.ptpTimed
  dsimp only
  rw [h.ptpFrame hp, h.ptpMessage hp]

end Block.sameButBooks

-- What counting leaves of a port (R55, R278)

theorem not_counterKey_of_lt {i sub : Nat} (hi : i < 0x7101) (hs : sub < 256) : ¬counterKey (key i sub) := by
  unfold counterKey key
  omega

theorem not_counterKey_shapeRate {p : Nat} (q : Nat) (hp : p < 32) : ¬counterKey (Od.EQ_SHAPE_RATE p q) := by
  unfold counterKey Od.EQ_SHAPE_RATE keyAt
  omega

theorem not_counterKey_shapeBurst {p : Nat} (q : Nat) (hp : p < 32) : ¬counterKey (Od.EQ_SHAPE_BURST p q) := by
  unfold counterKey Od.EQ_SHAPE_BURST keyAt
  omega

namespace Block.sameButEvents

theorem setPf {y b : Block} (h : y.sameButEvents b) (p : Nat) (f : PortFab → PortFab) : (y.setPf p f).sameButEvents (b.setPf p f) := by
  obtain ⟨⟨_, _, _, rfl⟩, hk, he⟩ := h
  exact ⟨⟨_, _, _, rfl⟩, hk, he⟩

theorem setQueue {y b : Block} (h : y.sameButEvents b) (k : Nat) (f : Queue → Queue) : (y.setQueue k f).sameButEvents (b.setQueue k f) := by
  obtain ⟨⟨_, _, _, rfl⟩, hk, he⟩ := h
  exact ⟨⟨_, _, _, rfl⟩, hk, he⟩

variable {y b : Block} (h : y.sameButEvents b)

include h

theorem rdN {k : Nat} (hk : ¬counterKey k) : b.rdN k = y.rdN k := congrArg Int.toNat (h.2.1 k hk)

theorem on {k : Nat} (hk : ¬counterKey k) : b.on k = y.on k := by
  unfold Block.on
  rw [h.2.1 k hk]

theorem cyc : b.cyc = y.cyc := by
  obtain ⟨⟨_, _, _, rfl⟩, -⟩ := h
  rfl

theorem pf (p : Nat) : b.pf p = y.pf p := by
  unfold Block.pf
  rw [h.fab]

theorem ptpDomains : b.ptpDomains = y.ptpDomains := by
  have hk (d : Nat) (hd : d < 2) : b.rdN (Od.DOMX_KIND d) = y.rdN (Od.DOMX_KIND d) ∧ b.rdN (Od.DOMX_PTP_DOMAIN d) = y.rdN (Od.DOMX_PTP_DOMAIN d) :=
    ⟨h.rdN (not_counterKey_of_lt (by omega) (by decide)), h.rdN (not_counterKey_of_lt (by omega) (by decide))⟩
  unfold Block.ptpDomains
  congr 1
  refine (List.map_congr_left fun d hd => ?_).trans (congrArg _ (List.filter_congr fun d hd => ?_))
  · exact (hk d (by simp at hd; omega)).2
  · rw [(hk d (by simp at hd; omega)).1]

/-- The arrival of a stamped bit at the fibre face reads no counter. -/
theorem frameArrival {p : Nat} (hp : p < 32) (st : Stamp) : b.frameArrival p st = y.frameArrival p st := by
  have hrx (sub : Nat) (hs : sub < 256) : b.rd (key (0x2200 + p) sub) = y.rd (key (0x2200 + p) sub) :=
    h.2.1 _ (not_counterKey_of_lt (by omega) hs)
  have hmode : b.pMode p = y.pMode p ∧ b.pFec p = y.pFec p := by
    unfold Block.pMode Block.pFec Block.partner
    rw [h.on (k := Od.PAIR_ENABLED) (not_counterKey_of_lt (by decide) (by decide)), h.rdN (k := Od.P_MODE p) (not_counterKey_of_lt (by omega) (by decide)),
      h.rdN (k := Od.P_FEC p) (not_counterKey_of_lt (by omega) (by decide))]
    exact ⟨rfl, rfl⟩
  have hread (c code : Nat) : b.reading c code = y.reading c code := by
    obtain ⟨⟨_, _, _, rfl⟩, -⟩ := h
    rfl
  unfold Block.frameArrival Block.arriveFace Block.portCorrections Block.stampAt Block.laneEdge Block.mer Block.corr
    Od.LT_BOARD_RX_DELAY Od.LT_OPTIC_RX_DELAY Od.LT_DESKEW
  rw [hmode.1, hmode.2, hread, h.tm, h.cyc, hrx _ (by decide), hrx _ (by decide), hrx _ (by decide)]

theorem ite (P : Prop) [Decidable P] {y' b' : Block} (h' : y'.sameButEvents b') : (if P then y else y').sameButEvents (if P then b else b') := by
  split
  · exact h
  · exact h'

theorem foldl {β : Type} {f : Block → β → Block} (hf : ∀ (y b : Block) (e : β), y.sameButEvents b → (f y e).sameButEvents (f b e)) (l : List β) :
    (l.foldl f y).sameButEvents (l.foldl f b) := by
  induction l generalizing y b with
  | nil => exact h
  | cons e r ih => exact ih (hf y b e h)

theorem fillQueue {p : Nat} (hp : p < 32) (q : Nat) :
    (if y.rdN (Od.EQ_SHAPE_RATE p q) = 0 then y else y.setQueue (p * 16 + q) fun x =>
      { x with tokens := fillTokens x.tokens (y.rdN (Od.EQ_SHAPE_RATE p q)) (y.rdN (Od.EQ_SHAPE_BURST p q)) (y.cyc - x.tokensAt), tokensAt := y.cyc }).sameButEvents
    (if b.rdN (Od.EQ_SHAPE_RATE p q) = 0 then b else b.setQueue (p * 16 + q) fun x =>
      { x with tokens := fillTokens x.tokens (b.rdN (Od.EQ_SHAPE_RATE p q)) (b.rdN (Od.EQ_SHAPE_BURST p q)) (b.cyc - x.tokensAt), tokensAt := b.cyc }) := by
  rw [h.rdN (not_counterKey_shapeRate q hp), h.rdN (not_counterKey_shapeBurst q hp), h.cyc]
  exact h.ite _ (h.setQueue _ _)

theorem fillPort {p : Nat} (hp : p < 32) :
    (if y.rdN (Od.EQ_PORT_RATE p) = 0 then y else y.setPf p fun x =>
      { x with tokens := fillTokens x.tokens (y.rdN (Od.EQ_PORT_RATE p)) (y.rdN (Od.EQ_PORT_BURST p)) (y.cyc - x.tokensAt), tokensAt := y.cyc }).sameButEvents
    (if b.rdN (Od.EQ_PORT_RATE p) = 0 then b else b.setPf p fun x =>
      { x with tokens := fillTokens x.tokens (b.rdN (Od.EQ_PORT_RATE p)) (b.rdN (Od.EQ_PORT_BURST p)) (b.cyc - x.tokensAt), tokensAt := b.cyc }) := by
  rw [h.rdN (k := Od.EQ_PORT_RATE p) (not_counterKey_of_lt (by omega) (by decide)),
    h.rdN (k := Od.EQ_PORT_BURST p) (not_counterKey_of_lt (by omega) (by decide)), h.cyc]
  exact h.ite _ (h.setPf _ _)

/-- Filling token buckets after counting is counting after filling them. -/
theorem fillShapers {p : Nat} (hp : p < 32) : (y.fillShapers p).sameButEvents (b.fillShapers p) := by
  unfold Block.fillShapers
  refine fillPort ?_ hp
  exact h.foldl (fun _ _ q hq => hq.fillQueue hp q) _

/-- Whether a frame of the module's own may start does not turn on what is counted. -/
theorem ownClear {p : Nat} (hp : p < 32) (n : Nat) : b.ownClear p n = y.ownClear p n := by
  have hport (sub : Nat) (hs : sub < 256) : b.rdN (key (0x3100 + p) sub) = y.rdN (key (0x3100 + p) sub) := h.rdN (not_counterKey_of_lt (by omega) hs)
  have hegress (sub : Nat) (hs : sub < 256) : b.rdN (key (0x3200 + p) sub) = y.rdN (key (0x3200 + p) sub) := h.rdN (not_counterKey_of_lt (by omega) hs)
  unfold Block.ownClear Block.gateOpen Block.shapersOpen Block.outTicks Block.wireTicks Block.lineRate Block.mer Block.queue
    Od.P_MODE Od.P_FEC Od.EQ_OWN_QUEUE Od.EQ_PORT_RATE
  rw [h.on (k := Od.P_IDLE p) (not_counterKey_of_lt (by omega) (by decide)), hport _ (by decide), hport _ (by decide), hegress _ (by decide), hegress _ (by decide),
    h.rdN (not_counterKey_shapeRate _ hp), h.pf, h.fab, h.tm]

theorem eventLeaves {p : Nat} (hp : p < 32) (n : Nat) : b.eventLeaves p n = y.eventLeaves p n := by
  unfold Block.eventLeaves
  rw [(h.fillShapers hp).ownClear hp, h.pf]

end Block.sameButEvents

-- An event message that leaves (R55, R475)

theorem Block.fillShapers_fip (b : Block) (p : Nat) : ((b.fillShapers p).pf p).fip = (b.pf p).fip := by
  have hqueues (l : List Nat) (f : Block → Nat → Block) (hf : ∀ c q, ((f c q).pf p).fip = (c.pf p).fip) : ∀ b, ((l.foldl f b).pf p).fip = (b.pf p).fip := by
    intro b
    induction l generalizing b with
    | nil => rfl
    | cons q r ih => exact (ih (f b q)).trans (hf b q)
  unfold Block.fillShapers
  dsimp only
  split
  · exact hqueues _ _ (fun c q => by split <;> rfl) b
  · simp only [Block.pf, Block.setPf, Block.setFab, tat_tmod_same]
    exact hqueues _ _ (fun c q => by split <;> rfl) b

/-- An event message that nothing holds leaves, and what is to follow it follows. -/
theorem Block.eventMsg_leaves (b : Block) {p : Nat} {l : Bytes} (hp : p < 32) (h : b.eventLeaves p l.length = true) :
    ∃ e, b.sameButBooks e ∧ .frame p l ∈ e.sent ∧ ∀ gone sent : Block → Block, b.eventMsg p l gone sent = sent e := by
  unfold Block.eventLeaves at h
  simp only [Bool.and_eq_true, Bool.not_eq_true', beq_iff_eq] at h
  obtain ⟨⟨hclear, hacting⟩, hthrough⟩ := h
  rw [← b.fillShapers_fip p] at hacting hthrough
  have hidle : (b.fillShapers p).on (Od.P_IDLE p) = false := by
    unfold Block.ownClear at hclear
    simp only [Bool.and_eq_true, Bool.not_eq_true'] at hclear
    exact hclear.1.1.1.1.1
  have hfill := b.sameButBooks_fillShapers p
  unfold Block.eventMsg Block.ownTurn
  generalize b.fillShapers p = d at hclear hacting hthrough hidle hfill ⊢
  have hpaid := d.sameButBooks_payShapers p (d.ownTx p (.frame l)).queue l.length
  have hquiet : ((d.payShapers p (d.ownTx p (.frame l)).queue l.length).pf p).fip.acting = false := by
    simpa [Block.payShapers, Block.pf, Block.setPf, Block.setQueue, Block.setFab] using hacting
  dsimp only
  simp only [hidle, hclear, hthrough, ne_eq, not_true_eq_false, Bool.false_eq_true, if_true, if_false, Block.fipPass_quiet _ _ _ hquiet]
  generalize d.payShapers p (d.ownTx p (.frame l)).queue l.length = c at hpaid
  have hout := c.sameButBooks_ownOut (.frame l) { d.ownTx p (.frame l) with own := some (.held l) } hp
  have hcount := (Block.sameButEvents_tally (c.ownOut p (.frame l) { d.ownTx p (.frame l) with own := some (.held l) }) 1 p 7 1).books
  exact ⟨_, Block.sameButBooks_trans hfill (Block.sameButBooks_trans hpaid (Block.sameButBooks_trans hout hcount)),
    Block.sent_mono hcount (Block.ownOut_sent c p (.frame l) _ hp rfl rfl), fun _ _ => rfl⟩

-- What is known of a domain on a port (R56, R89)

@[simp] theorem Block.ptpDom_setPtpDom (b : Block) (p dom : Nat) (f : PtpDom → PtpDom) : (b.setPtpDom p dom f).ptpDom p dom = f (b.ptpDom p dom) := by
  simp [Block.ptpDom, Block.setPtpDom]

@[simp] theorem Block.ptp_setPtp (b : Block) (p : Nat) (f : PtpPort → PtpPort) : (b.setPtp p f).ptp p = f (b.ptp p) := by simp [Block.ptp]

/-- A time and a delay known give a sample of the offset they make. -/
theorem Block.ptpOffset_known (b : Block) (p dom : Nat) {t1 d : Int} (ht : (b.ptpDom p dom).t1 = some t1) (hd : b.ptpDelay p dom = some d) :
    b.ptpOffset p dom = b.ptpSample p dom (t1 + d - b.corr (alphaItem p) - (b.ptpDom p dom).t2) := by
  unfold Block.ptpOffset
  dsimp only
  rw [ht, hd]

-- The messages (R55, R56, R89)

section

variable {b : Block} {p : Nat} {h : PtpMsg} (hp : p < 32) (ht : b.ptpTakes p h = true)

include ht

theorem Block.syncRx_taken (twoStep : Bool) (origin : PtpTime) (l : Int) (stamp : Stamp) (hd : b.ptpDomain h.domain = true) :
    ∃ b1 : Block, (b1.ptpDom p h.domain).t2 = b.frameArrival p stamp ∧ (b1.ptpDom p h.domain).lastSync = some b.cyc ∧ (b1.ptpDom p h.domain).logSync = l ∧
      (twoStep = true → b.syncRx p h twoStep origin l stamp = b1 ∧ (b1.ptpDom p h.domain).syncWait = some (h.seq, h.src, h.corr) ∧
        (b1.ptpDom p h.domain).t1 = none) ∧
      (twoStep = false → b.syncRx p h twoStep origin l stamp = b1.ptpOffset p h.domain ∧ (b1.ptpDom p h.domain).t1 = some (ptpTicks origin h.corr)) := by
  unfold Block.syncRx
  rw [ht, hd]
  cases twoStep with
  | true => exact ⟨_, by simp, by simp, by simp, fun _ => ⟨rfl, by simp, by simp⟩, fun hs => absurd hs (by decide)⟩
  | false => exact ⟨_, by simp, by simp, by simp, fun hs => absurd hs (by decide), fun _ => ⟨rfl, by simp⟩⟩

theorem Block.followUpRx_awaited (origin : PtpTime) {corr : Int} (hw : (b.ptpDom p h.domain).syncWait = some (h.seq, h.src, corr)) :
    b.followUpRx p h origin =
      (b.setPtpDom p h.domain fun q => { q with syncWait := none, t1 := some (ptpTicks origin (corr + h.corr)) }).ptpOffset p h.domain := by
  unfold Block.followUpRx
  rw [ht, hw]
  exact if_pos ⟨rfl, rfl⟩

theorem Block.delayRespRx_awaited (received : PtpTime) {t3 t1 : Int} (h3 : (b.ptpDom p h.domain).t3 = some (h.seq, t3))
    (h1 : (b.ptpDom p h.domain).t1 = some t1) :
    ∃ b1 : Block, b.delayRespRx p h received = b1.ptpOffset p h.domain ∧ (b1.ptpDom p h.domain).t3 = none ∧
      (b1.ptpDom p h.domain).meanDelay = some (((b.ptpDom p h.domain).t2 - t1 + (ptpTicks received h.corr - t3)) / 2) := by
  refine ⟨b.setPtpDom p h.domain fun q => { q with t3 := none, meanDelay := some (((q.t2 - t1) + (ptpTicks received h.corr - t3)) / 2) }, ?_, by simp, by simp⟩
  unfold Block.delayRespRx
  dsimp only
  rw [ht, h3, h1]
  exact if_pos rfl

theorem Block.pdelayFollowUpRx_awaited (origin : PtpTime) {n : Nat} {t1 t2 t4 corr : Int} (hw : (b.ptp p).pdelayWait = some (h.seq, t2, t4, corr))
    (h1 : (b.ptp p).pdelayT1 = some (n, t1)) :
    b.pdelayFollowUpRx p h origin = b.peerDelayed p ((t4 - t1 - (ptpTicks origin 0 - t2) - corr - h.corr) / 2) := by
  unfold Block.pdelayFollowUpRx
  rw [ht, hw, h1]
  exact if_pos rfl

include hp

theorem Block.pdelayRespRx_awaited (twoStep : Bool) (received : PtpTime) (stamp : Stamp) {t1 : Int} (h1 : (b.ptp p).pdelayT1 = some (h.seq, t1)) :
    (twoStep = true → ((b.pdelayRespRx p h twoStep received stamp).ptp p).pdelayWait =
      some (h.seq, ptpTicks received 0, b.frameArrival p stamp, h.corr)) ∧
    (twoStep = false → b.pdelayRespRx p h twoStep received stamp = (b.tally 1 p 7).peerDelayed p ((b.frameArrival p stamp - t1 - h.corr) / 2)) := by
  rw [← (b.sameButEvents_tally 1 p 7 1).frameArrival hp stamp]
  unfold Block.pdelayRespRx
  rw [ht, h1]
  dsimp only
  rw [if_pos rfl]
  constructor
  · rintro rfl
    simp
  · rintro rfl
    rfl

/-- A Delay_Req to a master port is answered with a Delay_Resp. -/
theorem Block.delayReqRx_answers (stamp : Stamp) (hm : b.rdN (Od.LT_PTP_PORT_STATE p) = 6) (hd : b.rdN (Od.LT_PTP_DELAY_MECH p) = 0)
    (hn : h.domain = b.rdN (Od.LT_PTP_DOMAIN p)) :
    (b.delayReqRx p h stamp).sendsOwn p (.frame (b.ptpTimed p 9 h.domain h.seq false (ptpStamp (b.frameArrival p stamp)).1
      (ptpStamp (b.frameArrival p stamp)).2.1 (h.corr + (ptpStamp (b.frameArrival p stamp)).2.2) (some h.src))) := by
  unfold Block.delayReqRx
  rw [if_pos (by simp [ht, hm, hd, hn])]
  exact Block.sendsOwn_ownSend _ _ hp rfl

/-- A Pdelay_Req of the port's own is answered in one step with the turnaround in the answer's correctionField. -/
theorem Block.pdelayReqRx_oneStep (stamp sent : Stamp) (ho : b.ptpOwn p h.domain = true) (hd : b.rdN (Od.LT_PTP_DELAY_MECH p) = 1)
    (h1 : b.on (Od.LT_PTP_ONE_STEP p) = true) {one : Bytes}
    (he : one = b.ptpTimed p 3 h.domain h.seq false 0 0 (h.corr + (b.frameDeparture p sent - b.frameArrival p stamp)) (some h.src))
    (hl : b.eventLeaves p one.length = true) : .frame p one ∈ (b.pdelayReqRx p h stamp sent).sent := by
  have hc := b.sameButEvents_tally 1 p 7 1
  unfold Block.pdelayReqRx
  rw [if_pos (by simp [ht, ho, hd])]
  dsimp only
  rw [hc.on (k := Od.LT_PTP_ONE_STEP p) (not_counterKey_of_lt (by omega) (by decide)), if_pos h1, hc.books.ptpTimed hp, ← he]
  obtain ⟨e, -, hsent, hm⟩ := (b.tally 1 p 7).eventMsg_leaves hp ((hc.eventLeaves hp _).trans hl)
  rw [hm]
  exact hsent

/-- In two steps it is answered with the time of its arrival, and that of the answer's departure follows. -/
theorem Block.pdelayReqRx_twoStep (stamp sent : Stamp) (ho : b.ptpOwn p h.domain = true) (hd : b.rdN (Od.LT_PTP_DELAY_MECH p) = 1)
    (h1 : b.on (Od.LT_PTP_ONE_STEP p) = false) {two : Bytes}
    (he : two = b.ptpTimed p 3 h.domain h.seq true (ptpStamp (b.frameArrival p stamp)).1 (ptpStamp (b.frameArrival p stamp)).2.1 0 (some h.src))
    (hl : b.eventLeaves p two.length = true) :
    .frame p two ∈ (b.pdelayReqRx p h stamp sent).sent ∧ (b.pdelayReqRx p h stamp sent).sendsOwn p (.frame (b.ptpTimed p 10 h.domain h.seq false
      (ptpStamp (b.frameDeparture p sent)).1 (ptpStamp (b.frameDeparture p sent)).2.1
      (h.corr + (ptpStamp (b.frameDeparture p sent)).2.2 - (ptpStamp (b.frameArrival p stamp)).2.2) (some h.src))) := by
  have hc := b.sameButEvents_tally 1 p 7 1
  unfold Block.pdelayReqRx
  rw [if_pos (by simp [ht, ho, hd])]
  dsimp only
  rw [hc.on (k := Od.LT_PTP_ONE_STEP p) (not_counterKey_of_lt (by omega) (by decide)), if_neg (by simp [h1]), hc.books.ptpTimed hp, ← he]
  obtain ⟨e, hbooks, hsent, hm⟩ := (b.tally 1 p 7).eventMsg_leaves hp ((hc.eventLeaves hp _).trans hl)
  rw [hm, (Block.sameButBooks_trans hc.books hbooks).ptpTimed hp]
  exact ⟨Block.sent_mono (e.sameButBooks_ownSend _ hp) hsent, e.sendsOwn_ownSend _ hp rfl⟩

end

/-- A measured peer delay gives every domain received its sample. -/
theorem Block.peerDelayed_samples (b : Block) (p : Nat) (d : Int) : ∃ b1 : Block, b.peerDelayed p d = b.ptpDomains.foldl (fun b n => b.ptpOffset p n) b1 ∧
    (b1.ptp p).peerDelay = some d ∧ (b1.ptp p).pdelayT1 = none ∧ (b1.ptp p).pdelayWait = none :=
  ⟨_, rfl, by simp, by simp, by simp⟩

/-- Settles O6: each message does what its own lemma says, in the state the command finds. -/
theorem ptpReceived : Obligations.PtpReceived := by
  unfold Obligations.PtpReceived
  refine ⟨fun b p dom t1 d => b.ptpOffset_known p dom, ?_, ?_, ?_, ?_, ?_, ?_, ?_⟩
  · intro s p h twoStep origin l stamp hup ht hd
    exact State.leads_act s _ (fun _ b => b.syncRx p h twoStep origin l stamp) _ rfl hup (Block.syncRx_taken ht twoStep origin l stamp hd)
  · intro s p h origin corr hup ht hw
    exact State.leads_act s _ (fun _ b => b.followUpRx p h origin) _ rfl hup (Block.followUpRx_awaited ht origin hw)
  · intro s p h stamp hup ht hm hd hn
    exact State.leads_act s _ (fun _ b => b.delayReqRx p h stamp) _ rfl hup (Block.delayReqRx_answers p.isLt ht stamp hm hd hn)
  · intro s p h received t3 t1 hup ht h3 h1
    exact State.leads_act s _ (fun _ b => b.delayRespRx p h received) _ rfl hup (Block.delayRespRx_awaited ht received h3 h1)
  · intro s p h stamp sent hup ht ho hd
    exact State.leads_act s _ (fun _ b => b.pdelayReqRx p h stamp sent) _ rfl hup
      ⟨fun h1 hl => Block.pdelayReqRx_oneStep p.isLt ht stamp sent ho hd h1 rfl hl,
        fun h1 hl => Block.pdelayReqRx_twoStep p.isLt ht stamp sent ho hd h1 rfl hl⟩
  · intro s p h twoStep received stamp t1 hup ht h1
    obtain ⟨htwo, hone⟩ := Block.pdelayRespRx_awaited p.isLt ht twoStep received stamp h1
    refine State.leads_act s _ (fun _ b => b.pdelayRespRx p h twoStep received stamp) _ rfl hup ⟨htwo, fun hs => ?_⟩
    obtain ⟨b1, hb, hdelay, hreq, -⟩ := (s.m.tally 1 p 7).peerDelayed_samples p ((s.m.frameArrival p stamp - t1 - h.corr) / 2)
    rw [(s.m.sameButEvents_tally 1 p 7 1).ptpDomains] at hb
    exact ⟨b1, (hone hs).trans hb, hdelay, hreq⟩
  · intro s p h origin n t1 t2 t4 corr hup ht hw h1
    obtain ⟨b1, hb, hdelay, -, hwait⟩ := s.m.peerDelayed_samples p ((t4 - t1 - (ptpTicks origin 0 - t2) - corr - h.corr) / 2)
    exact State.leads_act s _ (fun _ b => b.pdelayFollowUpRx p h origin) _ rfl hup
      ⟨b1, (Block.pdelayFollowUpRx_awaited ht origin hw h1).trans hb, hdelay, hwait⟩

end Sys2Proof.Machine
end

section
/-! Reel (R78 to R82, R86): what a change of a port's link-timing state shows and tells, markers sent and received, the report that completes an exchange,
slow words, expiries. -/

namespace Sys2Proof.Machine

-- A port's link-timing state shown and told (R80, R88, R89)

theorem link_sub_ne {p q s t : Nat} (hs : s < 256) (ht : t < 256) (h : s ≠ t) : key (0x2200 + p) s ≠ key (0x2200 + q) t := by
  unfold key
  omega

/-- An event is told of a module that differs in the timing subsystem alone. -/
theorem Block.actsWithin.told_raise {a b : Block} (h : a.actsWithin b .timing timingRecord) (num x y : Nat) : a.told (b.raise num x y) num x y := by
  obtain ⟨-, hrd, hev⟩ := h
  have htenant {t sub : Nat} (ht : t < 8) (hs : sub < 256) : a.rdN (key (0x1110 + t) sub) = b.rdN (key (0x1110 + t) sub) :=
    congrArg Int.toNat (hrd _ (by unfold timingRecord key; omega) (not_counterKey_of_lt (by omega) hs)).symm
  exact Block.told_raise num x y (fun t ht => ⟨htenant ht (by decide), htenant ht (by decide)⟩) fun t => (hev t).2

/-- A link-timing entry shown, with its sticky bits set and its event raised: the entry reads as written, and the event is told. -/
theorem Block.actsWithin.linkShown {a b : Block} (h : a.actsWithin b .timing timingRecord) {p sub : Nat} (v : Int) (mask num x y : Nat) (hp : p < 32)
    (hs : sub < 0x26) :
    (((b.wr (key (0x2200 + p) sub) v).orBits (Od.LT_STICKY p) mask).raise num x y).rd (key (0x2200 + p) sub) = v ∧
      a.told (((b.wr (key (0x2200 + p) sub) v).orBits (Od.LT_STICKY p) mask).raise num x y) num x y := by
  have hlink : timingRecord (0x2200 + p) := ⟨by omega, by omega⟩
  refine ⟨?_, Block.actsWithin.told_raise (.wr (.wr h _ hlink) _ hlink) _ _ _⟩
  rw [Block.rd_raise _ _ _ _ _ (not_counterKey_of_lt (by omega) (by omega)),
    Block.rd_orBits_ne _ _ (show Od.LT_STICKY p ≠ _ from link_sub_ne (by decide) (by omega) (by omega)), Block.rd_wr_same]

-- A port's Reel state (R78)

@[simp] theorem Block.reel_setReel (b : Block) (p : Nat) (f : Reel → Reel) : (b.setReel p f).reel p = f (b.reel p) := by simp [Block.reel]

/-- A port's Reel state is held in the timing subsystem alone. -/
theorem Block.reel_congr {b c : Block} (p : Nat) (h : c.tm = b.tm) : c.reel p = b.reel p := by
  unfold Block.reel
  rw [h]

@[simp] theorem Block.reel_wr (b : Block) (k p : Nat) (v : Int) : (b.wr k v).reel p = b.reel p := rfl

@[simp] theorem Block.reel_orBits (b : Block) (k m p : Nat) : (b.orBits k m).reel p = b.reel p := rfl

@[simp] theorem Block.reel_raise (b : Block) (num x y p : Nat) : (b.raise num x y).reel p = b.reel p := Block.reel_congr p (b.raise_tm num x y)

-- Markers sent (R78, R79)

/-- The first marker that is due at a port that sends nothing leaves. -/
theorem Block.markerTx_sends {b : Block} {p kind : Nat} {rest : List Nat} (stamp : Stamp) (hd : (b.reel p).due = kind :: rest)
    (hs : (b.pf p).sending = none) :
    b.sends (b.markerTx p stamp) (.marker p (mkMarker kind (b.markerPayload p kind))) ∧ ((b.markerTx p stamp).reel p).due = rest := by
  have hsent : (b.markerTx p stamp).sent = b.sent ++ [.marker p (mkMarker kind (b.markerPayload p kind))] ∧ ((b.markerTx p stamp).reel p).due = rest := by
    unfold Block.markerTx
    simp only [hd, hs, Block.reel_setReel, and_true]
    split_ifs <;> simp_all
  unfold Block.sends
  rw [hsent.1]
  exact ⟨by simp, hsent.2⟩

-- T markers and spoilt markers (R78, R80, R81)

theorem Block.sameButEvents.reel {y b : Block} (h : y.sameButEvents b) (p : Nat) : b.reel p = y.reel p := Block.reel_congr p h.tm

/-- The arrival of a marker's first bit at the fibre face reads no counter. -/
theorem Block.sameButEvents.markerArrival {y b : Block} (h : y.sameButEvents b) {p : Nat} (hp : p < 32) (st : Stamp) :
    b.markerArrival p st = y.markerArrival p st := by
  have hlink (sub : Nat) (hs : sub < 256) : b.rd (key (0x2200 + p) sub) = y.rd (key (0x2200 + p) sub) := h.2.1 _ (not_counterKey_of_lt (by omega) hs)
  have hmode : b.pMode p = y.pMode p ∧ b.pFec p = y.pFec p := by
    unfold Block.pMode Block.pFec Block.partner
    rw [h.on (k := Od.PAIR_ENABLED) (not_counterKey_of_lt (by decide) (by decide)), h.rdN (k := Od.P_MODE p) (not_counterKey_of_lt (by omega) (by decide)),
      h.rdN (k := Od.P_FEC p) (not_counterKey_of_lt (by omega) (by decide))]
    exact ⟨rfl, rfl⟩
  have hread (c code : Nat) : b.reading c code = y.reading c code := by
    obtain ⟨⟨_, _, _, rfl⟩, -⟩ := h
    rfl
  unfold Block.markerArrival Block.arriveFace Block.portCorrections Block.stampAt Block.laneEdge Block.mer Block.corr Od.LT_BOARD_RX_DELAY Od.LT_OPTIC_RX_DELAY
    Od.LT_DESKEW
  rw [hmode.1, hmode.2, hread, h.tm, h.cyc, hlink _ (by decide), hlink _ (by decide), hlink _ (by decide)]

/-- A good T marker that a port without a peer receives is stamped, and the port has its peer. -/
theorem Block.tMarkerRx_first {b : Block} {p payload : Nat} {m : Word64} (stamp : Stamp) (hp : p < 32) (hr : b.reelRuns p = true)
    (hm : readMarker m = some (1, payload)) (hv : bits payload 16 4 = 1) (hst : b.rdN (Od.LT_STATE p) = 2) :
    (b.tMarkerRx p m stamp).rd (Od.LT_STATE p) = 3 ∧ ((b.tMarkerRx p m stamp).reel p).lastT = some b.cyc ∧
      ((b.tMarkerRx p m stamp).reel p).rx = some (bits payload 24 16, unsigned 64 (b.markerArrival p stamp)) := by
  have hc := b.sameButEvents_tally 1 p 6 1
  have hstate : ¬counterKey (Od.LT_STATE p) := not_counterKey_of_lt (by omega) (by decide)
  rw [← hc.markerArrival hp stamp, ← hc.cyc]
  unfold Block.tMarkerRx
  rw [hr, hm]
  generalize b.tally 1 p 6 = c at hc ⊢
  dsimp only
  have hnoted := (c.orBits (Od.LT_STICKY p) 4).sameButEvents_raise 0x2208 p 0
  have hgap (gap : Bool) (g : Block) (hg : g = if gap then (c.orBits (Od.LT_STICKY p) 4).raise 0x2208 p else c) :
      g.rdN (Od.LT_STATE p) = 2 ∧ g.cyc = c.cyc := by
    rw [← hst, ← hc.rdN hstate, hg]
    split
    · exact ⟨(hnoted.rdN hstate).trans (congrArg Int.toNat (c.rd_orBits_ne 4 (link_sub_ne (by decide) (by decide) (by decide)))), hnoted.cyc⟩
    · exact ⟨rfl, rfl⟩
  simp [hv, hgap _ _ rfl]

/-- A marker that fails its check is counted, and the last T marker received stays the last. -/
theorem Block.tMarkerRx_bad {b : Block} {p : Nat} {m : Word64} (stamp : Stamp) (hr : b.reelRuns p = true) (hm : readMarker m = none)
    (hn : b.rdN (Od.LT_MARKER_ERRORS p) + 1 < keySize (Od.LT_MARKER_ERRORS p)) :
    (b.tMarkerRx p m stamp).rd (Od.LT_MARKER_ERRORS p) = b.rdN (Od.LT_MARKER_ERRORS p) + 1 ∧ ((b.tMarkerRx p m stamp).reel p).rx = (b.reel p).rx := by
  have hbump : (b.bump (Od.LT_MARKER_ERRORS p) 1).tm = b.tm := by
    obtain ⟨_, _, he⟩ := b.bump_eq (Od.LT_MARKER_ERRORS p) 1
    rw [he]
  have herror : (b.markerError p).rd (Od.LT_MARKER_ERRORS p) = b.rdN (Od.LT_MARKER_ERRORS p) + 1 :=
    (Block.rd_orBits_ne _ 2 (link_sub_ne (by decide) (by decide) (by decide))).trans (Block.rd_bump_same hn)
  have hreel : (b.markerError p).reel p = b.reel p := Block.reel_congr p hbump
  unfold Block.tMarkerRx
  rw [hr, hm]
  simp [herror, hreel]

-- The report (R81, R82)

/-- Module b with what the report of a pair of markers tells (R81): the peer's status, when it sent its T marker, and that the pair has been used. -/
def Block.reportTaken (b : Block) (p status tx : Nat) (pair : Nat × Nat) : Block :=
  ((b.wr (Od.LT_PEER_STATUS p) status).setReel p fun r => { r with peerTx := some tx }).setReel p fun r => { r with pair := some pair }

section

variable {b : Block} {p : Nat} {d0 d1 d2 d3 : Word64} {p0 p1 p2 p3 n t1 m t4 : Nat}

/-- A whole report about a new pair of markers is an exchange: INVALIDATED where its round-trip time is out of range, else used (R82, R85). -/
theorem Block.reportRx_completes (hr : b.reelRuns p = true) (hl : (b.reel p).lost = false) (h0 : readMarker d0 = some (2, p0))
    (h1 : readMarker d1 = some (3, p1)) (h2 : readMarker d2 = some (4, p2)) (h3 : readMarker d3 = some (5, p3)) (hv : bit (p3 % 2 ^ 16) 15 = true)
    (hf : (b.reel p).sent.find? (·.1 == p1 % 2 ^ 16) = some (n, t1)) (hx : (b.reel p).rx = some (m, t4)) (hp : (b.reel p).pair ≠ some (n, m)) :
    let tx := p0 + p1 / 2 ^ 16 * 2 ^ 40
    let e := b.exchange p t1 (p2 + p3 / 2 ^ 16 * 2 ^ 40) tx t4
    let c := b.reportTaken p (p3 % 2 ^ 16) tx (n, m)
    b.reportRx p d0 d1 d2 d3 = if e.rtt < 0 ∨ 81920000000 < e.rtt then ((c.wr (Od.LT_STATE p) 5).orBits (Od.LT_STICKY p) 8).raise 0x2203 p
      else c.useExchange p e := by
  intro tx e c
  unfold Block.reportRx
  simp only [hr, h0, h1, h2, h3, List.foldl, Option.isNone_some, Bool.not_true, Bool.false_eq_true, if_false, hl, Block.reel_setReel, Block.reel_wr,
    hv, hf, hx, hp]
  rfl

theorem Block.actsWithin_reportTaken (status tx : Nat) (pair : Nat × Nat) (hp : p < 32) :
    b.actsWithin (b.reportTaken p status tx pair) .timing timingRecord :=
  .withTm (.withTm (.wr b.actsWithin_refl _ ⟨by omega, by omega⟩) _) _

end

-- Slow words (R86)

/-- Every change of a fold keeps Q, and the change for one item of its list makes it so: Q holds at the end. -/
theorem Block.foldl_reaches {β : Type} {f : Block → β → Block} {I Q : Block → Prop} {x : β} (hI : ∀ c e, I c → I (f c e)) (hx : ∀ c, I c → Q (f c x))
    (hQ : ∀ c e, I c → Q c → Q (f c e)) {l : List β} {b : Block} (hb : I b) (hl : x ∈ l) : Q (l.foldl f b) := by
  have hkeep (l : List β) : ∀ c, I c → Q c → Q (l.foldl f c) := by
    induction l with
    | nil => exact fun _ _ h => h
    | cons e r ih => exact fun c hc h => ih _ (hI c e hc) (hQ c e hc h)
  induction l generalizing b with
  | nil => cases hl
  | cons e r ih =>
    rcases List.mem_cons.mp hl with rfl | hr
    · exact hkeep r _ (hI b x hb) (hx b hb)
    · exact ih (hI b e hb) hr

/-- Slot k with the uncertainty that a peer on port p declares (R149): u and the link term, where the slot is a Reel slot on that port. -/
def Block.slotDeclared (p u : Nat) (b : Block) (k : Nat) : Block :=
  if (b.slotKind k = 1 ∨ b.slotKind k = 7) ∧ b.slotPort k = some p then
    b.wr (Od.SLOT_UNCERTAINTY k) (min unknownUnc (u + b.rdN (Od.LT_OFFSET_UNC p)) : Nat)
  else b

theorem Block.reelUncertainty_eq {b : Block} {p u : Nat} (h : tget (b.reel p).words 2 = some u) :
    b.reelUncertainty p = (List.range 24).foldl (Block.slotDeclared p u) b := by
  unfold Block.reelUncertainty
  rw [h]
  rfl

theorem Block.slotDeclared_cases (p u : Nat) (b : Block) (k : Nat) : b.slotDeclared p u k = b ∨
    b.slotDeclared p u k = b.wr (Od.SLOT_UNCERTAINTY k) (min unknownUnc (u + b.rdN (Od.LT_OFFSET_UNC p)) : Nat) := by
  unfold Block.slotDeclared
  split
  · exact .inr rfl
  · exact .inl rfl

theorem Block.rdN_slotDeclared (p u : Nat) (b : Block) (j : Nat) {i sub : Nat} (hs : sub < 256) (h : sub ≠ 0x1A) :
    (b.slotDeclared p u j).rdN (key i sub) = b.rdN (key i sub) := by
  have hne : Od.SLOT_UNCERTAINTY j ≠ key i sub := by
    unfold Od.SLOT_UNCERTAINTY key
    omega
  rcases b.slotDeclared_cases p u j with he | he <;> rw [he]
  exact congrArg Int.toNat (b.rd_wr_ne _ hne)

theorem Block.reel_reelUncertainty (b : Block) (p q : Nat) : (b.reelUncertainty p).reel q = b.reel q := by
  cases h : tget (b.reel p).words 2 with
  | none =>
    unfold Block.reelUncertainty
    rw [h]
  | some u =>
    rw [b.reelUncertainty_eq h]
    refine List.foldlRecOn (motive := fun c : Block => c.reel q = b.reel q) _ _ rfl fun c hc k _ => ?_
    rcases c.slotDeclared_cases p u k with he | he <;> rwa [he]

/-- A Reel slot on the port has the uncertainty that its peer declares, and the link term. -/
theorem Block.reelUncertainty_slot {b : Block} {p u k : Nat} (h : tget (b.reel p).words 2 = some u) (hk : k < 24) (hkind : b.slotKind k = 1)
    (hport : b.rdN (Od.SLOT_PORT k) = p) :
    (b.reelUncertainty p).rd (Od.SLOT_UNCERTAINTY k) = (min unknownUnc (u + b.rdN (Od.LT_OFFSET_UNC p)) : Nat) := by
  rw [b.reelUncertainty_eq h]
  refine Block.foldl_reaches (x := k) (I := fun c => c.slotKind k = 1 ∧ c.rdN (Od.SLOT_PORT k) = p ∧ c.rdN (Od.LT_OFFSET_UNC p) = b.rdN (Od.LT_OFFSET_UNC p))
    (Q := fun c => c.rd (Od.SLOT_UNCERTAINTY k) = (min unknownUnc (u + b.rdN (Od.LT_OFFSET_UNC p)) : Nat)) ?_ ?_ ?_ ⟨hkind, hport, rfl⟩
    (List.mem_range.mpr hk)
  · rintro c j ⟨h1, h2, h3⟩
    exact ⟨(Block.rdN_slotDeclared p u c j (by decide) (by decide)).trans h1, (Block.rdN_slotDeclared p u c j (by decide) (by decide)).trans h2,
      (Block.rdN_slotDeclared p u c j (by decide) (by decide)).trans h3⟩
  · rintro c ⟨h1, h2, h3⟩
    have hslot : c.slotPort k = some p := by
      unfold Block.slotPort
      rw [h1, h2]
      rfl
    unfold Block.slotDeclared
    rw [if_pos ⟨.inl h1, hslot⟩, Block.rd_wr_same, h3]
  · rintro c j ⟨-, -, h3⟩ hc
    rcases c.slotDeclared_cases p u j with he | he <;> rw [he]
    · exact hc
    · rw [Block.rd_wr, h3, hc, ite_self]

/-- Slow word i of port p held, word 0 with the T marker of its period. -/
def Block.wordHeld (b : Block) (p i data : Nat) : Block :=
  b.setReel p fun r =>
    { r with words := tput r.words i data,
             word0 := if i = 0 then (match r.peerTx, r.rx with | some tx, some (seq, _) => some (data, tx, seq) | _, _ => none) else r.word0 }

/-- A slow word that is not of the time of day, of quality or of a leap is held; word 7 completes the peer's identity, word 2 declares its uncertainty. -/
theorem Block.slowWordRx_eq {b : Block} {p payload : Nat} {m : Word64} (hr : b.reelRuns p = true) (hm : readMarker m = some (6, payload))
    (hi : bits payload 36 4 ∉ [1, 3, 5]) :
    b.slowWordRx p m =
      let c := b.wordHeld p (bits payload 36 4) (bits payload 0 32)
      if bits payload 36 4 = 2 then c.reelUncertainty p
      else if bits payload 36 4 = 7 then
        match tget (c.reel p).words 6 with
        | some lo => c.wr (Od.LT_PEER_ID p) ((lo + bits payload 0 32 * 2 ^ 32 : Nat) : Int)
        | none => c
      else c := by
  generalize hw : bits payload 36 4 = i at hi
  simp only [List.mem_cons, List.not_mem_nil, or_false, not_or] at hi
  obtain ⟨h1, h3, h5⟩ := hi
  unfold Block.slowWordRx
  rw [hr, hm]
  simp only [hw, h1, h3, h5, Bool.not_true, Bool.false_eq_true, if_false, false_or, false_and]
  by_cases h2 : i = 2
  · subst h2
    rfl
  · rw [if_neg h2, if_neg h2]
    rfl

/-- What a slow word leaves (R86): the word held, the peer's identity complete with word 7, the slots' uncertainty with word 2. -/
theorem Block.slowWordRx_spec {b : Block} {p payload : Nat} {m : Word64} (hr : b.reelRuns p = true) (hm : readMarker m = some (6, payload)) :
    (bits payload 36 4 ∉ [1, 3, 5] → tget ((b.slowWordRx p m).reel p).words (bits payload 36 4) = some (bits payload 0 32)) ∧
      (∀ lo, bits payload 36 4 = 7 → tget (b.reel p).words 6 = some lo → (b.slowWordRx p m).rd (Od.LT_PEER_ID p) = lo + bits payload 0 32 * 2 ^ 32) ∧
      ∀ k < 24, bits payload 36 4 = 2 → b.slotKind k = 1 → b.rdN (Od.SLOT_PORT k) = p →
        (b.slowWordRx p m).rd (Od.SLOT_UNCERTAINTY k) = min unknownUnc (bits payload 0 32 + b.rdN (Od.LT_OFFSET_UNC p)) := by
  have heq := Block.slowWordRx_eq hr hm
  generalize bits payload 36 4 = i at heq
  have hheld (data : Nat) : tget ((b.wordHeld p i data).reel p).words i = some data := by simp [Block.wordHeld]
  refine ⟨fun hi => ?_, fun lo hi hlo => ?_, fun k hk hi hkind hport => ?_⟩
  · rw [heq hi]
    dsimp only
    split
    · rw [Block.reel_reelUncertainty]
      exact hheld _
    · split
      · split <;> exact hheld _
      · exact hheld _
  · subst hi
    rw [heq (by decide)]
    simp [Block.wordHeld, tget_tput, hlo]
  · subst hi
    rw [heq (by decide)]
    exact Block.reelUncertainty_slot (hheld _) hk hkind hport

-- Expiries (R80)

theorem Block.reelAvgExpiry_valid {b : Block} {p t : Nat} (hp : p < 32) (hs : b.rdN (Od.LT_STATE p) = 3) (ht : (b.reel p).since = some t)
    (he : t + ms (b.rdN (Od.LT_AVG_TIME p)) ≤ b.cyc) :
    (b.reelAvgExpiry p).rd (Od.LT_STATE p) = 4 ∧ b.told (b.reelAvgExpiry p) 0x2201 p 0 := by
  have hvalid : b.reelAvgExpiry p = (b.wr (Od.LT_STATE p) 4).raise 0x2201 p := by
    unfold Block.reelAvgExpiry
    rw [ht]
    exact if_pos ⟨hs, he⟩
  rw [hvalid]
  exact ⟨(Block.rd_raise _ _ _ _ _ (not_counterKey_of_lt (by omega) (by decide))).trans (b.rd_wr_same _ _),
    Block.actsWithin.told_raise (.wr b.actsWithin_refl _ ⟨by omega, by omega⟩) _ _ _⟩

theorem Block.reelPeerTimeout_lost {b : Block} {p t : Nat} (hp : p < 32) (hs : b.rdN (Od.LT_STATE p) ∈ [3, 4, 5]) (ht : (b.reel p).lastT = some t)
    (he : t + secs 2 ≤ b.cyc) : (b.reelPeerTimeout p).rd (Od.LT_STATE p) = 2 ∧ b.told (b.reelPeerTimeout p) 0x2202 p 0 := by
  have hstate : b.rdN (Od.LT_STATE p) = 3 ∨ b.rdN (Od.LT_STATE p) = 4 ∨ b.rdN (Od.LT_STATE p) = 5 := by simpa using hs
  have hlost : b.reelPeerTimeout p = (((b.wr (Od.LT_STATE p) 2).orBits (Od.LT_STICKY p) 1).raise 0x2202 p).setReel p fun r =>
      { r with lastT := none, slow := true, since := none, exch := [], trips := [] } := by
    unfold Block.reelPeerTimeout
    rw [ht]
    exact if_pos ⟨hstate, decide_eq_true he⟩
  obtain ⟨hshown, htold⟩ := Block.actsWithin.linkShown b.actsWithin_refl (sub := 0x0D) 2 1 0x2202 p 0 hp (by decide)
  rw [hlost, Block.setReel_rd]
  exact ⟨hshown, htold⟩

/-- Settles O4: each command of an exchange does what its own lemma says. -/
theorem reelExchange : Obligations.ReelExchange := by
  unfold Obligations.ReelExchange
  refine ⟨?period, ?sent, ?first, ?bad, ?report, ?word, ?valid, ?lost⟩
  case period =>
    intro s p hup hr hn
    refine State.leads_act s _ (fun _ b => b.reelPeriod p) _ rfl hup ?_
    simp [Block.reelPeriod, hr, hn]
  case sent =>
    intro s p stamp kind rest hup hd hs
    exact State.leads_act s _ (fun _ b => b.markerTx p stamp) _ rfl hup (Block.markerTx_sends stamp hd hs)
  case first =>
    intro s p m stamp payload hup hr hm hv hst
    exact State.leads_act s _ (fun _ b => b.tMarkerRx p m stamp) _ rfl hup (Block.tMarkerRx_first stamp p.isLt hr hm hv hst)
  case bad =>
    intro s p m stamp hup hr hm hn
    exact State.leads_act s _ (fun _ b => b.tMarkerRx p m stamp) _ rfl hup (Block.tMarkerRx_bad stamp hr hm hn)
  case report =>
    intro s p d0 d1 d2 d3 p0 p1 p2 p3 n t1 m t4 hup hr hl h0 h1 h2 h3 hv hf hx hpair tx rx rtt e
    refine ⟨rfl, rfl, State.leads_act s _ (fun _ b => b.reportRx p d0 d1 d2 d3) _ rfl hup ?_⟩
    have heq := Block.reportRx_completes hr hl h0 h1 h2 h3 hv hf hx hpair
    refine ⟨fun hout => ?_, fun hlo hhi => heq.trans (if_neg (not_or.mpr ⟨not_lt.mpr hlo, not_lt.mpr hhi⟩))⟩
    have hinvalid := heq.trans (if_pos hout)
    rw [hinvalid]
    exact (Block.actsWithin_reportTaken _ _ _ p.isLt).linkShown 5 8 0x2203 p 0 p.isLt (by decide)
  case word =>
    intro s p m payload hup hr hm
    exact State.leads_act s _ (fun _ b => b.slowWordRx p m) _ rfl hup (Block.slowWordRx_spec hr hm)
  case valid =>
    intro s p t hup hs ht he
    exact State.leads_act s _ (fun _ b => b.reelAvgExpiry p) _ rfl hup (Block.reelAvgExpiry_valid p.isLt hs ht he)
  case lost =>
    intro s p t hup hs ht he
    exact State.leads_act s _ (fun _ b => b.reelPeerTimeout p) _ rfl hup (Block.reelPeerTimeout_lost p.isLt hs ht he)

end Sys2Proof.Machine
end

section
/-! ESMC (R88): a level received, the PDUs sent, the loss of ESMC. -/

namespace Sys2Proof.Machine

theorem Block.actsWithin_setEsmc (b : Block) (p : Nat) (f : Esmc → Esmc) : b.actsWithin (b.setEsmc p f) .timing timingRecord :=
  Block.actsWithin_parts rfl rfl rfl

/-- A PDU with a new level: when it came and what its Extended QL TLV says are held, the level is shown and told, and the ranks follow. -/
theorem Block.esmcRx_new {b : Block} {p ql : Nat} (ext : Bytes) (hp : p < 32) (hm : b.rdN (Od.LT_SYNCE_ESMC p) ≠ 0) (hf : b.fnRuns p = true)
    (ht : b.inTest p = false) (hq : b.rdN (Od.LT_QL_RX p) ≠ ql) :
    ∃ b1 : Block, b.esmcRx p ql ext = b1.rerankAll ∧ b1.rd (Od.LT_QL_RX p) = ql ∧ b.told b1 0x2206 p ql ∧
      (tat {} b1.tm.esmc p).lastRx = some b.cyc ∧ (ext ≠ [] → (tat {} b1.tm.esmc p).ext = ext) := by
  unfold Block.esmcRx
  rw [if_neg (by simp [hm, hf, ht])]
  generalize hc : (b.setEsmc p fun e => { e with lastRx := some b.cyc, ext := if ext.isEmpty then e.ext else ext }) = c
  have hacts : b.actsWithin c .timing timingRecord := hc ▸ b.actsWithin_setEsmc p _
  have hesmc : (tat {} c.tm.esmc p).lastRx = some b.cyc ∧ (ext ≠ [] → (tat {} c.tm.esmc p).ext = ext) := by
    rw [← hc]
    exact ⟨by simp, fun he => by simp [he]⟩
  have hlevel : c.setQl p ql = (((c.wr (Od.LT_QL_RX p) ql).orBits (Od.LT_STICKY p) 64).raise 0x2206 p ql).rerankAll := by
    rw [← hc]
    exact if_neg hq
  obtain ⟨hshown, htold⟩ := hacts.linkShown (sub := 0x24) ql 64 0x2206 p ql hp (by decide)
  refine ⟨_, hlevel, hshown, htold, ?_⟩
  simpa using hesmc

/-- A PDU that is due is sent with the level of R88, which LTn_QL_TX then shows; an information PDU begins the next second's wait. -/
theorem Block.esmcTx_due {b : Block} {p : Nat} {event : Bool} (hp : p < 32) (hs : b.esmcSends p = true)
    (hd : (if event then b.rdN (Od.LT_QL_TX p) != b.qlSend p else b.esmcDue p) = true) :
    (b.esmcTx p event).sendsOwn p (.frame (b.esmcFrame (b.qlSend p) event)) ∧ (b.esmcTx p event).rd (Od.LT_QL_TX p) = b.qlSend p ∧
      (event = false → (tat {} (b.esmcTx p event).tm.esmc p).sentAt = some b.cyc) := by
  unfold Block.esmcTx
  rw [if_pos (by rw [hs, hd]; rfl)]
  have hsent := b.sendsOwn_ownSend (.frame (b.esmcFrame (b.qlSend p) event)) hp rfl
  generalize b.ownSend p (.frame (b.esmcFrame (b.qlSend p) event)) = c at hsent
  refine ⟨hsent, by simp, ?_⟩
  rintro rfl
  simp

/-- Five seconds without a PDU: no level is received, which is told, and the ranks follow. -/
theorem Block.esmcTimeout_lost {b : Block} {p t : Nat} (hp : p < 32) (ht : (tat {} b.tm.esmc p).lastRx = some t) (he : t + secs 5 ≤ b.cyc) :
    ∃ b1 : Block, b.esmcTimeout p = b1.rerankAll ∧ b1.rd (Od.LT_QL_RX p) = 0xFF ∧ b.told b1 0x2207 p 0 := by
  have hlost := (b.actsWithin_setEsmc p fun e => { e with lastRx := none }).linkShown (sub := 0x24) 0xFF 128 0x2207 p 0 hp (by decide)
  unfold Block.esmcTimeout
  rw [ht]
  exact ⟨_, if_pos he, hlost⟩

/-- Settles O5: a level received, a PDU sent for either reason, and the loss, each by its own lemma. -/
theorem esmcLevels : Obligations.EsmcLevels := by
  unfold Obligations.EsmcLevels
  refine ⟨?received, ?information, ?event, ?lost⟩
  case received =>
    intro s p ql ext hup hm hf ht hq
    exact State.leads_act s _ (fun _ b => b.esmcRx p ql ext) _ rfl hup (Block.esmcRx_new ext p.isLt hm hf ht hq)
  case information =>
    intro s p hup hs hd
    obtain ⟨hsent, hshown, hat⟩ := Block.esmcTx_due (event := false) p.isLt hs hd
    exact State.leads_act s _ (fun _ b => b.esmcTx p false) _ rfl hup ⟨hsent, hshown, hat rfl⟩
  case event =>
    intro s p hup hs hq
    obtain ⟨hsent, hshown, -⟩ := Block.esmcTx_due (event := true) p.isLt hs (bne_iff_ne.mpr hq)
    exact State.leads_act s _ (fun _ b => b.esmcTx p true) _ rfl hup ⟨hsent, hshown⟩
  case lost =>
    intro s p t hup ht he
    exact State.leads_act s _ (fun _ b => b.esmcTimeout p) _ rfl hup (Block.esmcTimeout_lost p.isLt ht he)

end Sys2Proof.Machine
end

section
/-! PTP Announce received and lost, Sync lost, and the messages a port sends when they are due (R55, R89, R91, R92, R132). -/

namespace Sys2Proof.Machine

-- A port's PTP state (R89)

theorem Block.ptpDom_congr {b c : Block} (p dom : Nat) (h : c.tm.ptp = b.tm.ptp) : c.ptpDom p dom = b.ptpDom p dom := by
  unfold Block.ptpDom
  rw [h]

theorem Block.ptpDom_setPtpDom_eq (b : Block) (p m n : Nat) (f : PtpDom → PtpDom) :
    (b.setPtpDom p m f).ptpDom p n = if m = n then f (b.ptpDom p n) else b.ptpDom p n := by
  by_cases h : m = n <;> simp [Block.ptpDom, Block.setPtpDom, tat_tmod, h]

theorem Block.setPortState_tm (b : Block) (p st : Nat) : (b.setPortState p st).tm = b.tm := by
  unfold Block.setPortState
  split <;> simp

theorem Block.actsWithin_setPortState (b : Block) {p : Nat} (st : Nat) (hp : p < 32) : b.actsWithin (b.setPortState p st) .timing (fun x => x = 0x2200 + p) := by
  unfold Block.setPortState
  exact .ite b.actsWithin_refl (.raise (.wr (.wr b.actsWithin_refl _ (by rfl)) _ (by rfl)) _ _ _)

theorem Block.rdN_setPortState (b : Block) {p : Nat} (st : Nat) (hp : p < 32) : (b.setPortState p st).rdN (Od.LT_PTP_PORT_STATE p) = st := by
  unfold Block.setPortState
  split
  · assumption
  · exact (congrArg Int.toNat (b.actsWithin_refl.linkShown (sub := 0x22) st 32 0x2205 p st hp (by decide)).1).trans (Int.toNat_natCast _)

theorem Block.portState_congr {b c : Block} (p decided : Nat) (h : c.rdN (Od.LT_PTP_PORT_CONFIG p) = b.rdN (Od.LT_PTP_PORT_CONFIG p)) :
    c.portState p decided = b.portState p decided := by
  unfold Block.portState
  rw [h]

-- Announce received (R89, R134)

/-- What changes no record of the slots or the selector leaves the slots out of use. -/
theorem Block.actsWithin.noSlots_kept {a b : Block} {own : Nat → Prop} (h : a.actsWithin b .timing own) (ho : ∀ x, own x → ¬(0x2600 ≤ x ∧ x < 0x2638))
    (hn : a.noSlots) : b.noSlots := by
  have hslot {i sub : Nat} (hi : 0x2600 ≤ i ∧ i < 0x2638) (hs : sub < 256) : b.rdN (key i sub) = a.rdN (key i sub) := by
    refine congrArg Int.toNat (h.2.1 _ (fun hk => ho _ hk ?_) (not_counterKey_of_lt (by omega) hs))
    unfold key
    omega
  obtain ⟨hkinds, hsel⟩ := hn
  refine ⟨fun k hk => ?_, ?_⟩
  · obtain ⟨hkind, hrank⟩ := hkinds k hk
    exact ⟨(hslot (by omega) (by omega)).trans hkind, (hslot (by omega) (by omega)).trans hrank⟩
  · have hs : b.rdN Od.SEL_SELECTED = a.rdN Od.SEL_SELECTED := hslot (by omega) (by omega)
    unfold Block.selected at hsel ⊢
    rwa [hs]

/-- What an Announce says of the parent of its domain. -/
def Announce.parent (a : Announce) (domain : Nat) : Parent :=
  { domain := domain, cls := a.cls, accuracy := a.accuracy, variance := a.variance, priority1 := a.priority1, priority2 := a.priority2,
    gm := a.gm, steps := a.steps, source := a.source, utc := a.utc, utcValid := a.utcValid, leap61 := a.leap61, leap59 := a.leap59, tai := a.tai }

/-- An Announce held as its port's parent, and shown to the domain observers. -/
def Block.announceHeld (b : Block) (p : Nat) (h : PtpMsg) (a : Announce) : Block :=
  ((b.setPtpDom p h.domain fun q => { q with parent := some (a.parent h.domain), lastAnnounce := some b.cyc, logAnnounce := a.logInterval }).observerAnnounce
    p 0 h a).observerAnnounce p 1 h a

theorem Block.observerAnnounce_cases (b : Block) (p d : Nat) (h : PtpMsg) (a : Announce) : b.observerAnnounce p d h a = b ∨
    b.observerAnnounce p d h a =
      (b.setMt fun t => { t with obsArb := tput t.obsArb d (!a.tai), obsClass := tput t.obsClass d a.cls }).wr (Od.DOMX_UTC_OFFSET d) a.utc :=
  (ite_eq_or_eq _ _ _).symm

theorem Block.actsWithin.observerAnnounce {a b : Block} (h : a.actsWithin b .timing domainRecord) (p : Nat) {d : Nat} (m : PtpMsg) (x : Announce) (hd : d < 2) :
    a.actsWithin (b.observerAnnounce p d m x) .timing domainRecord := by
  rcases b.observerAnnounce_cases p d m x with he | he <;> rw [he]
  · exact h
  · exact .wr (.withTm h _) _ ⟨by omega, by omega⟩

theorem Block.observerAnnounce_ptp (b : Block) (p d : Nat) (h : PtpMsg) (a : Announce) : (b.observerAnnounce p d h a).tm.ptp = b.tm.ptp := by
  rcases b.observerAnnounce_cases p d h a with he | he <;> rw [he]
  rfl

theorem Block.actsWithin_announceHeld (b : Block) (p : Nat) (h : PtpMsg) (a : Announce) : b.actsWithin (b.announceHeld p h a) .timing domainRecord :=
  .observerAnnounce (.observerAnnounce (.withTm b.actsWithin_refl _) p h a (by decide)) p h a (by decide)

theorem Block.announceHeld_ptpDom (b : Block) (p : Nat) (h : PtpMsg) (a : Announce) :
    ((b.announceHeld p h a).ptpDom p h.domain).parent = some (a.parent h.domain) ∧ ((b.announceHeld p h a).ptpDom p h.domain).lastAnnounce = some b.cyc := by
  have hheld := Block.ptpDom_congr p h.domain
    ((Block.observerAnnounce_ptp _ p 1 h a).trans (Block.observerAnnounce_ptp (b.setPtpDom p h.domain fun q =>
      { q with parent := some (a.parent h.domain), lastAnnounce := some b.cyc, logAnnounce := a.logInterval }) p 0 h a))
  unfold Block.announceHeld
  rw [hheld, Block.ptpDom_setPtpDom]
  exact ⟨rfl, rfl⟩

/-- With no slot in use an Announce is held, shown to the observers, and sets the port's state; the slots' uncertainty is drawn and used by none. -/
theorem Block.noSlots.announceRx {b : Block} (hn : b.noSlots) {p : Nat} {h : PtpMsg} (a : Announce) (hp : p < 32) (ht : b.ptpTakes p h = true)
    (hd : b.ptpDomain h.domain = true) :
    b.announceRx p h a = (((b.announceHeld p h a).setPortState p ((b.announceHeld p h a).portState p a.decided)).draw (2 ^ 32)).2 := by
  have hheld := (b.actsWithin_announceHeld p h a).noSlots hn
  generalize hc : (((b.announceHeld p h a).setPortState p ((b.announceHeld p h a).portState p a.decided)).draw (2 ^ 32)).2 = c
  have hslots : c.noSlots := by
    rw [← hc]
    exact Block.actsWithin.noSlots_kept (.trans (Block.actsWithin_setPortState _ _ hp) (Block.sameButEvents_draw _ _).actsWithin) (fun x hx => by omega) hheld
  have hunc (f : Nat) : (List.range 24).foldl (fun (b : Block) k =>
      if b.slotKind k = 2 ∧ b.rdN (Od.SLOT_PORT k) = p ∧ b.slotDomainNumber k = h.domain then b.wr (Od.SLOT_UNCERTAINTY k) f else b) c = c := by
    refine Block.foldl_eq_self _ _ _ fun k hk => if_neg ?_
    rw [(hslots.1 k (List.mem_range.mp hk)).1]
    simp
  have hsel : c.ptpSelectedOn p h.domain = false := by
    unfold Block.ptpSelectedOn Block.ptpSelected
    rw [hslots.2]
  unfold Block.announceRx
  rw [ht, hd]
  unfold Block.announceHeld Announce.parent at hc
  simp only [Bool.not_true, Bool.or_false, Bool.false_eq_true, if_false, hc, hunc, hslots.rerankAll, hsel]

/-- What an Announce leaves of its port with no slot in use: its parent in the domain, and the state that is fixed or decided. -/
theorem Block.noSlots.announceRx_spec {b : Block} (hn : b.noSlots) {p : Nat} {h : PtpMsg} (a : Announce) (hp : p < 32) (ht : b.ptpTakes p h = true)
    (hd : b.ptpDomain h.domain = true) :
    ((b.announceRx p h a).ptpDom p h.domain).parent = some (a.parent h.domain) ∧ ((b.announceRx p h a).ptpDom p h.domain).lastAnnounce = some b.cyc ∧
      (b.announceRx p h a).rdN (Od.LT_PTP_PORT_STATE p) = b.portState p a.decided := by
  have hconfig : (b.announceHeld p h a).rdN (Od.LT_PTP_PORT_CONFIG p) = b.rdN (Od.LT_PTP_PORT_CONFIG p) :=
    congrArg Int.toNat ((b.actsWithin_announceHeld p h a).2.1 _ (by unfold domainRecord Od.LT_PTP_PORT_CONFIG key; omega)
      (not_counterKey_of_lt (by omega) (by decide)))
  obtain ⟨hparent, hlast⟩ := b.announceHeld_ptpDom p h a
  rw [hn.announceRx a hp ht hd, ← Block.portState_congr p a.decided hconfig]
  generalize b.announceHeld p h a = c at hparent hlast
  have hdom : (((c.setPortState p (c.portState p a.decided)).draw (2 ^ 32)).2).ptpDom p h.domain = c.ptpDom p h.domain :=
    Block.ptpDom_congr p h.domain (congrArg Timing.ptp (c.setPortState_tm p _))
  rw [hdom]
  exact ⟨hparent, hlast, c.rdN_setPortState _ hp⟩

-- Announce and Sync lost (R89, R132)

/-- What a table lists under a number is found among its numbers. -/
theorem mem_of_tget {α : Type} {t : Table α} {k : Nat} {v : α} (h : tget t k = some v) : k ∈ t.map (·.1) := by
  induction t with
  | nil => cases h
  | cons e r ih =>
    by_cases he : e.1 = k
    · exact he ▸ List.mem_cons_self
    · exact List.mem_cons_of_mem _ (ih (by simpa [tget, he] using h))

/-- A domain of which a port knows more than nothing is listed. -/
theorem Block.mem_dom_of_ne {b : Block} {p n : Nat} (h : b.ptpDom p n ≠ {}) : n ∈ (b.ptp p).dom.map (·.1) := by
  cases ht : tget (b.ptp p).dom n with
  | none => exact absurd (congrArg (·.getD {}) ht) h
  | some v => exact mem_of_tget ht

/-- After f has been applied to each domain of a list, a domain listed has what f makes of every domain. -/
theorem Block.foldl_setPtpDom {p n : Nat} {f : PtpDom → PtpDom} {Q : PtpDom → Prop} (hf : ∀ q, Q (f q)) {l : List Nat} (b : Block) (h : n ∈ l) :
    Q ((l.foldl (fun b n => b.setPtpDom p n f) b).ptpDom p n) := by
  refine Block.foldl_reaches (x := n) (I := fun _ => True) (Q := fun c : Block => Q (c.ptpDom p n)) (fun _ _ _ => trivial) (fun c _ => ?_) (fun c m _ hc => ?_)
    trivial h
  · rw [Block.ptpDom_setPtpDom]
    exact hf _
  · rw [Block.ptpDom_setPtpDom_eq]
    split
    · exact hf _
    · exact hc

/-- A domain whose Announce is late has no parent any more, and a port that has no parent left takes the state that is fixed for it or MASTER. -/
theorem Block.announceTimeout_late {b : Block} {p n : Nat} (hp : p < 32) (h : b.announceLate p n = true) :
    ∃ b1 : Block, b.announceTimeout p = (b1.ptpSlotsOff p).rerankAll ∧ (b1.ptpDom p n).parent = none ∧ (b1.ptpDom p n).lastAnnounce = none ∧
      (((b1.ptp p).dom.any fun e => e.2.parent.isSome) = false → b1.rdN (Od.LT_PTP_PORT_STATE p) = b.portState p 6) ∧
      (((b1.ptp p).dom.any fun e => e.2.parent.isSome) = true → b1.rdN (Od.LT_PTP_PORT_STATE p) = b.rdN (Od.LT_PTP_PORT_STATE p)) := by
  have hmem : n ∈ ((b.ptp p).dom.map (·.1)).filter fun n => b.announceLate p n := by
    refine List.mem_filter.mpr ⟨Block.mem_dom_of_ne fun he => ?_, h⟩
    unfold Block.announceLate at h
    rw [he] at h
    cases h
  unfold Block.announceTimeout
  generalize ((b.ptp p).dom.map (·.1)).filter (fun n => b.announceLate p n) = late at hmem
  rw [if_neg (by rw [List.isEmpty_iff]; exact List.ne_nil_of_mem hmem)]
  have hgone := b.foldl_setPtpDom (p := p) (f := fun q => { q with parent := none, lastAnnounce := none })
    (Q := fun q => q.parent = none ∧ q.lastAnnounce = none) (fun _ => ⟨rfl, rfl⟩) hmem
  have hrd (k : Nat) : (late.foldl (fun b n => b.setPtpDom p n fun q => { q with parent := none, lastAnnounce := none }) b).rd k = b.rd k :=
    Block.rd_foldl (fun b n => b.setPtpDom p n fun q => { q with parent := none, lastAnnounce := none }) late (fun _ _ => rfl) b
  generalize late.foldl (fun b n => b.setPtpDom p n fun q => { q with parent := none, lastAnnounce := none }) b = c at hgone hrd ⊢
  dsimp only
  cases hany : (c.ptp p).dom.any fun e => e.2.parent.isSome with
  | true =>
    refine ⟨c, by rw [if_pos rfl], hgone.1, hgone.2, fun hf => ?_, fun _ => congrArg Int.toNat (hrd _)⟩
    rw [hany] at hf
    cases hf
  | false =>
    have htm := c.setPortState_tm p (c.portState p 6)
    have hptp : (c.setPortState p (c.portState p 6)).ptp p = c.ptp p := by
      unfold Block.ptp
      rw [htm]
    refine ⟨c.setPortState p (c.portState p 6), by rw [if_neg (by decide)], ?_, ?_, fun _ => ?_, fun ht => ?_⟩
    · rw [Block.ptpDom_congr p n (congrArg Timing.ptp htm)]
      exact hgone.1
    · rw [Block.ptpDom_congr p n (congrArg Timing.ptp htm)]
      exact hgone.2
    · exact (c.rdN_setPortState _ hp).trans (Block.portState_congr p 6 (congrArg Int.toNat (hrd _)))
    · rw [hptp, hany] at ht
      cases ht

/-- A domain whose Sync is late has no Sync any more, and its slots lose their source. -/
theorem Block.syncTimeout_late {b : Block} {p n : Nat} (h : b.syncLate p n = true) :
    ∃ b1 : Block, b.syncTimeout p = b1.ptpSlotsOff p ∧ (b1.ptpDom p n).lastSync = none ∧ (b1.ptpDom p n).t1 = none ∧ (b1.ptpDom p n).syncWait = none := by
  have hmem : n ∈ ((b.ptp p).dom.map (·.1)).filter fun n => b.syncLate p n := by
    refine List.mem_filter.mpr ⟨Block.mem_dom_of_ne fun he => ?_, h⟩
    unfold Block.syncLate at h
    rw [he] at h
    cases h
  unfold Block.syncTimeout
  dsimp only
  rw [if_neg (by rw [List.isEmpty_iff]; exact List.ne_nil_of_mem hmem)]
  exact ⟨_, rfl, b.foldl_setPtpDom (Q := fun q => q.lastSync = none ∧ q.t1 = none ∧ q.syncWait = none) (fun _ => ⟨rfl, rfl, rfl⟩) hmem⟩

-- Messages sent (R55, R89, R91, R92)

namespace Block.sameButBooks

variable {y b : Block} (h : y.sameButBooks b)

include h

theorem cyc : b.cyc = y.cyc := by
  rw [h.1]
  rfl

theorem ptp (p : Nat) : b.ptp p = y.ptp p := by
  rw [h.1]
  rfl

end Block.sameButBooks

/-- A one-step Sync that is due leaves with its stamp. -/
theorem Block.syncTx_oneStep {b : Block} {p : Nat} (stamp : Stamp) (hp : p < 32) (hm : b.ptpMaster p = true)
    (hd : b.intervalDue (b.ptp p).syncSentAt (b.rd (Od.LT_PTP_LOG_SYNC p)) = true) (h1 : b.on (Od.LT_PTP_ONE_STEP p) = true) {l : Bytes}
    (hl : l = b.ptpTimed p 0 (b.rdN (Od.LT_PTP_DOMAIN p)) (b.ptp p).syncSeqTx false (ptpStamp (b.frameDeparture p stamp)).1
      (ptpStamp (b.frameDeparture p stamp)).2.1 (ptpStamp (b.frameDeparture p stamp)).2.2 none) (hleaves : b.eventLeaves p l.length = true) :
    .frame p l ∈ (b.syncTx p stamp).sent ∧ ((b.syncTx p stamp).ptp p).syncSeqTx = ((b.ptp p).syncSeqTx + 1) % 65536 ∧
      ((b.syncTx p stamp).ptp p).syncSentAt = some b.cyc := by
  unfold Block.syncTx
  rw [if_pos (by rw [hm, hd]; rfl)]
  dsimp only
  rw [if_pos h1, ← hl]
  obtain ⟨e, hbooks, hsent, hleft⟩ := b.eventMsg_leaves hp hleaves
  rw [hleft, ← hbooks.cyc]
  exact ⟨hsent, by simp, by simp⟩

/-- A two-step Sync that is due leaves, and its Follow_Up with the stamp is sent. -/
theorem Block.syncTx_twoStep {b : Block} {p : Nat} (stamp : Stamp) (hp : p < 32) (hm : b.ptpMaster p = true)
    (hd : b.intervalDue (b.ptp p).syncSentAt (b.rd (Od.LT_PTP_LOG_SYNC p)) = true) (h1 : b.on (Od.LT_PTP_ONE_STEP p) = false) {l : Bytes}
    (hl : l = b.ptpTimed p 0 (b.rdN (Od.LT_PTP_DOMAIN p)) (b.ptp p).syncSeqTx true 0 0 0 none) (hleaves : b.eventLeaves p l.length = true) :
    .frame p l ∈ (b.syncTx p stamp).sent ∧ ((b.syncTx p stamp).ptp p).syncSeqTx = ((b.ptp p).syncSeqTx + 1) % 65536 ∧
      (b.syncTx p stamp).sendsOwn p (.frame (b.ptpTimed p 8 (b.rdN (Od.LT_PTP_DOMAIN p)) (b.ptp p).syncSeqTx false (ptpStamp (b.frameDeparture p stamp)).1
        (ptpStamp (b.frameDeparture p stamp)).2.1 (ptpStamp (b.frameDeparture p stamp)).2.2 none)) := by
  unfold Block.syncTx
  rw [if_pos (by rw [hm, hd]; rfl)]
  dsimp only
  rw [if_neg (by simp [h1]), ← hl]
  obtain ⟨e, hbooks, hsent, hleft⟩ := b.eventMsg_leaves hp hleaves
  rw [hleft, hbooks.ptpTimed hp]
  unfold Block.sendGeneral
  refine ⟨Block.sent_mono (Block.sameButBooks_ownSend _ _ hp) hsent, ?_, Block.sendsOwn_ownSend _ _ hp rfl⟩
  rw [(Block.sameButBooks_ownSend _ _ hp).ptp]
  simp

/-- A Pdelay_Req that is due leaves, and its departure is held. -/
theorem Block.delayReqTx_peer {b : Block} {p : Nat} (stamp : Stamp) (hp : p < 32) (hr : b.ptpRuns p = true) (hm : b.rdN (Od.LT_PTP_DELAY_MECH p) = 1)
    (hd : b.intervalDue (b.ptp p).delaySentAt (b.rd (Od.LT_PTP_LOG_DELAY p)) = true) {l : Bytes}
    (hl : l = b.ptpTimed p 2 (b.rdN (Od.LT_PTP_DOMAIN p)) (b.ptp p).delaySeq false 0 0 0 none) (hleaves : b.eventLeaves p l.length = true) :
    .frame p l ∈ (b.delayReqTx p stamp).sent ∧ ((b.delayReqTx p stamp).ptp p).pdelayT1 = some ((b.ptp p).delaySeq, b.frameDeparture p stamp) := by
  unfold Block.delayReqTx
  dsimp only
  rw [if_neg (by simp [hr]), if_pos hm, if_pos hd, ← hl]
  obtain ⟨e, -, hsent, hleft⟩ := b.eventMsg_leaves hp hleaves
  rw [hleft]
  exact ⟨hsent, by simp⟩

/-- A Delay_Req that is due in a domain received leaves, and its departure is held. -/
theorem Block.delayReqTx_domain {b : Block} {p n : Nat} (stamp : Stamp) (hp : p < 32) (hr : b.ptpRuns p = true) (hm : b.rdN (Od.LT_PTP_DELAY_MECH p) = 0)
    (hs : b.rdN (Od.LT_PTP_PORT_STATE p) ∈ [8, 9]) (hd : b.delayDomain p = some n) {l : Bytes}
    (hl : l = b.ptpTimed p 1 n (b.ptp p).delaySeq false 0 0 0 none) (hleaves : b.eventLeaves p l.length = true) :
    .frame p l ∈ (b.delayReqTx p stamp).sent ∧ ((b.delayReqTx p stamp).ptpDom p n).t3 = some ((b.ptp p).delaySeq, b.frameDeparture p stamp) := by
  unfold Block.delayReqTx
  dsimp only
  rw [if_neg (by simp [hr]), if_neg (by simp [hm]), if_pos (by simpa using hs), hd]
  dsimp only
  rw [← hl]
  obtain ⟨e, -, hsent, hleft⟩ := b.eventMsg_leaves hp hleaves
  rw [hleft]
  exact ⟨hsent, by simp⟩

/-- An Announce that is due is sent. -/
theorem Block.announceTx_due {b : Block} {p : Nat} (hp : p < 32) (hm : b.ptpMaster p = true)
    (hd : b.intervalDue (b.ptp p).announceSentAt (b.rd (Od.LT_PTP_LOG_ANNOUNCE p)) = true) :
    (b.announceTx p).sendsOwn p (.frame (b.announceFrame p)) ∧
      ((b.announceTx p).ptp p).announceSeqTx = ((b.ptp p).announceSeqTx + 1) % 65536 := by
  unfold Block.announceTx Block.sendGeneral
  rw [if_pos (by rw [hm, hd]; rfl)]
  have hsent := b.sendsOwn_ownSend (.frame (b.announceFrame p)) hp rfl
  have hbooks := b.sameButBooks_ownSend (.frame (b.announceFrame p)) hp
  generalize b.ownSend p (.frame (b.announceFrame p)) = c at hsent hbooks
  refine ⟨hsent, ?_⟩
  simp [hbooks.ptp]

/-- Settles O7: an Announce and a timeout each by the lemma about it, a message sent by the lemma about its kind. That a port without a parent is MASTER
(log 34), that a two-step Sync carries no time of its own (log 135) and the domain that a Delay_Req is for (log 136) are the model's choices. -/
theorem ptpAnnounceAndSent : Obligations.PtpAnnounceAndSent := by
  unfold Obligations.PtpAnnounceAndSent
  refine ⟨?announce, ?announceLate, ?syncLate, ?sync, ?peerDelay, ?delay, ?announceSent⟩
  case announce =>
    intro s p h a hup ht hd hslots hsel
    have hn : s.m.noSlots := ⟨hslots, hsel⟩
    obtain ⟨hparent, hlast, hstate⟩ := hn.announceRx_spec a p.isLt ht hd
    exact State.leads_act s _ (fun _ b => b.announceRx p h a) _ rfl hup ⟨hlast, ⟨_, hparent, rfl, rfl, rfl, rfl⟩, hstate⟩
  case announceLate =>
    intro s p n hup h
    exact State.leads_act s _ (fun _ b => b.announceTimeout p) _ rfl hup (Block.announceTimeout_late p.isLt h)
  case syncLate =>
    intro s p n hup h
    exact State.leads_act s _ (fun _ b => b.syncTimeout p) _ rfl hup (Block.syncTimeout_late h)
  case sync =>
    intro s p stamp hup hm hd
    exact State.leads_act s _ (fun _ b => b.syncTx p stamp) _ rfl hup ⟨fun h1 => Block.syncTx_oneStep stamp p.isLt hm hd h1 rfl,
      fun h1 => Block.syncTx_twoStep stamp p.isLt hm hd h1 rfl⟩
  case peerDelay =>
    intro s p stamp hup hr hm hd seq l hleaves
    exact State.leads_act s _ (fun _ b => b.delayReqTx p stamp) _ rfl hup (Block.delayReqTx_peer stamp p.isLt hr hm hd rfl hleaves)
  case delay =>
    intro s p stamp n hup hr hm hs hd seq l hleaves
    exact State.leads_act s _ (fun _ b => b.delayReqTx p stamp) _ rfl hup (Block.delayReqTx_domain stamp p.isLt hr hm hs hd rfl hleaves)
  case announceSent =>
    intro s p hup hm hd
    exact State.leads_act s _ (fun _ b => b.announceTx p) _ rfl hup (Block.announceTx_due p.isLt hm hd)

end Sys2Proof.Machine
end

section
/-! A step (R99): the front command, or a Vesper cycle without one, and what the beats of the DMA engine in a cycle leave of the time (R380). -/

namespace Sys2Proof.Machine

-- What leaves the time alone

/-- Module b is in the Vesper cycle of module a, with its Meridian time. -/
def Block.sameInstant (a b : Block) : Prop := b.cyc = a.cyc ∧ b.mer = a.mer

theorem Block.sameInstant_refl (b : Block) : b.sameInstant b := ⟨rfl, rfl⟩

section

variable {a b : Block} (h : a.sameInstant b)

include h

/-- A change of other parts than the cycle count and the timing subsystem. -/
theorem Block.sameInstant.parts {c : Block} (hc : c.cyc = b.cyc) (ht : c.tm = b.tm) : a.sameInstant c := by
  unfold Block.sameInstant Block.mer
  rw [hc, ht]
  exact h

theorem Block.sameInstant.wr (k : Nat) (v : Int) : a.sameInstant (b.wr k v) := h

theorem Block.sameInstant.setCp (f : Compute → Compute) : a.sameInstant (b.setCp f) := h

theorem Block.sameInstant.setDma (c : Nat) (f : DmaCh → DmaCh) : a.sameInstant (b.setDma c f) := h

theorem Block.sameInstant.setToggle (x k : Nat) (f : Toggle → Toggle) : a.sameInstant (b.setToggle x k f) := h

theorem Block.sameInstant.setPe (e : Nat) (f : Engine → Engine) : a.sameInstant (b.setPe e f) := h

theorem Block.sameInstant.draw (n : Nat) : a.sameInstant (b.draw n).2 := h

theorem Block.sameInstant.events {c : Block} (g : b.sameButEvents c) : a.sameInstant c := h.parts g.cyc g.tm

theorem Block.sameInstant.tally (cls inst ev n : Nat) : a.sameInstant (b.tally cls inst ev n) := h.events (b.sameButEvents_tally cls inst ev n)

theorem Block.sameInstant.raise (num x y : Nat) : a.sameInstant (b.raise num x y) := h.events (b.sameButEvents_raise num x y)

theorem Block.sameInstant.raiseTo (t num x y : Nat) : a.sameInstant (b.raiseTo t num x y) := h.events (b.sameButEvents_raiseTo t num x y)

theorem Block.sameInstant.bump (k n : Nat) : a.sameInstant (b.bump k n) := by
  obtain ⟨_, _, hb⟩ := b.bump_eq k n
  rw [hb]
  exact h

theorem Block.sameInstant.need (c : FastClock) : a.sameInstant (b.need c) := by
  obtain ⟨_, _, _, hb⟩ := b.need_eq c
  rw [hb]
  exact h

theorem Block.sameInstant.ite {c : Block} {p : Prop} [Decidable p] (g : a.sameInstant c) : a.sameInstant (if p then b else c) := by
  split
  · exact h
  · exact g

theorem Block.sameInstant.foldl {β : Type} {f : Block → β → Block} (hf : ∀ (c : Block) (e : β), a.sameInstant c → a.sameInstant (f c e))
    (l : List β) : a.sameInstant (l.foldl f b) := by
  induction l generalizing b with
  | nil => exact h
  | cons e r ih => exact ih (hf b e h)

theorem Block.sameInstant.report (num x y : Nat) : a.sameInstant (b.report num x y) := by
  unfold Block.report
  split
  · exact h
  · exact h.raise num x y

theorem Block.sameInstant.reportTo (t num x y : Nat) : a.sameInstant (b.reportTo t num x y) := by
  unfold Block.reportTo
  split
  · exact h
  · exact h.raiseTo t num x y

theorem Block.sameInstant.raiseLim (num x y : Nat) : a.sameInstant (b.raiseLim num x y) := by
  have hlimit : a.sameInstant (b.limit num x).2 := by
    unfold Block.limit
    dsimp only
    split
    · split <;> exact h
    · exact h
  exact .ite (.report hlimit num x y) hlimit

end

-- A cycle of the clocks and crossings (R19, R27, R466, R470)

section

variable {a b : Block} (h : a.sameInstant b)

include h

theorem Block.sameInstant.countLevels : a.sameInstant b.countLevels := by
  refine h.foldl (fun c e hc => ?_) _
  dsimp only
  split
  · rename_i hlt
    exact .ite hc (.events hc (c.sameButEvents_cntAdd _ hlt.1))
  · exact hc

theorem Block.sameInstant.countCycles : a.sameInstant b.countCycles := by
  have hone {c : Block} (hc : a.sameInstant c) (k ev n : Nat) : a.sameInstant (if n = 0 then c else (c.bump k n).tally 0 0 ev n) :=
    .ite hc (.tally (.bump hc k n) 0 0 ev n)
  unfold Block.countCycles
  extract_lets one fabric prixus evorvo lpddr b0 b1 b2 b3
  have h0 : a.sameInstant b0 := hone h _ _ _
  have h1 : a.sameInstant b1 := hone h0 _ _ _
  have h2 : a.sameInstant b2 := hone h1 _ _ _
  have h3 : a.sameInstant b3 := hone h2 _ _ _
  exact hone h3 _ _ _

theorem Block.sameInstant.setFw (loop : Int) : a.sameInstant (b.setFw loop) := by
  unfold Block.setFw
  extract_lets added steer fw cut written hit limited marked clips told
  have hwritten : a.sameInstant written := h
  have hlimited : a.sameInstant limited := .ite (.raise (.wr hwritten _ _) _ _ _) hwritten
  have htold : a.sameInstant told := .ite (.raise (.setPe hlimited _ _) _ _ _) (.setPe hlimited _ _)
  have hformed (f : Osc → Osc) : a.sameInstant (told.setOsc f) := htold
  exact .ite (.wr (hformed _) _ _) (hformed _)

theorem Block.sameInstant.reformFw : a.sameInstant b.reformFw := .ite h (.setFw h _)

theorem Block.sameInstant.scrubOverrun : a.sameInstant b.scrubOverrun := by
  have hset (f : SafeSt → SafeSt) : a.sameInstant ((b.orBits Od.SCRUB_STICKY 2).setSafe f) := h
  exact .ite (hset _) h

theorem Block.sameInstant.clockStopped (c : FastClock) : a.sameInstant (b.clockStopped c) := by
  have hstopped (f : ClockSt → ClockSt) : a.sameInstant (b.setClock c f) := h
  unfold Block.clockStopped
  split
  · exact .ite (.ite (.need (hstopped _) c) (hstopped _)) h
  · exact h

theorem Block.sameInstant.deliverToggle (x k : Nat) : a.sameInstant (b.deliverToggle x k) := by
  unfold Block.deliverToggle
  extract_lets t arrived c
  have harrived : a.sameInstant arrived := h.setToggle x k _
  have hc : a.sameInstant c := by
    simp only [c]
    split
    · refine .ite ?_ h
      split
      · exact harrived.raiseTo _ _ _ _
      · exact harrived.raise _ _ _
    · exact h
  split
  · exact .ite (hc.setToggle x k _) hc
  · exact hc

theorem Block.sameInstant.deliverAll : a.sameInstant b.deliverAll :=
  h.foldl (fun _ e hc => hc.foldl (fun _ t hd => hd.deliverToggle e.1 t.1) _) _

end

-- Beats of the DMA engine (R374, R376, R380, R383, R389, R391)

section

variable {a b : Block} (h : a.sameInstant b)

include h

theorem Block.sameInstant.put (c space addr : Nat) (l : Bytes) : a.sameInstant (b.put c space addr l) := by
  unfold Block.put
  split
  · exact h
  · split
    · exact h
    · exact h.tally 11 0 1 _

theorem Block.sameInstant.moveHead (c n : Nat) : a.sameInstant (b.moveHead c n) := .ite (.wr h _ _) (.put (.wr h _ _) _ _ _ _)

theorem Block.sameInstant.dmaStatus (c : Nat) : a.sameInstant (b.dmaStatus c) := .ite h (.wr h _ _)

theorem Block.sameInstant.dmaIrq (c : Nat) : a.sameInstant (b.dmaIrq c) := .ite (.reportTo (.setDma h c _) _ _ _ _) (.setDma h c _)

theorem Block.sameInstant.complete (c result bytes : Nat) (irq : Bool) : a.sameInstant (b.complete c result bytes irq) := by
  unfold Block.complete
  extract_lets written moved freed marked read told
  have hmoved : a.sameInstant moved := .bump (.bump (.moveHead (.put h _ _ _ _) _ _) _ _) _ _
  have hfreed : a.sameInstant freed := hmoved
  have hmarked : a.sameInstant marked := .ite (.wr hfreed _ _) hfreed
  have hread : a.sameInstant read := .tally (.tally hmarked _ _ _ _) _ _ _ _
  have htold : a.sameInstant told := .ite (.dmaIrq hread _) hread
  exact .dmaStatus htold _

theorem Block.sameInstant.allocDone (c x : Nat) (irq : Bool) : a.sameInstant (b.allocDone c x irq) := .complete (.put h _ _ _ _) _ _ _ _

theorem Block.sameInstant.takeBuf (p owner : Nat) : a.sameInstant (b.takeBuf p owner).2 := by
  unfold Block.takeBuf
  dsimp only
  exact .bump (.wr (.wr (.setCp (.draw h (max 1 (b.poolCount p))) _) _ _) _ _) _ _

theorem Block.sameInstant.grantFreed (p : Nat) : a.sameInstant (b.grantFreed p) := by
  unfold Block.grantFreed
  split
  · exact h
  · rename_i q w _
    have hpopped : a.sameInstant (b.popWaiter q) := h
    have htaken := Block.sameInstant.takeBuf (.ite (p := q = p) hpopped (.bump hpopped (Od.POOLP_SPILLS q) 1)) p w.tenant
    exact .ite (.allocDone htaken _ _ _) (.setCp htaken _)

theorem Block.sameInstant.releaseBuf (x : Nat) : a.sameInstant (b.releaseBuf x).2 := by
  unfold Block.releaseBuf
  dsimp only
  split
  · exact .report (.wr (.bump h _ _) _ _) _ _ _
  · split
    · exact .grantFreed (.wr (.setCp h _) _ _) _
    · exact h

theorem Block.sameInstant.frameDone (c n result : Nat) (irq : Bool) : a.sameInstant (b.frameDone c n result irq) := by
  unfold Block.frameDone
  extract_lets buffer taken released completed
  have htaken : a.sameInstant taken := h
  have hreleased : a.sameInstant released := by
    simp only [released]
    cases buffer with
    | none => exact htaken
    | some x => exact htaken.releaseBuf x
  have hcompleted : a.sameInstant completed := hreleased.complete _ _ _ _
  exact .ite (.raiseLim (.wr (.bump hcompleted _ _) _ _) _ _ _) hcompleted

theorem Block.sameInstant.recordDone (c n head : Nat) : a.sameInstant (b.recordDone c n head) := by
  unfold Block.recordDone
  extract_lets moved freed
  have hmoved : a.sameInstant moved := .bump (.bump (.moveHead h _ _) _ _) _ _
  have hfreed : a.sameInstant freed := hmoved
  exact hfreed.tally _ _ _ _

theorem Block.sameInstant.jobDone (c : Nat) (j : DmaJob) : a.sameInstant (b.jobDone c j) := by
  unfold Block.jobDone
  dsimp only
  split
  · exact .complete (.ite (.ite (.releaseBuf h _) h) h) _ _ _ _
  · exact .frameDone h _ _ _ _
  · exact .recordDone h _ _ _

theorem Block.sameInstant.dmaBeat (m : Memory) : a.sameInstant (b.dmaBeat m) := by
  have hgranted {d : Block} (hd : a.sameInstant d) (c : Nat) (f : DmaCh → DmaCh) (g : Compute → Compute) :
      a.sameInstant ((((d.retried c).granted c 1).setDma c f).setCp g) :=
    .setCp (.setDma (.bump (.tally (.ite (.setDma (.bump hd _ _) _ _) hd) _ _ _ _) _ _) _ _) _
  unfold Block.dmaBeat
  split
  · exact h
  · split
    · exact h
    · extract_lets last preempted r moved read written
      have hread : a.sameInstant read := by
        have hmoved : a.sameInstant moved := hgranted (.ite (.tally h _ _ _ _) h) _ _ _
        simp only [read]
        split
        · exact .tally hmoved _ _ _ _
        · exact hmoved
      have hwritten : a.sameInstant written := hread.put _ _ _ _
      exact .ite (.jobDone hwritten _ _) hwritten

theorem Block.sameInstant.dmaBeats (m : Memory) (n : Nat) : a.sameInstant (b.dmaBeats m n) := by
  induction n generalizing b with
  | zero => exact h
  | succ n ih => exact ih (h.dmaBeat m)

theorem Block.sameInstant.dmaCycle (m : Memory) : a.sameInstant (b.dmaCycle m) := .ite (.dmaBeats h m 8) h

end

-- Meridian time moves on (R38, R41, R99)

theorem Block.cyc_foldl {β : Type} (f : Block → β → Block) (l : List β) (h : ∀ (c : Block) (e : β), (f c e).cyc = c.cyc) (b : Block) :
    (l.foldl f b).cyc = b.cyc := by
  induction l generalizing b with
  | nil => rfl
  | cons e r ih => exact (ih (f b e)).trans (h b e)

@[simp] theorem Block.raise_cyc (b : Block) (num x y : Nat) : (b.raise num x y).cyc = b.cyc := (b.sameButEvents_raise num x y).cyc

@[simp] theorem Block.report_cyc (b : Block) (num x y : Nat) : (b.report num x y).cyc = b.cyc := (b.sameInstant_refl.report num x y).1

theorem Block.lateTarget_cyc (b : Block) : b.lateTarget.cyc = b.cyc := Block.raise_cyc _ _ _ _

theorem Block.actsWithin.cyc {a b : Block} {u : Subsystem} {own : Nat → Prop} (h : a.actsWithin b u own) : b.cyc = a.cyc := by
  have hrest := congrArg Block.cyc h.1
  cases u <;> exact hrest

theorem Block.leapDue_cyc (b : Block) : b.leapDue.cyc = b.cyc := b.actsWithin_leapDue.cyc

theorem Block.reacquire_cyc (b : Block) (e : Nat) (at_ : Int) : (b.reacquire e at_).cyc = b.cyc := by
  unfold Block.reacquire Block.holdEngine
  split
  · rfl
  · exact Block.cyc_foldl (fun c n => c.holdOut n at_) _ (fun _ _ => rfl) _

theorem Block.refreshOuts_cyc (b : Block) : b.refreshOuts.cyc = b.cyc := (Block.actsWithin_refl b).refreshOuts.cyc

theorem Block.stepOutputs_cyc (b : Block) (old : Nat) : (b.stepOutputs old).cyc = b.cyc := by
  unfold Block.stepOutputs
  refine (Block.refreshOuts_cyc _).trans ((Block.cyc_foldl _ _ (fun c n => ?_) _).trans ((Block.reacquire_cyc _ _ _).trans (b.reacquire_cyc _ _)))
  split
  · rfl
  · rw [Block.raise_cyc]
    dsimp only
    split <;> rfl

theorem Block.orBits_cyc (b : Block) (k m : Nat) : (b.orBits k m).cyc = b.cyc := rfl

theorem Block.setGate_cyc (b : Block) (p : Nat) (f : Gate → Gate) : (b.setGate p f).cyc = b.cyc := rfl

theorem Block.gclApplied_cyc (b : Block) (p : Nat) (c : GatePend) : (b.gclApplied p c).cyc = b.cyc := by
  unfold Block.gclApplied
  dsimp only
  rw [Block.report_cyc]
  rfl

theorem Block.realignGate_cyc (b : Block) (p : Nat) : (b.realignGate p).cyc = b.cyc := by
  unfold Block.realignGate
  dsimp only
  split
  · rw [Block.report_cyc, Block.orBits_cyc, Block.setGate_cyc, Block.gclApplied_cyc]
  · split
    · rw [Block.report_cyc, Block.orBits_cyc, Block.setGate_cyc]
    · rfl

theorem Block.dumpStep_cyc (b : Block) : b.dumpStep.cyc = b.cyc := rfl

/-- A step of Meridian time takes no cycle. -/
theorem Block.stepTime_cyc (b : Block) (new : Nat) : (b.stepTime new).cyc = b.cyc := by
  unfold Block.stepTime
  extract_lets old reached passed hit moved told late applied
  have hmoved : moved.cyc = b.cyc := rfl
  have htold : told.cyc = b.cyc := by rw [Block.raise_cyc, Block.orBits_cyc, hmoved]
  have hlate : late.cyc = b.cyc := (Block.cyc_foldl _ _ (fun c _ => c.lateTarget_cyc) _).trans htold
  have happlied : applied.cyc = b.cyc := by
    simp only [applied]
    split
    · rw [Block.leapDue_cyc, hlate]
    · exact hlate
  have hgates : (applied.stepOutputs old).realignGates.cyc = (applied.stepOutputs old).cyc :=
    Block.cyc_foldl (fun c (e : Nat × PortFab) => c.realignGate e.1) _ (fun c e => c.realignGate_cyc e.1) _
  rw [Block.dumpStep_cyc, hgates, Block.stepOutputs_cyc, happlied]

theorem Block.advance_cyc (b : Block) : b.advance.cyc = b.cyc + 1 := by
  unfold Block.advance
  extract_lets c n
  by_cases hn : n < wordWrap
  · rw [if_pos hn]
    rfl
  · rw [if_neg hn]
    exact c.stepTime_cyc _

/-- Short of the wrap of SECONDS a cycle raises Meridian time by its ticks. -/
theorem Block.advance_mer {b : Block} (h : b.mer + 655360 < wordWrap) : b.advance.mer = b.mer + 655360 := by
  unfold Block.advance
  extract_lets c n
  have hn : n = b.mer + 655360 := rfl
  rw [← hn] at h
  rw [if_pos h]
  exact hn

/-- A cycle of a module that is up is a cycle of its time, and nothing else in it takes time. -/
theorem Block.idleCycle_time {b : Block} (h : b.up = true) :
    b.idleCycle.cyc = b.cyc + 1 ∧ (b.mer + 655360 < wordWrap → b.idleCycle.mer = b.mer + 655360) := by
  obtain ⟨hcyc, hmer⟩ := b.sameInstant_refl.countLevels.countCycles
  have hrest : b.countLevels.countCycles.advance.sameInstant b.idleCycle := by
    unfold Block.idleCycle
    rw [if_neg (by simp [h])]
    exact .deliverAll (.foldl (.scrubOverrun (.reformFw (Block.sameInstant_refl _))) (fun _ c hc => hc.clockStopped c) _)
  refine ⟨by rw [hrest.1, Block.advance_cyc, hcyc], fun hlt => ?_⟩
  rw [hrest.2, Block.advance_mer (by rwa [hmer]), hmer]

/-- Settles O47: a command runs on the queue's rest by the definition of a step; a cycle moves the time on, and the beats of the DMA engine in it do not. That
a step without a command is one Vesper cycle (log 2) is the model's choice. -/
theorem stepRunsFront : Obligations.StepRunsFront := by
  unfold Obligations.StepRunsFront
  refine ⟨fun _ _ _ => rfl, fun s hs => ?_⟩
  have hstep : step s = .next s.idle := by rw [step, hs]
  by_cases hup : s.m.up = true
  · obtain ⟨hcyc, hmer⟩ := Block.idleCycle_time hup
    obtain ⟨dcyc, dmer⟩ := s.m.idleCycle.sameInstant_refl.dmaCycle s.ram
    have hidle : s.idle = s.withBlock (s.m.idleCycle.dmaCycle s.ram) := by rw [State.idle, if_pos hup]
    exact ⟨_, hstep.trans (congrArg _ hidle), hs, dcyc.trans hcyc, fun _ hlt => dmer.trans (hmer hlt), fun hdown => absurd hup (by simp [hdown])⟩
  · have hheld : s.m.idleCycle = { s.m with cyc := s.m.cyc + 1 } := if_pos (by simp [hup])
    have hidle : s.idle = s.withBlock { s.m with cyc := s.m.cyc + 1 } := by rw [State.idle, if_neg hup, hheld]
    exact ⟨_, hstep.trans (congrArg _ hidle), hs, rfl, fun h => absurd h hup, fun _ => rfl⟩

end Sys2Proof.Machine
end

section
/-! Outputs and reference inputs (R109, R115, R116, R130, R512): what showing the outputs' status and moving their grids leave alone, and each command. -/

namespace Sys2Proof.Machine

-- What showing the outputs' status leaves alone

theorem Block.od_foldl {β : Type} (f : Block → β → Block) (l : List β) (h : ∀ (c : Block) (e : β), ∃ od, f c e = { c with od := od }) (b : Block) :
    ∃ od, l.foldl f b = { b with od := od } := by
  induction l generalizing b with
  | nil => exact ⟨b.od, rfl⟩
  | cons e r ih =>
    obtain ⟨od, he⟩ := h b e
    obtain ⟨od', hr⟩ := ih (f b e)
    exact ⟨od', by rw [List.foldl_cons, hr, he]⟩

/-- Showing the status of the outputs changes entries alone. -/
theorem Block.refreshOuts_eq (b : Block) : ∃ od, b.refreshOuts = { b with od := od } := by
  unfold Block.refreshOuts
  refine Block.od_foldl _ _ (fun c n => ?_) b
  dsimp only
  split <;> exact ⟨_, rfl⟩

@[simp] theorem Block.refreshOuts_tm (b : Block) : b.refreshOuts.tm = b.tm := by
  obtain ⟨_, h⟩ := b.refreshOuts_eq
  rw [h]

theorem Block.told_refreshOuts {a b : Block} {num x y : Nat} (h : a.told b num x y) : a.told b.refreshOuts num x y := by
  obtain ⟨_, hb⟩ := b.refreshOuts_eq
  rw [hb]
  exact h

-- Outputs

theorem Block.out_congr {b c : Block} (n : Nat) (h : c.tm = b.tm) : c.out n = b.out n := by
  unfold Block.out
  rw [h]

theorem Block.out_setOut (b : Block) (n m : Nat) (f : OutSt → OutSt) : (b.setOut n f).out m = if n = m then f (b.out n) else b.out m := tat_tmod _ _ _ _ _

@[simp] theorem Block.out_setOut_same (b : Block) (n : Nat) (f : OutSt → OutSt) : (b.setOut n f).out n = f (b.out n) := tat_tmod_same _ _ _ _

@[simp] theorem Block.out_raise (b : Block) (num x y n : Nat) : (b.raise num x y).out n = b.out n := Block.out_congr n (b.raise_tm num x y)

@[simp] theorem Block.out_refreshOuts (b : Block) (n : Nat) : b.refreshOuts.out n = b.out n := Block.out_congr n b.refreshOuts_tm

@[simp] theorem Block.out_orBits (b : Block) (k m n : Nat) : (b.orBits k m).out n = b.out n := rfl

/-- Module b has the outputs of module a with their settings in force and squelched as they were, and differs from it in outputs alone: what every
change of the outputs' grids leaves. -/
def Block.sameSettings (a b : Block) : Prop :=
  (∃ out, b = { a with tm := { a.tm with out := out } }) ∧ ∀ n, (b.out n).cfg = (a.out n).cfg ∧ (b.out n).squelched = (a.out n).squelched

theorem Block.sameSettings_refl (b : Block) : b.sameSettings b := ⟨⟨_, rfl⟩, fun _ => ⟨rfl, rfl⟩⟩

theorem Block.sameSettings.trans {a b c : Block} (h : a.sameSettings b) (g : b.sameSettings c) : a.sameSettings c := by
  obtain ⟨⟨_, rfl⟩, hout⟩ := h
  obtain ⟨⟨_, rfl⟩, gout⟩ := g
  exact ⟨⟨_, rfl⟩, fun n => ⟨(gout n).1.trans (hout n).1, (gout n).2.trans (hout n).2⟩⟩

theorem Block.sameSettings_setOut (b : Block) (n : Nat) (f : OutSt → OutSt) (hf : ∀ o, (f o).cfg = o.cfg ∧ (f o).squelched = o.squelched) :
    b.sameSettings (b.setOut n f) := by
  refine ⟨⟨_, rfl⟩, fun m => ?_⟩
  rw [Block.out_setOut]
  split
  · rename_i hm
    rw [← hm]
    exact hf _
  · exact ⟨rfl, rfl⟩

theorem Block.sameSettings_foldl {β : Type} (f : Block → β → Block) (l : List β) (h : ∀ (c : Block) (e : β), c.sameSettings (f c e)) (b : Block) :
    b.sameSettings (l.foldl f b) := by
  induction l generalizing b with
  | nil => exact b.sameSettings_refl
  | cons e r ih => exact (h b e).trans (ih (f b e))

theorem Block.sameSettings_stopGrid (b : Block) (n : Nat) (at_ : Int) : b.sameSettings (b.stopGrid n at_) :=
  b.sameSettings_setOut n _ fun _ => ⟨rfl, rfl⟩

theorem Block.sameSettings_startOut (b : Block) (n : Nat) (from_ : Int) : b.sameSettings (b.startOut n from_) :=
  b.sameSettings_setOut n _ fun _ => ⟨rfl, rfl⟩

theorem Block.sameSettings_holdOut (b : Block) (n : Nat) (at_ : Int) : b.sameSettings (b.holdOut n at_) :=
  (b.sameSettings_stopGrid n at_).trans (Block.sameSettings_setOut _ n _ fun _ => ⟨rfl, rfl⟩)

theorem Block.sameSettings_resumeOuts (b : Block) (l : List Nat) : b.sameSettings (b.resumeOuts l) := by
  unfold Block.resumeOuts
  refine Block.sameSettings_foldl _ _ (fun c n => ?_) b
  split
  · exact c.sameSettings_setOut n _ fun _ => ⟨rfl, rfl⟩
  · exact c.sameSettings_startOut n _

theorem Block.sameSettings.actsWithin {a b : Block} {own : Nat → Prop} (h : a.sameSettings b) : a.actsWithin b .timing own := by
  obtain ⟨⟨_, rfl⟩, -⟩ := h
  exact Block.actsWithin_parts rfl rfl rfl

/-- An output held is on no grid. -/
theorem Block.holdOut_first (b : Block) (n : Nat) (at_ : Int) : ((b.holdOut n at_).out n).first = none := by
  unfold Block.holdOut Block.stopGrid
  simp

section

variable {b : Block} {n : Nat} (hn : n < 8)

include hn

/-- What an output does where its alignment input is lost (R115). -/
theorem Block.alignLoss_spec (hmode : (b.out n).cfg.mode ≠ 0) (halign : (b.out n).cfg.align ≠ 0) (hfly : (b.out n).flywheel = false)
    (hlost : b.alignLost n = true) : ((b.alignLoss n).out n).flywheel = true ∧ b.told (b.alignLoss n) 0x2414 n 0 := by
  have heq : b.alignLoss n = (((b.setOut n fun o => { o with flywheel := true, back := 0 }).orBits (Od.OUT_STICKY n) 2).raise 0x2414 n).refreshOuts :=
    if_pos ⟨hmode, halign, by simp [hfly], hlost⟩
  rw [heq]
  exact ⟨by simp, Block.told_refreshOuts (Block.actsWithin.told_raise (.wr (.withTm b.actsWithin_refl _) _ ⟨by omega, by omega⟩) _ _ _)⟩

/-- What a squelch does as it takes effect (R116). -/
theorem Block.squelch_spec (hmode : (b.out n).cfg.mode ≠ 0) (hwas : (b.out n).squelched = false) (hnow : b.squelchNow n = true) :
    ((b.squelch n).out n).squelched = true ∧ ((b.squelch n).out n).first = none ∧ b.told (b.squelch n) 0x2412 n 0 := by
  have heq : b.squelch n =
      ((((b.holdOut n b.mer).setOut n fun o => { o with squelched := true }).orBits (Od.OUT_STICKY n) 1).raise 0x2412 n).refreshOuts :=
    if_pos ⟨hmode, by simp [hwas], hnow⟩
  rw [heq]
  exact ⟨by simp, by simp [b.holdOut_first n], Block.told_refreshOuts
    (Block.actsWithin.told_raise (.wr (.withTm (b.sameSettings_holdOut n _).actsWithin _) _ ⟨by omega, by omega⟩) _ _ _)⟩

end

/-- What an output does as its squelch ends (R116). -/
theorem Block.unsquelch_spec {b : Block} {n : Nat} (hwas : (b.out n).squelched = true) (hnow : b.squelchNow n = false) :
    ((b.unsquelch n).out n).squelched = false ∧ b.told (b.unsquelch n) 0x2413 n 0 := by
  have heq : b.unsquelch n = (((b.setOut n fun o => { o with squelched := false }).resumeOuts [n]).raise 0x2413 n).refreshOuts :=
    if_pos ⟨hwas, by simp [hnow]⟩
  have hresumed := (b.setOut n fun o => { o with squelched := false }).sameSettings_resumeOuts [n]
  rw [heq]
  refine ⟨?_, Block.told_refreshOuts (Block.actsWithin.told_raise (.trans (.withTm b.actsWithin_refl _) hresumed.actsWithin) _ _ _)⟩
  rw [Block.out_refreshOuts, Block.out_raise, (hresumed.2 n).2, Block.out_setOut_same]

-- Reference inputs

theorem Block.bit_orBits (b : Block) (k m i : Nat) : bit ((b.orBits k m).rdN k) i = (bit (b.rdN k) i || bit m i) := by rw [Block.rdN_orBits, bit_or]

theorem Block.bit_clearBits (b : Block) (k m i : Nat) : bit ((b.clearBits k m).rdN k) i = (bit (b.rdN k) i && !bit m i) := by
  simp only [Block.rdN_clearBits, bit_eq_testBit, testBit_sub_and]

/-- A pulse of a REFIN input in use (R109, R130): timed, shown, and taken by the slots and the outputs aligned to it. -/
theorem Block.refinPulse_spec {b : Block} {r : Nat} (frac : Int) (hrun : b.fnRuns (36 + r) = true) (hon : b.on (Od.REFIN_PULSE r) = true) :
    let at_ : Int := b.mer + frac - b.corr (refinItem r) - psToTicks (b.rd (Od.REFIN_BOARD_DELAY r)) - psToTicks (b.rd (Od.REFIN_PULSE_OFFSET r))
    let phase := (at_ + ticksPerSec / 2) % ticksPerSec - ticksPerSec / 2
    ∃ b1 : Block, b.refinPulse r frac = (b1.kindSample (5 + r) (-phase)).alignPulse r (tat {} b.tm.refin r).lastAt ∧
      b1.rd (Od.REFIN_PULSE_PHASE r) = phase ∧ bit (b1.rdN (Od.REFIN_STATUS r)) 0 = true ∧ (tat {} b1.tm.refin r).lastAt = some b.cyc := by
  intro at_ phase
  have hjitter : Od.REFIN_PULSE_JITTER r ≠ Od.REFIN_PULSE_PHASE r := by
    unfold Od.REFIN_PULSE_JITTER Od.REFIN_PULSE_PHASE key
    omega
  have hstatus : Od.REFIN_STATUS r ≠ Od.REFIN_PULSE_PHASE r := by
    unfold Od.REFIN_STATUS Od.REFIN_PULSE_PHASE key
    omega
  refine ⟨_, if_neg (by simp [hrun, hon]), ?_, ?_, ?_⟩
  · rw [Block.rd_orBits_ne _ _ hstatus, Block.rd_wr_ne _ _ hjitter, Block.rd_wr_same]
  · rw [Block.bit_orBits]
    exact Bool.or_true _
  · simp

theorem Block.refinTimeout_spec {b : Block} {r t : Nat} (ht : (tat {} b.tm.refin r).lastAt = some t) (hlate : t + ms 2050 ≤ b.cyc) :
    bit ((b.refinTimeout r).rdN (Od.REFIN_STATUS r)) 0 = false := by
  have heq : b.refinTimeout r = b.clearBits (Od.REFIN_STATUS r) 1 := by
    unfold Block.refinTimeout
    rw [ht]
    exact if_pos hlate
  rw [heq, Block.bit_clearBits]
  exact Bool.and_false _

theorem Block.refinFreq_spec {b : Block} {r : Nat} (present : Bool) (hrun : b.fnRuns (36 + r) = true) (hfreq : b.rdN (Od.REFIN_FREQ r) ≠ 0) :
    bit ((b.refinFreq r present).rdN (Od.REFIN_STATUS r)) 1 = present := by
  have heq : b.refinFreq r present = if present then b.orBits (Od.REFIN_STATUS r) 2 else b.clearBits (Od.REFIN_STATUS r) 2 :=
    if_neg (by simp [hrun, hfreq])
  rw [heq]
  cases present with
  | true =>
    rw [if_pos rfl, Block.bit_orBits]
    exact Bool.or_true _
  | false =>
    rw [if_neg Bool.false_ne_true, Block.bit_clearBits]
    exact Bool.and_false _

/-- Settles O9: each command by the lemma about its operation. -/
theorem referencesAndOutputs : Obligations.ReferencesAndOutputs := by
  unfold Obligations.ReferencesAndOutputs
  refine ⟨?pulse, ?timeout, ?frequency, ?loss, ?squelch, ?unsquelch⟩
  case pulse =>
    intro s r frac hup hrun hon
    exact State.leads_act s _ (fun _ b => b.refinPulse r frac) _ rfl hup (Block.refinPulse_spec frac hrun hon)
  case timeout =>
    intro s r t hup ht hlate
    exact State.leads_act s _ (fun _ b => b.refinTimeout r) _ rfl hup (Block.refinTimeout_spec ht hlate)
  case frequency =>
    intro s r present hup hrun hfreq
    exact State.leads_act s _ (fun _ b => b.refinFreq r present) _ rfl hup (Block.refinFreq_spec present hrun hfreq)
  case loss =>
    intro s n hup hmode halign hfly hlost
    exact State.leads_act s _ (fun _ b => b.alignLoss n) _ rfl hup (Block.alignLoss_spec n.isLt hmode halign hfly hlost)
  case squelch =>
    intro s n hup hmode hwas hnow
    exact State.leads_act s _ (fun _ b => b.squelch n) _ rfl hup (Block.squelch_spec n.isLt hmode hwas hnow)
  case unsquelch =>
    intro s n hup hwas hnow
    exact State.leads_act s _ (fun _ b => b.unsquelch n) _ rfl hup (Block.unsquelch_spec hwas hnow)

end Sys2Proof.Machine
end

section
/-! Phase samples (R101, R104, R144), and the commit of outputs armed, cancelled and applied (R119 to R123). -/

namespace Sys2Proof.Machine

-- A sample of the SELECTED slot (R101, R144)

theorem Block.stepMonitor_first {b : Block} {k : Nat} (phase : Int) (h : (b.slot k).last = none) :
    b.stepMonitor k phase = (true, b.setSlot k fun s => { s with last := some (phase, b.cyc) }) := by
  unfold Block.stepMonitor
  dsimp only
  rw [h]

@[simp] theorem Block.slot_setSlot (b : Block) (k : Nat) (f : Slot → Slot) : (b.setSlot k f).slot k = f (b.slot k) := tat_tmod_same _ _ _ _

section

variable (b : Block) (j : Nat) (v : Int) {i sub : Nat}

/-- A slot's phase shown changes no entry of another sub-index. -/
theorem Block.rdN_wr_slotPhase (hs : sub < 256) (h : sub ≠ 0x15) : (b.wr (Od.SLOT_PHASE j) v).rdN (key i sub) = b.rdN (key i sub) := by
  rw [Block.rdN_wr, if_neg]
  unfold Od.SLOT_PHASE key
  omega

theorem Block.on_wr_slotPhase (hs : sub < 256) (h : sub ≠ 0x15) : (b.wr (Od.SLOT_PHASE j) v).on (key i sub) = b.on (key i sub) := by
  rw [Block.on_wr, if_neg]
  unfold Od.SLOT_PHASE key
  omega

theorem Block.timeCapable_wr_slotPhase (k : Nat) : (b.wr (Od.SLOT_PHASE j) v).timeCapable k = b.timeCapable k := by
  unfold Block.timeCapable Block.slotKind Od.SLOT_KIND Od.REFIN_PULSE
  simp only [Block.rdN_wr_slotPhase b j v (sub := 0x01) (by decide) (by decide), Block.on_wr_slotPhase b j v (sub := 0x01) (by decide) (by decide)]

theorem Block.selected_wr_slotPhase : (b.wr (Od.SLOT_PHASE j) v).selected = b.selected := by
  unfold Block.selected Od.SEL_SELECTED
  rw [Block.rdN_wr_slotPhase b j v (by decide) (by decide)]

theorem Block.unwrap_wr_slotPhase (k : Nat) (before phase : Int) : (b.wr (Od.SLOT_PHASE j) v).unwrap k before phase = b.unwrap k before phase := by
  unfold Block.unwrap Block.edgePeriod Block.slotKind Od.SLOT_KIND Od.SLOT_PORT Od.REFIN_FREQ Od.P_MODE
  simp only [Block.rdN_wr_slotPhase b j v (sub := 0x01) (by decide) (by decide), Block.rdN_wr_slotPhase b j v (sub := 0x02) (by decide) (by decide)]

end

/-- What a first sample of slot k leaves before PE0 takes it: the monitors' last sample, the slot's phase, and the sums of its second. -/
def Block.sampleSeen (b : Block) (k : Nat) (phase : Int) : Block :=
  ((b.setSlot k fun s => { s with last := some (phase, b.cyc) }).wr (Od.SLOT_PHASE k) (if b.timeCapable k then phase else 0)).setSlot k
    fun s => { s with secSum := s.secSum + phase, secN := s.secN + 1 }

/-- A first sample of the SELECTED slot, while no transfer runs, is seen by its monitors and goes to PE0. -/
theorem Block.slotSample_selected {b : Block} {k : Nat} (phase : Int) (hstate : b.slotState k ≠ 0) (hlast : (b.slot k).last = none)
    (htransfer : b.tm.sel.transfer = none) (hsel : b.selected = some k) : b.slotSample k phase = (b.sampleSeen k phase).followSample k phase := by
  have hseen : (b.sampleSeen k phase).selected = some k := (Block.selected_wr_slotPhase (b.setSlot k _) k _).trans hsel
  unfold Block.slotSample
  rw [if_neg hstate, Block.stepMonitor_first phase hlast]
  simp only [Block.setSlot_tm_sel, Block.wr_tm, htransfer, Bool.not_true, Bool.false_eq_true, if_false]
  exact if_pos hseen

/-- What PE0 is given of that sample (R144, R149). -/
theorem Block.followSample_seen (b : Block) (k : Nat) (phase : Int) : ∃ b1 : Block,
    (b.sampleSeen k phase).followSample k phase =
      b1.peSample 0 (if b.timeCapable k then phase - b.domResidual - b.switchResidual - b.retResidual
        else b.unwrap k b.tm.sel.edgeNow phase - b.tm.sel.edgeBase) ∧
    b1.rd (Od.SLOT_PHASE k) = (if b.timeCapable k then phase else 0) ∧ (b1.slot k).last = some (phase, b.cyc) := by
  have hcap : (b.sampleSeen k phase).timeCapable k = b.timeCapable k := Block.timeCapable_wr_slotPhase (b.setSlot k _) k _ k
  have hedge : (b.sampleSeen k phase).unwrap k b.tm.sel.edgeNow phase = b.unwrap k b.tm.sel.edgeNow phase :=
    Block.unwrap_wr_slotPhase (b.setSlot k _) k _ k _ _
  have hphase : (b.sampleSeen k phase).rd (Od.SLOT_PHASE k) = if b.timeCapable k then phase else 0 := Block.rd_wr_same _ _ _
  have hlast : ((b.sampleSeen k phase).slot k).last = some (phase, b.cyc) := by
    unfold Block.sampleSeen
    rw [Block.slot_setSlot]
    exact congrArg Slot.last (Block.slot_setSlot b k _)
  have htm : (b.sampleSeen k phase).tm.sel = b.tm.sel := rfl
  unfold Block.followSample
  rw [hcap, htm, hedge]
  by_cases h : b.timeCapable k = true
  · rw [if_pos h, if_pos h]
    exact ⟨_, rfl, hphase, hlast⟩
  · rw [if_neg h, if_neg h]
    exact ⟨_, rfl, hphase, hlast⟩

-- A commit armed and cancelled (R120)

/-- The instant for which OUT_COMMIT_AT asks (R120). -/
def Block.commitTick (b : Block) : Nat := if b.rdN Od.OUT_COMMIT_AT = 0 then tickOf b.nextCommitSecond else b.rdN Od.OUT_COMMIT_AT

theorem Block.outCommit_accepted {a : Block} (hchecks : firstOffence a ((List.range 8).map a.shadow) (List.range 8) = none)
    (hpair : a.pairCommits = false) (hfree : a.rdN Od.OUT_COMMIT_STATUS ≠ 1) : a.outCommit = a.armCommit.ok := by
  unfold Block.outCommit
  simp [hchecks, hpair, hfree]

/-- A target armed at a tick ahead is no late one. -/
theorem Block.armTick_ahead {b : Block} {o : Owner} {tick : Nat} (h : b.due tick = false) :
    b.armTick o tick = b.setMt fun m => { m with targets := tput m.targets o.no ⟨tick, false⟩ } := by
  unfold Block.armTick
  simp [h]

/-- A commit armed for an instant ahead: all shadows held for it, and the status ARMED. -/
theorem Block.armCommit_ahead {a : Block} (hdue : a.due a.commitTick = false) :
    a.armCommit.rd Od.OUT_COMMIT_STATUS = 1 ∧ a.armCommit.rd Od.OUT_COMMIT_ERROR = 0xFFFF ∧
      a.armCommit.tm.commit = some ⟨(List.range 8).map a.shadow, a.commitTick⟩ ∧ a.armCommit.target .outCommit = some ⟨a.commitTick, false⟩ := by
  have heq : a.armCommit = (((a.setTm fun t => { t with commit := some ⟨(List.range 8).map a.shadow, a.commitTick⟩ }).wr Od.OUT_COMMIT_STATUS 1).wr
      Od.OUT_COMMIT_ERROR 0xFFFF).armTick .outCommit a.commitTick := if_neg fun h => Bool.false_ne_true (hdue.symm.trans h)
  rw [heq, Block.armTick_ahead]
  · refine ⟨?_, ?_, rfl, tget_tput_same _ _ _⟩
    · rw [Block.setMt_rd, Block.rd_wr_ne _ _ (by decide), Block.rd_wr_same]
    · rw [Block.setMt_rd, Block.rd_wr_same]
  · exact hdue

theorem Block.cancelCommit_armed {a : Block} (h : a.tm.commit.isSome = true) :
    a.cancelCommit.tm.commit = none ∧ a.cancelCommit.rd Od.OUT_COMMIT_STATUS = 0 ∧ a.cancelCommit.target .outCommit = none := by
  have heq : a.cancelCommit = ((a.setTm fun t => { t with commit := none }).disarm .outCommit).wr Od.OUT_COMMIT_STATUS 0 := if_pos h
  rw [heq]
  exact ⟨rfl, Block.rd_wr_same _ _ _, Block.target_disarm (a.setTm _) .outCommit⟩

-- OUT_COMMIT as a write

/-- The row of OUT_COMMIT. -/
def outCommitRow : Entry := ⟨"OUT_COMMIT", .u8, .cmd, 0, [(1, 2)], .shared⟩

theorem rowOf_outCommit : rowOf (key 0x2420 1) = some outCommitRow := by decide +kernel

theorem Block.written_outCommit {a : Block} {w : Waiting} {token v : Nat} (hreq : w.req = writeKey token Od.OUT_COMMIT v) (h : a.unbarred w = true)
    (hv : v = 1 ∨ v = 2) : a.written w = a.command w.tenant Od.OUT_COMMIT v := by
  have hindex : w.req.index = 0x2420 ∧ w.req.sub = 1 := by
    rw [hreq]
    exact ⟨rfl, rfl⟩
  have hr : rowOf (key w.req.index w.req.sub) = some outCommitRow := by rw [hindex.1, hindex.2, rowOf_outCommit]
  have hkey : a.entryKey w.tenant outCommitRow w.req.index w.req.sub = Od.OUT_COMMIT := by
    rw [hindex.1, hindex.2]
    rfl
  have hdata : decodeVal outCommitRow.ty (w.req.data.take w.req.length) = some (v : Int) := by
    rw [hreq]
    rcases hv with rfl | rfl <;> rfl
  have hc : accessOf outCommitRow w.req.index w.req.sub = .cmd := by rw [hindex.1, hindex.2]; rfl
  have hrange : a.valueOk outCommitRow Od.OUT_COMMIT v = true := by rcases hv with rfl | rfl <;> rfl
  rw [Block.written_command h hr (fun _ => ⟨nofun, nofun⟩) hdata hc (by rw [hkey]; exact hrange), hkey]
  rfl

theorem not_bookKey_timing {i sub : Nat} (hi : 0x2000 ≤ i ∧ i < 0x2A00) (hs : sub < 256) : ¬bookKey (key i sub) := by
  unfold bookKey counterKey key
  rintro (h | ⟨x, rfl, h⟩) <;> omega

theorem Block.sameButBooks.commit {a b : Block} (h : a.sameButBooks b) : b.tm.commit = a.tm.commit := by
  rw [h.1]
  rfl

/-- Answering a request leaves the armed commit as it is. -/
theorem Block.sameButBooks.outCommit_target {a b : Block} (h : a.sameButBooks b) : b.target .outCommit = a.target .outCommit := h.2.2.2.1 .outCommit (by decide)

-- A commit applied (R121)

theorem Block.sameSettings_holdEngine (b : Block) (e : Nat) (at_ : Int) : b.sameSettings (b.holdEngine e at_) :=
  Block.sameSettings_foldl (fun c n => c.holdOut n at_) _ (fun c n => c.sameSettings_holdOut n at_) b

/-- An engine acquired anew leaves the settings of the outputs in force. -/
theorem Block.reacquire_cfg (b : Block) (e : Nat) (at_ : Int) (n : Nat) : ((b.reacquire e at_).out n).cfg = (b.out n).cfg := by
  unfold Block.reacquire
  split
  · rfl
  · exact ((Block.sameSettings_holdEngine _ e at_).2 n).1

theorem Block.setOut_cfg (b : Block) (m n : Nat) {f : OutSt → OutSt} {x : OutCfg} (hf : ∀ o, (f o).cfg = x) :
    ((b.setOut m f).out n).cfg = if m = n then x else (b.out n).cfg := by
  rw [Block.out_setOut]
  split
  · exact hf _
  · rfl

theorem Block.takeCfg_cfg (b : Block) (m n : Nat) (x : OutCfg) : ((b.takeCfg m x).out n).cfg = if m = n then x else (b.out n).cfg := by
  unfold Block.takeCfg
  split <;> exact b.setOut_cfg m n fun _ => rfl

/-- Output n with the settings that a commit has for it. -/
def Block.takeNew (cfgs : List OutCfg) (b : Block) (n : Nat) : Block :=
  match cfgs[n]? with
  | some x => b.takeCfg n x
  | none => b

theorem Block.takeNew_cfg {cfgs : List OutCfg} {n : Nat} {x : OutCfg} (hx : cfgs[n]? = some x) (b : Block) (m : Nat) :
    ((b.takeNew cfgs m).out n).cfg = if m = n then x else (b.out n).cfg := by
  unfold Block.takeNew
  split
  · rename_i y hy
    rw [Block.takeCfg_cfg]
    by_cases hm : m = n
    · rw [hm, hx] at hy
      rw [if_pos hm, if_pos hm, Option.some.inj hy]
    · rw [if_neg hm, if_neg hm]
  · rename_i hy
    rw [if_neg]
    rintro rfl
    rw [hx] at hy
    cases hy

theorem Block.foldl_takeNew_cfg {cfgs : List OutCfg} {n : Nat} {x : OutCfg} (hx : cfgs[n]? = some x) (l : List Nat) (b : Block) :
    ((l.foldl (Block.takeNew cfgs) b).out n).cfg = if n ∈ l then x else (b.out n).cfg := by
  induction l generalizing b with
  | nil => simp
  | cons m r ih =>
    rw [List.foldl_cons, ih, Block.takeNew_cfg hx]
    by_cases hr : n ∈ r
    · simp [hr]
    · simp [hr, eq_comm]

/-- Each output whose settings the commit changes has them in force, and the others keep theirs, which are the same (R121). -/
theorem Block.takeCfgs_cfg {b : Block} {cfgs : List OutCfg} (at_ : Int) {n : Nat} {x : OutCfg} (hn : n < 8) (hx : cfgs[n]? = some x) :
    ((b.takeCfgs cfgs at_).out n).cfg = x := by
  unfold Block.takeCfgs
  extract_lets changed hit stopped taken
  have hstopped : (stopped.out n).cfg = (b.out n).cfg :=
    ((Block.sameSettings_foldl (fun c n => c.stopGrid n at_) hit (fun c n => c.sameSettings_stopGrid n at_) b).2 n).1
  have hfold : taken = hit.foldl (Block.takeNew cfgs) stopped := rfl
  have htaken : (taken.out n).cfg = x := by
    rw [hfold, Block.foldl_takeNew_cfg hx]
    by_cases hmem : n ∈ hit
    · exact if_pos hmem
    · have hsame : x = (b.out n).cfg := by
        by_contra hne
        have hchanged : n ∈ changed := List.mem_filter.mpr ⟨List.mem_range.mpr hn, by simpa [hx] using hne⟩
        exact hmem (List.mem_filter.mpr ⟨List.mem_range.mpr hn, by simp [hchanged]⟩)
      rw [if_neg hmem, hstopped, hsame]
  exact ((taken.sameSettings_resumeOuts hit).2 n).1.trans htaken

/-- The end of a commit, its settings being in force: it is no longer armed, its status and instant are shown, and its events raised. -/
def Block.commitEnd (b : Block) (late : Bool) (mask : Nat) : Block :=
  let c := (b.setTm fun t => { t with commit := none }).disarm .outCommit
  let c := ((c.wr Od.OUT_COMMIT_STATUS (if late then 3 else 2)).wr Od.OUT_COMMIT_TICK c.tick).refreshOuts.refreshPending.raise 0x2410 0 mask
  if late then c.raise 0x2411 0 mask else c

theorem Block.applyCommit_eq {b : Block} {c : Commit} (late : Bool) (h : b.tm.commit = some c) : ∃ (engines : List Nat) (mask : Nat),
    b.applyCommit late = (engines.foldl (fun b e => b.reacquire e b.mer) (b.takeCfgs c.cfgs b.mer)).commitEnd late mask := by
  unfold Block.applyCommit
  rw [h]
  exact ⟨_, _, rfl⟩

/-- Showing what is pending changes entries alone. -/
theorem Block.refreshPending_eq (b : Block) : ∃ od, b.refreshPending = { b with od := od } := Block.od_foldl _ _ (fun _ _ => ⟨_, rfl⟩) b

theorem Block.refreshPending_tm (b : Block) : b.refreshPending.tm = b.tm := by
  obtain ⟨_, h⟩ := b.refreshPending_eq
  rw [h]

/-- Showing the outputs changes their status, their sticky bits and what is pending (sub-index 15 and more) alone. -/
theorem Block.rd_shown (b : Block) {i sub : Nat} (hs : sub < 0x0F) : b.refreshOuts.refreshPending.rd (key i sub) = b.rd (key i sub) := by
  have hkeys (n : Nat) : Od.OUT_PENDING n ≠ key i sub ∧ Od.OUT_STATUS n ≠ key i sub ∧ Od.OUT_STICKY n ≠ key i sub := by
    unfold Od.OUT_PENDING Od.OUT_STATUS Od.OUT_STICKY key
    omega
  refine (Block.rd_foldl _ _ (fun c n => c.rd_wr_ne _ (hkeys n).1) _).trans (Block.rd_foldl _ _ (fun c n => ?_) b)
  obtain ⟨-, hstatus, hsticky⟩ := hkeys n
  dsimp only
  rw [Block.rd_wr_ne _ _ hstatus]
  split
  · exact c.rd_orBits_ne _ hsticky
  · rfl

theorem Block.commitEnd_spec (b : Block) (late : Bool) (mask : Nat) : (b.commitEnd late mask).tm.commit = none ∧
    (b.commitEnd late mask).rd Od.OUT_COMMIT_STATUS = (if late then 3 else 2) ∧ (b.commitEnd late mask).rd Od.OUT_COMMIT_TICK = b.tick ∧
      ∀ n, (b.commitEnd late mask).out n = b.out n := by
  have hraised (c : Block) : (if late then (c.raise 0x2410 0 mask).raise 0x2411 0 mask else c.raise 0x2410 0 mask).tm = c.tm ∧
      ∀ sub < 256, (if late then (c.raise 0x2410 0 mask).raise 0x2411 0 mask else c.raise 0x2410 0 mask).rd (key 0x2420 sub) = c.rd (key 0x2420 sub) := by
    have hcnt {sub : Nat} (hs : sub < 256) : ¬counterKey (key 0x2420 sub) := not_counterKey_of_lt (by decide) hs
    split
    · exact ⟨by simp, fun sub hs => by rw [Block.rd_raise _ _ _ _ _ (hcnt hs), Block.rd_raise _ _ _ _ _ (hcnt hs)]⟩
    · exact ⟨by simp, fun sub hs => Block.rd_raise _ _ _ _ _ (hcnt hs)⟩
  unfold Block.commitEnd
  extract_lets freed shown
  obtain ⟨htm, hrd⟩ := hraised ((freed.wr Od.OUT_COMMIT_STATUS (if late then 3 else 2)).wr Od.OUT_COMMIT_TICK freed.tick).refreshOuts.refreshPending
  rw [Block.refreshPending_tm, Block.refreshOuts_tm] at htm
  refine ⟨congrArg Timing.commit htm, (hrd 3 (by decide)).trans ?_, (hrd 4 (by decide)).trans ?_, fun n => Block.out_congr (b := freed) n htm⟩
  · rw [Block.rd_shown _ (by decide)]
    exact (Block.rd_wr_ne _ _ (by decide)).trans (Block.rd_wr_same _ _ _)
  · rw [Block.rd_shown _ (by decide)]
    exact Block.rd_wr_same _ _ _

/-- A commit applied (R120, R121): it is armed no more, its status and instant are shown, and every output has its settings in force. -/
theorem Block.applyCommit_spec {b : Block} {c : Commit} (late : Bool) (h : b.tm.commit = some c) : (b.applyCommit late).tm.commit = none ∧
    (b.applyCommit late).rd Od.OUT_COMMIT_STATUS = (if late then 3 else 2) ∧ (b.applyCommit late).rd Od.OUT_COMMIT_TICK = b.tick ∧
      ∀ (n : Nat) (x : OutCfg), n < 8 → c.cfgs[n]? = some x → ((b.applyCommit late).out n).cfg = x := by
  obtain ⟨engines, mask, heq⟩ := b.applyCommit_eq late h
  have hacquired (l : List Nat) (d : Block) : (l.foldl (fun b e => b.reacquire e b.mer) d).tm.mt = d.tm.mt ∧
      ∀ n, ((l.foldl (fun b e => b.reacquire e b.mer) d).out n).cfg = (d.out n).cfg := by
    induction l generalizing d with
    | nil => exact ⟨rfl, fun _ => rfl⟩
    | cons e r ih =>
      obtain ⟨hmt, hcfg⟩ := ih (d.reacquire e d.mer)
      exact ⟨hmt.trans (d.reacquire_mt e _), fun n => (hcfg n).trans (d.reacquire_cfg e _ n)⟩
  obtain ⟨hmt, hcfg⟩ := hacquired engines (b.takeCfgs c.cfgs b.mer)
  obtain ⟨hcommit, hstatus, htick, hout⟩ := (engines.foldl (fun b e => b.reacquire e b.mer) (b.takeCfgs c.cfgs b.mer)).commitEnd_spec late mask
  rw [heq]
  refine ⟨hcommit, hstatus, htick.trans ?_, fun n x hn hx => ?_⟩
  · unfold Block.tick
    rw [hmt, Block.takeCfgs_mt]
  · rw [hout, hcfg, Block.takeCfgs_cfg _ hn hx]

/-- Settles O8: a sample by what its slot's monitors leave of it, a write of OUT_COMMIT by its row and what the answering leaves alone, the commit due by what
an applied commit leaves. That an accepted commit sets OUT_COMMIT_ERROR to 0xFFFF (log 22) is the model's choice. -/
theorem samplesAndCommits : Obligations.SamplesAndCommits := by
  unfold Obligations.SamplesAndCommits
  refine ⟨?engine, ?slot, ?arm, ?cancel, ?apply⟩
  case engine =>
    intro s e cycles code hup hrun
    exact State.leads_act s _ (fun _ b => b.phaseSample (.engine e cycles code)) _ rfl hup (if_pos hrun)
  case slot =>
    intro s k phase hup hstate hlast htransfer hsel
    refine State.leads_act s _ (fun _ b => b.phaseSample (.slot k phase)) _ rfl hup ?_
    have hsample : s.m.phaseSample (.slot k phase) = (s.m.sampleSeen k phase).followSample k phase :=
      Block.slotSample_selected phase hstate hlast htransfer hsel
    rw [hsample]
    exact s.m.followSample_seen k phase
  case arm =>
    intro s c token n h a shadows tick hchecks hpair hfree hdue
    obtain ⟨htakes, hopen⟩ := State.grants_iff.mp h
    obtain ⟨b, hexec, hbooks, hreply⟩ := State.leads_write (i := .outCommit c token) htakes rfl rfl
    have hwritten : a.written (s.m.asked c (writeKey token Od.OUT_COMMIT 1) n) = a.armCommit.ok :=
      (Block.written_outCommit (v := 1) rfl hopen (.inl rfl)).trans (Block.outCommit_accepted hchecks hpair hfree)
    rw [hwritten] at hbooks hreply
    obtain ⟨hstatus, herror, hcommit, htarget⟩ := Block.armCommit_ahead hdue
    exact ⟨b, hexec, hreply, (hbooks.2.1 _ (not_bookKey_timing (by decide) (by decide))).trans hstatus,
      (hbooks.2.1 _ (not_bookKey_timing (by decide) (by decide))).trans herror, hbooks.commit.trans hcommit, hbooks.outCommit_target.trans htarget⟩
  case cancel =>
    intro s c token n h harmed
    obtain ⟨htakes, hopen⟩ := State.grants_iff.mp h
    obtain ⟨b, hexec, hbooks, hreply⟩ := State.leads_write (i := .outCommitCancel c token) htakes rfl rfl
    rw [Block.written_outCommit (v := 2) rfl hopen (.inr rfl)] at hbooks hreply
    obtain ⟨hcommit, hstatus, htarget⟩ := Block.cancelCommit_armed harmed
    exact ⟨b, hexec, hreply, hbooks.commit.trans hcommit, (hbooks.2.1 _ (not_bookKey_timing (by decide) (by decide))).trans hstatus,
      hbooks.outCommit_target.trans htarget⟩
  case apply =>
    intro s t c hup ht hdue hc
    refine State.leads_act s _ (fun _ b => b.commitDue) _ rfl hup ?_
    have happlied : s.m.commitDue = s.m.applyCommit t.late := by
      unfold Block.commitDue
      rw [ht]
      exact if_pos hdue
    obtain ⟨hcommit, hstatus, htick, hcfg⟩ := Block.applyCommit_spec t.late hc
    rw [happlied]
    exact ⟨hcommit, Block.applyCommit_target _ (by simp [hc]), hstatus, htick, hcfg⟩

end Sys2Proof.Machine
end

section
/-! Writes of the entries of slots and of the selector (R133, R139, R141, R143), by their rows in Tables 5.8 and 5.9. -/

namespace Sys2Proof.Machine

-- A write of one of a slot's or the selector's entries (R133, R139, R141, R143)

theorem key_place {i sub : Nat} (hi : i < 65536) (hs : sub < 256) : key i sub / 256 % 65536 = i ∧ key i sub % 256 = sub := by
  unfold key
  omega

/-- A byte of a BOOL or U8 entry decodes from the bytes that encode it. -/
theorem decodeVal_byte {ty : EType} {v : Nat} (ht : ty = .bool ∨ ty = .u8) (hv : v < 256) :
    decodeVal ty ((encodeVal ty v).take (typeLen ty)) = some (v : Int) := by
  rcases ht with rfl | rfl <;> simp [decodeVal, encodeVal, typeLen, ofLE_toLE, unsigned, List.take_of_length_le] <;> omega

/-- The records of slots have one table. -/
theorem base_slot : ∀ k < 24, (findRecord records (0x2620 + k)).elim 0 (·.1) = 0x2620 := by decide

section

variable {k sub : Nat} (hk : k < 24)

include hk

/-- The row of a slot's entry is that of Table 5.9. -/
theorem rowOf_slot (hs : sub < 256) : rowOf (key (0x2620 + k) sub) = rec2620[sub]? := by
  obtain ⟨hindex, hsub⟩ := key_place (i := 0x2620 + k) (by omega) hs
  unfold rowOf
  rw [hindex, hsub, base_slot k hk]
  rfl

/-- The sticky entries of a slot are its history and its trips. -/
theorem isSticky_slot (hs : sub < 0x1C) : isSticky (key (0x2620 + k) sub) = false := by
  obtain ⟨hindex, hsub⟩ := key_place (i := 0x2620 + k) (sub := sub) (by omega) (by omega)
  have hbase := base_slot k hk
  have htable : ∀ sub < 0x1C, (stickySubs.any fun e => e.1 == 0x2620 && e.2.contains sub) = false := by decide
  unfold isSticky
  rw [hindex, hsub]
  cases hrecord : findRecord records (0x2620 + k) with
  | none => rfl
  | some r =>
    rw [hrecord] at hbase
    have hr : r.1 = 0x2620 := hbase
    dsimp only
    rw [hr]
    exact htable sub hs

end

/-- The row of an entry of the selector is that of Table 5.8. -/
theorem rowOf_selector {sub : Nat} (hs : sub < 256) : rowOf (key 0x2600 sub) = rec2600[sub]? := by
  obtain ⟨hindex, hsub⟩ := key_place (i := 0x2600) (by decide) hs
  unfold rowOf
  rw [hindex, hsub]
  rfl

/-- Entries of slots and of the selector have no fields to check besides their range. -/
theorem Block.fieldsOk_selection (b : Block) {i sub : Nat} (v : Int) (hi : 0x2600 ≤ i ∧ i < 0x2638) (hs : sub < 256) : b.fieldsOk (key i sub) v = true := by
  unfold Block.fieldsOk
  obtain ⟨hindex, hsub⟩ := key_place (i := i) (by omega) hs
  simp only [hindex]
  repeat rw [if_neg (by omega)]

/-- Every entry of these records has one access code for all instances. -/
theorem accessOf_selection (e : Entry) {i : Nat} (sub : Nat) (hi : 0x2600 ≤ i ∧ i < 0x2638) : accessOf e i sub = e.acc := by
  unfold accessOf
  repeat rw [if_neg (by omega)]

section

variable {a : Block} {w : Waiting} {token i sub v : Nat} {e : Entry} (hreq : w.req = writeKey token (key i sub) v) (hi : 0x2600 ≤ i ∧ i < 0x2638)
  (hs : sub < 256) (hr : rowOf (key i sub) = some e)

include hreq hi hs

theorem Waiting.asks_place : w.req.index = i ∧ w.req.sub = sub := by
  obtain ⟨hindex, hsub⟩ := key_place (i := i) (by omega) hs
  rw [hreq]
  exact ⟨hindex, hsub⟩

include hr

theorem Waiting.asks_value (hty : e.ty = .bool ∨ e.ty = .u8) (hv : v < 256) : decodeVal e.ty (w.req.data.take w.req.length) = some (v : Int) := by
  obtain ⟨hindex, hsub⟩ := key_place (i := i) (by omega) hs
  rw [hreq, writeKey, hindex, hsub, writeRequest, hr]
  exact decodeVal_byte hty hv

variable (hopen : a.unbarred w = true) (hscope : e.scope = .shared) (hty : e.ty = .bool ∨ e.ty = .u8) (hv : v < 256) (hrange : inRanges e.range v = true)

include hopen hscope hty hv hrange

/-- A write that nothing bars, of a value in its entry's range: taken as its entry takes it, or begun as its command. -/
theorem Block.written_selection : (e.acc ≠ .cmd → a.written w = (a.putNum w.tenant (key i sub) v).ok) ∧
    (e.acc = .cmd → a.written w = a.command w.tenant (key i sub) v) := by
  obtain ⟨hindex, hsub⟩ := w.asks_place hreq hi hs
  have hdata := w.asks_value hreq hi hs hr hty hv
  have hkey : a.entryKey w.tenant e w.req.index w.req.sub = key i sub := by
    unfold Block.entryKey
    rw [hscope, hindex, hsub]
  have hacc : accessOf e w.req.index w.req.sub = e.acc := accessOf_selection e _ (by rwa [hindex])
  have hok : a.valueOk e (a.entryKey w.tenant e w.req.index w.req.sub) v = true := by
    rw [hkey, Block.valueOk, hrange, a.fieldsOk_selection v hi hs]
    rfl
  have hnum (x : Nat) : e.ty ≠ .octets x ∧ e.ty ≠ .string x := by rcases hty with h | h <;> simp [h]
  rw [← hindex, ← hsub] at hr
  constructor <;> intro hc <;> rw [← hacc] at hc
  · rw [Block.written_inRange hopen hr hnum hdata hc hok, hkey]
  · rw [Block.written_command hopen hr hnum hdata hc hok, hkey]
    rfl

end

theorem restartFrom_slot {k sub : Nat} (hk : k < 24) (hs : sub < 256) : restartFrom (key (0x2620 + k) sub) = none := by
  obtain ⟨hindex, -⟩ := key_place (i := 0x2620 + k) (by omega) hs
  unfold restartFrom
  simp only [hindex]
  repeat rw [if_neg (by omega)]

/-- What a write of a slot's KIND, PORT or PTP_DOMAIN brings (R133), and of its LOCKOUT (R139). -/
theorem Block.putNum_slot (b : Block) (t : Nat) {k sub : Nat} (v : Int) (hk : k < 24) (hs : sub < 0x1C) :
    (1 ≤ sub ∧ sub ≤ 3 → b.putNum t (key (0x2620 + k) sub) v = b.slotConfig k (key (0x2620 + k) sub) v) ∧
    (sub = 5 → b.putNum t (key (0x2620 + k) sub) v = b.lockout k v) := by
  obtain ⟨hindex, hsub⟩ := key_place (i := 0x2620 + k) (sub := sub) (by omega) (by omega)
  have hslot : 0x2620 ≤ 0x2620 + k ∧ 0x2620 + k < 0x2638 := by omega
  unfold Block.putNum
  simp only [isSticky_slot hk hs, restartFrom_slot hk (Nat.lt_trans hs (by decide)), hindex, hsub, Nat.add_sub_cancel_left, Bool.false_eq_true, if_false]
  constructor
  · intro h
    repeat rw [if_neg (by omega)]
    rw [if_pos hslot, if_pos h]
  · rintro rfl
    repeat rw [if_neg (by omega)]
    rw [if_pos hslot]
    rfl

theorem Block.putNum_selPhase (b : Block) (t : Nat) (v : Int) :
    b.putNum t Od.SEL_PHASE v = if b.rd Od.SEL_PHASE = v then b else (b.setPhase v.toNat false).phaseChanged.evaluate := rfl

theorem Block.putNum_selForce (b : Block) (t : Nat) (v : Int) : b.putNum t Od.SEL_FORCE v = (b.wr Od.SEL_FORCE v).evaluate := rfl

/-- SLOTk_WTR_CLEAR ends the slot's wait (R139). -/
theorem Block.command_wtrClear (b : Block) (t : Nat) {k : Nat} (v : Nat) (hk : k < 24) : b.command t (Od.SLOT_WTR_CLEAR k) v = (b.endWait k).ok := by
  obtain ⟨hindex, -⟩ := key_place (i := 0x2620 + k) (sub := 0x1B) (by omega) (by decide)
  have hne {i sub : Nat} (h : i < 0x2620) (hs : sub < 256) : key (0x2620 + k) 0x1B ≠ key i sub := by
    unfold key
    omega
  have hslot : 0x2620 ≤ 0x2620 + k ∧ 0x2620 + k < 0x2638 := by omega
  unfold Block.command Od.SLOT_WTR_CLEAR
  simp only [hindex, Nat.add_sub_cancel_left, Od.IMG_COMMIT, Od.IMG_BOOT_SELECT, Od.CFG_SAVE, Od.CFG_CLEAR, Od.RST_WARM, Od.RST_FW_RESTART,
    Od.RST_FUNCTION, Od.MT_SET_TIME, Od.OUT_COMMIT]
  repeat rw [if_neg (hne (by decide) (by decide))]
  repeat rw [if_neg (by omega)]
  rw [if_pos hslot]

section

variable {a : Block} {w : Waiting} {token v k : Nat} (hopen : a.unbarred w = true) (hk : k < 24)

include hopen

theorem Block.written_selPhase (hreq : w.req = writeKey token Od.SEL_PHASE v) (hv : v ≤ 3) : a.written w = (a.putNum w.tenant Od.SEL_PHASE v).ok :=
  (Block.written_selection hreq (by decide) (by decide) (rowOf_selector (sub := 1) (by decide)) hopen rfl (.inr rfl) (by omega)
    (by simp [inRanges]; omega)).1 nofun

theorem Block.written_selForce (hreq : w.req = writeKey token Od.SEL_FORCE v) (hv : v < 24 ∨ v = 255) :
    a.written w = (a.putNum w.tenant Od.SEL_FORCE v).ok :=
  (Block.written_selection hreq (by decide) (by decide) (rowOf_selector (sub := 4) (by decide)) hopen rfl (.inr rfl) (by omega)
    (by simp [inRanges]; omega)).1 nofun

include hk

theorem Block.written_slotField {f : SlotField} (hreq : w.req = writeKey token (f.key k) v) (hkind : f = .kind → v ≤ 9) (hport : f = .port → v ≤ 31)
    (hdomain : f = .ptpDomain → 1 ≤ v ∧ v ≤ 2) : a.written w = (a.slotConfig k (f.key k) v).ok := by
  have hfield {sub : Nat} {e : Entry} (hasked : w.req = writeKey token (key (0x2620 + k) sub) v) (hsub : 1 ≤ sub ∧ sub ≤ 3) (hrow : rec2620[sub]? = some e)
      (hscope : e.scope = .shared) (hty : e.ty = .u8) (hacc : e.acc = .rw) (hv : v < 256) (hrange : inRanges e.range v = true) :
      a.written w = (a.slotConfig k (key (0x2620 + k) sub) v).ok := by
    have hr := (rowOf_slot hk (by omega)).trans hrow
    rw [(Block.written_selection hasked (by omega) (by omega) hr hopen hscope (.inr hty) hv hrange).1 (by simp [hacc])]
    exact congrArg Block.ok ((a.putNum_slot w.tenant v hk (by omega)).1 hsub)
  cases f with
  | kind =>
    have h := hkind rfl
    exact hfield (sub := 1) hreq (by decide) rfl rfl rfl rfl (by omega) (by simp [inRanges]; omega)
  | port =>
    have h := hport rfl
    exact hfield (sub := 2) hreq (by decide) rfl rfl rfl rfl (by omega) (by simp [inRanges]; omega)
  | ptpDomain =>
    have h := hdomain rfl
    exact hfield (sub := 3) hreq (by decide) rfl rfl rfl rfl (by omega) (by simp [inRanges]; omega)

theorem Block.written_lockout (hreq : w.req = writeKey token (Od.SLOT_LOCKOUT k) v) (hv : v ≤ 1) : a.written w = (a.lockout k v).ok := by
  rw [(Block.written_selection hreq (by omega) (by decide) (rowOf_slot (sub := 5) hk (by decide)) hopen rfl (.inl rfl) (by omega)
    (by simp [inRanges]; omega)).1 nofun]
  exact congrArg Block.ok ((a.putNum_slot w.tenant v hk (by decide)).2 rfl)

theorem Block.written_wtrClear (hreq : w.req = writeKey token (Od.SLOT_WTR_CLEAR k) 1) : a.written w = (a.endWait k).ok := by
  rw [(Block.written_selection (v := 1) hreq (by omega) (by decide) (rowOf_slot (sub := 0x1B) hk (by decide)) hopen rfl (.inr rfl) (by decide) rfl).2 rfl]
  exact a.command_wtrClear w.tenant 1 hk

end

end Sys2Proof.Machine
end

section
/-! Candidate slots: configuration, lockout, sources that come and go, the monitors' second, wait-to-restore (R132, R133, R135, R139, R143). -/

namespace Sys2Proof.Machine

-- Slot states, sources that come and go (R135, R139)

theorem Block.slot_congr {b c : Block} (k : Nat) (h : c.tm = b.tm) : c.slot k = b.slot k := by
  unfold Block.slot
  rw [h]

theorem Block.slot_setSlot_ne (b : Block) {j k : Nat} (f : Slot → Slot) (h : j ≠ k) : (b.setSlot j f).slot k = b.slot k := tat_tmod_ne _ _ _ h

section

variable (b : Block) (k st : Nat)

@[simp] theorem Block.setSlotState_tm : (b.setSlotState k st).tm = b.tm := by
  unfold Block.setSlotState
  dsimp only
  split
  · exact Block.raise_tm _ _ _ _
  · rfl

theorem Block.slotState_setSlotState (hk : k < 24) : (b.setSlotState k st).slotState k = st := by
  have hshown : ((b.wr (Od.SLOT_STATE k) st).orBits (Od.SLOT_HISTORY k) (2 ^ st)).rd (Od.SLOT_STATE k) = st := by
    rw [Block.rd_orBits_ne _ _ (by unfold Od.SLOT_STATE Od.SLOT_HISTORY key; omega), Block.rd_wr_same]
  unfold Block.slotState Block.rdN Block.setSlotState
  dsimp only
  split
  · have hraise (c : Block) : (c.raise 0x2620 k st).rd (Od.SLOT_STATE k) = c.rd (Od.SLOT_STATE k) :=
      c.rd_raise _ _ _ _ (not_counterKey_of_lt (by omega) (by decide))
    rw [hraise, hshown, Int.toNat_natCast]
  · rw [hshown, Int.toNat_natCast]

end

section

variable {b : Block} {k : Nat} (hk : k < 24)

include hk

/-- A WAITING slot whose wait ends, its domain being tracked, is QUALIFIED and the selector evaluates (R139, R143). -/
theorem Block.endWait_qualified (hstate : b.slotState k = 2) (htracks : b.domainTracks k = true) :
    ∃ b1 : Block, b.endWait k = b1.evaluate ∧ b1.slotState k = 3 ∧ (b1.slot k).wtrEnd = none := by
  unfold Block.endWait
  rw [if_neg (not_not_intro hstate), if_pos htracks]
  refine ⟨_, rfl, Block.slotState_setSlotState _ k 3 hk, ?_⟩
  rw [Block.slot_congr k (Block.setSlotState_tm _ k 3), Block.slot_setSlot]

/-- A source that becomes active: its slot is DISQUALIFIED with its windows begun, before its rank and quality are judged (R139). -/
theorem Block.sourceUp_disqualified (hsource : b.sourceActive k = true) (hwas : (b.slot k).active = false) :
    ∃ b1 : Block, b.sourceUp k = (b1.rerank k).judgeQuality k ∧ b1.slotState k = 1 ∧ (b1.slot k).active = true ∧ (b1.slot k).activeAt = b.cyc := by
  unfold Block.sourceUp
  rw [if_pos ⟨hsource, by rw [hwas]; rfl⟩]
  unfold Block.sourceOn
  extract_lets q fresh begun disqualified shown
  have hslot : disqualified.slot k = { fresh with tripped := q } :=
    (Block.slot_congr k (Block.setSlotState_tm _ k 1)).trans (Block.slot_setSlot b k _)
  have hstate : disqualified.slotState k = 1 := Block.slotState_setSlotState _ k 1 hk
  have hshown : shown.tm = disqualified.tm ∧ shown.slotState k = disqualified.slotState k := by
    have hother (c : Block) (v : Int) : (c.wr (Od.SLOT_UNCERTAINTY k) v).slotState k = c.slotState k := by
      unfold Block.slotState
      rw [Block.rdN_wr, if_neg (by unfold Od.SLOT_UNCERTAINTY Od.SLOT_STATE key; omega)]
    unfold shown
    split
    · exact ⟨rfl, hother _ _⟩
    · exact ⟨rfl, hother _ _⟩
    · exact ⟨rfl, hother _ _⟩
    · exact ⟨rfl, hother _ _⟩
    · exact ⟨rfl, rfl⟩
  refine ⟨shown, rfl, hshown.2.trans hstate, ?_⟩
  rw [Block.slot_congr k hshown.1, hslot]
  exact ⟨rfl, rfl⟩

/-- A source that becomes inactive trips the activity monitor; its slot is dropped and starts afresh (R135, R139). -/
theorem Block.sourceDown_absent (hsource : b.sourceActive k = false) (hwas : (b.slot k).active = true) :
    ((b.sourceDown k).slot k).active = false ∧ ∃ b1 : Block,
      b.sourceDown k = (b1.dropSlot k 0).setSlot k (fun _ => freshSlot (b1.dropSlot k 0).cyc false) ∧
        bit (b1.rdN (Od.SLOT_TRIPS k)) 0 = true ∧ b.told b1 0x2621 k 0 := by
  have hdown : b.sourceDown k = b.sourceOff k := if_pos ⟨hwas, by rw [hsource]; rfl⟩
  have htrip : ((b.orBits (Od.SLOT_TRIPS k) 1).raise 0x2621 k 0).rdN (Od.SLOT_TRIPS k) = (b.orBits (Od.SLOT_TRIPS k) 1).rdN (Od.SLOT_TRIPS k) :=
    congrArg Int.toNat (Block.rd_raise _ _ _ _ _ (not_counterKey_of_lt (by omega) (by decide)))
  have htold : b.told ((b.orBits (Od.SLOT_TRIPS k) 1).raise 0x2621 k 0) 0x2621 k 0 :=
    Block.actsWithin.told_raise (.wr b.actsWithin_refl _ ⟨by omega, by omega⟩ (by omega) (by decide)) _ _ _
  rw [hdown]
  refine ⟨congrArg Slot.active (Block.slot_setSlot _ k _), _, rfl, ?_, htold⟩
  rw [htrip, Block.bit_orBits]
  simp [bit]

end

-- The monitors' second (R135)

/-- A fold over a list that treats k once: P holds until k is reached, and Q from there on. -/
theorem Block.foldl_once {f : Block → Nat → Block} {k : Nat} {P Q : Block → Prop} (hbefore : ∀ c j, j ≠ k → P c → P (f c j)) (hat : ∀ c, P c → Q (f c k))
    (hafter : ∀ c j, j ≠ k → Q c → Q (f c j)) {l : List Nat} (hl : l.Nodup) (hk : k ∈ l) {b : Block} (hb : P b) : Q (l.foldl f b) := by
  have hrest (r : List Nat) (hr : k ∉ r) (c : Block) (hc : Q c) : Q (r.foldl f c) := by
    induction r generalizing c with
    | nil => exact hc
    | cons j r ih =>
      rw [List.mem_cons, not_or] at hr
      exact ih hr.2 _ (hafter c j (Ne.symm hr.1) hc)
  induction l generalizing b with
  | nil => cases hk
  | cons j r ih =>
    obtain ⟨hj, hr⟩ := List.nodup_cons.mp hl
    by_cases hjk : j = k
    · subst hjk
      exact hrest r hj _ (hat b hb)
    · exact ih hr ((List.mem_cons.mp hk).resolve_left (Ne.symm hjk)) (hbefore b j hjk hb)

/-- Taking the readings of slot j leaves another slot's windows and entries as they are. -/
theorem Block.monitorTake_other (b : Block) {j k sub : Nat} (mean : Option Int) (hjk : j ≠ k) (hs : sub < 256) :
    (b.monitorTake j mean).slot k = b.slot k ∧ (b.monitorTake j mean).rd (key (0x2620 + k) sub) = b.rd (key (0x2620 + k) sub) := by
  have hwr (c : Block) (v : Int) {x : Nat} (hx : x < 256) : (c.wr (key (0x2620 + j) x) v).rd (key (0x2620 + k) sub) = c.rd (key (0x2620 + k) sub) :=
    c.rd_wr_ne v (by unfold key; omega)
  unfold Block.monitorTake
  split
  · exact ⟨rfl, rfl⟩
  · extract_lets taken window width shown
    have htaken : taken.slot k = b.slot k := b.slot_setSlot_ne _ hjk
    have hshown : shown.rd (key (0x2620 + k) sub) = b.rd (key (0x2620 + k) sub) := hwr taken _ (by decide)
    split
    · exact ⟨htaken, (hwr shown _ (by decide)).trans hshown⟩
    · exact ⟨htaken, hshown⟩

/-- A reading taken joins its slot's window, the newest first, and the frequency offset shown is the mean over 10 s. -/
theorem Block.monitorTake_same {b : Block} {k : Nat} (x : Int) (hstate : b.slotState k ≠ 0) :
    ((b.monitorTake k (some x)).slot k).oven = (x :: (b.slot k).oven).take 86400 ∧
      (b.monitorTake k (some x)).rd (Od.SLOT_FREQ_OFFSET k) = meanOf 10 ((x :: (b.slot k).oven).take 86400) := by
  unfold Block.monitorTake
  rw [if_neg hstate]
  extract_lets taken window width shown
  have hwindow : window.oven = (x :: (b.slot k).oven).take 86400 := congrArg Slot.oven (Block.slot_setSlot b k _)
  have hshown : shown.rd (Od.SLOT_FREQ_OFFSET k) = meanOf 10 ((x :: (b.slot k).oven).take 86400) := by
    rw [← hwindow]
    exact Block.rd_wr_same _ _ _
  split
  · exact ⟨hwindow, (shown.rd_wr_ne _ (by unfold Od.SLOT_DRIFT Od.SLOT_FREQ_OFFSET key; omega)).trans hshown⟩
  · exact ⟨hwindow, hshown⟩

/-- The readings of a second taken by every slot (R135). -/
def Block.monitorsTaken (b : Block) (means : List (Fin 24 × Int)) : Block :=
  (List.range 24).foldl (fun b k => b.monitorTake k ((means.find? fun e => e.1.val == k).map (·.2))) b

/-- The monitors' second: all slots' readings taken, and then every slot judged (R135). -/
theorem Block.monitorTick_eq (b : Block) (means : List (Fin 24 × Int)) :
    b.monitorTick means = (List.range 24).foldl Block.monitorJudge (b.monitorsTaken means) := by
  unfold Block.monitorTick Block.monitorsTaken
  rfl

theorem Block.monitorsTaken_reading {b : Block} {means : List (Fin 24 × Int)} {k : Fin 24} {x : Int} (hstate : b.slotState k ≠ 0)
    (hmean : means.find? (fun e => e.1.val == k.val) = some (k, x)) :
    ((b.monitorsTaken means).slot k).oven = (x :: (b.slot k).oven).take 86400 ∧
      (b.monitorsTaken means).rd (Od.SLOT_FREQ_OFFSET k) = meanOf 10 ((x :: (b.slot k).oven).take 86400) := by
  unfold Block.monitorsTaken
  refine Block.foldl_once (k := k.val) (P := fun c => c.slot k = b.slot k ∧ c.slotState k = b.slotState k)
    (Q := fun c => (c.slot k).oven = (x :: (b.slot k).oven).take 86400 ∧ c.rd (Od.SLOT_FREQ_OFFSET k) = meanOf 10 ((x :: (b.slot k).oven).take 86400))
    (fun c j hj hc => ?before) (fun c hc => ?own) (fun c j hj hc => ?after) List.nodup_range (List.mem_range.mpr k.isLt) ⟨rfl, rfl⟩
  case before =>
    obtain ⟨hslot, hentry⟩ := c.monitorTake_other ((means.find? fun e => e.1.val == j).map (·.2)) hj (sub := 0x11) (by decide)
    exact ⟨hslot.trans hc.1, (congrArg Int.toNat hentry).trans hc.2⟩
  case own =>
    obtain ⟨hslot, hentry⟩ := hc
    rw [hmean, ← hslot]
    exact Block.monitorTake_same x (by rwa [hentry])
  case after =>
    obtain ⟨hslot, hentry⟩ := c.monitorTake_other ((means.find? fun e => e.1.val == j).map (·.2)) hj (sub := 0x14) (by decide)
    exact ⟨(congrArg Slot.oven hslot).trans hc.1, hentry.trans hc.2⟩

/-- Where a granted write leads: to what its entry's own rules bring, answered OK. -/
theorem State.leads_granted {s : State} {c : Caller} {q : Request} {n : Nat} {i : Instr} {x : Block} (h : s.grants c q n = true) (ho : q.op = 2)
    (hi : exec i s = s.act fun _ b => b.submit c q)
    (hx : (s.m.door c q n).unbarred (s.m.asked c q n) = true → (s.m.door c q n).written (s.m.asked c q n) = x.ok) :
    s.leads i fun b => b.replied (s.m.asked c q n) 0 0 ∧ x.sameButBooks b := by
  obtain ⟨htakes, hopen⟩ := State.grants_iff.mp h
  obtain ⟨b, hexec, hbooks, hreply⟩ := State.leads_write htakes ho hi
  rw [hx hopen] at hbooks hreply
  exact ⟨b, hexec, hreply, hbooks⟩

/-- Settles O10: each write by its entry's row and what its operation leaves, each event of a source, a wait or the second by its operation. What the monitors
take and judge in which order (log 39), how a source's windows begin (log 38) and that a slot's quality is judged at its restart (log 145) are the model's choices. -/
theorem candidateSlots : Obligations.CandidateSlots := by
  unfold Obligations.CandidateSlots
  refine ⟨?config, ?lockout, ?active, ?inactive, ?second, ?waited, ?cleared⟩
  case config =>
    intro s c token n v k f h hkind hport hdomain a hnew
    exact State.leads_granted h rfl rfl fun hopen =>
      (Block.written_slotField hopen k.isLt rfl hkind hport hdomain).trans (congrArg Block.ok (if_neg hnew))
  case lockout =>
    intro s c token n v k h hv
    exact State.leads_granted h rfl rfl fun hopen => Block.written_lockout hopen k.isLt rfl hv
  case active =>
    intro s k hup hsource hwas
    exact State.leads_act s _ (fun _ b => b.sourceUp k) _ rfl hup (Block.sourceUp_disqualified k.isLt hsource hwas)
  case inactive =>
    intro s k hup hwas hsource
    exact State.leads_act s _ (fun _ b => b.sourceDown k) _ rfl hup (Block.sourceDown_absent k.isLt hsource hwas)
  case second =>
    intro s means hup
    exact State.leads_act s _ (fun _ b => b.monitorTick means) _ rfl hup ⟨_, s.m.monitorTick_eq means, fun _ _ => Block.monitorsTaken_reading⟩
  case waited =>
    intro s k t hup hwait hdue hstate htracks
    refine State.leads_act s _ (fun _ b => b.waitOver k) _ rfl hup ?_
    have hover : s.m.waitOver k = s.m.endWait k := by
      unfold Block.waitOver
      rw [hwait]
      exact if_pos hdue
    rw [hover]
    exact Block.endWait_qualified k.isLt hstate htracks
  case cleared =>
    intro s c token n k h hstate htracks
    obtain ⟨b1, hended, hqualified, hwait⟩ := Block.endWait_qualified k.isLt hstate htracks
    obtain ⟨b, hexec, hreply, hbooks⟩ := State.leads_granted (i := .slotWtrClear c token k) h rfl rfl fun hopen =>
      (Block.written_wtrClear hopen k.isLt rfl).trans (congrArg Block.ok hended)
    exact ⟨b, hexec, hreply, b1, hbooks, hqualified, hwait⟩

end Sys2Proof.Machine
end

section
/-! The selector: evaluation, handover, the end of a switch residual, service phase and force (R141 to R144, R146). -/

namespace Sys2Proof.Machine

-- Evaluation, and the service phase (R141, R143)

/-- With no slot forced, the selector starts a transfer to the best-ordered slot where that is not SELECTED (R143). -/
theorem Block.evaluate_best {b : Block} {k : Nat} (hstandby : b.standby = false) (hforce : 24 ≤ b.rdN Od.SEL_FORCE) (hfree : b.tm.sel.transfer = none)
    (hbest : b.best ((b.slotsWhere fun st => st == 3 || st == 4).filter fun k => b.rdN (Od.SLOT_PRIORITY k) != 0) = some k)
    (hselected : b.selected ≠ some k) : b.evaluate = b.startTransfer k := by
  have hforced : decide (b.forced < 24) = false := by
    unfold Block.forced
    rw [hstandby]
    exact decide_eq_false (Nat.not_lt.mpr hforce)
  unfold Block.evaluate
  simp [hforced, hstandby, hbest, hfree, hselected]

theorem Block.startTransfer_spec (b : Block) (k : Nat) : (b.startTransfer k).tm.sel.transfer = some { target := k, startAt := b.cyc } ∧
    (b.startTransfer k).rd Od.SEL_TRANSFER_TARGET = k ∧ b.told (b.startTransfer k) 0x2602 k 0 := by
  unfold Block.startTransfer
  refine ⟨?_, ?_, Block.actsWithin.told_raise (.wr (.withTm b.actsWithin_refl _) _ ⟨by decide, by decide⟩ (by decide) (by decide)) _ _ _⟩
  · rw [Block.raise_tm]
    rfl
  · rw [Od.SEL_TRANSFER_TARGET, Block.rd_raise _ _ _ _ _ (not_counterKey_of_lt (by decide) (by decide)), Block.rd_wr_same]

/-- A change of service phase is shown and told (R141). -/
theorem Block.setPhase_spec (b : Block) (ph : Nat) (byModule : Bool) :
    (b.setPhase ph byModule).rd Od.SEL_PHASE = ph ∧ b.told (b.setPhase ph byModule) 0x2606 0 ph := by
  unfold Block.setPhase
  extract_lets written marked
  have hwritten : b.actsWithin written .timing timingRecord := .withTm (.wr b.actsWithin_refl _ ⟨by decide, by decide⟩ (by decide) (by decide)) _
  have hmarked : b.actsWithin marked .timing timingRecord ∧ marked.rd Od.SEL_PHASE = ph := by
    unfold marked
    split
    · exact ⟨.wr hwritten _ ⟨by decide, by decide⟩ (by decide) (by decide), (written.rd_orBits_ne _ (by decide)).trans (Block.rd_wr_same _ _ _)⟩
    · exact ⟨hwritten, Block.rd_wr_same _ _ _⟩
  exact ⟨(marked.rd_raise _ _ _ _ (not_counterKey_of_lt (by decide) (by decide))).trans hmarked.2, hmarked.1.told_raise _ _ _⟩

/-- PE0 LOCKED for SEL_SETTLE_TIME makes START or RECOVERY NORMAL (R141). -/
theorem Block.settleExpiry_due {b : Block} {t : Nat} (hlocked : b.tm.sel.lockedAt = some t) (hauto : bit (b.rdN Od.SEL_AUTO) 0 = true)
    (hphase : b.rdN Od.SEL_PHASE ∈ [1, 3]) (hover : max t b.tm.sel.phaseAt + secs (b.rdN Od.SEL_SETTLE_TIME) ≤ b.cyc) :
    b.settleExpiry = (b.setPhase 0 true).phaseChanged := by
  unfold Block.settleExpiry
  rw [hlocked]
  exact if_pos ⟨hauto, by simpa using hphase, hover⟩

theorem Block.switchResidualZero_spec {b : Block} (hstart : b.tm.sel.residual.start ≠ 0) (hzero : b.switchResidual = 0) :
    b.switchResidualZero.tm.sel.residual = {} ∧ b.told b.switchResidualZero 0x2605 0 0 := by
  unfold Block.switchResidualZero
  rw [if_pos ⟨hstart, hzero⟩]
  exact ⟨by rw [Block.raise_tm]; rfl, Block.actsWithin.told_raise (.withTm b.actsWithin_refl _) _ _ _⟩

-- The measure step and the handover (R144)

@[simp] theorem Block.transferTake_startAt (b : Block) (t : Transfer) (phase : Int) : (b.transferTake t phase).startAt = t.startAt := by
  unfold Block.transferTake Transfer.take
  dsimp only
  split <;> rfl

section

variable {b : Block} {t : Transfer} (phase : Int)

/-- What the monitors leave of a first sample does not change how the measure step takes it. -/
theorem Block.transferTake_sampleSeen (b : Block) (t : Transfer) (k : Nat) : (b.sampleSeen k phase).transferTake t phase = b.transferTake t phase := by
  have hcap : (b.sampleSeen k phase).timeCapable t.target = b.timeCapable t.target := Block.timeCapable_wr_slotPhase (b.setSlot k _) k _ t.target
  have hedge : (b.sampleSeen k phase).unwrap t.target t.newest.1 phase = b.unwrap t.target t.newest.1 phase :=
    Block.unwrap_wr_slotPhase (b.setSlot k _) k _ t.target _ _
  have htime : (b.sampleSeen k phase).rdN Od.SEL_TRANSFER_TIME = b.rdN Od.SEL_TRANSFER_TIME :=
    Block.rdN_wr_slotPhase (b.setSlot k _) k _ (by decide) (by decide)
  have hcyc : (b.sampleSeen k phase).cyc = b.cyc := rfl
  unfold Block.transferTake Block.measureTime
  dsimp only
  rw [hcap, hedge, htime, hcyc]

/-- What a first sample of slot k, the target of the running transfer, leaves before the measure step is judged (R144). -/
def Block.sampleMeasured (b : Block) (k : Nat) (phase : Int) : Block :=
  (b.sampleSeen k phase).setSel fun s => { s with transfer := s.transfer.map fun t => (b.sampleSeen k phase).transferTake t phase }

theorem Block.slotSample_target (ht : b.tm.sel.transfer = some t) (hstate : b.slotState t.target ≠ 0) (hlast : (b.slot t.target).last = none) :
    b.slotSample t.target phase =
      if (b.sampleMeasured t.target phase).measured then (b.sampleMeasured t.target phase).handover else b.sampleMeasured t.target phase := by
  unfold Block.slotSample
  rw [if_neg hstate, Block.stepMonitor_first phase hlast]
  simp only [Block.setSlot_tm_sel, Block.wr_tm, ht, Bool.not_true, Bool.false_eq_true, if_false, beq_self_eq_true, if_true]
  rfl

theorem Block.sampleMeasured_transfer (ht : b.tm.sel.transfer = some t) (k : Nat) :
    (b.sampleMeasured k phase).tm.sel.transfer = some (b.transferTake t phase) := by
  have hseen : (b.sampleSeen k phase).tm.sel.transfer = some t := ht
  unfold Block.sampleMeasured
  rw [Block.setSel_tm_sel, hseen, Option.map_some, Block.transferTake_sampleSeen]

/-- The sample with which the measure step ends hands over, itself taken into the mean (R144). -/
theorem Block.transferSample_last (ht : b.tm.sel.transfer = some t) (hstate : b.slotState t.target ≠ 0)
    (hover : t.startAt + ms (b.rdN Od.SEL_TRANSFER_TIME) ≤ b.cyc) (hheld : 16 ≤ (b.transferTake t phase).n) (hlast : (b.slot t.target).last = none) :
    ∃ b1 : Block, b.transferSample phase = b1.handover ∧ b1.tm.sel.transfer = some (b.transferTake t phase) ∧
      b1.rd (Od.SLOT_PHASE t.target) = (if b.timeCapable t.target then phase else 0) := by
  have hsample : b.transferSample phase = b.slotSample t.target phase := by
    unfold Block.transferSample
    rw [ht]
    exact if_pos ⟨hover, hheld⟩
  have htransfer := b.sampleMeasured_transfer phase ht t.target
  have hmeasured : (b.sampleMeasured t.target phase).measured = true := by
    have htime : (b.sampleMeasured t.target phase).rdN Od.SEL_TRANSFER_TIME = b.rdN Od.SEL_TRANSFER_TIME :=
      Block.rdN_wr_slotPhase (b.setSlot t.target _) t.target _ (by decide) (by decide)
    unfold Block.measured
    rw [htransfer]
    simp only [Block.transferTake_startAt, htime, Bool.and_eq_true, decide_eq_true_eq]
    exact ⟨hover, hheld⟩
  refine ⟨b.sampleMeasured t.target phase, ?_, htransfer, Block.rd_wr_same _ _ _⟩
  rw [hsample, Block.slotSample_target phase ht hstate hlast, if_pos hmeasured]

end

/-- Settles O11: each event by what its operation leaves, each write by its entry's row. That a write of the service phase or of the force is evaluated at
once (log 147), and that the handover comes with the sample that ends the measure step (log 124), are the model's choices. -/
theorem selectorCommands : Obligations.SelectorCommands := by
  unfold Obligations.SelectorCommands
  refine ⟨?evaluate, ?handover, ?residual, ?phase, ?force, ?settled⟩
  case evaluate =>
    intro s k hup hstandby hforce hfree hbest hselected
    refine State.leads_act s _ (fun _ b => b.evaluate) _ rfl hup ?_
    rw [Block.evaluate_best hstandby hforce hfree hbest hselected]
    exact s.m.startTransfer_spec k
  case handover =>
    intro s phase t hup ht hstate u hover hheld hlast
    exact State.leads_act s _ (fun _ b => b.transferSample phase) _ rfl hup (Block.transferSample_last phase ht hstate hover hheld hlast)
  case residual =>
    intro s hup hstart hzero
    exact State.leads_act s _ (fun _ b => b.switchResidualZero) _ rfl hup (Block.switchResidualZero_spec hstart hzero)
  case phase =>
    intro s c token n v h hv a hnew
    obtain ⟨b, hexec, hreply, hbooks⟩ := State.leads_granted (i := .selPhaseWrite c token v) h rfl rfl fun hopen =>
      (Block.written_selPhase hopen rfl hv).trans (congrArg Block.ok ((a.putNum_selPhase _ v).trans (if_neg hnew)))
    obtain ⟨hshown, htold⟩ := a.setPhase_spec v false
    exact ⟨b, hexec, hreply, a.setPhase v false, hbooks, hshown, htold⟩
  case force =>
    intro s c token n v h hv
    exact State.leads_granted h rfl rfl fun hopen => (Block.written_selForce hopen rfl hv).trans (congrArg Block.ok (Block.putNum_selForce _ _ _))
  case settled =>
    intro s t hup hlocked hauto hphase hover
    refine State.leads_act s _ (fun _ b => b.settleExpiry) _ rfl hup ?_
    obtain ⟨hshown, htold⟩ := s.m.setPhase_spec 0 true
    exact ⟨_, Block.settleExpiry_due hlocked hauto hphase hover, hshown, htold⟩

end Sys2Proof.Machine
end

section
/-! Which entries an operation changes, and so PE0's frequency word and its states (R98, R140, R165). -/

namespace Sys2Proof.Machine

/-- Module b beside a: of the entries it differs in those listed and in counters alone, and event queues have only grown. -/
def Block.changes (a b : Block) (l : List Nat) : Prop :=
  (∀ k, k ∉ l → ¬counterKey k → b.rd k = a.rd k) ∧
    ∀ t, (∀ e, e ∈ (tat {} a.mg.ev t).queue → e ∈ (tat {} b.mg.ev t).queue) ∧ (tat {} a.mg.ev t).lost ≤ (tat {} b.mg.ev t).lost

theorem Block.changes_refl (b : Block) (l : List Nat) : b.changes b l := ⟨fun _ _ _ => rfl, fun _ => ⟨fun _ h => h, Nat.le_refl _⟩⟩

section

variable {a b : Block} {l : List Nat} (h : a.changes b l)

include h

theorem Block.changes.trans {c : Block} (g : b.changes c l) : a.changes c l := by
  obtain ⟨hrd, hev⟩ := h
  obtain ⟨grd, gev⟩ := g
  exact ⟨fun k hk hc => (grd k hk hc).trans (hrd k hk hc), fun t => ⟨fun e he => (gev t).1 e ((hev t).1 e he), (hev t).2.trans (gev t).2⟩⟩

/-- What lies outside entries and event queues does not matter. -/
theorem Block.changes.withTm (tm : Timing) : a.changes { b with tm := tm } l := h

theorem Block.changes.wr {k : Nat} (v : Int) (hk : k ∈ l) : a.changes (b.wr k v) l := by
  refine h.trans ⟨fun j hj _ => b.rd_wr_ne v ?_, fun _ => ⟨fun _ he => he, Nat.le_refl _⟩⟩
  rintro rfl
  exact hj hk

theorem Block.changes.raise (num x y : Nat) : a.changes (b.raise num x y) l := by
  obtain ⟨-, hrd, hev⟩ := b.sameButEvents_raise num x y
  exact h.trans ⟨fun k _ hc => hrd k hc, hev⟩

theorem Block.changes.ite {c : Block} {p : Prop} [Decidable p] (g : a.changes c l) : a.changes (if p then b else c) l := by
  split
  · exact h
  · exact g

/-- An entry outside the list, below the counters group. -/
theorem Block.changes.rd {k : Nat} (hk : k ∉ l ∧ k < 0x7101 * 256) : b.rd k = a.rd k := h.1 k hk.1 (by unfold counterKey; omega)

theorem Block.changes.rdN {k : Nat} (hk : k ∉ l ∧ k < 0x7101 * 256) : b.rdN k = a.rdN k := congrArg Int.toNat (h.rd hk)

theorem Block.changes.mono {m : List Nat} (hl : l ⊆ m) : a.changes b m := ⟨fun k hk hc => h.1 k (fun hm => hk (hl hm)) hc, h.2⟩

/-- What was told stays told. -/
theorem Block.changes.told {c : Block} {num x y : Nat} (ht : c.told a num x y) : c.told b num x y := Block.told_mono ht h.2

end

-- PE0's frequency word (R98) and its states (R140)

/-- The entries that forming PE0's frequency word may change. -/
def fwEntries : List Nat := [Od.PE_FREQ_WORD 0, Od.PE_STICKY 0, Od.STEER_STICKY]

theorem Block.changes_setFw (b : Block) (loop : Int) : b.changes (b.setFw loop) fwEntries := by
  unfold Block.setFw
  extract_lets added steer fw cut written hit limited marked clips told
  have hwritten : b.changes written fwEntries := .wr (b.changes_refl _) _ (by decide)
  have hlimited : b.changes limited fwEntries := .ite (.raise (.wr hwritten _ (by decide)) _ _ _) hwritten
  have hmarked : b.changes marked fwEntries := hlimited.withTm _
  have htold : b.changes told fwEntries := .ite (.raise hmarked _ _ _) hmarked
  exact .ite (.wr (.withTm htold _) _ (by decide)) (.withTm htold _)

/-- Forming the word leaves the holdover timer and the ramp of the steering as they are. -/
theorem Block.setFw_tm (b : Block) (loop : Int) : (b.setFw loop).tm.ho = b.tm.ho ∧ (b.setFw loop).tm.osc.steer = b.tm.osc.steer := by
  have hraised (c d : Block) (p : Prop) [Decidable p] (num x : Nat) (h : c.tm = d.tm) : (if p then c.raise num x else d).tm = d.tm := by
    split
    · rw [Block.raise_tm, h]
    · rfl
  have hclip (c : Block) : c.clipSticky.tm = c.tm := by
    unfold Block.clipSticky
    split <;> rfl
  unfold Block.setFw
  extract_lets added steer fw cut written hit limited marked clips told
  have hlimited : limited.tm = b.tm := hraised _ written _ _ _ rfl
  have htold : told.tm = marked.tm := hraised _ marked _ _ _ rfl
  rw [hclip, Block.setOsc_tm_ho, Block.setOsc_tm_osc, htold, Block.setPe_tm_ho, Block.setPe_tm_osc, hlimited]
  exact ⟨rfl, rfl⟩

/-- The entries that a change of PE0's state may change. -/
def pe0Entries : List Nat := [Od.SEL_PE0_STATE, Od.SEL_PE0_HISTORY, Od.PE_LOCK_STATUS 0, Od.HO_TIME_LEFT]

/-- PE0 in a state: which entries may change, the state shown, and no time left once it leaves specification (R140, R165). -/
theorem Block.setPe0_spec (b : Block) (st : Nat) : b.changes (b.setPe0 st) pe0Entries ∧ (b.setPe0 st).pe0 = st ∧
    (b.pe0 ≠ st → st = 4 → (b.setPe0 st).rd Od.HO_TIME_LEFT = 0) := by
  unfold Block.setPe0
  extract_lets was shown counted ended status left free
  by_cases hsame : was = st
  · rw [if_pos hsame]
    exact ⟨b.changes_refl _, hsame, fun hne => absurd hsame hne⟩
  · rw [if_neg hsame]
    have hshown : b.changes shown pe0Entries := .wr (.wr (b.changes_refl _) _ (by decide)) _ (by decide)
    have hstate : shown.rd Od.SEL_PE0_STATE = st := (Block.rd_orBits_ne _ _ (by decide)).trans (Block.rd_wr_same _ _ _)
    have hended : shown.changes ended [Od.PE_LOCK_STATUS 0, Od.HO_TIME_LEFT] := .ite (.withTm (shown.changes_refl _) _) (shown.changes_refl _)
    have hstatus : shown.changes status [Od.PE_LOCK_STATUS 0, Od.HO_TIME_LEFT] := hended.wr _ (by decide)
    have hleft : shown.changes left [Od.PE_LOCK_STATUS 0, Od.HO_TIME_LEFT] := .ite hstatus (hstatus.wr _ (by decide))
    have hfree : shown.changes free [Od.PE_LOCK_STATUS 0, Od.HO_TIME_LEFT] := .ite (hleft.wr _ (by decide)) hleft
    have hlast : free.changes (if bit (free.rdN Od.SEL_PE0_EVENT_MASK) st then free.raise 0x2601 0 st else free) [] :=
      .ite (.raise (free.changes_refl _) _ _ _) (free.changes_refl _)
    have hafter := hfree.trans (hlast.mono (List.nil_subset _))
    refine ⟨hshown.trans (hafter.mono (by decide)), ?_, ?_⟩
    · exact congrArg Int.toNat ((hafter.rd (k := Od.SEL_PE0_STATE) (by decide)).trans hstate)
    · rintro - rfl
      exact (hlast.rd (k := Od.HO_TIME_LEFT) (by decide)).trans (Block.rd_wr_same status _ 0)

/-- The warning of the time left: one sticky bit and an event at most, with the integral of the temperature left as it is (R165). -/
theorem Block.warnTimeLeft_spec (b : Block) : b.changes b.warnTimeLeft [Od.HO_STICKY] ∧ b.warnTimeLeft.tm.ho.tempInt = b.tm.ho.tempInt := by
  unfold Block.warnTimeLeft
  split
  · exact ⟨.raise (.wr (.withTm (b.changes_refl _) _) _ (by decide)) _ _ _, by rw [Block.raise_tm]; rfl⟩
  · exact ⟨b.changes_refl _, rfl⟩

end Sys2Proof.Machine
end

section
/-! The oven oscillator and software steering (R153 to R155, R160). -/

namespace Sys2Proof.Machine

-- Oven oscillator (R153, R154)

/-- A change of the model's validity is shown, and each way told (R160). -/
theorem Block.setModelValid_spec {a b : Block} (h : a.actsWithin b .timing timingRecord) (v : Bool) :
    b.changes (b.setModelValid v) [Od.HO_MODEL_VALID, Od.HO_STICKY] ∧ (b.setModelValid v).rd Od.HO_MODEL_VALID = b2n v ∧
      (b.on Od.HO_MODEL_VALID = false → v = true → a.told (b.setModelValid v) 0x2703 0 0) ∧
      (b.on Od.HO_MODEL_VALID = true → v = false → a.told (b.setModelValid v) 0x2704 0 0) := by
  unfold Block.setModelValid
  extract_lets was shown
  have hshown : b.changes shown [Od.HO_MODEL_VALID, Od.HO_STICKY] := .wr (b.changes_refl _) _ (by decide)
  have hmodel : timingRecord 0x2702 := ⟨by decide, by decide⟩
  have hwithin : a.actsWithin shown .timing timingRecord := .wr h _ hmodel (by decide) (by decide)
  have hread : shown.rd Od.HO_MODEL_VALID = b2n v := Block.rd_wr_same _ _ _
  have hsticky : shown.changes (shown.orBits Od.HO_STICKY 2) [Od.HO_STICKY] := .wr (shown.changes_refl _) _ (by decide)
  split
  case isTrue hrise =>
    obtain ⟨rfl, hwas⟩ : v = true ∧ was = false := by simpa using hrise
    have hraised : (shown.raise 0x2703).rd Od.HO_MODEL_VALID = b2n true :=
      (shown.rd_raise _ _ _ _ (not_counterKey_of_lt (by decide) (by decide))).trans hread
    exact ⟨hshown.raise _ _ _, hraised, fun _ _ => hwithin.told_raise _ _ _, fun hon => absurd (hwas.symm.trans hon) nofun⟩
  case isFalse hrise =>
    split
    case isTrue hfall =>
      obtain ⟨hwas, rfl⟩ : was = true ∧ v = false := by simpa using hfall
      exact ⟨.raise (.wr hshown _ (by decide)) _ _ _, ((hsticky.raise 0x2704 0 0).rd (by decide)).trans hread,
        fun hoff => absurd (hwas.symm.trans hoff) nofun, fun _ _ => Block.actsWithin.told_raise (.wr hwithin _ hmodel (by decide) (by decide)) _ _ _⟩
    case isFalse hfall =>
      refine ⟨hshown, hread, fun hoff hv => absurd ?_ hrise, fun hon hv => absurd ?_ hfall⟩
      · simp [was, hoff, hv]
      · simp [was, hon, hv]

theorem Block.warmupClear_spec {b : Block} (hon : b.on Od.OSC_WARMUP = true)
    (hheld : max b.tm.osc.startAt (b.tm.osc.outAt.getD 0) + secs 30 ≤ b.cyc) :
    b.warmupClear.rd Od.OSC_WARMUP = 0 ∧ b.warmupClear.rd Od.OSC_WARMUP_TIME = ((b.cyc - b.tm.osc.powerAt) / secs 1 : Nat) ∧
      b.told b.warmupClear 0x2701 0 0 := by
  unfold Block.warmupClear
  extract_lets o
  rw [if_pos ⟨hon, hheld⟩]
  have hosc : timingRecord 0x2700 := ⟨by decide, by decide⟩
  have hraise (c : Block) {sub : Nat} (hs : sub < 256) : (c.raise 0x2701).rd (key 0x2700 sub) = c.rd (key 0x2700 sub) :=
    c.rd_raise _ _ _ _ (not_counterKey_of_lt (by decide) hs)
  refine ⟨(hraise _ (by decide)).trans ?_, (hraise _ (by decide)).trans (Block.rd_wr_same _ _ _), Block.actsWithin.told_raise (.withTm ?_ _) _ _ _⟩
  · exact (Block.rd_wr_ne _ _ (by decide)).trans (Block.rd_wr_same _ _ _)
  · exact .wr (.wr b.actsWithin_refl _ hosc (by decide) (by decide)) _ hosc (by decide) (by decide)

/-- The band left: the flag and the validity as they then read, the event, and a holdover in spec ended (R154). -/
theorem Block.tempExcursion_spec {b : Block} (hclear : b.on Od.OSC_WARMUP = false) : ∃ b1 : Block, b1.rd Od.OSC_WARMUP = 1 ∧
    b1.rd Od.HO_MODEL_VALID = 0 ∧ b.told b1 0x2702 0 0 ∧ b.tempExcursion = if b.pe0 = 3 then b1.outOfSpec.orBits Od.HO_STICKY 8 else b1 := by
  unfold Block.tempExcursion
  extract_lets out left
  have hout : ¬out.on Od.OSC_WARMUP = true := by
    show ¬b.on Od.OSC_WARMUP = true
    rw [hclear]
    nofun
  have hosc : timingRecord 0x2700 := ⟨by decide, by decide⟩
  have hwithin : b.actsWithin ((out.wr Od.OSC_WARMUP 1).orBits Od.OSC_STICKY 1).restartMeans .timing timingRecord :=
    .withTm (.wr (.wr (.withTm b.actsWithin_refl _) _ hosc (by decide) (by decide)) _ hosc (by decide) (by decide)) _
  have hwarm : (out.wr Od.OSC_WARMUP 1).changes (((out.wr Od.OSC_WARMUP 1).orBits Od.OSC_STICKY 1).restartMeans.raise 0x2702) [Od.OSC_STICKY] :=
    .raise (.withTm (.wr (Block.changes_refl _ _) _ (by decide)) _) _ _ _
  obtain ⟨hvalid, hshown, -, -⟩ := Block.setModelValid_spec (hwithin.raise 0x2702 0 0) false
  have hpe0 : left.pe0 = b.pe0 := (hvalid.rdN (by decide)).trans ((hwarm.rdN (by decide)).trans (Block.rdN_wr _ _ _ _))
  rw [if_neg hout]
  exact ⟨left, (hvalid.rd (by decide)).trans ((hwarm.rd (by decide)).trans (Block.rd_wr_same _ _ _)), hshown,
    hvalid.told (hwithin.told_raise _ _ _), by rw [hpe0]⟩

-- Software steering (R155)

theorem Block.reformFw_spec (b : Block) : b.changes b.reformFw fwEntries ∧ b.reformFw.tm.osc.steer = b.tm.osc.steer := by
  unfold Block.reformFw
  split
  · exact ⟨b.changes_refl _, rfl⟩
  · exact ⟨b.changes_setFw _, (b.setFw_tm _).2⟩

/-- The offset in force moves from where it stands, toward the request while no slot is SELECTED and to 0 otherwise (R155). -/
theorem Block.retargetSteer_spec (b : Block) : b.changes b.retargetSteer (Od.STEER_ACTIVE :: fwEntries) ∧
    b.retargetSteer.tm.osc.steer = ⟨b.steerNow, if b.selected = none then b.rd Od.STEER_PPT else 0, b.rdN Od.STEER_RAMP, b.cyc⟩ := by
  unfold Block.retargetSteer
  extract_lets free goal now
  have hgoal : goal = if b.selected = none then b.rd Od.STEER_PPT else 0 := by
    unfold goal free
    cases b.selected <;> rfl
  have hset : b.changes ((b.setOsc fun o => { o with steer := ⟨now, goal, b.rdN Od.STEER_RAMP, b.cyc⟩ }).wr Od.STEER_ACTIVE (b2n free))
      (Od.STEER_ACTIVE :: fwEntries) := .wr (.withTm (b.changes_refl _) _) _ (by decide)
  obtain ⟨hchanges, hsteer⟩ :=
    Block.reformFw_spec ((b.setOsc fun o => { o with steer := ⟨now, goal, b.rdN Od.STEER_RAMP, b.cyc⟩ }).wr Od.STEER_ACTIVE (b2n free))
  refine ⟨hset.trans (hchanges.mono (List.subset_cons_self _ _)), hsteer.trans ?_⟩
  rw [← hgoal]
  rfl

theorem Block.steerWrite_spec (b : Block) (v : Int) : (b.steerWrite v).rd Od.STEER_PPT = v ∧
    (b.steerWrite v).tm.osc.steer.goal = (if b.selected = none then v else 0) ∧ (b.steerWrite v).tm.osc.steer.start = b.steerNow := by
  obtain ⟨hchanges, hsteer⟩ := (b.wr Od.STEER_PPT v).retargetSteer_spec
  have hselected : (b.wr Od.STEER_PPT v).selected = b.selected := by
    unfold Block.selected
    rw [Block.rdN_wr, if_neg (show Od.STEER_PPT ≠ Od.SEL_SELECTED by decide)]
  rw [hselected, Block.rd_wr_same] at hsteer
  unfold Block.steerWrite
  rw [hsteer]
  exact ⟨(hchanges.rd (by decide)).trans (Block.rd_wr_same _ _ _), rfl, rfl⟩

-- STEER_PPT as a write (R155, R399)

/-- The row of STEER_PPT. -/
def steerPptRow : Entry := ⟨"STEER_PPT", .i32, .rw, 0, [((-10000000), 10000000)], .shared⟩

theorem rowOf_steerPpt : rowOf (key 0x2701 1) = some steerPptRow := by decide +kernel

/-- An I32 value decodes from the bytes that encode it. -/
theorem decodeVal_i32 {v : Int} (hlo : -2 ^ 31 ≤ v) (hhi : v < 2 ^ 31) : decodeVal .i32 ((encodeVal .i32 v).take (typeLen .i32)) = some v := by
  have hbytes : ofLE ((encodeVal .i32 v).take (typeLen .i32)) = unsigned 32 v % 256 ^ 4 := by
    rw [List.take_of_length_le (by simp [encodeVal])]
    exact ofLE_toLE 4 _
  have hsigned : signed 32 (unsigned 32 v % 256 ^ 4) = v := by
    unfold signed unsigned
    split <;> omega
  unfold decodeVal
  rw [hbytes]
  exact congrArg some hsigned

theorem Block.putNum_steerPpt (b : Block) (t : Nat) (v : Int) : b.putNum t Od.STEER_PPT v = b.steerWrite v := by
  have hplace : Od.STEER_PPT / 256 % 65536 = 0x2701 ∧ Od.STEER_PPT % 256 = 1 := by decide
  have hsticky : isSticky Od.STEER_PPT = false := by decide
  have hrestart : restartFrom Od.STEER_PPT = none := by decide
  unfold Block.putNum
  simp [hplace, hsticky, hrestart]

theorem Block.written_steerPpt {a : Block} {w : Waiting} {token : Nat} {v : Int} (hreq : w.req = writeKey token Od.STEER_PPT v) (h : a.unbarred w = true)
    (hlo : -10000000 ≤ v) (hhi : v ≤ 10000000) : a.written w = (a.steerWrite v).ok := by
  have hplace : w.req.index = 0x2701 ∧ w.req.sub = 1 := by
    rw [hreq]
    exact ⟨rfl, rfl⟩
  have hr : rowOf (key w.req.index w.req.sub) = some steerPptRow := by rw [hplace.1, hplace.2, rowOf_steerPpt]
  have hkey : a.entryKey w.tenant steerPptRow w.req.index w.req.sub = Od.STEER_PPT := by
    rw [hplace.1, hplace.2]
    rfl
  have hdata : decodeVal steerPptRow.ty (w.req.data.take w.req.length) = some v := by
    rw [hreq, writeKey, show Od.STEER_PPT / 256 % 65536 = 0x2701 from rfl, show Od.STEER_PPT % 256 = 1 from rfl, writeRequest, rowOf_steerPpt]
    exact decodeVal_i32 (by omega) (by omega)
  have hc : accessOf steerPptRow w.req.index w.req.sub ≠ .cmd := by
    rw [hplace.1, hplace.2]
    nofun
  have hrange : a.valueOk steerPptRow Od.STEER_PPT v = true := by
    have hin : inRanges steerPptRow.range v = true := by simp [steerPptRow, inRanges, hlo, hhi]
    rw [Block.valueOk, hin]
    rfl
  rw [Block.written_inRange h hr (fun _ => ⟨nofun, nofun⟩) hdata hc (by rw [hkey]; exact hrange), hkey, Block.putNum_steerPpt]

theorem Block.sameButBooks.osc {a b : Block} (h : a.sameButBooks b) : b.tm.osc = a.tm.osc := by
  rw [h.1]
  rfl

end Sys2Proof.Machine
end

section
/-! The holdover model and timer, and the return (R158, R160, R161, R162, R164, R165, R170, R171). -/

namespace Sys2Proof.Machine

-- The holdover model (R158, R160, R161)

/-- A record taken: the model refitted over the records with the new one first (R158). -/
theorem Block.modelRecord_spec {b : Block} (temp : Int) (hpe0 : b.pe0 = 2) (hclear : b.on Od.OSC_WARMUP = false) : ∃ b1 : Block,
    b.modelRecord temp = b1.fitModel ∧ b1.tm.ho.records.head? =
      some (b.cyc, if b.tm.ho.secN = 0 then yMilli (b.pe 0).integ else b.tm.ho.secY / b.tm.ho.secN, temp) := by
  unfold Block.modelRecord
  rw [if_neg (by simp [hpe0, hclear])]
  exact ⟨_, rfl, rfl⟩

theorem Block.on_of_rd_b2n {b : Block} {k : Nat} {v : Bool} (h : b.rd k = b2n v) : b.on k = v := by
  unfold Block.on
  rw [h]
  cases v <;> rfl

theorem Block.modelCheck_spec (b : Block) : b.modelCheck.rd Od.HO_LOCKED_TIME = (min (b.lockedCycles / secs 1) unknownUnc : Nat) ∧
    b.modelCheck.on Od.HO_MODEL_VALID =
      (!b.on Od.OSC_WARMUP && (b.on Od.HO_MODEL_VALID || decide (b.rdN Od.HO_MIN_LOCK ≤ b.lockedCycles / secs 1))) ∧
    (b.on Od.HO_MODEL_VALID = false → b.modelCheck.on Od.HO_MODEL_VALID = true → b.told b.modelCheck 0x2703 0 0) ∧
    (b.on Od.HO_MODEL_VALID = true → b.modelCheck.on Od.HO_MODEL_VALID = false → b.told b.modelCheck 0x2704 0 0) := by
  unfold Block.modelCheck
  extract_lets locked timed
  have hon (k : Nat) (hk : Od.HO_LOCKED_TIME ≠ k) : timed.on k = b.on k := (Block.on_wr _ _ _ _).trans (if_neg hk)
  have hminLock : timed.rdN Od.HO_MIN_LOCK = b.rdN Od.HO_MIN_LOCK := (Block.rdN_wr _ _ _ _).trans (if_neg (by decide))
  have hwithin : b.actsWithin timed .timing timingRecord := .wr b.actsWithin_refl _ ⟨by decide, by decide⟩ (by decide) (by decide)
  rw [hon Od.OSC_WARMUP (by decide), hon Od.HO_MODEL_VALID (by decide), hminLock]
  obtain ⟨hchanges, hshown, hrise, hfall⟩ :=
    Block.setModelValid_spec hwithin (!b.on Od.OSC_WARMUP && (b.on Od.HO_MODEL_VALID || decide (b.rdN Od.HO_MIN_LOCK ≤ locked)))
  rw [hon Od.HO_MODEL_VALID (by decide)] at hrise hfall
  have hnow := Block.on_of_rd_b2n hshown
  exact ⟨(hchanges.rd (by decide)).trans (Block.rd_wr_same _ _ _), hnow, fun hwas his => hrise hwas (hnow.symm.trans his),
    fun hwas his => hfall hwas (hnow.symm.trans his)⟩

theorem Block.modelSave_due {b : Block} (hbrace : b.rdN Od.BRACE_STATE = 0) (hrun : b.mg.srv.running = true)
    (hdue : b.tm.ho.savedAt + secs 3600 ≤ b.cyc) : b.modelSave.tm.ho.savedAt = b.cyc ∧ b.modelSave.tm.ho.saved =
      some (b.rd Od.HO_AGEING, b.rd Od.HO_TEMP_COEF, b.rdN Od.HO_AGEING_UNC, b.rdN Od.HO_TEMP_UNC, b.rdN Od.HO_TEMP_COEF_SOURCE) := by
  unfold Block.modelSave
  rw [if_neg (by simp [hbrace, hrun, hdue])]
  exact ⟨rfl, rfl⟩

-- The holdover timer (R162, R164, R165)

theorem Block.applyModel_spec (b : Block) : b.changes b.applyModel fwEntries ∧ b.applyModel.tm.ho = b.tm.ho :=
  ⟨(b.changes_setFw _).withTm _, (b.setFw_tm _).1⟩

theorem Block.reportHoldover_spec (b : Block) (tau : Nat) :
    b.changes (b.reportHoldover tau) [Od.HO_ELAPSED, Od.HO_TERM, Od.HO_TIME_LEFT, Od.HO_STICKY] ∧
      (b.reportHoldover tau).rd Od.HO_ELAPSED = (min tau (2 ^ 32 - 1) : Nat) ∧ (b.reportHoldover tau).tm.ho.tempInt = b.tm.ho.tempInt := by
  unfold Block.reportHoldover
  extract_lets timed
  generalize (if timed.pe0 = 4 then 0 else (timed.holdoverLeft tau : Int)) = left
  have htimed : b.changes (timed.wr Od.HO_TIME_LEFT left) [Od.HO_ELAPSED, Od.HO_TERM, Od.HO_TIME_LEFT, Od.HO_STICKY] :=
    .wr (.wr (.wr (b.changes_refl _) _ (by decide)) _ (by decide)) _ (by decide)
  have hshown : (timed.wr Od.HO_TIME_LEFT left).rd Od.HO_ELAPSED = (min tau (2 ^ 32 - 1) : Nat) := by
    rw [Block.rd_wr_ne _ _ (by decide), Block.rd_wr_ne _ _ (by decide), Block.rd_wr_same]
  have htm : timed.tm = b.tm := by rw [Block.wr_tm, Block.wr_tm]
  obtain ⟨hwarned, htemp⟩ := (timed.wr Od.HO_TIME_LEFT left).warnTimeLeft_spec
  exact ⟨htimed.trans (hwarned.mono (by decide)), (hwarned.rd (by decide)).trans hshown, by rw [htemp, Block.wr_tm, htm]⟩

/-- A second of a holdover: the temperature read, the elapsed time, and the temperature's excess taken into its integral (R164). -/
theorem Block.holdoverTick_spec {b : Block} {t : Nat} (temp : Int) (hpe0 : b.pe0 ∈ [3, 4]) (hstart : b.tm.ho.startAt = some t) :
    (b.holdoverTick temp).rd Od.OSC_COMPARTMENT_TEMP = temp ∧
      (b.holdoverTick temp).rd Od.HO_ELAPSED = (min ((b.cyc - t) / secs 1) (2 ^ 32 - 1) : Nat) ∧
      (b.holdoverTick temp).tm.ho.tempInt = b.tm.ho.tempInt + (temp - b.tm.ho.tempE).natAbs := by
  unfold Block.holdoverTick
  extract_lets read inHold inReturn summed
  have hhold : inHold := by
    have hread : read.pe0 = b.pe0 := (Block.rdN_wr _ _ _ _).trans (if_neg (by decide))
    refine ⟨?_, ?_⟩
    · rw [hread]
      simpa using hpe0
    · show b.tm.ho.startAt.isSome = true
      rw [hstart]
      rfl
  rw [if_pos (.inl hhold)]
  have hsummed : summed.tm.ho.startAt = some t := hstart
  simp only [hsummed]
  obtain ⟨hmodel, hho⟩ := summed.applyModel_spec
  obtain ⟨hreport, helapsed, htemp⟩ := summed.applyModel.reportHoldover_spec ((summed.cyc - t) / secs 1)
  refine ⟨(hreport.rd (by decide)).trans ((hmodel.rd (by decide)).trans (Block.rd_wr_same _ _ _)), helapsed, ?_⟩
  rw [htemp, hho]
  rfl

/-- PE0 leaves specification: with SEL_AUTO bit [1] clear it is in HOLDOVER_OUT_OF_SPEC with no time left (R165). -/
theorem Block.outOfSpec_spec {b : Block} (hpe0 : b.pe0 = 3) (hauto : bit (b.rdN Od.SEL_AUTO) 1 = false) :
    b.outOfSpec.pe0 = 4 ∧ b.outOfSpec.rd Od.HO_TIME_LEFT = 0 := by
  have hended : b.changes ((b.orBits Od.HO_STICKY 1).setHo fun h => { h with fromSpec := false }) [Od.HO_STICKY] :=
    .withTm (.wr (b.changes_refl _) _ (by decide)) _
  unfold Block.outOfSpec
  generalize (b.orBits Od.HO_STICKY 1).setHo (fun h => { h with fromSpec := false }) = c at hended ⊢
  obtain ⟨hchanges, hstate, hleft⟩ := c.setPe0_spec 4
  obtain ⟨hwarned, -⟩ := (c.setPe0 4).warnTimeLeft_spec
  have hsame : (c.setPe0 4).warnTimeLeft.rdN Od.SEL_AUTO = b.rdN Od.SEL_AUTO :=
    (hwarned.rdN (by decide)).trans ((hchanges.rdN (by decide)).trans (hended.rdN (by decide)))
  have hwas : c.pe0 ≠ 4 := by
    have hc : c.pe0 = b.pe0 := hended.rdN (by decide)
    omega
  unfold Block.enterOutOfSpec
  simp only [hsame, hauto, Bool.false_eq_true, false_and, if_false]
  exact ⟨(hwarned.rdN (by decide)).trans hstate, (hwarned.rd (by decide)).trans (hleft hwas rfl)⟩

-- The return (R170, R171)

theorem Block.changes_setBandwidth (b : Block) : b.changes (b.setBandwidth 0) [Od.PE_BW_IN_USE 0, Od.PE_STICKY 0] := by
  unfold Block.setBandwidth
  extract_lets want most cut shown clamped
  have hshown : b.changes shown [Od.PE_BW_IN_USE 0, Od.PE_STICKY 0] := .wr (b.changes_refl _) _ (by decide)
  exact .withTm (.ite (.raise (.wr hshown _ (by decide)) _ _ _) hshown) _

/-- A return complete: shown, told, and PE0 LOCKED where it came from specification (R171). -/
theorem Block.endReturn_spec (b : Block) : b.endReturn.rd Od.RET_STATE = 0 ∧ b.told b.endReturn 0x2707 0 0 ∧
    (b.tm.ho.fromSpec = true → b.endReturn.pe0 = 2) := by
  unfold Block.endReturn
  extract_lets ended
  have htold : b.told ended 0x2707 0 0 :=
    Block.actsWithin.told_raise (.withTm (.wr b.actsWithin_refl _ ⟨by decide, by decide⟩ (by decide) (by decide)) _) _ _ _
  have hshown : ended.rd Od.RET_STATE = 0 :=
    (Block.rd_raise _ _ _ _ _ (not_counterKey_of_lt (by decide) (by decide))).trans (b.rd_wr_same Od.RET_STATE 0)
  have hspec : ended.tm.ho.fromSpec = b.tm.ho.fromSpec := by
    unfold ended
    rw [Block.raise_tm]
    rfl
  rw [hspec]
  split
  case isTrue hfrom =>
    obtain ⟨hchanges, hstate, -⟩ := ended.setPe0_spec 2
    exact ⟨(hchanges.rd (by decide)).trans hshown, hchanges.told htold, fun _ => hstate⟩
  case isFalse hfrom =>
    have hacquiring : ended.changes ((if ended.pe0 = 4 then ended.setPe0 1 else ended).restartDetector) pe0Entries :=
      .withTm (.ite (ended.setPe0_spec 1).1 (ended.changes_refl _)) _
    have hbandwidth := Block.changes_setBandwidth ((if ended.pe0 = 4 then ended.setPe0 1 else ended).restartDetector)
    exact ⟨(hbandwidth.rd (by decide)).trans ((hacquiring.rd (by decide)).trans hshown), hbandwidth.told (hacquiring.told htold),
      fun h => absurd h hfrom⟩

theorem Block.returnStep_spec {b : Block} (hstate : b.rdN Od.RET_STATE = 2) (hsecond : b.mer % ticksPerSec < 655360) (hopen : b.inWindow b.mer = true) :
    ∃ b1 : Block, b.returnStep = b1.endReturn ∧ b1.mer = ((b.mer + b.retResidual) % wordWrap).toNat ∧ b1.rd Od.RET_LAST_STEP = b.retResidual := by
  unfold Block.returnStep
  rw [if_pos ⟨hstate, hsecond, hopen⟩]
  have hmer (c : Block) (r : Int) : ((c.carryStep r).wr Od.RET_LAST_STEP r).mer = c.mer := c.carryStep_mer r
  refine ⟨_, rfl, ?_, Block.rd_wr_same _ _ _⟩
  have hwrap : (0 : Int) < wordWrap := by
    unfold wordWrap ticksPerSec
    norm_num
  rw [hmer, (b.stepTime_time _).1]
  exact Nat.mod_eq_of_lt ((Int.toNat_lt (Int.emod_nonneg _ hwrap.ne')).mpr (Int.emod_lt_of_pos _ hwrap))

/-- Settles O12: each event by what its operation leaves, the write by its entry's row. When the oven's flag clears and from when its time counts (log 48),
that a steered frequency is the request until a slot is SELECTED (log 45), and how the mean over the 100 s of a record is formed, the integrator standing in
where no sample was counted (logs 12 and 47), are the model's choices. -/
theorem oscillatorAndHoldover : Obligations.OscillatorAndHoldover := by
  unfold Obligations.OscillatorAndHoldover
  refine ⟨?warm, ?excursion, ?steer, ?record, ?check, ?save, ?second, ?budget, ?step, ?complete⟩
  case warm =>
    intro s hup hon hheld
    exact State.leads_act s _ (fun _ b => b.warmupClear) _ rfl hup (Block.warmupClear_spec hon hheld)
  case excursion =>
    intro s hup hclear
    exact State.leads_act s _ (fun _ b => b.tempExcursion) _ rfl hup (Block.tempExcursion_spec hclear)
  case steer =>
    intro s c token n v h hlo hhi a
    obtain ⟨b, hexec, hreply, hbooks⟩ := State.leads_granted (i := .steerWrite c token v) h rfl rfl fun hopen =>
      Block.written_steerPpt rfl hopen hlo hhi
    obtain ⟨hshown, hgoal, hstart⟩ := a.steerWrite_spec v
    have hentry : b.rd Od.STEER_PPT = (a.steerWrite v).rd Od.STEER_PPT := hbooks.2.1 _ (not_bookKey_timing (by decide) (by decide))
    refine ⟨b, hexec, hreply, ?_⟩
    rw [hentry, hbooks.osc]
    exact ⟨hshown, hgoal, hstart⟩
  case record =>
    intro s temp hup hpe0 hclear
    exact State.leads_act s _ (fun _ b => b.modelRecord temp) _ rfl hup (Block.modelRecord_spec temp hpe0 hclear)
  case check =>
    intro s hup
    exact State.leads_act s _ (fun _ b => b.modelCheck) _ rfl hup s.m.modelCheck_spec
  case save =>
    intro s hup hbrace hrun hdue
    exact State.leads_act s _ (fun _ b => b.modelSave) _ rfl hup (Block.modelSave_due hbrace hrun hdue)
  case second =>
    intro s temp t hup hpe0 hstart
    exact State.leads_act s _ (fun _ b => b.holdoverTick temp) _ rfl hup (Block.holdoverTick_spec temp hpe0 hstart)
  case budget =>
    intro s hup hpe0 hover
    have hexceeded : s.m.budgetExceeded = s.m.outOfSpec := if_pos ⟨hpe0, hover⟩
    refine State.leads_act s _ (fun _ b => b.budgetExceeded) _ rfl hup ?_
    rw [hexceeded]
    exact ⟨rfl, Block.outOfSpec_spec hpe0⟩
  case step =>
    intro s hup hstate hsecond hopen
    exact State.leads_act s _ (fun _ b => b.returnStep) _ rfl hup (Block.returnStep_spec hstate hsecond hopen)
  case complete =>
    intro s hup hstate hzero
    have hended : s.m.returnComplete = s.m.endReturn := if_pos ⟨hstate, hzero⟩
    refine State.leads_act s _ (fun _ b => b.returnComplete) _ rfl hup ?_
    rw [hended]
    exact s.m.endReturn_spec

end Sys2Proof.Machine
end

section
/-! Converters: runs, twins and automatic recalibration (R175, R176, R179). -/

namespace Sys2Proof.Machine

theorem Block.conv_congr {b c : Block} (v : Nat) (h : c.tm = b.tm) : c.conv v = b.conv v := by
  unfold Block.conv
  rw [h]

@[simp] theorem Block.conv_setConv_same (b : Block) (c : Nat) (f : Conv → Conv) : (b.setConv c f).conv c = f (b.conv c) := tat_tmod_same _ _ _ _

theorem Block.conv_setConv_ne (b : Block) {c v : Nat} (f : Conv → Conv) (h : c ≠ v) : (b.setConv c f).conv v = b.conv v := tat_tmod_ne _ _ _ h

-- Proofs rewrite with what a write leaves: to compare a module with itself after writes, the kernel would evaluate the entries written.

theorem Block.conv_wr (b : Block) (k : Nat) (x : Int) (v : Nat) : (b.wr k x).conv v = b.conv v := Block.conv_congr v (b.wr_tm k x)

theorem Block.conv_orBits (b : Block) (k m v : Nat) : (b.orBits k m).conv v = b.conv v := Block.conv_congr v (b.orBits_tm k m)

theorem Block.convSpan_wr (b : Block) (k : Nat) (x : Int) (v : Nat) : (b.wr k x).convSpan v = b.convSpan v := rfl

-- Runs begun (R176, R180)

theorem Block.conv_runStart_same (b : Block) (c why : Nat) : ((b.runStart c why).conv c).run = why := congrArg Conv.run (Block.conv_setConv_same b c _)

theorem Block.conv_runStart_ne (b : Block) {c v : Nat} (why : Nat) (h : c ≠ v) : (b.runStart c why).conv v = b.conv v := b.conv_setConv_ne _ h

/-- Runs begun on the converters of a list: each of them is in one. -/
theorem Block.foldl_runStart_run (l : List Nat) (why : Nat) {v : Nat} (b : Block) (h : v ∈ l ∨ (b.conv v).run = why) :
    ((l.foldl (fun b c => b.runStart c why) b).conv v).run = why := by
  induction l generalizing b with
  | nil => exact h.resolve_left List.not_mem_nil
  | cons c r ih =>
    refine ih _ ?_
    by_cases hc : c = v
    · subst hc
      exact .inr (b.conv_runStart_same c why)
    · rw [b.conv_runStart_ne why hc]
      exact h.imp_left fun hmem => (List.mem_cons.mp hmem).resolve_left (Ne.symm hc)

/-- A converter with a twin whose period is reached begins an automatic run (R176). -/
theorem Block.autoTrigger_due {b : Block} {v : Nat} (hperiod : b.rdN Od.CAL_AUTO_PERIOD ≠ 0) (hv : v < 52) (htwin : hasTwin v = true)
    (hidle : (b.conv v).run = 0) (hdue : (b.conv v).acceptedAt + secs (b.rdN Od.CAL_AUTO_PERIOD) ≤ b.cyc) : (b.autoTrigger.conv v).run = 1 := by
  unfold Block.autoTrigger
  extract_lets period
  rw [if_neg hperiod]
  refine Block.foldl_once (k := v) (P := fun c => c.conv v = b.conv v ∧ c.cyc = b.cyc) (Q := fun c => (c.conv v).run = 1)
    (fun c j hj hc => ?before) (fun c hc => ?own) (fun c j hj hc => ?after) List.nodup_range (List.mem_range.mpr hv) ⟨rfl, rfl⟩
  case before =>
    dsimp only
    split
    · exact ⟨(c.conv_runStart_ne 1 hj).trans hc.1, hc.2⟩
    · exact hc
  case own =>
    obtain ⟨hconv, hcyc⟩ := hc
    dsimp only
    rw [if_pos (by simp [htwin, hconv, hidle, hdue, hcyc, period])]
    exact c.conv_runStart_same v 1
  case after =>
    dsimp only
    split
    · rwa [c.conv_runStart_ne 1 hj]
    · exact hc

-- Runs ended (R178, R179)

section

variable {b : Block} {v : Nat} {h1 h2 g1 g2 : List Nat} (hrun : (b.conv v).run ≠ 0) (hwaits : (b.conv v).waits = false)
  (hcomplete : (b.runCounts v h1 h2 g1 g2).complete (b.conv v).need = true)

include hrun hwaits hcomplete

/-- A run rejected: its verdict is shown, its table stays in force, and its campaign, or an event, has it (R179). -/
theorem Block.runComplete_rejected (hbad : (b.runCounts v h1 h2 g1 g2).verdict ≠ 1) : ∃ b1 : Block,
    b.runComplete v h1 h2 g1 g2 = (if (b.conv v).run = 2 then b1.campaignTake v else b1.raise 0x2802 v) ∧
      b1.rd (Od.CONV_RESULT v) = (b.runCounts v h1 h2 g1 g2).verdict ∧ (b1.conv v).run = 0 ∧ (b1.conv v).table = (b.conv v).table := by
  unfold Block.runComplete
  generalize b.runCounts v h1 h2 g1 g2 = r at *
  extract_lets was counted shown rejected
  rw [if_neg (by simp [was, counted, hrun, hwaits, hcomplete]), if_pos hbad]
  have hkept : (shown.orBits Od.CAL_STICKY 1).conv v = b.conv v := (shown.conv_orBits _ _ v).trans (b.conv_wr _ _ v)
  have hconv : rejected.conv v = { (shown.orBits Od.CAL_STICKY 1).conv v with run := 0, rejected := was.run == 2 } := Block.conv_setConv_same _ _ _
  rw [hkept] at hconv
  refine ⟨rejected, rfl, ?_, by rw [hconv], by rw [hconv]⟩
  have hne : Od.CAL_STICKY ≠ Od.CONV_RESULT v := by
    unfold Od.CAL_STICKY Od.CONV_RESULT key keyAt
    omega
  exact (Block.setConv_rd _ _ _ _).trans ((shown.rd_orBits_ne _ hne).trans (Block.rd_wr_same _ _ _))

/-- A run accepted: its table is to come into force, at the end of its overlap where the converter has a twin (R175, R179). -/
theorem Block.runComplete_accepted (hgood : (b.runCounts v h1 h2 g1 g2).verdict = 1) : ∃ b1 : Block,
    b.runComplete v h1 h2 g1 g2 = (if hasTwin v then b1 else b1.campaignTake v) ∧
      b1.rd (Od.CONV_RESULT v) = (b.runCounts v h1 h2 g1 g2).verdict ∧ (b1.conv v).pend = (b.runCounts v h1 h2 g1 g2).table (b.convSpan v) ∧
      (b1.conv v).acceptedAt = b.cyc ∧ (b1.conv v).waits = hasTwin v ∧ (hasTwin v = false → (b1.conv v).run = 0) := by
  unfold Block.runComplete
  generalize b.runCounts v h1 h2 g1 g2 = r at *
  extract_lets was counted shown rejected accepted
  rw [if_neg (by simp [was, counted, hrun, hwaits, hcomplete]), if_neg (not_not_intro hgood)]
  have hspan : shown.convSpan v = b.convSpan v := b.convSpan_wr _ _ v
  have htaken : (accepted.conv v).pend = counted.table (shown.convSpan v) ∧ (accepted.conv v).acceptedAt = shown.cyc ∧
      (accepted.conv v).waits = hasTwin v := by
    unfold accepted
    rw [Block.conv_setConv_same]
    exact ⟨rfl, rfl, rfl⟩
  have hcyc : shown.cyc = b.cyc := b.wr_cyc _ _
  rw [hspan, hcyc] at htaken
  have hshown : accepted.rd (Od.CONV_RESULT v) = counted.verdict := (Block.setConv_rd _ _ _ _).trans (Block.rd_wr_same _ _ _)
  obtain ⟨hpend, hat, hover⟩ := htaken
  cases htwin : hasTwin v with
  | true =>
    simp only [if_true]
    exact ⟨accepted, rfl, hshown, hpend, hat, hover.trans htwin, nofun⟩
  | false =>
    simp only [Bool.false_eq_true, if_false]
    refine ⟨_, rfl, (Block.setConv_rd _ _ _ _).trans hshown, ?_⟩
    rw [Block.conv_setConv_same]
    exact ⟨hpend, hat, hover.trans htwin, fun _ => rfl⟩

end

-- Corrections (R187)

/-- A ramp stands at its start where it begins. -/
theorem Ramp.at_since (r : Ramp) : r.at_ r.since = r.start := by
  unfold Ramp.at_
  simp only [Nat.sub_self, Nat.mul_zero, Nat.zero_mul, Nat.zero_div, Int.natCast_zero, Int.add_zero, Int.sub_zero]
  split <;> omega

/-- A correction given a new target: it goes there, by a ramp from where it stands, or at once. -/
theorem Block.setCorr_spec (b : Block) (item : Nat) (goal : Int) (ramps : Bool) :
    (tat {} (b.setCorr item goal ramps).tm.cal.corr item).goal = goal ∧
      (b.setCorr item goal ramps).corr item = if ramps then b.corr item else goal := by
  have hramp : tat {} (b.setCorr item goal ramps).tm.cal.corr item =
      if ramps then ⟨b.corr item, goal, b.rdN Od.CAL_RAMP_RATE, b.cyc⟩ else ⟨goal, goal, 0, b.cyc⟩ := tat_tput_same _ _ _ _
  have hcyc : (b.setCorr item goal ramps).cyc = b.cyc := rfl
  rw [Block.corr, hramp, hcyc]
  cases ramps
  · exact ⟨rfl, Ramp.at_since ⟨goal, goal, 0, b.cyc⟩⟩
  · exact ⟨rfl, Ramp.at_since ⟨b.corr item, goal, b.rdN Od.CAL_RAMP_RATE, b.cyc⟩⟩

-- The twin's swap (R175)

/-- What a table shows as it comes into force stands in none of the entries of sub-index 1, which hold the states of functions. -/
theorem Block.rdN_takeTable (b : Block) (v i : Nat) : (b.takeTable v).rdN (key i 1) = b.rdN (key i 1) := by
  have hwr (c : Block) {sub : Nat} (x : Int) (hs : 1 < sub ∧ sub < 256) : (c.wr (keyAt v 0x2801 sub) x).rdN (key i 1) = c.rdN (key i 1) :=
    (c.rdN_wr _ _ _).trans (if_neg (by unfold keyAt key; omega))
  unfold Block.takeTable
  extract_lets w shown full
  rw [Block.setConv_rdN]
  unfold full shown
  rw [Od.CONV_LAST_TIME, hwr _ _ (by decide), Od.CONV_INL_MAX, hwr _ _ (by decide), Od.CONV_DNL_MAX, hwr _ _ (by decide), Od.CONV_MEAN_BIN,
    hwr _ _ (by decide), Od.CONV_BINS, hwr _ _ (by decide)]

theorem Block.wr_of_od {a b : Block} (h : ∃ od, b = { a with od := od }) (k : Nat) (v : Int) : ∃ od, b.wr k v = { a with od := od } := by
  obtain ⟨_, rfl⟩ := h
  exact ⟨_, rfl⟩

/-- A table put into force: what is shown of it, and the converter with it. -/
theorem Block.takeTable_eq (b : Block) (v : Nat) : ∃ od, b.takeTable v = ({ b with od := od } : Block).setConv v fun x =>
    { x with table := x.pend, pend := {}, waits := false, temp := x.pendTemp, gen := x.gen + 1 } := by
  unfold Block.takeTable
  extract_lets w shown full
  have hshown : ∃ od, shown = { b with od := od } := Block.wr_of_od (Block.wr_of_od (b.wr_eq _ _) _ _) _ _
  obtain ⟨od, hfull⟩ : ∃ od, full = { b with od := od } := Block.wr_of_od (Block.wr_of_od hshown _ _) _ _
  exact ⟨od, by rw [hfull]⟩

theorem Block.conv_setCorr (b : Block) (item : Nat) (goal : Int) (ramps : Bool) (v : Nat) : (b.setCorr item goal ramps).conv v = b.conv v := rfl

/-- The end of a twin's overlap: its table in force, and the offset of the swap, with what is left of an earlier one, to be ramped out (R175, R187). -/
theorem Block.twinSwap_due {b : Block} {v : Nat} (d : Int) (hwaits : (b.conv v).waits = true) (hdue : (b.conv v).acceptedAt + secs 1 ≤ b.cyc) :
    ∃ b1 : Block, b.twinSwap v d = (if (b.conv v).run = 2 then b1.campaignTake v else b1) ∧ (b1.conv v).run = 0 ∧ (b1.conv v).waits = false ∧
      (b1.conv v).table = (b.conv v).pend ∧ (tat {} b1.tm.cal.corr (twinItem v)).goal = 0 ∧
      b1.corr (twinItem v) = if b.convRuns v then b.corr (twinItem v) + d else 0 := by
  unfold Block.twinSwap
  extract_lets was taken left swapped
  rw [if_pos ⟨hwaits, hdue⟩]
  obtain ⟨od, heq⟩ := b.takeTable_eq v
  have hconv : (taken.conv v).run = 0 ∧ (taken.conv v).waits = false ∧ (taken.conv v).table = (b.conv v).pend := by
    unfold taken
    rw [Block.conv_setConv_same, heq, Block.conv_setConv_same]
    exact ⟨rfl, rfl, rfl⟩
  have hruns : taken.convRuns v = b.convRuns v := by
    have hfn (f : Nat) : taken.fnRuns f = b.fnRuns f := by
      unfold Block.fnRuns Block.fnState Od.FN_STATE
      rw [Block.setConv_rdN, b.rdN_takeTable]
    have hplace (n : Nat) : taken.portOfLane n = b.portOfLane n ∧ taken.out n = b.out n := by
      unfold taken
      rw [heq]
      exact ⟨rfl, rfl⟩
    unfold Block.convRuns
    rw [hfn, hfn, hfn, hfn, (hplace v).1, (hplace (v - 44)).2]
  have hleft : left = b.corr (twinItem v) + d := by
    unfold left taken
    rw [heq]
    rfl
  have hswapped : swapped.conv v = taken.conv v := by
    unfold swapped
    split
    · rw [Block.conv_setCorr, Block.conv_setCorr]
    · rw [Block.conv_setCorr]
  rw [← hswapped] at hconv
  obtain ⟨hended, hover, htable⟩ := hconv
  refine ⟨swapped, rfl, hended, hover, htable, ?_⟩
  unfold swapped
  rw [hruns]
  split
  · obtain ⟨hgoal, hnow⟩ := (taken.setCorr (twinItem v) left false).setCorr_spec (twinItem v) 0 true
    exact ⟨hgoal, hnow.trans ((taken.setCorr_spec (twinItem v) left false).2.trans hleft)⟩
  · exact taken.setCorr_spec (twinItem v) 0 false

end Sys2Proof.Machine
end

section
/-! The die temperature, link calibration, and the solver's pairs (R183, R184, R185, R186, R192). -/

namespace Sys2Proof.Machine

-- Jobs of calibration (R421)

theorem Block.job_congr {b c : Block} (j : Nat) (h : c.mg = b.mg) : c.job j = b.job j := by
  unfold Block.job
  rw [h]

theorem Block.job_setJob_same (b : Block) (j : Nat) (f : Job → Job) : (b.setJob j f).job j = f (b.job j) := tat_tmod_same _ _ _ _

theorem Block.startJob_some {b : Block} {kind j : Nat} (h : b.jobObject kind = some j) (tenant : Nat) (todo : List Nat) (arg : Nat) :
    b.startJob kind tenant todo arg = some (b.mg.nextJob, j, b.openJob j kind tenant todo arg) := by
  unfold Block.startJob
  rw [h]

theorem Block.job_openJob (b : Block) (j kind tenant : Nat) (todo : List Nat) (arg : Nat) :
    (b.openJob j kind tenant todo arg).job j = { todo := todo, arg := arg } := Block.job_setJob_same _ _ _

/-- Which object holds a live job is said by entries of the job objects. -/
theorem Block.liveJob_wr (b : Block) {i sub : Nat} (v : Int) (kind : Nat) (hi : 0x12D0 ≤ i) (hs : sub < 256) :
    (b.wr (key i sub) v).liveJob kind = b.liveJob kind := by
  have hrd (n x : Nat) (hn : n < 16) (hx : x < 256) : (b.wr (key i sub) v).rdN (key (0x12C0 + n) x) = b.rdN (key (0x12C0 + n) x) :=
    (b.rdN_wr _ _ _).trans (if_neg (by unfold key; omega))
  refine List.find?_congr fun n hn => ?_
  have hn := List.mem_range.mp hn
  unfold Block.jobLive Block.jobState Od.JOB_STATE Od.JOB_KIND
  rw [hrd n _ hn (by decide), hrd n _ hn (by decide)]

-- The die temperature (R183, R185)

/-- A temperature taken: it is shown, and a link calibration that runs sees it move before all corrections follow it. -/
theorem Block.tempUpdate_spec (b : Block) (t : Int) : ∃ b1 : Block, b1.rd Od.CAL_DIE_TEMP = t ∧
    (∀ j, b.liveJob 2 = some j → 500 < (t - (b.job j).temp).natAbs → b1.tm.cal.moved = true) ∧ b.tempUpdate t = b1.takeAllCorr := by
  unfold Block.tempUpdate
  extract_lets shown far out told
  have htold : told.rd Od.CAL_DIE_TEMP = t := by
    have hshown : shown.rd Od.CAL_DIE_TEMP = t := Block.rd_wr_same _ _ _
    unfold told
    split
    · have hraised : ((shown.orBits Od.CAL_STICKY 2).raise 0x2806).rd Od.CAL_DIE_TEMP = (shown.orBits Od.CAL_STICKY 2).rd Od.CAL_DIE_TEMP :=
        Block.rd_raise _ _ _ _ _ (not_counterKey_of_lt (by decide) (by decide))
      exact hraised.trans ((shown.rd_orBits_ne _ (by decide)).trans hshown)
    · exact hshown
  refine ⟨told.setCal fun x => { x with outside := out, moved := x.moved || far }, htold, fun j hj hfar => ?_, rfl⟩
  have hlive : shown.liveJob 2 = some j := (b.liveJob_wr t 2 (by decide) (by decide)).trans hj
  have hmoved : far = true := by
    unfold far
    rw [hlive]
    exact decide_eq_true hfar
  rw [Block.setCal_tm_cal, hmoved, Bool.or_true]

-- Link calibration (R184, R185, R186)

/-- Corrections brought to their targets change corrections alone. -/
theorem Block.takePortCorr_eq (b : Block) (p : Nat) (ramps : Bool) : ∃ corr, b.takePortCorr p ramps = b.setCal fun x => { x with corr := corr } := by
  have hfold (l : List Nat) (f : Block → Nat → Block) (hf : ∀ c e, ∃ corr, f c e = c.setCal fun x => { x with corr := corr }) (c : Block) :
      ∃ corr, l.foldl f c = c.setCal fun x => { x with corr := corr } := by
    induction l generalizing c with
    | nil => exact ⟨c.tm.cal.corr, rfl⟩
    | cons e r ih =>
      obtain ⟨_, he⟩ := hf c e
      obtain ⟨corr, hr⟩ := ih (f c e)
      exact ⟨corr, by rw [List.foldl_cons, hr, he]; rfl⟩
  exact hfold _ _ (fun _ _ => ⟨_, rfl⟩) b

theorem Block.rd_wr_key (b : Block) {i j sub x : Nat} (v : Int) (hs : sub < 256) (hx : x < 256) (h : i ≠ j ∨ sub ≠ x) :
    (b.wr (key i sub) v).rd (key j x) = b.rd (key j x) := b.rd_wr_ne v (by unfold key; omega)

theorem Block.rd_takePortCorr (b : Block) (p : Nat) (ramps : Bool) (k : Nat) : (b.takePortCorr p ramps).rd k = b.rd k := by
  obtain ⟨_, heq⟩ := b.takePortCorr_eq p ramps
  rw [heq]
  rfl

/-- The sets are what the entries of the calibration records say. -/
theorem Block.sets_congr {b c : Block} (h : ∀ i, 0x2800 ≤ i → i < 0x2820 → ∀ sub < 256, c.rd (key i sub) = b.rd (key i sub)) : c.sets = b.sets := by
  have hvalid : c.rdN Od.CAL_SETS_VALID = b.rdN Od.CAL_SETS_VALID := congrArg Int.toNat (h 0x2800 (by decide) (by decide) 0x0A (by decide))
  unfold Block.sets
  rw [hvalid]
  refine List.map_congr_left fun i hi => ?_
  have hinfo : c.rdN (key 0x2802 (1 + i)) = b.rdN (key 0x2802 (1 + i)) := by
    have hi := List.mem_range.mp (List.mem_filter.mp hi).1
    exact congrArg Int.toNat (h 0x2802 (by decide) (by decide) _ (by omega))
  rw [hinfo]

/-- With fewer than two valid sets every port shows UNCALIBRATED; entries of other sub-indices stay as they are (R181). -/
theorem Block.needSets_spec (b : Block) {p : Nat} (hp : p < 32) : b.needSets.tm = b.tm ∧
    (∀ i sub, sub < 256 → sub ≠ 0x14 → b.needSets.rd (key i sub) = b.rd (key i sub)) ∧
      b.needSets.rd (Od.LT_CAL_STATE p) = if b.sets.length < 2 then 0 else b.rd (Od.LT_CAL_STATE p) := by
  unfold Block.needSets
  split
  case isFalse => exact ⟨rfl, fun _ _ _ _ => rfl, rfl⟩
  case isTrue =>
    obtain ⟨_, heq⟩ := Block.od_foldl (fun b p => b.wr (Od.LT_CAL_STATE p) 0) (List.range 32) (fun _ _ => ⟨_, rfl⟩) b
    have htm : ((List.range 32).foldl (fun b p => b.wr (Od.LT_CAL_STATE p) 0) b).tm = b.tm := by rw [heq]
    have hall (l : List Nat) (c : Block) : (l.foldl (fun b p => b.wr (Od.LT_CAL_STATE p) 0) c).rd (Od.LT_CAL_STATE p) =
        if p ∈ l then 0 else c.rd (Od.LT_CAL_STATE p) := by
      induction l generalizing c with
      | nil => simp
      | cons q r ih =>
        have hkey : Od.LT_CAL_STATE q = Od.LT_CAL_STATE p ↔ q = p := by
          unfold Od.LT_CAL_STATE key
          omega
        rw [List.foldl_cons, ih, Block.rd_wr]
        by_cases hq : q = p
        · simp [hq]
        · simp [hkey, hq, Ne.symm hq]
    refine ⟨htm, fun i sub hs hne => Block.rd_foldl _ _ (fun c q => c.rd_wr_ne _ ?_) b, (hall _ b).trans (if_pos (List.mem_range.mpr hp))⟩
    unfold Od.LT_CAL_STATE key
    omega

section

variable {b : Block} {j : Nat} (loops : List (Int × Int)) (hlive : b.liveJob 2 = some j)

include hlive

/-- A link calibration whose temperature moved too far, or whose offsets are too large, fails and stores nothing (R184, R185). -/
theorem Block.linkCalComplete_failed (hbad : b.tm.cal.moved = true ∨ 500 < (b.rd Od.CAL_DIE_TEMP - (b.job j).temp).natAbs ∨
      300 < (b.portOffsets (b.job j).arg loops).1.natAbs ∨ 300 < (b.portOffsets (b.job j).arg loops).2.natAbs) :
    b.linkCalComplete loops = (b.endJob j 4).raise 0x2804 (b.job j).arg := by
  unfold Block.linkCalComplete
  rw [hlive]
  exact if_pos hbad

/-- A link calibration that succeeds stores its port's offsets, to be saved; the port is CALIBRATED where two sets are valid (R181, R184, R186). -/
theorem Block.linkCalComplete_succeeded (hport : (b.job j).arg < 32) (hstill : b.tm.cal.moved = false)
    (hnear : (b.rd Od.CAL_DIE_TEMP - (b.job j).temp).natAbs ≤ 500) (htx : (b.portOffsets (b.job j).arg loops).1.natAbs ≤ 300)
    (hrx : (b.portOffsets (b.job j).arg loops).2.natAbs ≤ 300) : ∃ b1 : Block,
    b.linkCalComplete loops = (b1.endJob j 3).raise 0x2803 (b.job j).arg ∧
      b1.rd (Od.LC_TX_OFFSET (b.job j).arg) = (b.portOffsets (b.job j).arg loops).1 ∧
      b1.rd (Od.LC_RX_OFFSET (b.job j).arg) = (b.portOffsets (b.job j).arg loops).2 ∧
      b1.rd (Od.LT_CAL_STATE (b.job j).arg) = (if b.sets.length < 2 then 0 else 1) ∧ (b.job j).arg ∈ b1.tm.cal.dirty := by
  have hgood : ¬(b.tm.cal.moved = true ∨ 500 < (b.rd Od.CAL_DIE_TEMP - (b.job j).temp).natAbs ∨
      300 < (b.portOffsets (b.job j).arg loops).1.natAbs ∨ 300 < (b.portOffsets (b.job j).arg loops).2.natAbs) := by
    rintro (h | h | h | h)
    · exact absurd (hstill.symm.trans h) nofun
    all_goals omega
  unfold Block.linkCalComplete
  rw [hlive]
  dsimp -zeta only
  extract_lets p off placed noted marked taken
  rw [if_neg hgood]
  obtain ⟨htm, hkept, hstate⟩ := taken.needSets_spec hport
  have hshown (k : Nat) : taken.rd k = ((noted.wr (Od.LC_TIME p) noted.mer).wr (Od.LT_CAL_STATE p) 1).rd k := by
    unfold taken marked
    rw [Block.setCal_rd, Block.rd_takePortCorr]
  have hsets : taken.sets = b.sets := by
    refine Block.sets_congr fun i hlo hhi sub hs => (hshown _).trans ?_
    simp (disch := omega) only [noted, placed, Od.LC_TX_OFFSET, Od.LC_RX_OFFSET, Od.LC_SUM_UNC, Od.LC_FEC, Od.LC_TEMP, Od.LC_TIME, Od.LT_CAL_STATE,
      Block.rd_wr_key]
  have hoffsets : taken.rd (Od.LC_TX_OFFSET p) = off.1 ∧ taken.rd (Od.LC_RX_OFFSET p) = off.2 := by
    rw [hshown, hshown]
    simp (disch := omega) only [noted, placed, Od.LC_TX_OFFSET, Od.LC_RX_OFFSET, Od.LC_SUM_UNC, Od.LC_FEC, Od.LC_TEMP, Od.LC_TIME, Od.LT_CAL_STATE,
      Block.rd_wr_key, Block.rd_wr_same, and_self]
  refine ⟨taken.needSets, rfl, (hkept _ _ (by decide) (by decide)).trans hoffsets.1, (hkept _ _ (by decide) (by decide)).trans hoffsets.2, ?state, ?dirty⟩
  case state =>
    rw [hstate, hsets, hshown, Block.rd_wr_same]
  case dirty =>
    rw [htm]
    exact List.mem_append_right _ (List.mem_singleton_self p)

end

/-- A calibration saved while NAND writes are not held is the one that NAND holds (R186). -/
theorem Block.linkCalSave_one {b : Block} {p : Nat} (hfree : b.nandHeld = false) (hrun : b.mg.srv.running = true) (hdirty : b.tm.cal.dirty = [p]) :
    b.linkCalSave.tm.cal.dirty = [] ∧
      ∃ x : SavedCal, tget b.linkCalSave.tm.cal.saved p = some x ∧ x.tx = b.rd (Od.LC_TX_OFFSET p) ∧ x.rx = b.rd (Od.LC_RX_OFFSET p) := by
  unfold Block.linkCalSave
  rw [if_neg (by simp [hfree, hrun]), Block.setCal_tm_cal, hdirty]
  exact ⟨rfl, _, tget_tput_same _ _ _, rfl, rfl⟩

-- The solver (R192)

theorem Block.asy_setAsy_same (b : Block) (i : Nat) (f : Asy → Asy) : (b.setAsy i f).asy i = f (b.asy i) := tat_tmod_same _ _ _ _

/-- A pair in START whose ports are ready begins to average (Table 7.4). -/
theorem Block.asyTick_ready {b : Block} {i : Nat} (hrun : b.fnRuns (69 + i) = true) (hstart : b.rdN (Od.ASY_STATE i) = 1) (hright : b.asyWrong i = 0)
    (hready : b.asyReady i = true) : (b.asyTick i).rd (Od.ASY_STATE i) = 2 ∧ ((b.asyTick i).asy i).since = b.cyc := by
  unfold Block.asyTick
  extract_lets st ready
  have hst : st = 1 := hstart
  rw [if_neg (by simp [hrun, hst]), if_neg (not_not_intro hright), if_pos hst, if_pos hready]
  exact ⟨Block.rd_wr_same _ _ _, congrArg Asy.since (Block.asy_setAsy_same b i _)⟩

end Sys2Proof.Machine
end

section
/-! The commands of calibration: what starts a campaign and a link calibration as a write (R180, R184, R399), and each event by its operation. -/

namespace Sys2Proof.Machine

-- A start accepted (R180, R184)

theorem Block.codeDensityStart_accepted {b : Block} {j : Nat} (tenant : Nat)
    (hstopped : ∀ v ∈ maskBits 52 (b.rdN Od.CAL_CD_MASK), 36 ≤ v → v < 44 → b.fnState (40 + (v - 36)) = 0) (hfree : b.calBusy = false)
    (hobject : b.jobObject 1 = some j) : ∃ b1 : Block, b.codeDensityStart tenant = b1.ok b.mg.nextJob ∧ b1.rd Od.CAL_JOB = b.mg.nextJob ∧
      ∀ v ∈ maskBits 52 (b.rdN Od.CAL_CD_MASK), (b1.conv v).run = 2 := by
  unfold Block.codeDensityStart
  extract_lets mask todo
  have hnone : ¬(todo.any fun c => decide (36 ≤ c) && decide (c < 44) && b.fnState (40 + (c - 36)) != 0) = true := by
    simp only [List.any_eq_true, Bool.and_eq_true, decide_eq_true_eq, bne_iff_ne, not_exists, not_and]
    exact fun v hv hrange => not_not_intro (hstopped v hv hrange.1 hrange.2)
  rw [if_neg hnone, Block.startJob_some hobject]
  dsimp only
  rw [hfree]
  exact ⟨_, rfl, Block.rd_wr_same _ _ _, fun v hv => Block.foldl_runStart_run todo 2 (b.openJob j 1 tenant todo 0) (.inl hv)⟩

theorem Block.linkCalStart_accepted {b : Block} {p j : Nat} (tenant : Nat) (hstopped : b.fnState p = 0)
    (htests : ∀ l ∈ lanesOf (b.pMode p) p, b.rdN (Od.LANE_TEST l) = 0) (hfree : b.calBusy = false) (hobject : b.jobObject 2 = some j) : ∃ b1 : Block,
    b.linkCalStart p tenant = b1.ok b.mg.nextJob ∧ b1.rd Od.CAL_JOB = b.mg.nextJob ∧ (b1.job j).arg = p ∧ b1.tm.cal.moved = false := by
  unfold Block.linkCalStart
  rw [if_neg (by simpa [hstopped] using htests), Block.startJob_some hobject]
  dsimp only
  rw [hfree]
  refine ⟨_, rfl, ?_, ?_, ?_⟩
  · rw [Block.setCal_rd, Block.setJob_rd, Block.rd_wr_same]
  · rw [Block.job_congr j (Block.setCal_mg _ _), Block.job_setJob_same, Block.job_congr j (Block.wr_mg _ _ _), Block.job_openJob]
  · rw [Block.setCal_tm_cal]

-- A start as a write

/-- The row of an entry whose one value, 1, starts a calibration. -/
def calStartRow (name : String) : Entry := ⟨name, .u8, .cmd, 0, [(1, 1)], .shared⟩

theorem rowOf_codeDensityStart : rowOf (key 0x2800 6) = some (calStartRow "CAL_CD_START") := by decide +kernel

/-- The records of ports' link calibrations have one table. -/
theorem base_linkCal : ∀ p < 32, (findRecord records (0x2820 + p)).elim 0 (·.1) = 0x2820 := by decide

theorem rowOf_linkCalStart {p : Nat} (hp : p < 32) : rowOf (key (0x2820 + p) 1) = some (calStartRow "LC0_START") := by
  obtain ⟨hindex, hsub⟩ := key_place (i := 0x2820 + p) (sub := 1) (by omega) (by decide)
  unfold rowOf
  rw [hindex, hsub, base_linkCal p hp]
  rfl

/-- A write that nothing bars, of 1 to an entry that starts a calibration, begins its command. -/
theorem Block.written_calStart {a : Block} {w : Waiting} {token i sub : Nat} {name : String} (hreq : w.req = writeKey token (key i sub) 1)
    (hi : 0x2800 ≤ i ∧ i < 0x2900) (hs : sub < 256) (hr : rowOf (key i sub) = some (calStartRow name)) (hopen : a.unbarred w = true) :
    a.written w = a.command w.tenant (key i sub) 1 := by
  obtain ⟨hindex, hsub⟩ := key_place (i := i) (sub := sub) (by omega) hs
  have hplace : w.req.index = i ∧ w.req.sub = sub := by
    rw [hreq]
    exact ⟨hindex, hsub⟩
  have hdata : decodeVal (calStartRow name).ty (w.req.data.take w.req.length) = some ((1 : Nat) : Int) := by
    rw [hreq, writeKey, hindex, hsub, writeRequest, hr]
    exact decodeVal_byte (.inr rfl) (by decide)
  have hkey : a.entryKey w.tenant (calStartRow name) w.req.index w.req.sub = key i sub := by
    rw [hplace.1, hplace.2]
    rfl
  have hacc : accessOf (calStartRow name) w.req.index w.req.sub = .cmd := by
    rw [hplace.1]
    unfold accessOf
    repeat rw [if_neg (by omega)]
    rfl
  have hfields : a.fieldsOk (key i sub) ((1 : Nat) : Int) = true := by
    unfold Block.fieldsOk
    simp only [hindex]
    repeat rw [if_neg (by omega)]
  have hok : a.valueOk (calStartRow name) (key i sub) ((1 : Nat) : Int) = true := by
    rw [Block.valueOk, hfields]
    rfl
  rw [← hplace.1, ← hplace.2] at hr
  rw [Block.written_command hopen hr (fun _ => ⟨nofun, nofun⟩) hdata hacc (by rw [hkey]; exact hok), hkey]
  rfl

/-- The commands of the records of calibration. -/
theorem Block.command_calStart (b : Block) (t v : Nat) {i sub : Nat} (hi : 0x2800 ≤ i ∧ i < 0x2840) (hs : sub < 256) :
    (i = 0x2800 ∧ sub = 6 → b.command t (key i sub) v = b.codeDensityStart t) ∧
      (0x2820 ≤ i → b.command t (key i sub) v = b.linkCalStart (i - 0x2820) t) := by
  obtain ⟨hindex, -⟩ := key_place (i := i) (sub := sub) (by omega) hs
  have hne {j x : Nat} (h : j < 0x2800) (hx : x < 256) : key i sub ≠ key j x := by
    unfold key
    omega
  unfold Block.command
  simp only [hindex, Od.IMG_COMMIT, Od.IMG_BOOT_SELECT, Od.CFG_SAVE, Od.CFG_CLEAR, Od.RST_WARM, Od.RST_FW_RESTART, Od.RST_FUNCTION, Od.MT_SET_TIME,
    Od.OUT_COMMIT]
  repeat rw [if_neg (hne (by decide) (by decide))]
  repeat rw [if_neg (by omega)]
  constructor
  · rintro ⟨rfl, rfl⟩
    exact if_pos rfl
  · intro hlink
    rw [if_neg (by unfold Od.CAL_CD_START key; omega), if_pos ⟨hlink, hi.2⟩]

/-- Where a granted write leads that is answered with a number. -/
theorem State.leads_granted_aux {s : State} {c : Caller} {q : Request} {n aux : Nat} {i : Instr} {x : Block} (h : s.grants c q n = true) (ho : q.op = 2)
    (hi : exec i s = s.act fun _ b => b.submit c q)
    (hx : (s.m.door c q n).unbarred (s.m.asked c q n) = true → (s.m.door c q n).written (s.m.asked c q n) = x.ok aux) :
    s.leads i fun b => b.replied (s.m.asked c q n) 0 aux ∧ x.sameButBooks b := by
  obtain ⟨htakes, hopen⟩ := State.grants_iff.mp h
  obtain ⟨b, hexec, hbooks, hreply⟩ := State.leads_write htakes ho hi
  rw [hx hopen] at hbooks hreply
  exact ⟨b, hexec, hreply, hbooks⟩

/-- Answering a request leaves the converters, the corrections and the jobs as they are. -/
theorem Block.sameButBooks.calibration {a b : Block} (h : a.sameButBooks b) : b.tm.cal = a.tm.cal ∧ b.mg.job = a.mg.job := by
  rw [h.1]
  exact ⟨rfl, rfl⟩

/-- Settles O13: each start by its entry's row and what its command opens, each event by what its operation leaves. How the two passes of an edge-placer line
make one verdict and one table, and that a swap's offset adds to what is left of an earlier one (log 49), that a link calibration's intervals are given to it
(log 50), which function a converter serves (log 138), and that a port's offsets are the means over its lanes (log 139) are the model's choices. -/
theorem calibrationCommands : Obligations.CalibrationCommands := by
  unfold Obligations.CalibrationCommands
  refine ⟨?campaign, ?run, ?swap, ?period, ?temperature, ?link, ?measured, ?save, ?solver⟩
  case campaign =>
    intro s c token n j h a hstopped hfree hobject
    obtain ⟨b1, hstarted, hjob, hruns⟩ := Block.codeDensityStart_accepted (s.m.asked c (writeKey token Od.CAL_CD_START 1) n).tenant hstopped hfree hobject
    obtain ⟨b, hexec, hreply, hbooks⟩ := State.leads_granted_aux (i := .codeDensityStart c token) h rfl rfl fun hopen =>
      ((Block.written_calStart rfl (by decide) (by decide) rowOf_codeDensityStart hopen).trans
        ((a.command_calStart _ 1 (by decide) (by decide)).1 ⟨rfl, rfl⟩)).trans hstarted
    refine ⟨b, hexec, hreply, (hbooks.2.1 _ (not_bookKey_timing (by decide) (by decide))).trans hjob, fun v hv => ?_⟩
    rw [Block.conv, hbooks.calibration.1]
    exact hruns v hv
  case run =>
    intro s v h1 h2 g1 g2 hup hrun hwaits r hcomplete
    refine State.leads_act s _ (fun _ b => b.runComplete v h1 h2 g1 g2) _ rfl hup ?_
    by_cases hverdict : r.verdict = 1
    · obtain ⟨b1, heq, hresult, hpend, haccepted, hwaiting, hended⟩ := Block.runComplete_accepted hrun hwaits hcomplete hverdict
      refine ⟨b1, hresult, fun h => absurd hverdict h, fun _ => ⟨hpend, haccepted⟩, fun _ htwin => ?_, fun _ htwin => ?_⟩
      · rw [heq, hwaiting, htwin]
        exact ⟨rfl, rfl⟩
      · rw [heq, htwin]
        exact ⟨rfl, hended htwin⟩
    · obtain ⟨b1, heq, hresult, hended, htable⟩ := Block.runComplete_rejected hrun hwaits hcomplete hverdict
      exact ⟨b1, hresult, fun _ => ⟨hended, htable, heq⟩, fun h => absurd h hverdict, fun h => absurd h hverdict, fun h => absurd h hverdict⟩
  case swap =>
    intro s v d hup hwaits hdue
    exact State.leads_act s _ (fun _ b => b.twinSwap v d) _ rfl hup (Block.twinSwap_due d hwaits hdue)
  case period =>
    intro s v hup hperiod htwin hidle hdue
    exact State.leads_act s _ (fun _ b => b.autoTrigger) _ rfl hup (Block.autoTrigger_due hperiod v.isLt htwin hidle hdue)
  case temperature =>
    intro s t hup
    exact State.leads_act s _ (fun _ b => b.tempUpdate t) _ rfl hup (s.m.tempUpdate_spec t)
  case link =>
    intro s c token n j p h a hstopped htests hfree hobject
    obtain ⟨b1, hstarted, hjob, harg, hmoved⟩ :=
      Block.linkCalStart_accepted (s.m.asked c (writeKey token (Od.LC_START p) 1) n).tenant hstopped htests hfree hobject
    have hp := p.isLt
    have hcommand : a.command (s.m.asked c (writeKey token (Od.LC_START p) 1) n).tenant (Od.LC_START p) 1 =
        a.linkCalStart p (s.m.asked c (writeKey token (Od.LC_START p) 1) n).tenant := by
      rw [Od.LC_START, (a.command_calStart _ 1 (by omega) (by decide)).2 (by omega), Nat.add_sub_cancel_left]
    obtain ⟨b, hexec, hreply, hbooks⟩ := State.leads_granted_aux (i := .linkCalStart c token p) h rfl rfl fun hopen =>
      ((Block.written_calStart rfl (by omega) (by decide) (rowOf_linkCalStart hp) hopen).trans hcommand).trans hstarted
    obtain ⟨hcal, hjobs⟩ := hbooks.calibration
    refine ⟨b, hexec, hreply, (hbooks.2.1 _ (not_bookKey_timing (by decide) (by decide))).trans hjob, ?_, by rw [hcal, hmoved]⟩
    rw [Block.job, hjobs]
    exact harg
  case measured =>
    intro s loops txs j hup hlive hport p off
    exact State.leads_act s _ (fun _ b => b.linkCalComplete (loops.zip txs)) _ rfl hup
      ⟨Block.linkCalComplete_failed _ hlive, Block.linkCalComplete_succeeded _ hlive hport⟩
  case save =>
    intro s p hup hfree hrun hdirty
    exact State.leads_act s _ (fun _ b => b.linkCalSave) _ rfl hup (Block.linkCalSave_one hfree hrun hdirty)
  case solver =>
    intro s i hup hrun hstart hright hready
    exact State.leads_act s _ (fun _ b => b.asyTick i) _ rfl hup (Block.asyTick_ready hrun hstart hright hready)

end Sys2Proof.Machine
end

section
/-! Measurement channels: what operations leave of a channel, edges taken and encoded, gates, overflows and records (R197, R198, R201, R205, R206, R207). -/

namespace Sys2Proof.Machine

-- A channel's state

theorem Block.tic_congr {b c : Block} (i : Nat) (h : c.tm = b.tm) : c.tic i = b.tic i := by
  unfold Block.tic
  rw [h]

@[simp] theorem Block.tic_setTic_same (b : Block) (c : Nat) (f : Tic → Tic) : (b.setTic c f).tic c = f (b.tic c) := tat_tmod_same _ _ _ _

theorem Block.tic_wr (b : Block) (k : Nat) (v : Int) (i : Nat) : (b.wr k v).tic i = b.tic i := Block.tic_congr i (b.wr_tm k v)

theorem Block.tic_ticStatus (b : Block) (c i : Nat) : (b.ticStatus c).tic i = b.tic i := b.tic_wr _ _ i

/-- A change that leaves a channel armed as it was leaves it measuring as it was. -/
theorem Block.ticMeasures_setTic (b : Block) (c : Nat) {f : Tic → Tic} (h : (f (b.tic c)).armed = (b.tic c).armed) :
    (b.setTic c f).ticMeasures c = b.ticMeasures c := by
  have hruns : (b.setTic c f).fnRuns (40 + c) = b.fnRuns (40 + c) := rfl
  unfold Block.ticMeasures
  rw [Block.tic_setTic_same, h, hruns, Block.setTic_rdN]

theorem Block.actsWithin.bump {a b : Block} {u : Subsystem} {own : Nat → Prop} (h : a.actsWithin b u own) {i sub : Nat} (n : Nat) (hi : own i)
    (hlt : i < 65536) (hs : sub < 256) : a.actsWithin (b.bump (key i sub) n) u own := by
  unfold Block.bump
  dsimp only
  split
  · exact h.wr _ hi hlt hs
  · exact (h.trans (b.sameButEvents_draw _).actsWithin).wr _ hi hlt hs

theorem Block.bump_tm (b : Block) (k n : Nat) : (b.bump k n).tm = b.tm := by
  obtain ⟨_, _, h⟩ := b.bump_eq k n
  rw [h]

-- An edge taken (R197, R205)

theorem Block.ticFine_setTic (b : Block) (c : Nat) (f : Tic → Tic) (i code : Nat) : (b.setTic c f).ticFine i code = b.ticFine i code := rfl

/-- The corrected time of an edge reads no counter. -/
theorem Block.sameButEvents.ticFine {y b : Block} (h : y.sameButEvents b) {c : Nat} (code : Nat) (hc : c < 8) : b.ticFine c code = y.ticFine c code := by
  have hboard : b.rd (Od.TIC_BOARD_DELAY c) = y.rd (Od.TIC_BOARD_DELAY c) := h.2.1 _ (not_counterKey_of_lt (by omega) (by decide))
  have hdie : b.rd Od.CAL_DIE_TEMP = y.rd Od.CAL_DIE_TEMP := h.2.1 _ (not_counterKey_of_lt (by decide) (by decide))
  have hsets : b.sets = y.sets := Block.sets_congr fun i _ hi sub hs => h.2.1 _ (not_counterKey_of_lt (by omega) hs)
  have hspan (x : Block) : x.convSpan (36 + c) = 10000000 := if_neg (by omega)
  unfold Block.ticFine Block.codeTicks Block.ticDelay Block.ticDelayFs Block.setNow Block.corr
  rw [Block.conv_congr _ h.tm, hspan b, hspan y, h.tm, h.cyc, hboard, hdie, hsets]

/-- An edge of its channel's own slope, which meets no dead time and finds room in the queue, is latched with its cycle and corrected time. -/
theorem Block.ticEdge_latched {b : Block} {c : Nat} {rising : Bool} (code : Nat) (hc : c < 8) (hmeas : b.ticMeasures c = true)
    (hslope : rising = (b.rdN (Od.TIC_SLOPE c) == 0)) (hlast : (b.tic c).lastAt = none) (hroom : (b.tic c).queue.length < 16) :
    ∃ e : TicEdge, ((b.ticEdge c rising code).tic c).queue = (b.tic c).queue ++ [e] ∧ e.cyc = b.cyc ∧ e.active = true ∧ e.fine = b.ticFine c code ∧
      e.deaf = [] := by
  have hactive : (rising == (b.rdN (Od.TIC_SLOPE c) == 0)) = true := beq_iff_eq.mpr hslope
  have hruns : b.fnRuns (40 + c) = true := by
    simp only [Block.ticMeasures, Bool.and_eq_true] at hmeas
    exact hmeas.1.1
  unfold Block.ticEdge
  extract_lets active wanted fs dead latched fine word
  have hwanted : wanted = true := by simp [wanted, active, hactive, hruns, hmeas]
  have hdead : dead = false := by
    unfold dead
    rw [hlast]
  have hcounted : b.sameButEvents (b.tally 8 c 0) := b.sameButEvents_tally 8 c 0 1
  have hqueue : (latched.tic c).queue = (b.tic c).queue := by
    unfold latched
    rw [Block.tic_setTic_same, Block.tic_congr c hcounted.tm]
  have hfine : latched.ticFine c code = b.ticFine c code := (Block.ticFine_setTic _ _ _ _ _).trans (hcounted.ticFine code hc)
  rw [if_neg (by simp [hwanted]), if_neg (by simp [hdead]), if_neg (by rw [hqueue]; exact Nat.not_le.mpr hroom)]
  rw [Block.tic_setTic_same]
  dsimp only
  rw [hqueue]
  exact ⟨_, rfl, hcounted.cyc, hactive, hfine, rfl⟩

-- The encoder (R198, R199)

/-- The encoder takes the oldest edge: the channel has it first, then the channels for which it is a stop. -/
theorem Block.ticEncode_cons {b : Block} {c : Nat} {e : TicEdge} {rest : List TicEdge} (hqueue : (b.tic c).queue = e :: rest) :
    let b1 := (b.setTic c fun t => { t with queue := rest }).ticOwn c e
    b.ticEncode c = if e.active then (b1.ticStopFor c).foldl (fun b d => if e.deaf.contains d then b else b.ticPair d e true) b1 else b1 := by
  unfold Block.ticEncode
  rw [hqueue]

section

variable {b : Block} {c : Nat} {e : TicEdge} (hmeas : b.ticMeasures c = true) (hmode : b.rdN (Od.TIC_MODE c) = 2) (hdeaf : e.deaf.contains c = false)

include hmeas hmode hdeaf

/-- The first edge in PERIOD is held, as the one before the next. -/
theorem Block.ticOwn_first (hprev : (b.tic c).prev = none) : b.ticOwn c e = (b.setTic c fun t => { t with prev := some e }).ticStatus c := by
  unfold Block.ticOwn
  rw [if_neg (by rw [hmeas, hdeaf]; decide), hmode]
  simp only [hprev]

/-- Each later edge in PERIOD is held in turn, and gives the result of the two. -/
theorem Block.ticOwn_next {p : TicEdge} (hprev : (b.tic c).prev = some p) : b.ticOwn c e =
    (b.setTic c fun t => { t with prev := some e }).ticResult c (some p) (some e) (edgeDiff p e) (b.tic c).accepted false false := by
  unfold Block.ticOwn
  rw [if_neg (by rw [hmeas, hdeaf]; decide), hmode]
  simp only [hprev, Block.tic_setTic_same]

end

-- A gate's end (R201)

theorem ticGateTake_gate (n : Int) (t : Tic) (e : TicEdge) : (ticGateTake n t e).gate = t.gate := by
  unfold ticGateTake
  split
  · rfl
  · split
    · rfl
    · cases t.first <;> rfl

theorem foldl_ticGateTake_gate (n : Int) (l : List TicEdge) (t : Tic) : (l.foldl (ticGateTake n) t).gate = t.gate := by
  induction l generalizing t with
  | nil => rfl
  | cons e r ih => exact (ih _).trans (ticGateTake_gate n t e)

/-- What a channel holds as its next gate opens: the edge that closed the last gate, where the gates meet. -/
def Block.ticOpened (b : Block) (c : Nat) : Tic :=
  let t := b.tic c
  { t with
    gate := b.ticNextGate c
    first := if b.ticNextGate c = t.gate + 1 then t.last.filter (fun e => decide ((t.gate * b.gateTicks c : Nat) ≤ e.word)) else none
    last := none, count := 0, later := [] }

/-- A gate's first edge is its last one too until another comes. -/
def ticLastFromFirst (t : Tic) : Tic := if t.first.isSome then { t with last := t.first } else t

theorem ticLastFromFirst_gate (t : Tic) : (ticLastFromFirst t).gate = t.gate := by
  unfold ticLastFromFirst
  split <;> rfl

/-- What a channel holds when its gate has ended: the next gate, with the later edges taken into it. -/
def Block.ticNextHeld (b : Block) (c : Nat) : Tic :=
  (b.tic c).later.foldl (ticGateTake (b.gateTicks c)) (ticLastFromFirst (b.ticOpened c))

theorem Block.ticNextHeld_gate (b : Block) (c : Nat) : (b.ticNextHeld c).gate = b.ticNextGate c :=
  (foldl_ticGateTake_gate _ _ _).trans (ticLastFromFirst_gate _)

/-- What a closed gate that held the edges of `t` gives. -/
def Block.ticGateGives (b : Block) (c : Nat) (t : Tic) : Block :=
  match t.first, t.last with
  | some f, some l =>
    if t.count = 0 then b.ticResult c (some f) none 0 0 false true
    else b.ticResult c (some f) (some l) (edgeDiff f l) t.count false false
  | _, _ => b.ticResult c none none 0 0 false true

/-- A gate that is due with nothing left to encode closes: the next gate stands, and the closed one gives its result. -/
theorem Block.ticGateEnd_eq {b : Block} {c : Nat} (hmeas : b.ticMeasures c = true) (hmode : b.rdN (Od.TIC_MODE c) = 3)
    (hdue : ((b.tic c).gate + 1) * b.gateTicks c ≤ b.mer) (hqueue : (b.tic c).queue = []) :
    b.ticGateEnd c = (b.setTic c fun _ => b.ticNextHeld c).ticGateGives c (b.tic c) := by
  unfold Block.ticGateEnd
  rw [if_neg (by simp [hmeas, hmode, hdue]), hqueue]
  rfl

theorem Block.ticGateEnd_due {b : Block} {c : Nat} (hmeas : b.ticMeasures c = true) (hmode : b.rdN (Od.TIC_MODE c) = 3)
    (hdue : ((b.tic c).gate + 1) * b.gateTicks c ≤ b.mer) (hqueue : (b.tic c).queue = []) : ∃ b1 : Block, (b1.tic c).gate = b.ticNextGate c ∧
      ((b.tic c).first = none → b.ticGateEnd c = b1.ticResult c none none 0 0 false true) ∧
      ∀ f l, (b.tic c).first = some f → (b.tic c).last = some l → (b.tic c).count ≠ 0 →
        b.ticGateEnd c = b1.ticResult c (some f) (some l) (edgeDiff f l) (b.tic c).count false false := by
  rw [Block.ticGateEnd_eq hmeas hmode hdue hqueue]
  refine ⟨b.setTic c fun _ => b.ticNextHeld c, ?_, fun hfirst => ?_, fun f l hfirst hlast hcount => ?_⟩
  · rw [Block.tic_setTic_same, Block.ticNextHeld_gate]
  · unfold Block.ticGateGives
    rw [hfirst]
  · unfold Block.ticGateGives
    rw [hfirst, hlast]
    exact if_neg hcount

-- An overflow (R207)

/-- What was told stays told as a channel changes. -/
theorem Block.told_setTic {a b : Block} {num x y : Nat} (h : a.told b num x y) (c : Nat) (f : Tic → Tic) : a.told (b.setTic c f) num x y :=
  Block.told_mono h fun _ => ⟨fun _ he => he, Nat.le_refl _⟩

/-- A measurement in PERIOD without its closing edge for 2^40 cycles: counted, told, given up, and written as a result. -/
theorem Block.ticOverflow_due {b : Block} {c : Nat} {e : TicEdge} (hc : c < 8) (hmeas : b.ticMeasures c = true) (hmode : b.rdN (Od.TIC_MODE c) = 2)
    (hprev : (b.tic c).prev = some e) (hover : e.cyc + 2 ^ 40 ≤ b.cyc) : ∃ b1 : Block, (b1.tic c).prev = none ∧ b.told b1 0x2903 c 0 ∧
      bit (b1.rdN (Od.TIC_STICKY c)) 3 = true ∧ b.ticOverflow c = b1.ticResult c (some e) none 0 (b.tic c).accepted true false := by
  have hrecord : timingRecord (0x2900 + c) := ⟨by omega, by omega⟩
  have hbumped : b.actsWithin (b.bump (Od.TIC_OVERFLOWS c) 1) .timing timingRecord :=
    Block.actsWithin.bump b.actsWithin_refl 1 hrecord (by omega) (by decide)
  unfold Block.ticOverflow
  rw [hmode]
  extract_lets t held counted givenUp
  have hheld : held = some e := hprev
  rw [hheld]
  dsimp only
  rw [if_pos ⟨hmeas, hover⟩]
  have htold : b.told counted 0x2903 c 0 := Block.actsWithin.told_raise (hbumped.wr _ hrecord (by omega) (by decide)) _ _ _
  have htic : counted.tic c = b.tic c := Block.tic_congr c ((Block.raise_tm _ _ _ _).trans (b.bump_tm _ 1))
  refine ⟨givenUp, ?_, Block.told_setTic htold c _, ?_, ?_⟩
  · unfold givenUp
    rw [Block.tic_setTic_same]
  · have hsticky : counted.rdN (Od.TIC_STICKY c) = (b.bump (Od.TIC_OVERFLOWS c) 1).rdN (Od.TIC_STICKY c) ||| 8 :=
      ((Block.sameButEvents_raise _ _ _ _).rdN (not_counterKey_of_lt (by omega) (by decide))).trans (Block.rdN_orBits _ _ _)
    unfold givenUp
    rw [Block.setTic_rdN, hsticky, bit_or]
    exact Bool.or_true _
  · unfold givenUp
    rw [Block.tic_setTic_same, htic]

-- The record writer (R206)

theorem Block.ticRecordWrite_next {b : Block} {c : Nat} {r : Bytes} {rest : List Bytes} (hc : c < 8) (hclock : b.clockRuns .lpddr = true)
    (hnext : b.tm.ticNext = c) (hrecords : (b.tic c).records = r :: rest) : (b.ticRecordWrite.tic c).records = rest ∧
      b.ticRecordWrite.tm.ticRing = ringPush 65536 b.tm.ticRing r ∧ b.ticRecordWrite.rdN Od.TIC_RING_WR = (b.rdN Od.TIC_RING_WR + 1) % 2 ^ 32 := by
  have hfirst : ((List.range 8).map fun i => (b.tm.ticNext + i) % 8).find? (fun i => !(b.tic i).records.isEmpty) = some c := by
    rw [hnext, List.range_succ_eq_map, List.map_cons, List.find?_cons_of_pos (by simp [Nat.mod_eq_of_lt hc, hrecords]), Nat.add_zero, Nat.mod_eq_of_lt hc]
  have hmoved : ((b.setTic c fun t => { t with records := rest }).tic c).records = rest := by rw [Block.tic_setTic_same]
  obtain ⟨stored, hwritten, hrest, hring⟩ : ∃ stored : Block, b.ticRecordWrite = ((stored.tally 8 c 2).lpWrite (divUp r.length 64)).wr Od.TIC_RING_WR
      ((b.rdN Od.TIC_RING_WR + 1) % 2 ^ 32 : Nat) ∧ (stored.tic c).records = rest ∧ stored.tm.ticRing = ringPush 65536 b.tm.ticRing r := by
    unfold Block.ticRecordWrite
    rw [if_neg (by simp [hclock])]
    extract_lets order
    unfold order
    rw [hfirst]
    dsimp only
    rw [hrecords]
    exact ⟨_, rfl, hmoved, rfl⟩
  have htm : b.ticRecordWrite.tm = stored.tm := by
    rw [hwritten, Block.wr_tm]
    exact (Block.sameButEvents_tally _ _ _ _ _).tm.trans (stored.sameButEvents_tally _ _ _ _).tm
  refine ⟨?_, ?_, ?_⟩
  · rw [Block.tic_congr c htm, hrest]
  · rw [htm, hring]
  · rw [hwritten, Block.rdN_wr, if_pos rfl, Int.toNat_natCast]

end Sys2Proof.Machine
end

section
/-! Arming and disarming a measurement channel, and reads of a record ring (R202, R215, R403). -/

namespace Sys2Proof.Machine

-- A channel armed or disarmed (R202)

/-- A channel cleared is armed or not, as asked, and shows so; armed targets stay as they are. -/
theorem Block.ticClear_spec (b : Block) (c : Nat) (armed : Bool) : ((b.ticClear c armed).tic c).armed = armed ∧
    (b.ticClear c armed).rd (Od.TIC_STATUS c) = b2n armed ∧ ∀ o, (b.ticClear c armed).target o = b.target o := by
  unfold Block.ticClear
  extract_lets deafened
  refine ⟨?_, ?_, fun _ => rfl⟩
  · rw [Block.tic_ticStatus, Block.tic_setTic_same]
  · unfold Block.ticStatus
    extract_lets t
    rw [Block.rd_wr_same]
    unfold t
    rw [Block.tic_setTic_same]
    cases armed <;> rfl

/-- TICn_ARM = 1 with no arm time: armed at once (R202). -/
theorem Block.ticArm_now {b : Block} {ch : Fin 8} (hrun : b.fnRuns (40 + ch) = true) (hat : b.rdN (Od.TIC_ARM_AT ch) = 0)
    (hmode : b.rdN (Od.TIC_MODE ch) ≠ 0) : b.ticArm ch = ((b.disarm (.tic ch)).ticClear ch true).ok := by
  have hnow : (b.disarm (.tic ch)).ticArmNow ch = (b.disarm (.tic ch)).ticClear ch true := if_pos ⟨hrun, hmode⟩
  unfold Block.ticArm
  rw [if_neg (by simp [hrun]), Fin.ofNat_val_eq_self]
  exact (if_pos hat).trans (by rw [hnow])

theorem Block.ticDisarm_running {b : Block} {ch : Fin 8} (hrun : b.fnRuns (40 + ch) = true) :
    b.ticDisarm ch = ((b.disarm (.tic ch)).ticClear ch false).ok := by
  unfold Block.ticDisarm
  rw [if_neg (by simp [hrun]), Fin.ofNat_val_eq_self]

-- The write of TICn_ARM

/-- The row of TICn_ARM. -/
def ticArmRow : Entry := ⟨"TIC0_ARM", .u8, .cmd, 0, [(1, 2)], .shared⟩

/-- The records of the measurement channels have one table. -/
theorem base_tic : ∀ c < 8, (findRecord records (0x2900 + c)).elim 0 (·.1) = 0x2900 := by decide

theorem rowOf_ticArm {c : Nat} (hc : c < 8) : rowOf (Od.TIC_ARM c) = some ticArmRow := by
  obtain ⟨hindex, hsub⟩ := key_place (i := 0x2900 + c) (sub := 0x0F) (by omega) (by decide)
  unfold rowOf Od.TIC_ARM
  rw [hindex, hsub, base_tic c hc]
  rfl

theorem Block.command_ticArm (b : Block) (t v : Nat) {c : Nat} (hc : c < 8) :
    b.command t (Od.TIC_ARM c) v = if v = 1 then b.ticArm c else b.ticDisarm c := by
  obtain ⟨hindex, -⟩ := key_place (i := 0x2900 + c) (sub := 0x0F) (by omega) (by decide)
  have hne {j x : Nat} (h : j < 0x2900) (hx : x < 256) : key (0x2900 + c) 0x0F ≠ key j x := by
    unfold key
    omega
  unfold Block.command Od.TIC_ARM
  simp only [hindex, Od.IMG_COMMIT, Od.IMG_BOOT_SELECT, Od.CFG_SAVE, Od.CFG_CLEAR, Od.RST_WARM, Od.RST_FW_RESTART, Od.RST_FUNCTION, Od.MT_SET_TIME,
    Od.OUT_COMMIT, Od.CAL_CD_START]
  repeat rw [if_neg (hne (by decide) (by decide))]
  repeat rw [if_neg (by omega)]
  rw [if_pos ⟨by omega, by omega⟩, Nat.add_sub_cancel_left]

/-- A write that nothing bars, of a byte that the entry of a shared command takes, begins the command. -/
theorem Block.written_byteCommand {a : Block} {w : Waiting} {token i sub v : Nat} {e : Entry} (hreq : w.req = writeKey token (key i sub) v)
    (hi : i < 65536) (hs : sub < 256) (hv : v < 256) (hr : rowOf (key i sub) = some e) (hty : e.ty = .bool ∨ e.ty = .u8) (hscope : e.scope = .shared)
    (hacc : accessOf e i sub = .cmd) (hrange : inRanges e.range v = true) (hfields : a.fieldsOk (key i sub) v = true) (hopen : a.unbarred w = true) :
    a.written w = a.command w.tenant (key i sub) v := by
  obtain ⟨hindex, hsub⟩ := key_place hi hs
  have hplace : w.req.index = i ∧ w.req.sub = sub := by
    rw [hreq]
    exact ⟨hindex, hsub⟩
  have hdata : decodeVal e.ty (w.req.data.take w.req.length) = some (v : Int) := by
    rw [hreq, writeKey, hindex, hsub, writeRequest, hr]
    exact decodeVal_byte hty hv
  have hkey : a.entryKey w.tenant e w.req.index w.req.sub = key i sub := by
    unfold Block.entryKey
    rw [hscope, hplace.1, hplace.2]
  have hok : a.valueOk e (key i sub) v = true := by
    rw [Block.valueOk, hrange, hfields]
    rfl
  have hnum (x : Nat) : e.ty ≠ .octets x ∧ e.ty ≠ .string x := by rcases hty with h | h <;> simp [h]
  rw [← hplace.1, ← hplace.2] at hr hacc
  rw [Block.written_command hopen hr hnum hdata hacc (by rw [hkey]; exact hok), hkey, Int.toNat_natCast]

/-- A write of 1 or 2 to TICn_ARM that nothing bars arms or disarms the channel. -/
theorem Block.written_ticArm {a : Block} {w : Waiting} {token v : Nat} {ch : Fin 8} (hreq : w.req = writeKey token (Od.TIC_ARM ch) v) (hv : v = 1 ∨ v = 2)
    (hopen : a.unbarred w = true) : a.written w = if v = 1 then a.ticArm ch else a.ticDisarm ch := by
  have hch := ch.isLt
  have hacc : accessOf ticArmRow (0x2900 + ch) 0x0F = .cmd := by
    unfold accessOf
    repeat rw [if_neg (by omega)]
    rfl
  have hfields : a.fieldsOk (Od.TIC_ARM ch) v = true := by
    unfold Block.fieldsOk Od.TIC_ARM
    simp only [(key_place (i := 0x2900 + ch) (sub := 0x0F) (by omega) (by decide)).1]
    repeat rw [if_neg (by omega)]
  have hrange : inRanges ticArmRow.range v = true := by rcases hv with rfl | rfl <;> rfl
  exact (Block.written_byteCommand hreq (by omega) (by decide) (by omega) (rowOf_ticArm hch) (.inr rfl) rfl hacc hrange hfields hopen).trans
    (a.command_ticArm _ v hch)

/-- Answering a request leaves a measurement channel, its entries and its target as they are. -/
theorem Block.sameButBooks.ticChannel {a b : Block} (h : a.sameButBooks b) (ch : Fin 8) : b.tic ch = a.tic ch ∧
    b.rd (Od.TIC_STATUS ch) = a.rd (Od.TIC_STATUS ch) ∧ b.target (.tic ch) = a.target (.tic ch) := by
  have hch := ch.isLt
  obtain ⟨hparts, hrd, -, htarget, -⟩ := h
  refine ⟨?_, hrd _ (not_bookKey_timing (by omega) (by decide)), htarget (.tic ch) (show 16 + ch.val < 96 by omega)⟩
  rw [hparts]
  rfl

/-- Where a granted write of TICn_ARM leads that clears the channel, armed or not, and disarms its target. -/
theorem State.leads_ticArm {s : State} {c : Caller} {token v n : Nat} {ch : Fin 8} {i : Instr} (armed : Bool)
    (h : s.grants c (writeKey token (Od.TIC_ARM ch) v) n = true) (hi : exec i s = s.act fun _ b => b.submit c (writeKey token (Od.TIC_ARM ch) v))
    (hv : v = 1 ∨ v = 2) (hx : (if v = 1 then (s.m.door c (writeKey token (Od.TIC_ARM ch) v) n).ticArm ch
        else (s.m.door c (writeKey token (Od.TIC_ARM ch) v) n).ticDisarm ch) =
      (((s.m.door c (writeKey token (Od.TIC_ARM ch) v) n).disarm (.tic ch)).ticClear ch armed).ok) :
    s.leads i fun b => b.replied (s.m.asked c (writeKey token (Od.TIC_ARM ch) v) n) 0 0 ∧ (b.tic ch).armed = armed ∧
      b.rd (Od.TIC_STATUS ch) = b2n armed ∧ b.target (.tic ch) = none := by
  obtain ⟨b, hexec, hreply, hbooks⟩ := State.leads_granted h rfl hi fun hopen => (Block.written_ticArm rfl hv hopen).trans hx
  obtain ⟨htic, hstatus, htarget⟩ := hbooks.ticChannel ch
  obtain ⟨harmed, hshown, hkept⟩ := ((s.m.door c (writeKey token (Od.TIC_ARM ch) v) n).disarm (.tic ch)).ticClear_spec ch armed
  exact ⟨b, hexec, hreply, by rw [htic, harmed], hstatus.trans hshown, htarget.trans ((hkept _).trans (Block.target_disarm _ _))⟩

-- A read of a record ring (R215, R403)

/-- The answer to a read of a ring's records that passes its checks: whole records, as many as there is room for. -/
theorem Block.answer_records {a : Block} {w : Waiting} (h : a.passes w = true) (ho : w.req.op = 3) (hring : recordEntry w.req.index w.req.sub = true) :
    let r := a.readRecords w.tenant w.req.index (min w.req.length (segLimit w.caller))
    a.answer w = (reply w.req (entryCode w.req) 0 r.1.length r.1.flatten, r.2) := by
  cases hr : rowOf (key w.req.index w.req.sub) with
  | none => simp [Block.passes, hr] at h
  | some e =>
    obtain ⟨hm, hf, ht⟩ := a.passes_row h hr
    rw [ho] at hf
    unfold Block.answer entryCode
    simp [hm, hr, hf, ht, ho, hring]

/-- Where a read of a record ring leads that the module serves at once. -/
theorem State.leads_ringRead {s : State} {c : Caller} {token k len n : Nat} {i : Instr} (h : s.takes c (ringKey token k len) n = true)
    (hi : exec i s = s.act fun _ b => b.submit c (ringKey token k len)) (hring : recordEntry (k / 256 % 65536) (k % 256) = true) :
    let r := (s.m.door c (ringKey token k len) n).readRecords (s.m.asked c (ringKey token k len) n).tenant (k / 256 % 65536) (min len (segLimit c))
    s.leads i fun b => r.2.sameButBooks b ∧ b.repliedWith (s.m.asked c (ringKey token k len) n) r.1.length r.1.flatten := by
  obtain ⟨hserves, hpasses⟩ := State.takes_iff.mp h
  have hanswer := Block.answer_records hpasses rfl hring
  have hbooks := (s.m.door c (ringKey token k len) n).sameButBooks_answered _ (s.m.asked_tenant_lt c (ringKey token k len) n)
  have hsent := (s.m.door c (ringKey token k len) n).answers_answered (s.m.asked c (ringKey token k len) n)
  rw [hanswer] at hbooks hsent
  exact State.leads_serves hserves hi ⟨hbooks, hsent⟩

/-- Settles O14: each event of a channel by what its operation leaves, each write by its entry's row, the read by the answer to a record ring's. That an edge's
delays count what a ramp still lacks, and which edges a gate takes (log 52), that a gate without an edge has a free value as its WHEN (log 53), and where a
read begins whose index is beyond what the ring holds (log 99) are the model's choices. -/
theorem measurementInputs : Obligations.MeasurementInputs := by
  unfold Obligations.MeasurementInputs
  refine ⟨?edge, ?encode, ?record, ?gate, ?overflow, ?arm, ?disarm, ?ring⟩
  case edge =>
    intro s c rising code hup hmeas hslope hlast hroom
    exact State.leads_act s _ (fun _ b => b.ticEdge c rising code) _ rfl hup (Block.ticEdge_latched code c.isLt hmeas hslope hlast hroom)
  case encode =>
    intro s c e rest hup hqueue hmeas hmode hdeaf
    have hkept : (s.m.setTic c fun t => { t with queue := rest }).ticMeasures c = true := (s.m.ticMeasures_setTic c rfl).trans hmeas
    refine State.leads_act s _ (fun _ b => b.ticEncode c) _ rfl hup ⟨_, Block.ticEncode_cons hqueue, fun hprev => ?_, fun p hprev => ?_⟩
    · rw [Block.ticOwn_first hkept hmode hdeaf (by rw [Block.tic_setTic_same, hprev]), Block.tic_ticStatus, Block.tic_setTic_same, Block.tic_setTic_same]
      exact ⟨rfl, rfl⟩
    · rw [Block.ticOwn_next hkept hmode hdeaf (by rw [Block.tic_setTic_same, hprev]), Block.tic_setTic_same]
  case record =>
    intro s c r rest hup hclock hnext hrecords
    exact State.leads_act s _ (fun _ b => b.ticRecordWrite) _ rfl hup (Block.ticRecordWrite_next c.isLt hclock hnext hrecords)
  case gate =>
    intro s c hup hmeas hmode hdue hqueue
    exact State.leads_act s _ (fun _ b => b.ticGateEnd c) _ rfl hup (Block.ticGateEnd_due hmeas hmode hdue hqueue)
  case overflow =>
    intro s c e hup hmeas hmode hprev hover
    exact State.leads_act s _ (fun _ b => b.ticOverflow c) _ rfl hup (Block.ticOverflow_due c.isLt hmeas hmode hprev hover)
  case arm =>
    intro s c token n ch h a hrun hat hmode
    exact State.leads_ticArm true h rfl (.inl rfl) (Block.ticArm_now hrun hat hmode)
  case disarm =>
    intro s c token n ch h hrun
    exact State.leads_ticArm false h rfl (.inr rfl) (Block.ticDisarm_running hrun)
  case ring =>
    intro s c token n len h
    exact State.leads_ringRead h rfl rfl

end Sys2Proof.Machine
end
